-- ==== Sys2Proof/Word.lean ====
section
/-! DEFINITION. The word types of Skelelm 2 and the register and slot numbers its fields name (spec/05, spec/07 R157). -/

namespace Sys2Proof

/-- A byte of memory. -/
abbrev Byte := BitVec 8
/-- A lane of a vector register, an instruction word, a literal (R102, R157). -/
abbrev W32 := BitVec 32
/-- A scalar or team register (R157). -/
abbrev W64 := BitVec 64

/-- `s0` to `s63` (R157). -/
abbrev SReg := Fin 64
/-- `v0` to `v127` (R157). -/
abbrev VReg := Fin 128
/-- `v0` to `v63`, where a form holds a vector register in a 6-bit field (R113, R118, R119). -/
abbrev VReg64 := Fin 64
/-- `a0` to `a15` (R157). -/
abbrev AReg := Fin 16
/-- `p0` to `p7` (R157). -/
abbrev PReg := Fin 8
/-- `f0` to `f7` (R38, R157). -/
abbrev FSlot := Fin 8

end Sys2Proof
end

