-- ==== Sys2Proof/Machine/Table.lean ====
section
/-! DEFINITION. Plain data the state is made of: sparse tables with rising keys, and memory in its one canonical form
(addresses strictly rising, no entry that equals what an unlisted address reads as, which is zero: R415, log 6). -/

namespace Sys2Proof.Machine

/-- An element put before the first element it may stand before. -/
def insertBy {α : Type} (le : α → α → Bool) (x : α) : List α → List α
  | [] => [x]
  | y :: t => if le x y then x :: y :: t else y :: insertBy le x t

/-- A list in order, equals as they stood. -/
def sortBy {α : Type} (l : List α) (le : α → α → Bool) : List α := l.foldr (insertBy le) []

/-- A sparse table: keys with their values, in rising order of key. -/
abbrev Tab (α : Type) := List (Nat × α)

/-- The value at a key, or `d` where the table has none. -/
def Tab.get {α : Type} (d : α) : Tab α → Nat → α
  | [], _ => d
  | (a, x) :: t, k => if a = k then x else Tab.get d t k

/-- The value at a key, if there is one. -/
def Tab.find {α : Type} : Tab α → Nat → Option α
  | [], _ => none
  | (a, x) :: t, k => if a = k then some x else Tab.find t k

/-- The table with `v` at `k`. -/
def Tab.set {α : Type} : Tab α → Nat → α → Tab α
  | [], k, v => [(k, v)]
  | (a, x) :: t, k, v =>
    if k = a then (a, v) :: t
    else if k < a then (k, v) :: (a, x) :: t
    else (a, x) :: Tab.set t k v

/-- The table without key `k`. -/
def Tab.erase {α : Type} : Tab α → Nat → Tab α
  | [], _ => []
  | (a, x) :: t, k => if a = k then Tab.erase t k else (a, x) :: Tab.erase t k

/-- The table with the value at `k` changed by `f`, starting from `d` where there is none. -/
def Tab.modify {α : Type} (d : α) (t : Tab α) (k : Nat) (f : α → α) : Tab α := t.set k (f (t.get d k))

/-- Every value changed by `f`. -/
def Tab.mapVals {α β : Type} (t : Tab α) (f : α → β) : Tab β := t.map fun (k, x) => (k, f x)

/-- The values, in key order. -/
def Tab.vals {α : Type} (t : Tab α) : List α := t.map (·.2)

/-- The keys. -/
def Tab.keys {α : Type} (t : Tab α) : List Nat := t.map (·.1)

/-- Byte memory: the bytes that are not zero, at rising addresses. -/
abbrev Memory := List Host.Cell

/-- What an address that the list does not name reads as (R415: device memory is zero after reset; log 6 and log 8 for
the memories whose reset contents the spec does not state). -/
def Memory.unlisted : Byte := 0

/-- The byte at an address. -/
def Memory.read : Memory → Nat → Byte
  | [], _ => Memory.unlisted
  | (a, x) :: t, k => if a = k then x else Memory.read t k

/-- The memory without an entry for `k`. -/
def Memory.drop (m : Memory) (k : Nat) : Memory := m.filter fun c => c.1 != k

/-- The memory with a listed byte `v` at `k`. -/
def Memory.insert : Memory → Nat → Byte → Memory
  | [], k, v => [(k, v)]
  | (a, x) :: t, k, v =>
    if k = a then (a, v) :: t
    else if k < a then (k, v) :: (a, x) :: t
    else (a, x) :: Memory.insert t k v

/-- The memory with byte `v` at `k`, in canonical form. -/
def Memory.write (m : Memory) (k : Nat) (v : Byte) : Memory :=
  if v = Memory.unlisted then m.drop k else m.insert k v

/-- Addresses strictly rising. -/
def Memory.rising : Memory → Bool
  | [] => true
  | [_] => true
  | (a, _) :: (b, y) :: t => decide (a < b) && Memory.rising ((b, y) :: t)

/-- The canonical form: addresses strictly rising, no byte equal to an unlisted one. -/
def Memory.wf (m : Memory) : Bool := m.rising && m.all fun c => c.2 != Memory.unlisted

/-- `n` bytes from `a`, little-endian, as a number (R10). -/
def Memory.readLE (m : Memory) : Nat → Nat → Nat
  | _, 0 => 0
  | a, n + 1 => (m.read a).toNat + 256 * m.readLE (a + 1) n

/-- The low `n` bytes of `v` written at `a`, little-endian (R10). -/
def Memory.writeLE (m : Memory) : Nat → Nat → Nat → Memory
  | _, 0, _ => m
  | a, n + 1, v => Memory.writeLE (m.write a (BitVec.ofNat 8 v)) (a + 1) n (v / 256)

/-- `n` bytes at `src` copied to `dst`, as one act. -/
def Memory.copy (m : Memory) (src dst n : Nat) : Memory :=
  let kept := m.filter fun c => !(decide (dst ≤ c.1) && decide (c.1 < dst + n))
  (m.filter fun c => decide (src ≤ c.1) && decide (c.1 < src + n)).foldl (fun t c => t.write (dst + (c.1 - src)) c.2) kept

/-- The listed bytes of a range, counted from its start. -/
def Memory.slice (m : Memory) (a n : Nat) : Memory :=
  (m.filter fun c => decide (a ≤ c.1) && decide (c.1 < a + n)).map fun c => (c.1 - a, c.2)

/-- A range cleared, then filled from a piece counted from the range's start. -/
def Memory.paste (m : Memory) (a n : Nat) (piece : Memory) : Memory :=
  let kept := m.filter fun c => !(decide (a ≤ c.1) && decide (c.1 < a + n))
  piece.foldl (fun t c => if c.1 < n then t.write (a + c.1) c.2 else t) kept

/-- The bytes of `v`, low first. -/
def bytesLE : Nat → Nat → List Byte
  | 0, _ => []
  | n + 1, v => BitVec.ofNat 8 v :: bytesLE n (v / 256)

/-- The number little-endian bytes spell. -/
def numLE : List Byte → Nat
  | [] => 0
  | b :: t => b.toNat + 256 * numLE t

/-- Bits [lo+n-1:lo] of a number. -/
def bits (x lo n : Nat) : Nat := x / 2 ^ lo % 2 ^ n

/-- Bit `i` of a number. -/
def bit (x i : Nat) : Bool := x / 2 ^ i % 2 == 1

/-- `x` with bits [lo+n-1:lo] replaced by `v`. -/
def setBits (x lo n v : Nat) : Nat := x - bits x lo n * 2 ^ lo + (v % 2 ^ n) * 2 ^ lo

/-- The numbers below `n` whose bit is set in `m`, in rising order: the lanes of a mask. -/
def maskBits (m : Nat) (n : Nat) : List Nat := (List.range n).filter fun i => bit m i

/-- The mask of a list of lanes. -/
def maskOf (l : List Nat) : Nat := l.foldl (fun m i => if bit m i then m else m + 2 ^ i) 0

end Sys2Proof.Machine
end

