-- ==== Sys2Proof/Vocab.lean ====
section
/-! DEFINITION. The coded fields of an instruction, one inductive each, with the code the spec assigns to every
value (spec/05 R111, R116 to R118). `ofCode` answers `none` for an unassigned code. -/

namespace Sys2Proof

/-- The eight scopes, as a 3-bit field names them (R111). -/
inductive Scope where
  | gang | team | core | set | die | dev | reel | sys
  deriving DecidableEq, Repr

/-- The code of a `Scope`. -/
def Scope.code : Scope → Nat
  | .gang => 0
  | .team => 1
  | .core => 2
  | .set => 3
  | .die => 4
  | .dev => 5
  | .reel => 6
  | .sys => 7

/-- The `Scope` of a code. -/
def Scope.ofCode : Nat → Option Scope
  | 0 => some .gang
  | 1 => some .team
  | 2 => some .core
  | 3 => some .set
  | 4 => some .die
  | 5 => some .dev
  | 6 => some .reel
  | 7 => some .sys
  | _ => none

/-- The integer comparisons, as a 4-bit field names them: `ltn` to `gen` compare unsigned (R111). -/
inductive Cond where
  | eq | ne | lt | le | gt | ge | ltn | len | gtn | gen
  deriving DecidableEq, Repr

/-- The code of a `Cond`. -/
def Cond.code : Cond → Nat
  | .eq => 0
  | .ne => 1
  | .lt => 2
  | .le => 3
  | .gt => 4
  | .ge => 5
  | .ltn => 6
  | .len => 7
  | .gtn => 8
  | .gen => 9

/-- The `Cond` of a code. -/
def Cond.ofCode : Nat → Option Cond
  | 0 => some .eq
  | 1 => some .ne
  | 2 => some .lt
  | 3 => some .le
  | 4 => some .gt
  | 5 => some .ge
  | 6 => some .ltn
  | 7 => some .len
  | 8 => some .gtn
  | 9 => some .gen
  | _ => none

/-- The float comparisons; codes 6 to 9 raise ILLEGAL in `fcmp` (R111, R116, R205). -/
inductive FCond where
  | eq | ne | lt | le | gt | ge | unord
  deriving DecidableEq, Repr

/-- The code of a `FCond`. -/
def FCond.code : FCond → Nat
  | .eq => 0
  | .ne => 1
  | .lt => 2
  | .le => 3
  | .gt => 4
  | .ge => 5
  | .unord => 10

/-- The `FCond` of a code. -/
def FCond.ofCode : Nat → Option FCond
  | 0 => some .eq
  | 1 => some .ne
  | 2 => some .lt
  | 3 => some .le
  | 4 => some .gt
  | 5 => some .ge
  | 10 => some .unord
  | _ => none

/-- Rounding codes of a format slot and of `fround` (R38, R111). -/
inductive RoundMode where
  | nearestEven | towardZero | up | down | nearestAway
  deriving DecidableEq, Repr

/-- The code of a `RoundMode`. -/
def RoundMode.code : RoundMode → Nat
  | .nearestEven => 0
  | .towardZero => 1
  | .up => 2
  | .down => 3
  | .nearestAway => 4

/-- The `RoundMode` of a code. -/
def RoundMode.ofCode : Nat → Option RoundMode
  | 0 => some .nearestEven
  | 1 => some .towardZero
  | 2 => some .up
  | 3 => some .down
  | 4 => some .nearestAway
  | _ => none

/-- The type of a float instruction: MAJ 0x18, 0x19, 0x1a, and `fcmp` [18:17] (R116). -/
inductive FType where
  | f32 | f16x2 | b16x2
  deriving DecidableEq, Repr

/-- The code of a `FType`. -/
def FType.code : FType → Nat
  | .f32 => 0
  | .f16x2 => 1
  | .b16x2 => 2

/-- The `FType` of a code. -/
def FType.ofCode : Nat → Option FType
  | 0 => some .f32
  | 1 => some .f16x2
  | 2 => some .b16x2
  | _ => none

/-- The types of `cvt` (R116); `slot` is the narrow format of the named slot. -/
inductive CvtType where
  | f32 | f16 | b16 | i32 | n32 | slot
  deriving DecidableEq, Repr

/-- The code of a `CvtType`. -/
def CvtType.code : CvtType → Nat
  | .f32 => 0
  | .f16 => 1
  | .b16 => 2
  | .i32 => 3
  | .n32 => 4
  | .slot => 5

/-- The `CvtType` of a code. -/
def CvtType.ofCode : Nat → Option CvtType
  | 0 => some .f32
  | 1 => some .f16
  | 2 => some .b16
  | 3 => some .i32
  | 4 => some .n32
  | 5 => some .slot
  | _ => none

/-- Sizes of a load (R117). -/
inductive LoadSize where
  | n8 | i8 | n16 | i16 | n32 | n64
  deriving DecidableEq, Repr

/-- The code of a `LoadSize`. -/
def LoadSize.code : LoadSize → Nat
  | .n8 => 0
  | .i8 => 1
  | .n16 => 2
  | .i16 => 3
  | .n32 => 4
  | .n64 => 5

/-- The `LoadSize` of a code. -/
def LoadSize.ofCode : Nat → Option LoadSize
  | 0 => some .n8
  | 1 => some .i8
  | 2 => some .n16
  | 3 => some .i16
  | 4 => some .n32
  | 5 => some .n64
  | _ => none

/-- Sizes of a store (R117); codes 1, 3, 6 and 7 are unassigned. -/
inductive StoreSize where
  | n8 | n16 | n32 | n64
  deriving DecidableEq, Repr

/-- The code of a `StoreSize`. -/
def StoreSize.code : StoreSize → Nat
  | .n8 => 0
  | .n16 => 2
  | .n32 => 4
  | .n64 => 5

/-- The `StoreSize` of a code. -/
def StoreSize.ofCode : Nat → Option StoreSize
  | 0 => some .n8
  | 2 => some .n16
  | 4 => some .n32
  | 5 => some .n64
  | _ => none

/-- The spaces of MAJ 0x22 (R117). -/
inductive LocalSpace where
  | l | k | wb | ab | cb | cf | sb
  deriving DecidableEq, Repr

/-- The code of a `LocalSpace`. -/
def LocalSpace.code : LocalSpace → Nat
  | .l => 0
  | .k => 1
  | .wb => 2
  | .ab => 3
  | .cb => 4
  | .cf => 5
  | .sb => 6

/-- The `LocalSpace` of a code. -/
def LocalSpace.ofCode : Nat → Option LocalSpace
  | 0 => some .l
  | 1 => some .k
  | 2 => some .wb
  | 3 => some .ab
  | 4 => some .cb
  | 5 => some .cf
  | 6 => some .sb
  | _ => none

/-- Atomic operations (R117). -/
inductive AtomOp where
  | add | min | max | minn | maxn | and | or | xor | xchg | cas | inc
  deriving DecidableEq, Repr

/-- The code of a `AtomOp`. -/
def AtomOp.code : AtomOp → Nat
  | .add => 0
  | .min => 1
  | .max => 2
  | .minn => 3
  | .maxn => 4
  | .and => 5
  | .or => 6
  | .xor => 7
  | .xchg => 8
  | .cas => 9
  | .inc => 10

/-- The `AtomOp` of a code. -/
def AtomOp.ofCode : Nat → Option AtomOp
  | 0 => some .add
  | 1 => some .min
  | 2 => some .max
  | 3 => some .minn
  | 4 => some .maxn
  | 5 => some .and
  | 6 => some .or
  | 7 => some .xor
  | 8 => some .xchg
  | 9 => some .cas
  | 10 => some .inc
  | _ => none

/-- The scope field of MAJ 0x25 and 0x26: space and order of a core-local or window atomic (R117). -/
inductive AtomPlace where
  | lRelaxed | lTeam | lCore | wSet | wReel
  deriving DecidableEq, Repr

/-- The code of a `AtomPlace`. -/
def AtomPlace.code : AtomPlace → Nat
  | .lRelaxed => 0
  | .lTeam => 1
  | .lCore => 2
  | .wSet => 3
  | .wReel => 6

/-- The `AtomPlace` of a code. -/
def AtomPlace.ofCode : Nat → Option AtomPlace
  | 0 => some .lRelaxed
  | 1 => some .lTeam
  | 2 => some .lCore
  | 3 => some .wSet
  | 6 => some .wReel
  | _ => none

/-- The copy spaces (R118). -/
inductive CopySpace where
  | g | l | w | wb | ab | cb | sb
  deriving DecidableEq, Repr

/-- The code of a `CopySpace`. -/
def CopySpace.code : CopySpace → Nat
  | .g => 0
  | .l => 1
  | .w => 2
  | .wb => 3
  | .ab => 4
  | .cb => 5
  | .sb => 6

/-- The `CopySpace` of a code. -/
def CopySpace.ofCode : Nat → Option CopySpace
  | 0 => some .g
  | 1 => some .l
  | 2 => some .w
  | 3 => some .wb
  | 4 => some .ab
  | 5 => some .cb
  | 6 => some .sb
  | _ => none

/-- The delta type of `rsadd` (R118). -/
inductive DeltaType where
  | f32 | f16 | b16 | e4m3
  deriving DecidableEq, Repr

/-- The code of a `DeltaType`. -/
def DeltaType.code : DeltaType → Nat
  | .f32 => 0
  | .f16 => 1
  | .b16 => 2
  | .e4m3 => 3

/-- The `DeltaType` of a code. -/
def DeltaType.ofCode : Nat → Option DeltaType
  | 0 => some .f32
  | 1 => some .f16
  | 2 => some .b16
  | 3 => some .e4m3
  | _ => none

/-- The operation of `cred` (R118). -/
inductive RedOp where
  | add | min | max
  deriving DecidableEq, Repr

/-- The code of a `RedOp`. -/
def RedOp.code : RedOp → Nat
  | .add => 0
  | .min => 1
  | .max => 2

/-- The `RedOp` of a code. -/
def RedOp.ofCode : Nat → Option RedOp
  | 0 => some .add
  | 1 => some .min
  | 2 => some .max
  | _ => none

/-- The second source of a VX word: a signed imm6 or a scalar (R110, R175). -/
inductive Src2 where
  | imm (i : BitVec 6)
  | reg (r : SReg)
  deriving DecidableEq, Repr

/-- Bits [6:0] of a VX word (R110). -/
def Src2.code : Src2 → Nat
  | .imm i => i.toNat
  | .reg r => 64 + r.val

/-- The second source that bits [6:0] of a VX word name (R110). -/
def Src2.ofCode (n : Nat) : Src2 :=
  if n / 64 % 2 = 0 then .imm (BitVec.ofNat 6 n) else .reg (Fin.ofNat 64 n)

/-- The v-offset field of an MM word: 127 names no register (R110). -/
def voffCode : Option VReg → Nat
  | none => 127
  | some v => v.val

/-- The v-offset register of an MM field (R110). -/
def voffOfCode (n : Nat) : Option VReg :=
  if n % 128 = 127 then none else some (Fin.ofNat 128 n)

end Sys2Proof
end

