-- ==== Sys2Proof/Payload.lean ====
section
/-! DEFINITION. What events carry: Flisy cells and their entries (spec/16 R313 to R319), as plain data. -/

namespace Sys2Proof

/-- A request entry as it is read (R319); Machine/Fabric.lean gives its 16 bytes. -/
structure ReqEntry where
  data : Nat := 0
  addr : Nat := 0
  aop : Nat := 0
  win : Bool := false
  wide : Bool := false
  /-- 1 load, 2 store, 3 atomic, 6 line read -/
  eop : Nat := 0
  /-- bytes of the access and its offset within ADDR's word, for sizes below a word (log 19) -/
  size : Nat := 4
  low : Nat := 0
  deriving DecidableEq, Repr

/-- A reply entry as it is read (R319). -/
structure RepEntry where
  data : Nat := 0
  rseq : Nat := 0
  status : Nat := 0
  idx : Nat := 0
  /-- 4 response, 5 acknowledgement -/
  eop : Nat := 4
  deriving DecidableEq, Repr

/-- An `rsadd` pair as a STREAM cell carries it (R294): element, rounded delta, whether the conversion saturated. -/
structure StreamPair where
  elem : Nat
  delta : Int
  sat : Bool
  deriving DecidableEq, Repr

/-- The body of a cell (R315, R316, R319). The bodies of types 0x08 to 0x21 are Drapol's own (R315). -/
inductive CellBody where
  /-- LINE_WR, LINE_DATA: the bytes carried, by place in the line, and the barrier they count onto (log 24) -/
  | line (bytes : List (Nat × Nat)) (bar : Nat)
  /-- LINE_RQ, SMALL requests: the entries of the cell, padding among them -/
  | requests (es : List ReqEntry)
  /-- SMALL replies -/
  | replies (es : List RepEntry)
  /-- COLL, MCAST: the reel's key, sender's rank, tag, index of the collective, elements; the one member it is for, if any -/
  | coll (key rank tag k : Nat) (xs : List Nat) (dest : Option Nat)
  /-- COLL: a `cgat` contribution of `rank` has reached the root -/
  | collAck (key rank tag k : Nat)
  /-- STREAM: REMOTE pairs: the reel's key, member, row, carried exponent, end of the element range, pairs, and the
  acknowledgement name -/
  | pairs (key member row : Nat) (e : Int) (hi : Nat) (ps : List StreamPair) (core tslot seq : Nat)
  /-- STREAM: the answer to REMOTE pairs: 0 applied, 1 the member's check failed, 2 an uncorrectable error of its row -/
  | pairsAck (core tslot seq status : Nat)
  /-- STREAM: an `rsnorm.reel` contribution -/
  | contribution (key span k rank : Nat) (q len : Nat) (e : Int) (sat : Bool)
  /-- WBAR: the reel's key, arrivals a member has made -/
  | wbar (key rank count : Nat)
  /-- WSTATE: the reel's key, new state of a member -/
  | wstate (key rank state : Nat)
  /-- WSTATE: a part has applied a member's change; `quiet` once its earlier accesses to that member have completed too (R309) -/
  | wstateAck (key rank : Nat) (quiet : Bool)
  /-- placement, cut and snapshot cells: the numbers the type needs -/
  | control (xs : List Nat)
  deriving DecidableEq, Repr

/-- A Flisy cell: its header (R314) and body. -/
structure Cell where
  type : Nat
  dst : Nat
  src : Nat
  flow : Nat := 0
  seq : Nat := 0
  arg : Nat := 0
  sp : Nat := 2
  laddr : Nat := 0
  ctag : Nat := 0
  plane : Nat := 0
  body : CellBody
  deriving DecidableEq, Repr

/-- The nine beats of a cell: the CODE of each, the HEAD beat, the 16 bytes of each body beat and its BCRC (R313, R314). -/
structure Wire where
  codes : List Nat := []
  head : Nat := 0
  data : List Nat := []
  crcs : List Nat := []
  deriving DecidableEq, Repr

/-- A cell as it reaches the part: port, link sequence, the beats on a port's wires, and what they are read as, with the
logical plane it travels on (log 73); port 32 is the part's own loop (log 20), and port 33 its cells that wait for a cut
(log 34), port 34 those that came ahead of their turn (R320), none of them with beats. -/
structure Rx where
  port : Nat
  lseq : Nat
  cell : Cell
  wire : Wire := {}
  deriving DecidableEq, Repr

/-- A host link that has gone down, and the lanes and rate to which the other has trained (R411, R412). -/
structure LinkDown where
  down : Fin 2
  width : Nat
  rate : Nat
  deriving DecidableEq, Repr

end Sys2Proof
end

