-- ==== Sys2Proof/Machine/Parts.lean ====
section
/-! DEFINITION. The pieces the state is made of (INVENTORY.md lists them with their rules and reset values): gangs, engines,
cores, teams, grids, contexts, queues, logical devices, ports, as plain data, nested as the manual nests them. -/

namespace Sys2Proof.Machine

/-- Fault codes (R365). -/
inductive FCode where
  | illegal | packet | landing | align | pageDev | pageHost | protect | handleStale | windowDeparted | windowRange
  | spaceEngine | streamRead | atomicUnsupported | peerDown | twinIsolated | place | regRange | nestDepth | svcArg
  | handlerDouble | eccUncorr | brk | poison | windowDetached
  deriving DecidableEq, Repr

/-- The number of a fault code (R365). -/
def FCode.num : FCode → Nat
  | .illegal => 0x01 | .packet => 0x02 | .landing => 0x03 | .align => 0x04 | .pageDev => 0x05 | .pageHost => 0x06
  | .protect => 0x07 | .handleStale => 0x08 | .windowDeparted => 0x09 | .windowRange => 0x0a | .spaceEngine => 0x0b
  | .streamRead => 0x0c | .atomicUnsupported => 0x0d | .peerDown => 0x0e | .twinIsolated => 0x0f | .place => 0x10
  | .regRange => 0x11 | .nestDepth => 0x12 | .svcArg => 0x13 | .handlerDouble => 0x14 | .eccUncorr => 0x15
  | .brk => 0x16 | .poison => 0x17 | .windowDetached => 0x18

/-- A fault as it is found: what a fault record says beside where it happened (R354). -/
structure FInfo where
  code : FCode
  detail : Nat := 0
  /-- 0 read, 1 write, 2 atomic, 3 fetch or control transfer; 0 for a fault that is no access (log 15) -/
  acc : Nat := 0
  addr : Nat := 0
  lanes : Nat := 0xffffffff
  deriving DecidableEq, Repr

/-- A fault record (R354), field by field. -/
structure FaultRec where
  code : Nat := 0
  core : Nat := 0
  tslot : Nat := 0
  gang : Nat := 0
  sup : Bool := false
  acc : Nat := 0
  ctx : Nat := 0
  detail : Nat := 0
  pc : Nat := 0
  addr : Nat := 0
  lanes : Nat := 0
  word : Nat := 0
  deriving DecidableEq, Repr

/-- The four words of a fault record (R354). -/
def FaultRec.words (r : FaultRec) : List Nat :=
  [r.code % 256 + r.core % 512 * 2 ^ 8 + r.tslot % 16 * 2 ^ 17 + r.gang % 16 * 2 ^ 21 + r.sup.toNat * 2 ^ 25 +
     r.acc % 4 * 2 ^ 26 + r.ctx % 64 * 2 ^ 28 + r.detail % 2 ^ 28 * 2 ^ 36,
   r.pc % 2 ^ 64, r.addr % 2 ^ 64, r.lanes % 2 ^ 32 + r.word % 4 * 2 ^ 32]

/-! ### Registers, slices, gangs -/

/-- An affine register (R157). -/
structure AffReg where
  base : W64 := 0
  stride : W32 := 0
  deriving DecidableEq, Repr

/-- A gang's register window (R152): vector lanes, scalars, affine registers, predicates as lane masks, spill heads,
SXF [1:0]. The same shape holds the supervisor bank (R359). -/
structure Regs where
  v : Tab (Tab W32) := []
  s : Tab W64 := []
  a : Tab AffReg := []
  p : Tab W64 := []
  spill : Tab W64 := []
  sxf : BitVec 2 := 0
  deriving DecidableEq, Repr

/-- An entry of a slice's mask stack (R130). -/
structure MaskEntry where
  pend : BitVec 4
  pendpc : Nat
  whole : BitVec 4
  jp : Option Nat
  deriving DecidableEq, Repr

/-- A word set aside under R214: which word of which packet, for which lanes. -/
structure Replay where
  pc : Nat
  word : Nat
  lanes : Nat
  deriving DecidableEq, Repr

/-- What a parked split waits for (R126). -/
inductive Park where
  | none
  | waitcnt (l s c t : Nat)
  | bar (id n : Nat)
  | regang (mask : Nat)
  | ljoin (sd : Nat)
  | launch (addr : Nat)
  | pwreq (cls : Nat)
  | cpyc (id : Nat)
  /-- a service call whose release is not complete, or whose batch waits for a slot (R370, R372): its vector register
  and the gang's store sequence number at its issue -/
  | serviceSend (vb seq : Nat)
  /-- a service call whose batch is in a slot -/
  | service (vb slot : Nat)
  /-- accesses translated before a `pginv` that it waits for: gang and sequence number (R362) -/
  | pginv (marks : List (Nat × Nat))
  /-- a `pgmap` whose leaf is a release that earlier accesses still hold: its register, address, flags and the gang's sequence
  number (R361) -/
  | pgmap (a va flags seq : Nat)
  | phbwait (off : Nat) (phase : Bool)
  /-- the fault, its word, the word set aside, and whether it is a `jmp` (R139, R359) -/
  | handlerWait (f : FInfo) (word : Nat) (replay : Option Replay) (jmp : Bool)
  /-- with the value `hret` read -/
  | hret (v : Nat)
  | wbar (gen : Nat)
  | rsfence (scope seq : Nat)
  /-- a slice of a split whose other slices are in the handler (R358, log 12) -/
  | handlerHold
  | wdetach
  deriving DecidableEq, Repr

/-- The control state of a slice (R130), with what the fault and handler rules keep beside it. -/
structure Slice where
  /-- the split the slice belongs to, named by the lowest slice number it formed with (R132) -/
  split : Nat := 0
  pc : Nat := 0
  /-- the PC was chosen by software and has not passed the LAND check yet (R108) -/
  arrival : Bool := false
  mask : BitVec 4 := 0
  live : BitVec 4 := 0
  j : Option Nat := none
  stack : List MaskEntry := []
  rstack : List Nat := []
  rdepth : Nat := 0
  park : Park := .none
  halted : Bool := false
  /-- a late fault halts the slice's split at its next issue (R443) -/
  haltDue : Bool := false
  sup : Bool := false
  /-- words set aside, each performed again before the slice's next packet (R214, R342) -/
  replays : List Replay := []
  /-- the word parked at, when its packet holds others too; and the words of the packet at `pc` that have taken effect
  (log 21) -/
  others : Option Nat := none
  did : List Nat := []
  /-- pages of the host half that the slice's packet needs answers for (R348) -/
  awaits : List (Nat × Nat) := []
  /-- the register window and the bank as the packet found them, when its control word has written a result and other words of
  it are still to act (R105, log 21) -/
  seen : Option (Regs × Regs) := none
  /-- lanes that `jmp`s halted, by the PC of the `jmp`, the newest first (R139, R442) -/
  hg : List (BitVec 4 × Nat) := []
  deriving DecidableEq, Repr

/-- The lanes of a slice that a `jmp` halted. -/
def Slice.hgLanes (x : Slice) : BitVec 4 := x.hg.foldl (fun m e => m ||| e.1) 0

/-- Lanes that the `jmp` at `pc` halts leave LIVE and keep its PC (R139). -/
def Slice.lose (x : Slice) (gone : BitVec 4) (pc : Nat) : Slice :=
  if gone = 0 then x
  else
    { x with live := x.live &&& ~~~gone
             hg := if x.hg.any fun e => e.2 == pc then x.hg.map fun e => if e.2 = pc then (e.1 ||| gone, pc) else e
                   else (gone, pc) :: x.hg }

/-- The buffers of a team that have byte addresses (R212). -/
inductive BufSpace where
  | l | wb | ab | cb
  deriving DecidableEq, Repr

/-- Where an access goes once its address has been translated (R212, R215). -/
inductive Loc where
  /-- device memory, by physical address -/
  | dev (pa : Nat)
  /-- host memory of a logical device's host, by host address -/
  | host (ld ha : Nat)
  /-- a team's buffer on this part: team key, space, byte offset -/
  | buf (team : Nat) (sp : BufSpace) (off : Nat)
  /-- the grid's kept launch record (R25) -/
  | cf (grid off : Nat)
  /-- a window member's scratch on another part: part fabric address, core, team slot, byte offset (R307) -/
  | remote (part core tslot off : Nat)
  /-- device-half memory of another part, by virtual address of the same context (R322) -/
  | peer (part va : Nat)
  deriving DecidableEq, Repr

/-- One lane's part of an access: its place, its virtual address or offset, its size in bytes and, for a store or
atomic, its operands. -/
structure LaneAcc where
  lane : Nat
  loc : Loc
  addr : Nat
  size : Nat
  data : Nat := 0
  data2 : Nat := 0
  /-- a `w:` access (R310) -/
  win : Bool := false
  /-- the logical part id that the lane names (R322, R384) -/
  peer : Nat := 0
  deriving DecidableEq, Repr

/-- What an outstanding load-class operation does when it returns (R220, R222, R229, R231, R260, R261). -/
inductive OpKind where
  | load (vd : Nat) (signed : Bool) (scope : Scope)
  | atomic (vd : Nat) (op : AtomOp) (scope : Scope)
  | fence (order : Nat) (scope : Scope)
  | tlread (sd : Nat) (bank : Bool) (k : Nat)
  | qpost
  deriving DecidableEq, Repr

/-- An outstanding load, atomic or fence of a gang, in program order by `seq`. -/
structure Op where
  seq : Nat
  kind : OpKind
  lanes : List LaneAcc
  pc : Nat := 0
  word : Nat := 0
  slices : List Nat := []
  /-- HOST.CFG.AROUTE at its issue (R333) -/
  route : Nat := 0
  /-- it was issued in supervisor mode (R364) -/
  sup : Bool := false
  /-- the cycle it issued in (R384) -/
  cycle : Nat := 0
  /-- the context its addresses were translated in (R374) -/
  actx : Nat := 0
  deriving DecidableEq, Repr

/-- What an entry of a gang's store queue does when it leaves (R219, R223, R231, R250, R260 to R262). -/
inductive SqKind where
  | store (scope : Scope)
  | marker
  | qpost (ready : Bool)
  | qtail (queue tail : Nat) (sys : Bool)
  | tlsig (k : Nat) (v : Nat)
  deriving DecidableEq, Repr

/-- An entry of the store queue, or of the core's write path once it has left. -/
structure SqEntry where
  seq : Nat
  kind : SqKind
  lanes : List LaneAcc
  gid : Nat := 0
  pc : Nat := 0
  word : Nat := 0
  slices : List Nat := []
  /-- it was issued in supervisor mode (R364) -/
  sup : Bool := false
  /-- the cycle it issued in (R384) -/
  cycle : Nat := 0
  /-- the context its addresses were translated in (R374) -/
  actx : Nat := 0
  /-- lanes by sub-issue, for a store that `st` counts once for each (R323); none for the others -/
  subs : List (List Nat) := []
  deriving DecidableEq, Repr

/-- What entering the handler saved (R358). -/
structure Handler where
  slices : List Nat := []
  pc : Nat := 0
  mask : Nat := 0
  savedPc : Tab Nat := []
  savedMask : Tab Nat := []
  depths : Tab (Nat × Nat) := []
  replay : Option Replay := none
  /-- by slice: the other words set aside, the words of its packet that have taken effect, and the word it was parked at -/
  savedRest : Tab (List Replay × List Nat × Option Nat) := []
  /-- by slice: what such a packet's words that are still to act read (R105) -/
  savedSeen : Tab (Option (Regs × Regs)) := []
  /-- the faulting word is a `jmp` (R139) -/
  jmp : Bool := false
  /-- the saved PC has not passed the LAND check (R108) -/
  arrival : Bool := false
  record : FaultRec := {}
  deriving DecidableEq, Repr

/-- Why a gang is to leave the active set (R127): it has not been ready, the split of a slice has parked, or the event
does not lapse (`yield`, the end of its quantum). -/
inductive Leave where
  | idle
  | parked (slice : Nat)
  | always
  deriving DecidableEq, Repr

/-- A gang (R130, R134, R152 to R159). -/
structure Gang where
  resident : Bool := false
  ended : Bool := false
  swapped : Bool := false
  role : Nat := 0
  nslices : Nat := 0
  vregs : Nat := 0
  regs : Regs := {}
  bank : Regs := {}
  slices : Tab Slice := []
  turn : Nat := 0
  ld : Nat := 0
  st : Nat := 0
  cp : Nat := 0
  tm : Nat := 0
  seq : Nat := 0
  sq : List SqEntry := []
  ops : List Op := []
  lastCopy : Nat := 0
  children : List Nat := []
  joined : Nat := 0
  rejected : Nat := 0
  reason : Nat := 0
  handler : Option Handler := none
  age : Nat := 0
  active : Option Nat := none
  /-- events of R127 that no ready pending gang has answered yet -/
  leaving : List Leave := []
  /-- stores before this number leave the store queue before a later `syswr` of the gang commits (R231) -/
  relSeq : Option Nat := none
  /-- bytes of `svc` pointers that have come from another part, by 256·lane + byte (R370) -/
  svcHeld : Tab Nat := []
  deriving DecidableEq, Repr

/-! ### Engines and buffers -/

/-- A C region as `tmm`, `tzero` and `tepi` name it (R271). -/
structure CRegion where
  off : Nat := 0
  m : Nat := 0
  n : Nat := 0
  kg : Nat := 0
  deriving DecidableEq, Repr

/-- The scale an engine applies: none, a power of two, or a vector in memory (R197, R278). -/
inductive ScaleSrc where
  | one
  | pow (e : Int)
  | vector (base size : Nat)
  deriving DecidableEq, Repr

/-- What a tile operation does (R271 to R279). -/
inductive TileKind where
  | tmm (sparse : Bool) (aoff boff : Nat) (c : CRegion) (aslot bslot : W64)
  | tzero (c : CRegion)
  | tepi (c : CRegion) (ooff : Nat) (oslot : W64) (sa sb : ScaleSrc) (row0 col0 act : Nat) (bias : Option Nat)
  | ttrn (dst src eb cols rows : Nat)
  deriving DecidableEq, Repr

/-- A tile operation of a team, in issue order (R280). -/
structure TileOp where
  gid : Nat
  pc : Nat
  word : Nat
  kind : TileKind
  /-- granules completed (R284) -/
  done : Nat := 0
  /-- entries a `tmms` has popped for the granule in progress (R274, R275) -/
  popped : List Nat := []
  /-- copies issued before the operation have a lower order than this (R281) -/
  order : Nat := 0
  /-- it was saved, so it does not advance while its twin steps (R389) -/
  saved : Bool := false
  /-- it was issued in supervisor mode (R364) -/
  sup : Bool := false
  /-- the gang's sequence number at its issue (R222, R231) -/
  gseq : Nat := 0
  deriving DecidableEq, Repr

/-- A row of the side store with its elements (R287, R298). -/
structure Row where
  len : Nat
  off : Nat
  e : Int
  n : List Int
  q : Nat
  sat : Bool := false
  lastm : Nat := 0
  lastr : Nat := 0
  lastl : Nat := 0
  lsat : Bool := false
  deriving DecidableEq, Repr

/-- Where an `rsadd` takes its deltas: elements with the deltas of their lanes, or a packed run in AB (R293). -/
inductive DeltaSrc where
  | lanes (c0 : Nat) (ps : List (Nat × Nat))
  | ab (off c0 n : Nat)
  deriving DecidableEq, Repr

/-- What a stream operation does (R290 to R299). -/
inductive StreamKind where
  | init (len off : Nat) (e : Int)
  | add (type : DeltaType) (src : DeltaSrc)
  /-- REMOTE: member, carried exponent; `sent` once its pairs have left -/
  | addRemote (type : DeltaType) (member : Nat) (e : Int) (src : DeltaSrc) (sent : Bool)
  /-- REMOTE pairs that have arrived at this team's row, and whom they are acknowledged to -/
  | incoming (part core tslot seq : Nat) (ps : List StreamPair)
  | norm (oslot : W64) (out gains eps : Nat) (nogain : Bool)
  /-- the `k`-th issue of the team on a span -/
  | normReel (oslot : W64) (out gains eps : Nat) (nogain : Bool) (span k : Nat)
  | rsq (off : Nat)
  | save (compact : Bool) (va : Nat)
  | load (compact : Bool) (va off : Nat)
  deriving DecidableEq, Repr

/-- A stream operation of a team (R300). -/
structure StreamOp where
  seq : Nat
  gid : Nat
  pc : Nat
  word : Nat
  row : Nat
  kind : StreamKind
  /-- pairs applied so far; 1 for an `rssave` whose sectors have all been written -/
  applied : Nat := 0
  /-- the row as a read took it (R301) -/
  snap : Option Row := none
  /-- an `rssave`'s place in the order in which engines own lines, and the bytes it owns (R224, R299); 0 for the others -/
  order : Nat := 0
  bytes : Nat := 0
  /-- it was saved or frozen with its team (R389) -/
  saved : Bool := false
  /-- it was issued in supervisor mode (R364) -/
  sup : Bool := false
  /-- the gang's sequence number at its issue (R222, R231) -/
  gseq : Nat := 0
  deriving DecidableEq, Repr

/-- What a search operation does (R235 to R237). -/
inductive SearchKind where
  | vdist (slot : W64) (query out index base stride size0 size1 n metric : Nat)
  | topk (src out base n k : Nat)
  | topkm (a b out k : Nat)
  | topkr (src run k : Nat)
  deriving DecidableEq, Repr

/-- A search operation of a core, in issue order (R233). -/
structure SearchOp where
  gid : Nat
  pc : Nat
  word : Nat
  kind : SearchKind
  /-- it was issued in supervisor mode (R364) -/
  sup : Bool := false
  /-- the gang's sequence number at its issue (R222, R231) -/
  gseq : Nat := 0
  deriving DecidableEq, Repr

/-- A collective of a team (R326, R327): op 0 to 2 `cred`, 3 `cbc`, 4 `cgat`. -/
structure CollOp where
  gid : Nat
  pc : Nat
  word : Nat
  op : Nat
  slot : W64
  dst : Nat
  n : Nat
  root : Nat
  tag : Nat
  k : Nat
  /-- ranks of the participants -/
  ranks : List Nat
  /-- a contribution to `cgat` has been acknowledged -/
  acked : Bool := false
  /-- it was saved or frozen with its team (R389) -/
  saved : Bool := false
  /-- it was issued in supervisor mode (R364) -/
  sup : Bool := false
  /-- the gang's sequence number at its issue (R222, R231) -/
  gseq : Nat := 0
  deriving DecidableEq, Repr

/-- The state of a copy record (R247). -/
inductive CopyState where
  | gone | running | faulted | severed
  deriving DecidableEq, Repr

/-- A side of a copy: a flat range, or a tensor box (R238, R240). -/
inductive CopySide where
  | flat (sp : CopySpace) (addr : Nat)
  | tensor (base : Nat) (ebits : Nat) (sizes strides : List Nat) (coords : List Int) (extents : List Nat)
  /-- a channel, its first block, and the channel's entry of 32 bytes as the `cpys` read it at issue (R249, R414) -/
  | storage (channel block entry : Nat)
  /-- the core's sparsity-metadata queue (R249) -/
  | metadata
  deriving DecidableEq, Repr

/-- A copy record (R242, R247). -/
structure CopyRec where
  state : CopyState := .gone
  seq : Nat := 0
  tslot : Nat := 0
  gid : Nat := 0
  pc : Nat := 0
  word : Nat := 0
  src : CopySide := .flat .g 0
  dst : CopySide := .flat .g 0
  len : Nat := 0
  bar : Nat := 0
  /-- stream offset of the piece being written (R243), and the sectors of it already written, by destination sector -/
  pos : Nat := 0
  sectors : List Nat := []
  delivered : Nat := 0
  fside : Bool := false
  fcode : Nat := 0
  faddr : Nat := 0
  /-- issue order on the part, for copies that share a line (R224) -/
  order : Nat := 0
  /-- source bytes that have come from a drive or from another part, by stream offset (R249, R316) -/
  held : Memory := []
  come : List Nat := []
  /-- destination sectors of the piece sent to another part and not acknowledged -/
  sent : List Nat := []
  /-- bytes of a `cpyq` that have entered the queue (R249) -/
  entered : Nat := 0
  /-- the gang's sequence number at its issue (R222, R231) -/
  gseq : Nat := 0
  /-- of a copy whose sides may overlap: the stream offset of the piece whose source has been read, and its bytes by destination
  address (R243) -/
  gotPos : Option Nat := none
  got : List (Nat × Nat) := []
  /-- a fault that stops the copy once the sectors on their way are written: side, code, address, detail (R246, R375) -/
  stop : Option (Bool × FCode × Nat × Nat) := none
  deriving DecidableEq, Repr

/-- A cached translation of the device half (R346, R347). -/
structure TlbEntry where
  ctx : Nat
  vbase : Nat
  size : Nat
  pbase : Nat
  w : Bool
  x : Bool
  zero : Bool
  cow : Bool
  /-- where the leaf entry lies, and the A and D bits already known set -/
  pte : Nat
  deriving DecidableEq, Repr

/-- Where the pointed-to bytes of a service call stand (R369). -/
inductive SvcPtr where
  | none
  | k (off : Nat)
  | at (l : Loc) (addr : Nat)
  deriving DecidableEq, Repr

/-- An open lane of a batch: its bytes by value, and whether they are copied back. -/
structure SvcLane where
  lane : Nat
  ptr : SvcPtr := .none
  len : Nat := 0
  back : Bool := false
  deriving DecidableEq, Repr

/-- A batch in a slot of a service core's ring (R372, R373). -/
structure SvcBatch where
  gid : Nat
  ctx : Nat
  slice : Nat
  vb : Nat
  lanes : List SvcLane
  /-- lanes closed with SVC_ARG, with their call words (R370) -/
  closed : List (Nat × Nat) := []
  deriving DecidableEq, Repr

/-- A core (R84, R124 to R128, R219, R242, R275, R347, R368). -/
structure Core where
  deficit : Tab Nat := []
  /-- the write path, oldest first (R219) -/
  wp : List SqEntry := []
  /-- L1 sectors by sector key (R218) -/
  l1 : Tab Nat := []
  copies : Tab CopyRec := []
  /-- sparsity-metadata entries with the team that owns each, oldest first (R275) -/
  metadata : List (Nat × Nat) := []
  /-- the tile operation that the matrix engine has begun and not left for another: team and order (R282) -/
  tileTurn : Option (Nat × Nat) := none
  searches : List SearchOp := []
  tlb : List TlbEntry := []
  /-- fetched blocks: context, block address, the 64 bytes (R109) -/
  fetched : List (Nat × Nat × Nat) := []
  /-- prefetches that wait for a host's answer or for an engine's line: team, context and line (R224, R230, R348) -/
  prefetches : List (Nat × Nat × Nat) := []
  specmiss : Nat := 0
  nextAge : Nat := 0
  /-- swaps in progress: leaving gang, entering gang (R128) -/
  swaps : List (Nat × Nat) := []
  /-- service core registers (R368), batches by slot (R372), and slots named by SVC.DONE and not yet delivered (R373) -/
  svcRing : Nat := 0
  svcProd : Nat := 0
  svcCtx : Nat := 0
  svcSlots : Tab SvcBatch := []
  svcEnding : List Nat := []
  deriving DecidableEq, Repr

/-! ### Teams -/

/-- A write to a team register that has not committed (R160): cycle it commits in, register, value, writer's gang key,
active-set position, and the store sequence number it may not pass (R231). -/
structure TCommit where
  due : Nat
  reg : Nat
  val : W64
  gid : Nat
  pos : Nat
  after : Option Nat := none
  deriving DecidableEq, Repr

/-- A team barrier (R256): N of the open generation, gangs that have arrived. -/
structure Bar where
  n : Option Nat := none
  arrived : List Nat := []
  deriving DecidableEq, Repr

/-- An entry of a window table (R94, R308): 0 attached, 1 detaching, 2 detached, 3 departed. -/
structure WEntry where
  state : Nat := 0
  part : Nat := 0
  core : Nat := 0
  tslot : Nat := 0
  deriving DecidableEq, Repr

/-- A team's window (R43, R94, R312). -/
structure Window where
  reel : Bool := false
  /-- names the window: the reel's key, or a number of the part's own for a set -/
  key : Nat := 0
  entries : List WEntry := []
  /-- scratch bytes of every member (R43) -/
  size : Nat := 0
  /-- `wbar` arrivals of this team, and of every member as far as known here, modulo 2^16 -/
  gen : Nat := 0
  arrivals : Tab Nat := []
  /-- parts that have yet to apply this team's own last change of state, and parts with accesses to it that they checked before
  (R309, R310); and what this copy owes: member and part (R309) -/
  unapplied : List Nat := []
  unquiet : List Nat := []
  owes : List (Nat × Nat) := []
  deriving DecidableEq, Repr

/-- A team (R6, R85, R160, R256, R267, R287). -/
structure Team where
  valid : Bool := false
  grid : Nat := 0
  ctx : Nat := 0
  tenant : Nat := 0
  number : Nat := 0
  member : Option Nat := none
  gangs : Nat := 0
  scratchSize : Nat := 0
  scratch : Memory := []
  wb : Memory := []
  ab : Memory := []
  cb : Memory := []
  divisor : Nat := 16
  /-- the team's share, in units of its size, in WB, AB, CB and SB (R268) -/
  shares : List Nat := []
  rows : Tab Row := []
  tregs : Tab W64 := []
  commits : List TCommit := []
  bars : Tab Bar := []
  window : Option Window := none
  tiles : List TileOp := []
  streams : List StreamOp := []
  colls : List CollOp := []
  streamSeq : Nat := 0
  collCount : Tab Nat := []
  spanCount : Tab Nat := []
  /-- contributions and collective data that arrived before the matching issue -/
  early : List CellBody := []
  /-- power grant class held, and class of the pending request (R98, R148) -/
  grant : Option Nat := none
  request : Option Nat := none
  started : Bool := true
  service : Bool := false
  detachWait : Bool := false
  scratchOut : Bool := false
  deriving DecidableEq, Repr

/-! ### Grids and contexts -/

/-- A grid (R7, R24, R95): its kept launch record and stream map, and what of it is still to place or to retire. -/
structure Grid where
  valid : Bool := false
  ctx : Nat := 0
  tenant : Nat := 0
  depth : Nat := 1
  /-- the kept launch record, 512 bytes (R24) -/
  lr : Memory := []
  /-- the kept stream map (R296) and place list (R42) -/
  smap : Memory := []
  places : List Nat := []
  /-- the queue it came from and its retirement timeline and value (R59), or the gang that launched it (R146) -/
  queue : Option Nat := none
  packet : Nat := 0
  timeline : Nat := 0
  value : W64 := 0
  parent : Option Nat := none
  parentGrid : Nat := 0
  parentTeam : Nat := 0
  /-- CE and TAG of its LAUNCH packet (R58, R385) -/
  ce : Bool := false
  tag : Nat := 0
  /-- teams this part places for it, the first of them, the next to place, those freed; children not retired -/
  teams : Nat := 0
  first : Nat := 0
  nextTeam : Nat := 0
  freed : Nat := 0
  kids : Nat := 0
  order : Nat := 0
  /-- cycle of the hand-over (R101) -/
  since : Nat := 0
  /-- a reel's key, the part that retires it, and there the parts whose members have not all been freed (R91, R408) -/
  reel : Option Nat := none
  owner : Nat := 0
  partsLeft : List Nat := []
  /-- the part that coordinated the members' last placement (R91, R401, R406) -/
  coord : Nat := 0
  deriving DecidableEq, Repr

/-- The state of a context, as CC.STAT shows it (R393). -/
inductive CtxState where
  | unbound | running | cutting | saved | frozen | stepping | rival | ended
  deriving DecidableEq, Repr

/-- The number of a context's state (R393). -/
def CtxState.num : CtxState → Nat
  | .unbound => 0 | .running => 1 | .cutting => 2 | .saved => 3 | .frozen => 4 | .stepping => 5 | .rival => 6 | .ended => 7

/-- A memory view as it was at a cut (R387, R403): granules and pages shared with the original, by virtual address over
64 KB; private copies with their frames; shadow pages of host memory, by virtual address over 4 KB, with the place of
each; granules and shadow pages that were lost. -/
structure View where
  shared : List Nat := []
  priv : Tab Nat := []
  /-- flags of pages that a `pgmap` of the rival mapped (R361, R390) -/
  perms : Tab Nat := []
  shadows : Tab Nat := []
  /-- frames that hold shadow pages, 16 to a frame -/
  shadowFrames : List Nat := []
  lost : List Nat := []
  lostHost : List Nat := []
  deriving DecidableEq, Repr

/-- A team outside the cores: saved by a pre-emption, frozen in a twin, or held by a cut until it is written (R379,
R383, R386). -/
structure SavedTeam where
  core : Nat
  tslot : Nat
  team : Team
  gangs : Tab Gang := []
  copies : Tab CopyRec := []
  metadata : List Nat := []
  /-- where its block stands in a save area, and the number its engine area holds (R385, log 30) -/
  place : Nat := 0
  token : Nat := 0
  deriving DecidableEq, Repr

/-- What the engine area of a team block stands for, by the number in it: the team as it was written, and its grid (R385, log 30). -/
structure KeptTeam where
  team : SavedTeam
  grid : Grid
  deriving DecidableEq, Repr

/-- A snapshot image as it comes from another part (R403, R405): number, trigger, the bytes of its ranges from SI.RSEC on,
and the teams and grids of its save area. -/
structure SnapImage where
  num : Nat
  trigger : Option (Nat × Nat) := none
  data : Memory := []
  teams : List SavedTeam := []
  grids : Tab Grid := []
  deriving DecidableEq, Repr

/-- An entry of SA.UNKLIST (R382, R384). -/
structure Unknown where
  pc : Nat
  addr : Nat
  lanes : Nat
  place : Nat
  kind : Nat
  gang : Nat
  tslot : Nat
  core : Nat
  deriving DecidableEq, Repr

/-- Why a cut is taken (R378, R400). -/
inductive CutKind where
  | preempt | twin | snapshot
  deriving DecidableEq, Repr

/-- A `brk` in break mode (R384, R395): where it issued, its code, and what a fault record of it says. -/
structure Break where
  pc : Nat
  gid : Nat
  code : Nat
  word : Nat := 0
  lanes : Nat := 0
  sup : Bool := false
  deriving DecidableEq, Repr

/-- What replies for the original only have done while the state of a cut was still to be taken (R380, R382): the lanes that were
answered, each with its gang, its operation's number, cycle and PC, and its class (0 load, 1 store, 2 atomic); what the registers held
that they wrote, by gang, register and lane; and the faults of lanes, which the gang meets once the state has been taken. -/
structure LateReplies where
  lanes : List (Nat × Nat × Nat × Nat × Nat × LaneAcc) := []
  olds : List (Nat × Nat × Nat × W32) := []
  faults : List (Nat × Bool × List Nat × Nat × Nat × FInfo) := []
  deriving DecidableEq, Repr

/-- A cut in progress on this part (R378 to R380): its kind, cores whose state is still to be written, whether the state
has been taken, the other member parts, the markers received, each as part·32 + plane, and the twin that is formed. -/
structure Cut where
  kind : CutKind
  cores : List Nat := []
  captured : Bool := false
  parts : List Nat := []
  markers : List Nat := []
  twin : Option Nat := none
  unknown : List Unknown := []
  /-- entries that did not fit, breaks recorded (PC, gang, code) and breaks counted (R384, R396) -/
  unkMore : Nat := 0
  brks : List Break := []
  brkCount : Nat := 0
  /-- the markers have been sent: what was issued before the cut for other parts has left (R304, R380, log 34) -/
  marked : Bool := false
  /-- replies that are for the original only and came before the state was taken (R380, R382) -/
  late : LateReplies := {}
  /-- every core here has been written; other parts whose members have been written (R378) -/
  written : Bool := false
  wrote : List Nat := []
  deriving DecidableEq, Repr

/-- The snapshot block of a context and what a snapshot in progress holds (R400 to R405). State: 0 idle, 1 cutting,
2 writing, 3 streaming, 4 restoring. -/
structure Snap where
  period : Nat := 0
  tl : Nat := 0
  source : Nat := 0
  pull : Bool := false
  partner : Nat := 0
  stream : Bool := false
  enable : Bool := false
  area : Nat := 0
  size : Nat := 0
  ranges : Nat := 0
  recv : Nat := 0
  done : Nat := 0
  err : Nat := 0
  state : Nat := 0
  next : Nat := 0
  target : Nat := 0
  /-- a scheduled snapshot, or one that SNAP asked for, waits for the cut or the snapshot in progress (R401, R404) -/
  wanted : Bool := false
  asked : Bool := false
  /-- the trigger: timeline and value (R401), and whether its raise is still held at the timeline's home -/
  trigger : Option (Nat × Nat) := none
  holding : Bool := false
  /-- the declared ranges (base, bytes, form), and the pages still shared with the original (R402, R403) -/
  list : List (Nat × Nat × Nat) := []
  view : View := {}
  /-- what the cut of the snapshot begun last took, that cut's number, and its unknown outcomes (R403) -/
  taking : Option SnapImage := none
  cutNo : Nat := 0
  unknown : List Unknown := []
  unkMore : Nat := 0
  /-- the buffer that holds DONE (R403) -/
  buf : Nat := 1
  /-- the number begun last, the other member parts at its beginning, and the DONE that each part has reported last (R404) -/
  begun : Nat := 0
  members : List Nat := []
  reported : Tab Nat := []
  /-- a cut whose snapshot another member part has failed before its marker came here, with the reason (R403) -/
  failed : Option (Nat × Nat) := none
  /-- own image acknowledged at its home, and the partner's whole copy acknowledged -/
  written : Bool := false
  copied : Bool := false
  /-- the partner copy held here: the buffer of the last complete one, the number of the one that comes in, and its bytes so
  far (R404) -/
  recvBuf : Nat := 1
  recvNum : Nat := 0
  recvGot : Nat := 0
  /-- the sender's cut of the copy that comes in: a later attempt starts it anew (R404) -/
  recvCut : Nat := 0
  /-- the image a RESTORE loads (R405) -/
  loading : Option SnapImage := none
  /-- the trigger a RESTORE has recorded, raised at RESUME (R405) -/
  restored : Option (Nat × Nat) := none
  deriving DecidableEq, Repr

/-- A hardware context (R53, R54, R349, R355, R356): its record's fields, the loaded place table, the hint block's
fields and the fault-queue and gang-state registers. -/
structure Ctx where
  bound : Bool := false
  state : CtxState := .unbound
  ld : Nat := 0
  recAddr : Nat := 0
  tenant : Nat := 0
  pt : Nat := 0
  desc : Nat := 0
  dsize : Nat := 0
  handler : Nat := 0
  hint : Nat := 0
  fq : Nat := 0
  fqn : Nat := 0
  save : Nat := 0
  saven : Nat := 0
  /-- the loaded place table, 512 entries (R53), and the loaded FLOWS and PARTNER table (R413) -/
  places : Tab Nat := []
  flows : Nat := 0
  partners : Memory := []
  pool : Nat := 0
  poolLog : Nat := 0
  zeroFrame : Nat := 0
  ret : Nat := 0
  retLog : Nat := 0
  hints : List (Nat × Nat × Nat) := []
  fqProd : Nat := 0
  fqCons : Nat := 0
  fqLost : Nat := 0
  fqVec : Nat := 0
  fqSpec : Nat := 0
  gsSel : Nat := 0
  /-- CC.CTL.BRKMODE, CC.TWREC, CC.MEMA and the fields of CC.STAT (R393) -/
  brkmode : Bool := false
  twrec : Nat := 0
  mema : Nat := 0
  notwin : Nat := 0
  err : Nat := 0
  lost : Nat := 0
  brks : Nat := 0
  /-- the original of a twin, and the twin's slot (R386) -/
  parent : Option Nat := none
  twinSlot : Nat := 0
  /-- a twin's view of memory (R387) -/
  view : View := {}
  /-- cuts taken (R384 SA.CUT), the cut in progress, a `brk` that waits for its end (R396) -/
  cutNo : Nat := 0
  cut : Option Cut := none
  brkWaits : List Break := []
  /-- teams saved or frozen (R383, R386); what they are to be placed for: 0 nothing, 1 RESUME, 2 RIVAL, 3 STEP; and the
  gang a STEP lets issue one packet, with whether it has (R389) -/
  saved : List SavedTeam := []
  want : Nat := 0
  stepping : Option Nat := none
  stepped : Bool := false
  /-- a PREEMPT that waits for answers of other member parts: whether one is under way here, the parts still to answer,
  the answers that came before it, and whether a save area is too small (R383) -/
  preempting : Bool := false
  preemptAwait : List Nat := []
  preemptHeard : List Nat := []
  preemptSmall : Bool := false
  /-- a PREEMPT whose exchange another cut has overtaken: it is made again after that cut (R378, R383) -/
  preemptAgain : Bool := false
  /-- the header of a twin's save area as STEP read it (R397) -/
  stepHead : Memory := []
  /-- a DISCARD that waits for gangs, stores, copies and frames (R392) -/
  discarding : Bool := false
  snap : Snap := {}
  /-- frames still to go to the return ring (R350) -/
  returning : List Nat := []
  deriving DecidableEq, Repr

/-! ### Queues, timelines and the firmware core -/

/-- A packet of a queue's table: its eight words, its number, in the order the part read packets, and whether it has
started (R58, R60). -/
structure Packet where
  words : List Nat
  index : Nat
  started : Bool := false
  /-- completed, waiting for its completion entry (R80) -/
  status : Option Nat := none
  deriving DecidableEq, Repr

/-- A hardware queue (R65, R66, R81). State: 0 DISABLED, 1 RUNNING, 2 HALTED, 3 POISONED. -/
structure Queue where
  base : Nat := 0
  headwb : Nat := 0
  cxb : Nat := 0
  cqbase : Nat := 0
  cqctl : Nat := 0
  enable : Bool := false
  compat : Bool := false
  logsize : Nat := 0
  tl : Nat := 0
  state : Nat := 0
  halt : Nat := 0
  reject : Nat := 0
  nrej : Nat := 0
  tail : W32 := 0
  head : W32 := 0
  stale : Nat := 0
  cqhead : W32 := 0
  cqindex : W32 := 0
  /-- entries written since the last interrupt (R82) -/
  cqfresh : Nat := 0
  ctx : Option Nat := none
  /-- packets read and not completed, in ring order (R60, R64) -/
  table : List Packet := []
  /-- completion entries not yet written, in completion order (R80) -/
  entries : List Nat := []
  /-- a head write-back is due (R64) -/
  wbDue : Bool := false
  deriving DecidableEq, Repr

/-- Who waits for a raise (R78): nobody, a gang's `tlsig`, a SIGNAL packet, a LAUNCH's retirement or rejection. -/
inductive Raiser where
  | none
  | gang (gid seq : Nat)
  | packet (q index : Nat)
  | launch (q index status : Nat)
  deriving DecidableEq, Repr

/-- A raise that waits at its timeline's home (R78, R343, R401). -/
structure Raise where
  tl : Nat
  value : Nat
  who : Raiser
  /-- it has been looked at for the snapshots it triggers -/
  seen : Bool := false
  deriving DecidableEq, Repr

/-- The firmware core's control registers (R73, R74, R417). State: 0 HELD, 1 LOADING, 2 RUNNING, 3 STOPPED, 4 FAILED. -/
structure Firmware where
  state : Nat := 0
  version : Nat := 0
  err : Nat := 0
  addr : Nat := 0
  errValid : Bool := false
  errAddr : Nat := 0
  /-- the group being visited, its lanes that have taken a packet in the visit (R68), the group of the last `qfetch`, and a STOP
  that waits for the visit's end -/
  group : Nat := 0
  taken : List Nat := []
  fetched : Nat := 0
  stopping : Bool := false
  /-- digest of the running image (R418) -/
  digest : Nat := 0
  /-- device memory is being zeroed (R415) -/
  zeroing : Bool := false
  deriving DecidableEq, Repr

/-! ### Logical devices -/

/-- A logical device (R333, R334, R77, R412, R417 to R419, R441). -/
structure LogDev where
  bound : Bool := false
  /-- the host it is bound to, and whether the binding enables CXL.cache (R409) -/
  host : Nat := 0
  cacheBound : Bool := false
  link : Nat := 0
  width : Nat := 16
  rate : Nat := 0
  tlfirst : Nat := 0
  tlcount : Nat := 0
  qfirst : Nat := 0
  qcount : Nat := 0
  /-- HOST.CFG.CACHE as it reads: enabled at binding, and the feature is on (R333, R419) -/
  cache : Bool := false
  aroute : Nat := 0
  ur : Nat := 0
  fallback : Nat := 0
  unsup : Nat := 0
  abort : Nat := 0
  tlStale : Nat := 0
  featReq : Nat := 0
  featOn : Nat := 0
  featAsked : Bool := false
  featDone : Bool := false
  atAddr : Nat := 0
  /-- a report in progress, and whether the certificate was asked for (R418) -/
  atBusy : Option Bool := none
  atDone : Bool := false
  /-- registers with no behaviour of their own: FLOWS, PARTNER, storage channels (R413, R414), by offset -/
  regs : Memory := []
  deriving DecidableEq, Repr

/-- An AtomicOp on its way to the host (R338 to R341). -/
structure AtomicOp where
  ld : Nat
  ha : Nat
  gid : Nat
  seq : Nat
  lanes : List Nat
  deriving DecidableEq, Repr

/-- An NVMe read on its way to a drive (R249). -/
structure NvmeRead where
  core : Nat
  /-- the copy's ID, the stream offset of the first byte and the bytes asked for -/
  id : Nat
  pos : Nat
  bytes : Nat
  channel : Nat
  block : Nat
  /-- the channel's entry, which names the namespace, the queue and its addresses (R414) -/
  entry : Nat := 0
  deriving DecidableEq, Repr

/-! ### The fabric -/

/-- A port (R317, R320). -/
structure Port where
  up : Bool := true
  queue : List Cell := []
  replay : List (Nat × Cell) := []
  /-- the LSEQ that was last resent from, and how often in a row -/
  resentAt : Nat := 0
  resends : Nat := 0
  lseq : Nat := 0
  expect : Nat := 0
  naking : Bool := false
  hdrerr : Nat := 0
  bodyerr : Nat := 0
  replays : Nat := 0
  poison : Nat := 0
  badcell : Nat := 0
  /-- the reservation table in use, and as written for the next frame (R317): FLOW of each valid entry -/
  table : Tab Nat := []
  written : Tab Nat := []
  deriving DecidableEq, Repr

/-- What a remote entry is for (R316, R319, R324). -/
inductive RemoteFor where
  | load (gid seq lane : Nat)
  | store (gid seq lane : Nat)
  /-- source bytes of a copy from stream offset `pos` on: the stream offsets asked for -/
  | copyRead (core id : Nat) (ps : List Nat)
  /-- a destination line of a copy: its sectors and bytes -/
  | copyWrite (core id : Nat) (sectors : List Nat) (bytes : Nat)
  /-- a byte of an `svc` pointer, read for a batch or copied back (R370) -/
  | svcRead (gid lane k : Nat)
  | svcBack (gid lane k : Nat)
  /-- FLT of a barrier word on another part, set or cleared (R246, R251) -/
  | flag
  /-- a sector of an `rssave` that CXL.io carries to a host (R332) -/
  | streamWrite (team seq : Nat)
  deriving DecidableEq, Repr

/-- A store or copy write carried by CXL.io and not yet acknowledged (R332, R335). -/
structure Posted where
  ld : Nat
  page : Nat
  what : RemoteFor
  deriving DecidableEq, Repr

/-- An entry sent to another part and not answered (R319, R324). -/
structure Remote where
  part : Nat
  plane : Nat
  seq : Nat
  idx : Nat
  what : RemoteFor
  deriving DecidableEq, Repr

/-! ### Placement and power -/

/-- A reel this part coordinates (R91, R92): its grid when it is retired here, key, context, the parts in place-list
order, those asked and silent so far, those that granted and placed, consecutive silences by part, and whether it is
committed, waits to try again, or places saved members again (R406). -/
structure ReelHold where
  grid : Option Nat
  key : Nat
  ctx : Nat
  places : List Nat
  parts : List Nat
  lr : Memory
  smap : Memory
  asked : List Nat := []
  granted : List Nat := []
  placed : List Nat := []
  /-- window entries by member, as PLACED gave them, and the part that retires the reel -/
  entries : Tab Nat := []
  owner : Nat := 512
  /-- the most cuts that a member part has counted (R380) -/
  cuts : Nat := 0
  silent : Tab Nat := []
  committed : Bool := false
  retrying : Bool := false
  resume : Bool := false
  deriving DecidableEq, Repr

/-- A RESERVE at a member part (R91, R92): whose it is, what it asks, and the cores it holds, one for each team. -/
structure Hold where
  key : Nat
  coord : Nat
  ctx : Nat
  teams : Nat
  /-- place in the place list, and the list -/
  index : Nat
  places : List Nat
  resume : Bool := false
  lr : Memory
  smap : Memory
  cores : List Nat := []
  /-- of each team: the share it holds, and the copy records it needs at their own indices (R86) -/
  shares : List Nat := []
  needs : List (List Nat) := []
  granted : Bool := false
  /-- COMMIT has come, and the members have not been placed yet; they have been -/
  due : Bool := false
  committed : Bool := false
  deriving DecidableEq, Repr

/-- A tenant's configuration (R96). -/
structure Tenant where
  gangmax : Nat := 0
  enabled : Bool := false
  weight : Nat := 1
  deriving DecidableEq, Repr

/-- The package power controller (R97 to R99, R420): pool, requests in arrival order (team, class), throttle. -/
structure Power where
  pool : Nat := 3520
  fifo : List (Nat × Nat) := []
  throttle : Bool := false
  deriving DecidableEq, Repr

/-- Who waits for a host's answer to a translation (R348, R376): the team it belongs to, what kind of access it is, and which. -/
structure Asker where
  team : Nat
  kind : Nat
  n : Nat
  deriving DecidableEq, Repr

/-- A translation a host has answered (R348): logical device, page base, page size, host page, readable, writable,
executable. -/
structure HostMap where
  ld : Nat
  vbase : Nat
  size : Nat
  hbase : Nat
  r : Bool
  w : Bool
  x : Bool
  deriving DecidableEq, Repr

end Sys2Proof.Machine
end

