-- ==== Sys2Proof/Syntax.lean ====
section
/-! DEFINITION. The instructions of Skelelm 2 and the events of the part, one constructor for each row of the
opcode table (spec/05 R112 to R121, spec/95). A constructor's fields are named as the table names them; the operands
of an event say what the outside world, or the order of asynchronous work, supplies (log 2, log 10). -/

namespace Sys2Proof

/-- One step of the part: an instruction word, or an event. -/
inductive Instr where
  /-- Scalar add of two scalar registers, modulo 2^64. (R166) -/
  | sadd (d : SReg) (a : SReg) (b : SReg)
  /-- Scalar subtract, modulo 2^64. (R166) -/
  | ssub (d : SReg) (a : SReg) (b : SReg)
  /-- Low 64 bits of a scalar product. (R166) -/
  | smul (d : SReg) (a : SReg) (b : SReg)
  /-- High 64 bits of a signed 128-bit scalar product. (R166) -/
  | smulhI64 (d : SReg) (a : SReg) (b : SReg)
  /-- High 64 bits of an unsigned 128-bit scalar product. (R166) -/
  | smulhN64 (d : SReg) (a : SReg) (b : SReg)
  /-- Signed scalar division, truncating, with defined zero-divisor and overflow results that set SXF. (R167) -/
  | sdivI64 (d : SReg) (a : SReg) (b : SReg)
  /-- Unsigned scalar division with a defined zero-divisor result. (R167) -/
  | sdivN64 (d : SReg) (a : SReg) (b : SReg)
  /-- Signed scalar remainder taking the dividend's sign. (R167) -/
  | sremI64 (d : SReg) (a : SReg) (b : SReg)
  /-- Unsigned scalar remainder. (R167) -/
  | sremN64 (d : SReg) (a : SReg) (b : SReg)
  /-- Bitwise and of two scalars. (R166) -/
  | sand (d : SReg) (a : SReg) (b : SReg)
  /-- Bitwise or of two scalars. (R166) -/
  | sor (d : SReg) (a : SReg) (b : SReg)
  /-- Bitwise exclusive-or of two scalars. (R166) -/
  | sxor (d : SReg) (a : SReg) (b : SReg)
  /-- Bitwise not of a scalar. (R166) -/
  | snot (d : SReg) (a : SReg)
  /-- Scalar logical shift left, zero for counts of 64 or more. (R166) -/
  | sshl (d : SReg) (a : SReg) (b : SReg)
  /-- Scalar logical shift right. (R166) -/
  | sshr (d : SReg) (a : SReg) (b : SReg)
  /-- Scalar arithmetic shift right. (R166) -/
  | ssra (d : SReg) (a : SReg) (b : SReg)
  /-- Signed scalar minimum. (R166) -/
  | smin (d : SReg) (a : SReg) (b : SReg)
  /-- Signed scalar maximum. (R166) -/
  | smax (d : SReg) (a : SReg) (b : SReg)
  /-- Unsigned scalar minimum. (R166) -/
  | sminn (d : SReg) (a : SReg) (b : SReg)
  /-- Unsigned scalar maximum. (R166) -/
  | smaxn (d : SReg) (a : SReg) (b : SReg)
  /-- Selects sa or sb by whether the old sd is nonzero. (R166) -/
  | ssel (d : SReg) (a : SReg) (b : SReg)
  /-- Scalar move. (R166) -/
  | smov (d : SReg) (a : SReg)
  /-- Count of leading zeros of a scalar. (R166) -/
  | sclz (d : SReg) (a : SReg)
  /-- Count of set bits of a scalar. (R166) -/
  | spopc (d : SReg) (a : SReg)
  /-- Signed scalar bit-field extract. (R168) -/
  | sbfxI64 (d : SReg) (a : SReg) (b : SReg)
  /-- Unsigned scalar bit-field extract. (R168) -/
  | sbfxN64 (d : SReg) (a : SReg) (b : SReg)
  /-- Scalar bit-field insert into sd. (R168) -/
  | sbfi (d : SReg) (a : SReg) (b : SReg)
  /-- Scalar compare writing 1 or 0 by the comparison code. (R166) -/
  | scmp (c : Cond) (d : SReg) (a : SReg) (b : SReg)
  /-- Writes a sign-extended 13-bit immediate into a scalar. (R169) -/
  | sli (d : SReg) (i : BitVec 13)
  /-- Writes the packet's following literal word, sign-extended, into a scalar. (R169) -/
  | slit (d : SReg) (lit : W32)
  /-- Writes the packet's following literal word, zero-extended, into a scalar. (R169) -/
  | slitN32 (d : SReg) (lit : W32)
  /-- Sets an affine register's base from a scalar and stride from imm7. (R171) -/
  | aset (d : AReg) (b : SReg) (i : BitVec 7)
  /-- Adds a scalar and imm7 to an affine base, keeping the stride. (R171) -/
  | aadd (d : AReg) (a : AReg) (b : SReg) (i : BitVec 7)
  /-- Sets an affine stride from a scalar's low 32 bits. (R171) -/
  | astr (d : AReg) (a : AReg) (b : SReg)
  /-- Multiplies an affine base and stride by scalar plus imm7. (R171) -/
  | amul (d : AReg) (a : AReg) (b : SReg) (i : BitVec 7)
  /-- Advances an affine base by imm7 strides. (R171) -/
  | aidx (d : AReg) (a : AReg) (i : BitVec 7)
  /-- Writes each active lane's affine value into a vector register. (R172) -/
  | aget (a : AReg) (v : VReg64)
  /-- Per-lane and of two predicates. (R174) -/
  | pand (d : PReg) (a : PReg) (b : PReg)
  /-- Per-lane or of two predicates. (R174) -/
  | por (d : PReg) (a : PReg) (b : PReg)
  /-- Per-lane exclusive-or of two predicates. (R174) -/
  | pxor (d : PReg) (a : PReg) (b : PReg)
  /-- Per-lane not of a predicate. (R174) -/
  | pnot (d : PReg) (a : PReg)
  /-- Per-lane predicate move. (R174) -/
  | pmov (d : PReg) (a : PReg)
  /-- Counts active lanes with a predicate bit set into a scalar. (R174) -/
  | pcnt (a : PReg) (s : SReg)
  /-- Vector add, register form. (R177) -/
  | vaddVv (d : VReg) (a : VReg) (b : VReg)
  /-- Vector add, immediate or scalar form. (R177) -/
  | vaddVx (d : VReg) (a : VReg) (x : Src2)
  /-- Vector subtract, register form. (R177) -/
  | vsubVv (d : VReg) (a : VReg) (b : VReg)
  /-- Vector subtract, immediate or scalar form. (R177) -/
  | vsubVx (d : VReg) (a : VReg) (x : Src2)
  /-- Vector multiply low, register form. (R177) -/
  | vmulVv (d : VReg) (a : VReg) (b : VReg)
  /-- Vector multiply low, immediate or scalar form. (R177) -/
  | vmulVx (d : VReg) (a : VReg) (x : Src2)
  /-- Vector signed multiply high, register form. (R177) -/
  | vmulhI32Vv (d : VReg) (a : VReg) (b : VReg)
  /-- Vector signed multiply high, immediate or scalar form. (R177) -/
  | vmulhI32Vx (d : VReg) (a : VReg) (x : Src2)
  /-- Vector unsigned multiply high, register form. (R177) -/
  | vmulhN32Vv (d : VReg) (a : VReg) (b : VReg)
  /-- Vector unsigned multiply high, immediate or scalar form. (R177) -/
  | vmulhN32Vx (d : VReg) (a : VReg) (x : Src2)
  /-- Vector multiply-add into vd, register form. (R177) -/
  | vmadVv (d : VReg) (a : VReg) (b : VReg)
  /-- Vector multiply-add into vd, immediate or scalar form. (R177) -/
  | vmadVx (d : VReg) (a : VReg) (x : Src2)
  /-- Vector signed saturating add, register form. (R177) -/
  | vsaddI32Vv (d : VReg) (a : VReg) (b : VReg)
  /-- Vector signed saturating add, immediate or scalar form. (R177) -/
  | vsaddI32Vx (d : VReg) (a : VReg) (x : Src2)
  /-- Vector unsigned saturating add, register form. (R177) -/
  | vsaddN32Vv (d : VReg) (a : VReg) (b : VReg)
  /-- Vector unsigned saturating add, immediate or scalar form. (R177) -/
  | vsaddN32Vx (d : VReg) (a : VReg) (x : Src2)
  /-- Vector signed saturating subtract, register form. (R177) -/
  | vssubI32Vv (d : VReg) (a : VReg) (b : VReg)
  /-- Vector signed saturating subtract, immediate or scalar form. (R177) -/
  | vssubI32Vx (d : VReg) (a : VReg) (x : Src2)
  /-- Vector unsigned saturating subtract, register form. (R177) -/
  | vssubN32Vv (d : VReg) (a : VReg) (b : VReg)
  /-- Vector unsigned saturating subtract, immediate or scalar form. (R177) -/
  | vssubN32Vx (d : VReg) (a : VReg) (x : Src2)
  /-- Vector signed minimum, register form. (R177) -/
  | vminVv (d : VReg) (a : VReg) (b : VReg)
  /-- Vector signed minimum, immediate or scalar form. (R177) -/
  | vminVx (d : VReg) (a : VReg) (x : Src2)
  /-- Vector signed maximum, register form. (R177) -/
  | vmaxVv (d : VReg) (a : VReg) (b : VReg)
  /-- Vector signed maximum, immediate or scalar form. (R177) -/
  | vmaxVx (d : VReg) (a : VReg) (x : Src2)
  /-- Vector unsigned minimum, register form. (R177) -/
  | vminnVv (d : VReg) (a : VReg) (b : VReg)
  /-- Vector unsigned minimum, immediate or scalar form. (R177) -/
  | vminnVx (d : VReg) (a : VReg) (x : Src2)
  /-- Vector unsigned maximum, register form. (R177) -/
  | vmaxnVv (d : VReg) (a : VReg) (b : VReg)
  /-- Vector unsigned maximum, immediate or scalar form. (R177) -/
  | vmaxnVx (d : VReg) (a : VReg) (x : Src2)
  /-- Vector bitwise and, register form. (R178) -/
  | vandVv (d : VReg) (a : VReg) (b : VReg)
  /-- Vector bitwise and, immediate or scalar form. (R178) -/
  | vandVx (d : VReg) (a : VReg) (x : Src2)
  /-- Vector bitwise or, register form. (R178) -/
  | vorVv (d : VReg) (a : VReg) (b : VReg)
  /-- Vector bitwise or, immediate or scalar form. (R178) -/
  | vorVx (d : VReg) (a : VReg) (x : Src2)
  /-- Vector bitwise exclusive-or, register form. (R178) -/
  | vxorVv (d : VReg) (a : VReg) (b : VReg)
  /-- Vector bitwise exclusive-or, immediate or scalar form. (R178) -/
  | vxorVx (d : VReg) (a : VReg) (x : Src2)
  /-- Vector shift left, register form. (R178) -/
  | vshlVv (d : VReg) (a : VReg) (b : VReg)
  /-- Vector shift left, immediate or scalar form. (R178) -/
  | vshlVx (d : VReg) (a : VReg) (x : Src2)
  /-- Vector logical shift right, register form. (R178) -/
  | vshrVv (d : VReg) (a : VReg) (b : VReg)
  /-- Vector logical shift right, immediate or scalar form. (R178) -/
  | vshrVx (d : VReg) (a : VReg) (x : Src2)
  /-- Vector arithmetic shift right, register form. (R178) -/
  | vsraVv (d : VReg) (a : VReg) (b : VReg)
  /-- Vector arithmetic shift right, immediate or scalar form. (R178) -/
  | vsraVx (d : VReg) (a : VReg) (x : Src2)
  /-- Vector signed bit-field extract, register form. (R178) -/
  | vbfxI32Vv (d : VReg) (a : VReg) (b : VReg)
  /-- Vector signed bit-field extract, immediate or scalar form. (R178) -/
  | vbfxI32Vx (d : VReg) (a : VReg) (x : Src2)
  /-- Vector unsigned bit-field extract, register form. (R178) -/
  | vbfxN32Vv (d : VReg) (a : VReg) (b : VReg)
  /-- Vector unsigned bit-field extract, immediate or scalar form. (R178) -/
  | vbfxN32Vx (d : VReg) (a : VReg) (x : Src2)
  /-- Vector bit-field insert into vd, register form. (R178) -/
  | vbfiVv (d : VReg) (a : VReg) (b : VReg)
  /-- Vector bit-field insert into vd, immediate or scalar form. (R178) -/
  | vbfiVx (d : VReg) (a : VReg) (x : Src2)
  /-- Per-lane select of va or vb by predicate pk. (R180) -/
  | vsel (p : PReg) (d : VReg) (a : VReg) (b : VReg)
  /-- Vector bitwise not. (R179) -/
  | vnot (d : VReg) (a : VReg)
  /-- Vector absolute value modulo 2^32. (R179) -/
  | vabs (d : VReg) (a : VReg)
  /-- Vector negate. (R179) -/
  | vneg (d : VReg) (a : VReg)
  /-- Vector count of leading zeros. (R179) -/
  | vclz (d : VReg) (a : VReg)
  /-- Vector count of set bits. (R179) -/
  | vpopc (d : VReg) (a : VReg)
  /-- Vector move. (R179) -/
  | vmov (d : VReg) (a : VReg)
  /-- Writes an immediate or scalar to every active lane. (R179) -/
  | vli (d : VReg) (x : Src2)
  /-- Vector compare into a predicate, register form. (R181) -/
  | vcmpVv (c : Cond) (p : PReg) (a : VReg) (b : VReg)
  /-- Vector compare into a predicate, immediate or scalar form. (R181) -/
  | vcmpVx (c : Cond) (p : PReg) (a : VReg) (x : Src2)
  /-- Reads va from the lane indexed by vb. (R184) -/
  | vshflIdx (d : VReg) (a : VReg) (b : VReg)
  /-- Indexed shuffle that also writes validity to p7. (R184) -/
  | vshflIdxChk (d : VReg) (a : VReg) (b : VReg)
  /-- Sums va over the split's participants into every active lane. (R185) -/
  | vredAdd (d : VReg) (a : VReg)
  /-- Signed minimum of va over participants. (R185) -/
  | vredMin (d : VReg) (a : VReg)
  /-- Signed maximum of va over participants. (R185) -/
  | vredMax (d : VReg) (a : VReg)
  /-- Inclusive prefix sum over participants. (R185) -/
  | vscanAdd (d : VReg) (a : VReg)
  /-- Gathers a predicate over participants into a word in every active lane. (R185) -/
  | vballot (d : VReg) (p : PReg)
  /-- Or of a predicate over participants. (R185) -/
  | vvoteAny (d : PReg) (p : PReg)
  /-- And of a predicate over participants. (R185) -/
  | vvoteAll (d : PReg) (p : PReg)
  /-- Reads va from lane i minus d. (R184) -/
  | vshflUp (d : VReg) (a : VReg) (x : Src2)
  /-- Up shuffle writing validity to p7. (R184) -/
  | vshflUpChk (d : VReg) (a : VReg) (x : Src2)
  /-- Reads va from lane i plus d. (R184) -/
  | vshflDn (d : VReg) (a : VReg) (x : Src2)
  /-- Down shuffle writing validity to p7. (R184) -/
  | vshflDnChk (d : VReg) (a : VReg) (x : Src2)
  /-- Reads va from lane i xor d. (R184) -/
  | vshflXor (d : VReg) (a : VReg) (x : Src2)
  /-- Xor shuffle writing validity to p7. (R184) -/
  | vshflXorChk (d : VReg) (a : VReg) (x : Src2)
  /-- Broadcasts va of one source lane to every active lane. (R184) -/
  | vbcast (d : VReg) (a : VReg) (x : Src2)
  /-- Broadcast writing validity to p7. (R184) -/
  | vbcastChk (d : VReg) (a : VReg) (x : Src2)
  /-- Float add, correctly rounded, in the type the major opcode selects. (R202) -/
  | fadd (t : FType) (d : VReg) (a : VReg) (b : VReg)
  /-- Float subtract. (R202) -/
  | fsub (t : FType) (d : VReg) (a : VReg) (b : VReg)
  /-- Float multiply. (R202) -/
  | fmul (t : FType) (d : VReg) (a : VReg) (b : VReg)
  /-- Fused multiply-add into vd with one rounding. (R202) -/
  | ffma (t : FType) (d : VReg) (a : VReg) (b : VReg)
  /-- Float minimum with NaN and signed-zero rules. (R202) -/
  | fmin (t : FType) (d : VReg) (a : VReg) (b : VReg)
  /-- Float maximum. (R202) -/
  | fmax (t : FType) (d : VReg) (a : VReg) (b : VReg)
  /-- Clears the sign bit. (R203) -/
  | fabs (t : FType) (d : VReg) (a : VReg)
  /-- Inverts the sign bit. (R203) -/
  | fneg (t : FType) (d : VReg) (a : VReg)
  /-- Correctly rounded reciprocal. (R203) -/
  | frcp (t : FType) (d : VReg) (a : VReg)
  /-- Correctly rounded reciprocal square root. (R203) -/
  | frsq (t : FType) (d : VReg) (a : VReg)
  /-- Correctly rounded square root. (R203) -/
  | fsqrt (t : FType) (d : VReg) (a : VReg)
  /-- Correctly rounded power of two. (R203) -/
  | fexp2 (t : FType) (d : VReg) (a : VReg)
  /-- Correctly rounded base-2 logarithm. (R203) -/
  | flog2 (t : FType) (d : VReg) (a : VReg)
  /-- Rounds each element to an integral value by a rounding code. (R204) -/
  | fround (t : FType) (d : VReg) (a : VReg) (r : RoundMode)
  /-- Float compare into a predicate. (R205) -/
  | fcmp (c : FCond) (t : FType) (p : PReg) (a : VReg) (b : VReg)
  /-- Converts each lane between two types, one possibly a slot format. (R207) -/
  | cvt (y : CvtType) (d : VReg) (a : VReg) (x : CvtType) (s : FSlot)
  /-- Converts two f32 sources into a slot format and packs them into vd. (R210) -/
  | cvtp (s : FSlot) (d : VReg) (a : VReg) (b : VReg)
  /-- Per-lane load from g:, relaxed or acquire. (R226) -/
  | ldGlobal (z : LoadSize) (d : VReg) (a : AReg) (v : Option VReg) (c : Scope)
  /-- Per-lane store to g: through the store queue, relaxed or release. (R227) -/
  | stGlobal (z : StoreSize) (d : VReg) (a : AReg) (v : Option VReg) (c : Scope)
  /-- Prefetches each lane's line into home L2 and L1 without faulting. (R230) -/
  | pf (a : AReg) (v : Option VReg)
  /-- Per-lane load from w:. (R226) -/
  | ldWindow (z : LoadSize) (d : VReg) (a : AReg) (v : Option VReg) (c : Scope)
  /-- Per-lane store to w:. (R227) -/
  | stWindow (z : StoreSize) (d : VReg) (a : AReg) (v : Option VReg) (c : Scope)
  /-- Per-lane relaxed load from a core-local space. (R226) -/
  | ldLocal (z : LoadSize) (d : VReg) (a : AReg) (v : Option VReg) (p : LocalSpace)
  /-- Per-lane relaxed store to a core-local space. (R227) -/
  | stLocal (z : StoreSize) (d : VReg) (a : AReg) (v : Option VReg) (p : LocalSpace)
  /-- 32-bit per-lane atomic on g: at the home L2 returning the old value. (R228) -/
  | atomGlobal32 (o : AtomOp) (d : VReg) (a : AReg) (v : Option VReg) (c : Scope)
  /-- 64-bit per-lane atomic on g:. (R228) -/
  | atomGlobal64 (o : AtomOp) (d : VReg) (a : AReg) (v : Option VReg) (c : Scope)
  /-- 32-bit per-lane atomic on l: or w:. (R228) -/
  | atomLocal32 (o : AtomOp) (d : VReg) (a : AReg) (v : Option VReg) (c : AtomPlace)
  /-- 64-bit per-lane atomic on l: or w:. (R228) -/
  | atomLocal64 (o : AtomOp) (d : VReg) (a : AReg) (v : Option VReg) (c : AtomPlace)
  /-- Remote load from a peer part, one sub-issue per distinct peer. (R323) -/
  | rld (w : Bool) (d : VReg) (a : AReg) (p : VReg) (c : Scope)
  /-- Remote store to a peer part. (R323) -/
  | rst (w : Bool) (d : VReg) (a : AReg) (p : VReg) (c : Scope)
  /-- Remote 32-bit atomic on a peer part. (R323) -/
  | ratom (o : AtomOp) (d : VReg) (a : AReg) (p : VReg) (c : Scope)
  /-- Starts an asynchronous copy engine operation and counts it on cp. (R238) -/
  | cpy (x : CopySpace) (a : SReg) (b : SReg) (c : SReg) (y : CopySpace)
  /-- Copy that also parks the split with its successor as continuation. (R248) -/
  | cpyc (x : CopySpace) (a : SReg) (b : SReg) (c : SReg) (y : CopySpace)
  /-- Appends sparsity-metadata entries from g: to the core's queue. (R249) -/
  | cpyq (a : SReg) (b : SReg)
  /-- Copies blocks from a storage namespace through NVMe reads. (R249) -/
  | cpys (y : CopySpace) (a : SReg) (b : SReg) (c : SReg)
  /-- Stores a 64-byte image of a copy record into scratch. (R250) -/
  | cpyst (a : SReg) (b : SReg)
  /-- Resumes a faulted or severed copy for its missing sectors. (R251) -/
  | cpyres (a : SReg)
  /-- Cancels a copy and frees its record. (R252) -/
  | cpycan (a : SReg)
  /-- Starts a dense tile multiply-accumulate C += A·B. (R273) -/
  | tmm (x : FSlot) (a : SReg) (b : SReg) (c : SReg)
  /-- Starts a 2-of-4 sparse tile multiply-accumulate. (R274) -/
  | tmms (x : FSlot) (a : SReg) (b : SReg) (c : SReg)
  /-- Clears a C region of CB to +0. (R276) -/
  | tzero (a : SReg)
  /-- Scales, biases, activates and converts C into AB. (R277) -/
  | tepi (x : FSlot) (a : SReg) (b : SReg) (c : SReg)
  /-- Transposes a packed matrix within AB. (R279) -/
  | ttrn (a : SReg) (b : SReg)
  /-- Makes a stream row valid and zero, or invalid. (R292) -/
  | rsinit (a : SReg) (b : SReg) (c : SReg)
  /-- Adds per-lane deltas exactly into stream row elements. (R293) -/
  | rsaddVector (x : DeltaType) (a : SReg) (b : SReg) (c : VReg64)
  /-- Adds a packed run of deltas from AB into a stream row. (R293) -/
  | rsaddAb (x : DeltaType) (a : SReg) (b : SReg) (c : SReg)
  /-- Reads a stream row normalised through the port into AB. (R295) -/
  | rsnorm (x : FSlot) (a : SReg) (b : SReg) (c : SReg)
  /-- Normalised read whose sum of squares spans the members of a stream-map span. (R297) -/
  | rsnormReel (x : FSlot) (a : SReg) (b : SReg) (c : SReg)
  /-- Writes a 32-byte inspection record of a row into AB. (R298) -/
  | rsq (a : SReg) (b : SReg)
  /-- Writes a row image to g: in full or compact form. (R299) -/
  | rssave (f : Bool) (a : SReg) (b : SReg)
  /-- Loads a row image from g: and makes the row valid. (R299) -/
  | rsload (f : Bool) (a : SReg) (b : SReg) (c : SReg)
  /-- Parks until the team's earlier adds to its own rows are applied. (R302) -/
  | rsfenceTeam
  /-- Parks until own and same-part REMOTE adds are applied. (R302) -/
  | rsfenceSet
  /-- Parks until every earlier add, including across Flisy, is applied. (R302) -/
  | rsfenceReel
  /-- Collective reduction across window members by the canonical tree. (R327) -/
  | cred (x : FSlot) (a : SReg) (b : SReg) (c : SReg) (o : RedOp)
  /-- Collective broadcast from the root by multicast. (R327) -/
  | cbc (x : FSlot) (a : SReg) (b : SReg) (c : SReg)
  /-- Collective gather into the root's destination. (R327) -/
  | cgat (x : FSlot) (a : SReg) (b : SReg) (c : SReg)
  /-- Computes one distance per candidate row on the search engine. (R235) -/
  | vdist (x : FSlot) (a : SReg) (b : SReg) (c : SReg)
  /-- Selects the k least of n distances as sorted pairs. (R236) -/
  | topk (a : SReg) (b : SReg) (c : SReg)
  /-- Merges two pair lists into the k least. (R236) -/
  | topkm (a : SReg) (b : SReg) (c : SReg)
  /-- Indivisibly folds k pairs into a running list in scratch. (R237) -/
  | topkr (a : SReg) (b : SReg) (c : SReg)
  /-- Does nothing and pays the tenant one issue. (R144) -/
  | nop
  /-- Ends the active lanes and resumes any lanes pending on the mask stack. (R138) -/
  | exit
  /-- Leaves the active set when a ready pending gang exists. (R144) -/
  | yield
  /-- Halts with BREAK, or in break mode cuts the context and forms a twin. (R395) -/
  | brk (c : Fin 2048)
  /-- Resumes pending lanes or pops the mask stack at the join point. (R137) -/
  | join
  /-- Sets a predicate bit for one elected lane of the role. (R142) -/
  | elect (p : PReg)
  /-- Merges splits already at this packet whose slices lie in the mask. (R141) -/
  | regang (m : BitVec 8)
  /-- Parks until every live named slice arrives, then merges them. (R141) -/
  | regangWait (m : BitVec 8)
  /-- Pops the return stack, refilling from the spill stack, and branches. (R140) -/
  | ret
  /-- Per-lane indirect jump that groups targets on the mask stack. (R139) -/
  | jmp (v : VReg64)
  /-- Reads a child launch record and hands the child grid to the dispatcher. (R146) -/
  | launch (s : SReg)
  /-- Parks until every child of the gang retires, then writes the status. (R147) -/
  | ljoin (s : SReg)
  /-- Detaches the team from its window after its window operations drain. (R310) -/
  | wdetach
  /-- Reads a window member's state into a scalar. (R311) -/
  | wmember (s : SReg)
  /-- Requests a power grant and parks until held. (R148) -/
  | pwreq (c : PReg)
  /-- Power request that also leaves the active set when not granted. (R148) -/
  | pwreqYield (c : PReg)
  /-- Returns the team's power grant. (R149) -/
  | pwrel
  /-- Orders earlier and later accesses by order and scope. (R231) -/
  | fence (o : Fin 4) (c : Scope)
  /-- Parks the split until the named counters fall to their thresholds. (R254) -/
  | waitcnt (l : Fin 32) (s : Fin 32) (c : Fin 32) (t : Fin 32) (y : Bool)
  /-- Direct unconditional branch by packet offset. (R136) -/
  | br (o : BitVec 19)
  /-- Conditional branch that pushes the mask stack on disagreement. (R136) -/
  | brc (p : PReg) (o : BitVec 19)
  /-- Pushes the successor onto the return stack and branches. (R140) -/
  | call (o : BitVec 19)
  /-- Sets the slice's join point. (R136) -/
  | jpt (o : BitVec 19)
  /-- Team barrier among N gangs of the team. (R256) -/
  | bar (s : SReg) (i : Fin 16)
  /-- Initialises a phase-bit barrier word. (R258) -/
  | phbinit (a : AReg) (n : Fin 128)
  /-- Drains stores and arrives on a phase-bit barrier. (R258) -/
  | phbarr (a : AReg)
  /-- Adds expected bytes and arrives on a phase-bit barrier. (R258) -/
  | phbexp (s : SReg) (a : AReg)
  /-- Tests whether a barrier's phase has moved past a bit. (R258) -/
  | phbtest (a : AReg) (d : PReg) (h : Bool)
  /-- Parks until a phase completes or FLT is set. (R258) -/
  | phbwait (a : AReg) (h : Bool)
  /-- Window barrier across attached members with release and acquire. (R312) -/
  | wbar
  /-- Release at .sys, then raises a timeline. (R260) -/
  | tlsig (a : SReg) (b : SReg)
  /-- Holds the split until a timeline satisfies a threshold, then acquires. (R260) -/
  | tlwait (a : SReg) (b : SReg)
  /-- Reads a timeline at its home as an acquire. (R260) -/
  | tlread (d : SReg) (a : SReg)
  /-- Copies a 64-byte packet into a device-side ring slot. (R261) -/
  | qpost (a : SReg) (b : SReg)
  /-- Releases and publishes a new queue tail. (R262) -/
  | qtail (a : SReg) (b : SReg)
  /-- Reads a system or team register into a scalar. (R367) -/
  | sysrd (s : SReg) (r : Fin 2048)
  /-- Writes a scalar to a system or team register. (R367) -/
  | syswr (s : SReg) (r : Fin 2048)
  /-- Forms a service-call batch and parks in a service wait. (R370) -/
  | svc (v : VReg)
  /-- Ends the supervisor handler, replaying or halting the recorded lanes. (R360) -/
  | hret (s : SReg)
  /-- Maps a device-half page from the pool or the zero frame. (R361) -/
  | pgmap (s : SReg)
  /-- Drops cached device-half translations part-wide. (R362) -/
  | pginv (s : SReg)
  /-- Reads a word of the fault record that entered the handler. (R363) -/
  | fltrd (s : SReg) (w : Fin 4)
  /-- Firmware core reads one packet per lane from a group's queues. (R72) -/
  | qfetch (s : SReg)
  /-- Firmware core checks launch records and hands grids to the dispatcher. (R72) -/
  | qdisp
  /-- Firmware core raises timelines per lane. (R72) -/
  | qcomp
  /-- A core fetches a 64-byte block, possibly ahead. (R109) -/
  | fetchBlock (core : Nat) (c : Nat) (va : Nat)
  /-- A NOP queue packet completes when read. (R59) -/
  | nopPacket (q : Nat)
  /-- A LAUNCH queue packet hands a grid to the dispatcher. (R59) -/
  | launchPacket (q : Nat)
  /-- A WAIT packet holds its queue until a timeline is satisfied. (R59) -/
  | waitPacket (q : Nat)
  /-- A SIGNAL packet raises a timeline after earlier packets complete. (R59) -/
  | signalPacket (q : Nat)
  /-- A BARRIER packet holds its queue until earlier packets complete. (R59) -/
  | barrierPacket (q : Nat)
  /-- A WRITE packet stores a value as a release at .sys. (R59) -/
  | writePacket (q : Nat)
  /-- Stores the new head to Q.HEADWB within 1 µs of the advance. (R64) -/
  | headWriteback (q : Nat)
  /-- Writes a completion entry, waiting while the completion ring is full. (R80) -/
  | completionEntryWrite (q : Nat)
  /-- Coalescing time expiry fires the completion MSI-X vector. (R82) -/
  | cqCoalesceTimer (q : Nat)
  /-- Hardware ends a firmware visit after 65,536 cycles and moves to the next group. (R68) -/
  | fwVisitTimeout
  /-- Uncorrectable instruction-memory error stops the firmware core and freezes intake. (R73) -/
  | fwImemUncorrectable (addr : Nat)
  /-- Uncorrectable queue-table error poisons the queue. (R75) -/
  | queueTableUncorrectable (q : Nat)
  /-- A tail doorbell write is accepted or counted stale. (R62) -/
  | tailWrite (ld : Nat) (q : Nat) (width : Nat) (value : Nat)
  /-- Setting Q.CTL.ENABLE checks the registers and runs or halts the queue. (R67) -/
  | queueEnable (ld : Nat) (q : Nat) (v : Nat)
  /-- Clearing ENABLE resets indices, drops unread packets and withdraws unplaced grids. (R67) -/
  | queueDisable (ld : Nat) (q : Nat) (v : Nat)
  /-- A Q.CXB write binds a context and reads its record. (R55) -/
  | contextBind (ld : Nat) (q : Nat) (v : Nat)
  /-- Writes the host's consumed completion index, or counts it stale. (R82) -/
  | cqheadWrite (ld : Nat) (q : Nat) (v : Nat)
  /-- Reading Q.STALE returns and clears the stale count. (R65) -/
  | qStaleRead (ld : Nat) (q : Nat)
  /-- Reading Q.STAT returns and clears NREJ. (R66) -/
  | nrejRead (ld : Nat) (q : Nat)
  /-- Reading TL.STALE returns and clears the discarded-store count. (R77) -/
  | tlStaleRead (ld : Nat)
  /-- Reading FQ.LOST returns and clears it. (R355) -/
  | fqLostRead (ld : Nat) (c : Nat)
  /-- Reading FQ.SPEC returns and clears it. (R355) -/
  | fqSpecRead (ld : Nat) (c : Nat)
  /-- Reading HOST.ASTAT returns and clears its counts. (R334) -/
  | hostAstatRead (ld : Nat)
  /-- Reading a Flisy port counter returns and clears it. (R320) -/
  | portCounterRead (port : Nat)
  /-- Reading CC.STAT returns and clears NOTWIN. (R393) -/
  | notwinRead (ld : Nat) (c : Nat)
  /-- Writing 1 to FW.ERR.VALID clears the latched error. (R74) -/
  | fwErrClear
  /-- A write to a register with no behaviour of its own stores its RW fields. (R13) -/
  | registerWrite (ld : Nat) (off : Nat) (n : Nat) (v : Nat)
  /-- The dispatcher places a team, set or reel share when room allows. (R86) -/
  | placementDecision (saved : Bool) (k : Nat) (i : Nat) (choice : Nat)
  /-- A part receiving RESERVE holds room and grants, revokes a younger hold, queues or refuses. (R91) -/
  | reserve (r : Rx)
  /-- The coordinator receives a GRANT and commits when all have granted. (R91) -/
  | grant (r : Rx)
  /-- A part places its members from held room and answers PLACED. (R91) -/
  | commit (r : Rx)
  /-- The coordinator sends START when every part has placed. (R91) -/
  | placed (r : Rx)
  /-- A part lets its reel members issue their first packets. (R91) -/
  | start (r : Rx)
  /-- The coordinator releases grants and schedules a retry. (R92) -/
  | revoke (r : Rx)
  /-- The coordinator releases grants and schedules a retry. (R92) -/
  | refuse (r : Rx)
  /-- The reel launch is rejected with reason 0x0c. (R92) -/
  | refuseFinal (r : Rx)
  /-- A part releases the room held for a reel. (R92) -/
  | release (r : Rx)
  /-- A grant held 1 ms without COMMIT is released and revoked. (R92) -/
  | reserveHoldTimeout (key : Nat)
  /-- A part silent for 1 ms counts as refused. (R92) -/
  | reserveAnswerTimeout (key : Nat) (part : Nat)
  /-- The coordinator retries reel placement 100 µs after a failure. (R92) -/
  | reserveRetry (key : Nat)
  /-- Every 256 cycles each tenant's deficit counter gains its weight. (R125) -/
  | deficitRefill
  /-- A gang not ready for 64 cycles is swapped out of the active set. (R127) -/
  | activeSetIdleEvict (gid : Nat)
  /-- A gang active for 16,384 cycles leaves the active set. (R127) -/
  | activeQuantumExpire (gid : Nat)
  /-- Write-back and load of a swap end and the entering gang may issue. (R128) -/
  | gangSwapComplete (gid : Nat)
  /-- A parked split's wait condition becomes true and it goes on. (R126) -/
  | splitUnpark (gid : Nat) (k : Nat)
  /-- A queued power request is granted when its allowance fits the pool. (R98) -/
  | powerGrant
  /-- Power above 1,600 W for 1 ms halves matrix rates and sets THROTTLE. (R98) -/
  | powerOverLimit
  /-- Measured power below 1,500 W ends the throttle. (R98) -/
  | powerThrottleClear
  /-- A load lane's data returns and writes its register. (R226) -/
  | loadReturn (gid : Nat) (seq : Nat) (lane : Nat) (evict : Bool)
  /-- A store lane is acknowledged by its point of coherence. (R220) -/
  | storeAck (gid : Nat) (seq : Nat) (lane : Nat)
  /-- An atomic lane is performed and returns the old value. (R229) -/
  | atomicReturn (gid : Nat) (seq : Nat) (lane : Nat)
  /-- A recalled thread access proceeds once the engine finishes the line. (R224) -/
  | recallComplete (gid : Nat) (seq : Nat) (lane : Nat) (store : Bool)
  /-- A device-half table walk returns a translation or a fault. (R347) -/
  | pageWalkComplete (core : Nat) (c : Nat) (va : Nat)
  /-- A copy sector is written at its point of coherence and counted on its barrier. (R244) -/
  | copySectorWrite (core : Nat) (idx : Nat) (sector : Nat)
  /-- A copy completes, lowers cp and frees its record. (R245) -/
  | copyComplete (core : Nat) (idx : Nat)
  /-- A copy stops with a fault, becomes FAULTED and sets FLT. (R246) -/
  | copyFault (core : Nat) (idx : Nat) (sector : Nat) (ecc : Bool)
  /-- An NVMe read command of a storage copy completes. (R249) -/
  | nvmeCompletion (core : Nat) (id : Nat) (pos : Nat) (status : Nat) (block : Nat) (data : Nat)
  /-- A tile operation finishes writing and tm falls. (R280) -/
  | tileOpComplete (team : Nat)
  /-- A tile operation ends on ECC or scale translation fault. (R283) -/
  | tileOpFault (team : Nat) (ecc : Bool)
  /-- A stream operation finishes and tm falls. (R305) -/
  | streamOpComplete (team : Nat) (seq : Nat)
  /-- A stream operation ends after issue with a fault. (R303) -/
  | streamOpFault (team : Nat) (seq : Nat) (ecc : Bool)
  /-- A search operation writes its results and tm falls. (R233) -/
  | searchOpComplete (core : Nat)
  /-- A vdist row read translation fault ends the operation. (R235) -/
  | searchOpFault (core : Nat)
  /-- A participant's collective destination is written and tm falls. (R327) -/
  | collectiveComplete (team : Nat) (tag : Nat) (k : Nat)
  /-- A service team completes a batch slot, delivering results and ending the wait. (R373) -/
  | svcDone (core : Nat) (slot : Nat)
  /-- A gang parked in a service wait is saved and its window freed. (R371) -/
  | gangSwapOut (gid : Nat)
  /-- A swapped-out gang is restored to its core when room exists. (R371) -/
  | gangSwapIn (gid : Nat)
  /-- A team's slot and resources are freed when all its work has ended. (R407) -/
  | teamSlotFree (team : Nat)
  /-- A grid retires, raising its timeline and writing a completion entry. (R408) -/
  | gridRetire (k : Nat)
  /-- GS.CTL RESUME resumes a gang's halted splits. (R442) -/
  | gangResume (ld : Nat) (c : Nat)
  /-- GS.CTL END ends every lane of the selected gang. (R356) -/
  | gangEnd (ld : Nat) (c : Nat)
  /-- Cuts the context and saves its teams to the save area. (R383) -/
  | preempt (ld : Nat) (c : Nat) (brk : Bool)
  /-- The save finishes and the context becomes SAVED. (R383) -/
  | preemptSaveComplete (c : Nat)
  /-- Places the saved teams again and resumes the context. (R383) -/
  | contextResume (ld : Nat) (c : Nat) (brk : Bool)
  /-- Cuts the context and forms a frozen twin. (R386) -/
  | twin (ld : Nat) (c : Nat) (brk : Bool)
  /-- A core finishes writing the twin's teams and the original goes on. (R386) -/
  | twinWriteComplete (c : Nat) (core : Nat)
  /-- Runs one packet of a frozen twin's selected gang and saves it back. (R389) -/
  | step (ld : Nat) (c : Nat) (brk : Bool)
  /-- The step's operations end and the twin is written back. (R389) -/
  | stepComplete (c : Nat)
  /-- Places a frozen twin and runs it as a rival. (R390) -/
  | rival (ld : Nat) (c : Nat) (brk : Bool)
  /-- Ends a twin and returns its private frames. (R392) -/
  | discard (ld : Nat) (c : Nat) (brk : Bool)
  /-- Sets the twin-view address, ignoring a misaligned value. (R393) -/
  | ccMemaWrite (ld : Nat) (c : Nat) (v : Nat)
  /-- Reads 8 bytes of a frozen twin's view and advances CC.MEMA. (R393) -/
  | ccMemdRead (ld : Nat) (c : Nat)
  /-- Writes 8 bytes into a frozen twin's view and advances CC.MEMA. (R393) -/
  | ccMemdWrite (ld : Nat) (c : Nat) (v : Nat)
  /-- A member part receiving a CUT marker takes its cut and sends its own. (R380) -/
  | cut (r : Rx)
  /-- A first write to a shared granule waits while it is copied into a pool frame. (R387) -/
  | cowCopy (c : Nat) (va : Nat)
  /-- A freed frame is written to the return ring, waiting for room. (R350) -/
  | frameReturn (c : Nat)
  /-- SN.CTL SNAP takes a snapshot now. (R400) -/
  | snap (ld : Nat) (c : Nat) (v : Nat)
  /-- Loads a snapshot image into a saved context. (R405) -/
  | restore (ld : Nat) (c : Nat) (v : Nat) (image : Option Machine.SnapImage)
  /-- The image has been written back and the trigger recorded. (R405) -/
  | restoreComplete (c : Nat)
  /-- A snapshot block write is accepted only while idle. (R400) -/
  | snapshotBlockWrite (ld : Nat) (c : Nat) (off : Nat) (n : Nat) (v : Nat)
  /-- The held raise is applied once every member part has cut. (R401) -/
  | snapshotRaiseRelease (c : Nat)
  /-- The snapshot image is written, or fails on size or a lost granule. (R403) -/
  | snapshotWriteComplete (c : Nat)
  /-- A partner writes received SNAP cells into its receive buffer. (R404) -/
  | snapReceive (r : Rx)
  /-- The partner acknowledges the whole copy and DONE advances. (R404) -/
  | snapshotCopyAck (r : Rx)
  /-- A partner silent for 1 ms fails the snapshot. (R404) -/
  | snapshotPartnerTimeout (c : Nat)
  /-- At each slot a port sends a control, reserved or oldest cell. (R317) -/
  | fabricSlot (port : Nat) (slot : Nat)
  /-- A LINE_WR cell writes its masked sectors. (R316) -/
  | lineWrReceive (r : Rx)
  /-- A LINE_RQ cell is answered with LINE_DATA. (R316) -/
  | lineRqReceive (r : Rx)
  /-- LINE_DATA answering a line read arrives. (R316) -/
  | lineDataReceive (r : Rx)
  /-- A SMALL cell's request, response or acknowledgement entries are handled. (R319) -/
  | smallReceive (r : Rx)
  /-- Collective data arrives for a participant. (R327) -/
  | collReceive (r : Rx)
  /-- Multicast collective data arrives. (R327) -/
  | mcastReceive (r : Rx)
  /-- REMOTE rsadd pairs or rsnorm.reel contributions arrive and are applied. (R294) -/
  | streamReceive (r : Rx)
  /-- A window barrier arrival cell is counted. (R312) -/
  | wbarReceive (r : Rx)
  /-- A member state change is applied to the window table copy. (R308) -/
  | wstateReceive (r : Rx)
  /-- An LCTL ACK releases cells from the replay buffer. (R320) -/
  | linkAck (port : Nat) (lseq : Nat)
  /-- An LCTL NAK resends from the NAKed cell. (R320) -/
  | linkNak (port : Nat) (lseq : Nat)
  /-- No acknowledgement for 2 µs causes a resend. (R320) -/
  | linkReplayTimeout (port : Nat)
  /-- A cell with a failing CRC or out of order is discarded and NAKed. (R320) -/
  | cellCrcFail (port : Nat) (header : Bool)
  /-- A poisoned cell is discarded, acknowledged and counted. (R321) -/
  | tailxReceive (port : Nat) (lseq : Nat)
  /-- A part silent for 1 ms is declared down and its members depart. (R321) -/
  | peerDownTimeout (part : Nat)
  /-- A remote lane without reply for 1 ms faults PEER_DOWN. (R324) -/
  | remoteReplyTimeout (part : Nat) (plane : Nat) (seq : Nat) (idx : Nat)
  /-- The host snoops or recalls a CXL.cache line from a die L2. (R332) -/
  | hostSnoop (ld : Nat) (ha : Nat) (n : Nat) (data : Nat)
  /-- A host address translation answer arrives. (R348) -/
  | hostTranslationAnswer (m : Machine.HostMap)
  /-- The host invalidates a translation, dropped part-wide. (R348) -/
  | hostTranslationInvalidate (ld : Nat) (va : Nat)
  /-- A zero-length read completes, acknowledging earlier CXL.io stores. (R335) -/
  | zeroLengthReadComplete (ld : Nat) (page : Nat) (n : Nat)
  /-- An AtomicOp completion delivers values, falls back or faults. (R341) -/
  | atomicopCompletion (ld : Nat) (ha : Nat) (ur : Bool) (status : Nat)
  /-- No AtomicOp completion within 50 ms faults the lanes POISON. (R341) -/
  | atomicopTimeout (ld : Nat) (ha : Nat)
  /-- A host read of the timeline region is answered shared. (R343) -/
  | timelineHostRead (ld : Nat) (off : Nat)
  /-- A host store or ownership request to the timeline region is discarded and counted. (R343) -/
  | timelineHostStore (ld : Nat) (off : Nat)
  /-- After all back-invalidations are answered, the raised value is written. (R343) -/
  | timelineRaiseWrite (k : Nat)
  /-- Traffic moves to the other link and outstanding AtomicOps fault. (R411, R412) -/
  | hostLinkDown (link : LinkDown)
  /-- The fabric manager binds a logical device to a host. (R409) -/
  | ldBind (ld : Nat) (host : Nat) (link : Fin 2) (width : Nat) (rate : Nat) (tlfirst : Nat) (tlcount : Nat) (qfirst : Nat) (qcount : Nat) (cache : Bool)
  /-- Power-on or fundamental reset returns everything to reset values. (R415) -/
  | coldReset
  /-- DEV.RESET resets the part keeping links and bindings. (R415) -/
  | warmReset (ld : Nat) (v : Nat)
  /-- Function-level reset of one logical device. (R415) -/
  | logicalDeviceReset (ld : Nat)
  /-- Device memory zeroing ends and FW.STAT becomes HELD. (R415) -/
  | memoryZeroDone
  /-- FW.CTL LOAD starts reading and verifying a firmware image. (R417) -/
  | firmwareLoad (ld : Nat)
  /-- Image verification ends in RUNNING or FAILED. (R417) -/
  | firmwareLoadComplete
  /-- FW.CTL STOP stops the firmware core at the end of its visit. (R417) -/
  | firmwareStop (ld : Nat)
  /-- AT.CTL starts an attestation report for the nonce. (R418) -/
  | attest (ld : Nat) (v : Nat)
  /-- The signed report is written and AT.CTL[8] reads 1. (R418) -/
  | attestReportDone (ld : Nat)
  /-- FEAT.CTL asks the firmware to set FEAT.ON. (R419) -/
  | featureRequest (ld : Nat) (v : Nat)
  /-- Sets the power pool within range. (R420) -/
  | pwrCapWrite (ld : Nat) (v : Nat)
  /-- Sets the host atomic route, ignoring forbidden values. (R333) -/
  | arouteWrite (ld : Nat) (v : Nat)
  /-- The firmware sets FEAT.ON from FEAT.CAP and FEAT.REQ, and FEAT.CTL[1] then reads 1, which allows the device's queues to be enabled. (R419) -/
  | featureNegotiationDone (ld : Nat)
  /-- A member part of a reel receives another member's save-area-size answer for a PREEMPT, and then either takes the cut or refuses with ERR 0x07. (R383) -/
  | preemptAnswerReceive (r : Rx)
  deriving DecidableEq, Repr

end Sys2Proof
end

