-- ==== Sys2Proof/WellFormed.lean ====
section
/-! DEFINITION. Which instruction terms have a word (spec/05 R112, R114, R116, R119, R121): a term that is not well
formed is one the machine raises ILLEGAL for, or one no word spells. An event has no word and is always well formed. -/

namespace Sys2Proof

/-- The coded fields hold assigned values and the excluded patterns are excluded (R112, R121). -/
def Instr.wf : Instr → Bool
  | .sadd d a b => !(d.val == 0 && a.val == 0 && b.val == 0)
  | .vsel p _ _ _ => p.val != 0
  | .cvt y _ _ x s => y != x && (y == .slot || x == .slot || s.val == 0)
  | .ldGlobal _ _ _ v _ => v != some 127
  | .stGlobal _ _ _ v _ => v != some 127
  | .pf _ v => v != some 127
  | .ldWindow _ _ _ v _ => v != some 127
  | .stWindow _ _ _ v _ => v != some 127
  | .ldLocal _ _ _ v _ => v != some 127
  | .stLocal _ _ _ v _ => v != some 127
  | .atomGlobal32 _ _ _ v _ => v != some 127
  | .atomGlobal64 _ _ _ v _ => v != some 127
  | .atomLocal32 _ _ _ v _ => v != some 127
  | .atomLocal64 _ _ _ v _ => v != some 127
  | .regang m => m != 0
  | .regangWait m => m != 0
  | .pwreq c => c.val != 0
  | .pwreqYield c => c.val != 0
  | .fence o _ => o.val != 0
  | .phbinit _ n => n.val != 0
  | .ssub _ _ _ | .smul _ _ _ | .smulhI64 _ _ _ | .smulhN64 _ _ _ | .sdivI64 _ _ _ | .sdivN64 _ _ _
  | .sremI64 _ _ _ | .sremN64 _ _ _ | .sand _ _ _ | .sor _ _ _ | .sxor _ _ _ | .snot _ _ | .sshl _ _ _
  | .sshr _ _ _ | .ssra _ _ _ | .smin _ _ _ | .smax _ _ _ | .sminn _ _ _ | .smaxn _ _ _ | .ssel _ _ _
  | .smov _ _ | .sclz _ _ | .spopc _ _ | .sbfxI64 _ _ _ | .sbfxN64 _ _ _ | .sbfi _ _ _ | .scmp _ _ _ _
  | .sli _ _ | .slit _ _ | .slitN32 _ _ | .aset _ _ _ | .aadd _ _ _ _ | .astr _ _ _ | .amul _ _ _ _
  | .aidx _ _ _ | .aget _ _ | .pand _ _ _ | .por _ _ _ | .pxor _ _ _ | .pnot _ _ | .pmov _ _ | .pcnt _ _
  | .vaddVv _ _ _ | .vaddVx _ _ _ | .vsubVv _ _ _ | .vsubVx _ _ _ | .vmulVv _ _ _ | .vmulVx _ _ _
  | .vmulhI32Vv _ _ _ | .vmulhI32Vx _ _ _ | .vmulhN32Vv _ _ _ | .vmulhN32Vx _ _ _ | .vmadVv _ _ _
  | .vmadVx _ _ _ | .vsaddI32Vv _ _ _ | .vsaddI32Vx _ _ _ | .vsaddN32Vv _ _ _ | .vsaddN32Vx _ _ _
  | .vssubI32Vv _ _ _ | .vssubI32Vx _ _ _ | .vssubN32Vv _ _ _ | .vssubN32Vx _ _ _ | .vminVv _ _ _
  | .vminVx _ _ _ | .vmaxVv _ _ _ | .vmaxVx _ _ _ | .vminnVv _ _ _ | .vminnVx _ _ _ | .vmaxnVv _ _ _
  | .vmaxnVx _ _ _ | .vandVv _ _ _ | .vandVx _ _ _ | .vorVv _ _ _ | .vorVx _ _ _ | .vxorVv _ _ _
  | .vxorVx _ _ _ | .vshlVv _ _ _ | .vshlVx _ _ _ | .vshrVv _ _ _ | .vshrVx _ _ _ | .vsraVv _ _ _
  | .vsraVx _ _ _ | .vbfxI32Vv _ _ _ | .vbfxI32Vx _ _ _ | .vbfxN32Vv _ _ _ | .vbfxN32Vx _ _ _ | .vbfiVv _ _ _
  | .vbfiVx _ _ _ | .vnot _ _ | .vabs _ _ | .vneg _ _ | .vclz _ _ | .vpopc _ _ | .vmov _ _ | .vli _ _
  | .vcmpVv _ _ _ _ | .vcmpVx _ _ _ _ | .vshflIdx _ _ _ | .vshflIdxChk _ _ _ | .vredAdd _ _ | .vredMin _ _
  | .vredMax _ _ | .vscanAdd _ _ | .vballot _ _ | .vvoteAny _ _ | .vvoteAll _ _ | .vshflUp _ _ _
  | .vshflUpChk _ _ _ | .vshflDn _ _ _ | .vshflDnChk _ _ _ | .vshflXor _ _ _ | .vshflXorChk _ _ _
  | .vbcast _ _ _ | .vbcastChk _ _ _ | .fadd _ _ _ _ | .fsub _ _ _ _ | .fmul _ _ _ _ | .ffma _ _ _ _
  | .fmin _ _ _ _ | .fmax _ _ _ _ | .fabs _ _ _ | .fneg _ _ _ | .frcp _ _ _ | .frsq _ _ _ | .fsqrt _ _ _
  | .fexp2 _ _ _ | .flog2 _ _ _ | .fround _ _ _ _ | .fcmp _ _ _ _ _ | .cvtp _ _ _ _ | .rld _ _ _ _ _
  | .rst _ _ _ _ _ | .ratom _ _ _ _ _ | .cpy _ _ _ _ _ | .cpyc _ _ _ _ _ | .cpyq _ _ | .cpys _ _ _ _
  | .cpyst _ _ | .cpyres _ | .cpycan _ | .tmm _ _ _ _ | .tmms _ _ _ _ | .tzero _ | .tepi _ _ _ _ | .ttrn _ _
  | .rsinit _ _ _ | .rsaddVector _ _ _ _ | .rsaddAb _ _ _ _ | .rsnorm _ _ _ _ | .rsnormReel _ _ _ _
  | .rsq _ _ | .rssave _ _ _ | .rsload _ _ _ _ | .rsfenceTeam | .rsfenceSet | .rsfenceReel | .cred _ _ _ _ _
  | .cbc _ _ _ _ | .cgat _ _ _ _ | .vdist _ _ _ _ | .topk _ _ _ | .topkm _ _ _ | .topkr _ _ _ | .nop | .exit
  | .yield | .brk _ | .join | .elect _ | .ret | .jmp _ | .launch _ | .ljoin _ | .wdetach | .wmember _
  | .pwrel | .waitcnt _ _ _ _ _ | .br _ | .brc _ _ | .call _ | .jpt _ | .bar _ _ | .phbarr _ | .phbexp _ _
  | .phbtest _ _ _ | .phbwait _ _ | .wbar | .tlsig _ _ | .tlwait _ _ | .tlread _ _ | .qpost _ _ | .qtail _ _
  | .sysrd _ _ | .syswr _ _ | .svc _ | .hret _ | .pgmap _ | .pginv _ | .fltrd _ _ | .qfetch _ | .qdisp
  | .qcomp | .fetchBlock _ _ _ | .nopPacket _ | .launchPacket _ | .waitPacket _ | .signalPacket _
  | .barrierPacket _ | .writePacket _ | .headWriteback _ | .completionEntryWrite _ | .cqCoalesceTimer _
  | .fwVisitTimeout | .fwImemUncorrectable _ | .queueTableUncorrectable _ | .tailWrite _ _ _ _
  | .queueEnable _ _ _ | .queueDisable _ _ _ | .contextBind _ _ _ | .cqheadWrite _ _ _ | .qStaleRead _ _
  | .nrejRead _ _ | .tlStaleRead _ | .fqLostRead _ _ | .fqSpecRead _ _ | .hostAstatRead _
  | .portCounterRead _ | .notwinRead _ _ | .fwErrClear | .registerWrite _ _ _ _ | .placementDecision _ _ _ _
  | .reserve _ | .grant _ | .commit _ | .placed _ | .start _ | .revoke _ | .refuse _ | .refuseFinal _
  | .release _ | .reserveHoldTimeout _ | .reserveAnswerTimeout _ _ | .reserveRetry _ | .deficitRefill
  | .activeSetIdleEvict _ | .activeQuantumExpire _ | .gangSwapComplete _ | .splitUnpark _ _ | .powerGrant
  | .powerOverLimit | .powerThrottleClear | .loadReturn _ _ _ _ | .storeAck _ _ _ | .atomicReturn _ _ _
  | .recallComplete _ _ _ _ | .pageWalkComplete _ _ _ | .copySectorWrite _ _ _ | .copyComplete _ _
  | .copyFault _ _ _ _ | .nvmeCompletion _ _ _ _ _ _ | .tileOpComplete _ | .tileOpFault _ _
  | .streamOpComplete _ _ | .streamOpFault _ _ _ | .searchOpComplete _ | .searchOpFault _
  | .collectiveComplete _ _ _ | .svcDone _ _ | .gangSwapOut _ | .gangSwapIn _ | .teamSlotFree _
  | .gridRetire _ | .gangResume _ _ | .gangEnd _ _ | .preempt _ _ _ | .preemptSaveComplete _
  | .contextResume _ _ _ | .twin _ _ _ | .twinWriteComplete _ _ | .step _ _ _ | .stepComplete _
  | .rival _ _ _ | .discard _ _ _ | .ccMemaWrite _ _ _ | .ccMemdRead _ _ | .ccMemdWrite _ _ _ | .cut _
  | .cowCopy _ _ | .frameReturn _ | .snap _ _ _ | .restore _ _ _ _ | .restoreComplete _
  | .snapshotBlockWrite _ _ _ _ _ | .snapshotRaiseRelease _ | .snapshotWriteComplete _ | .snapReceive _
  | .snapshotCopyAck _ | .snapshotPartnerTimeout _ | .fabricSlot _ _ | .lineWrReceive _ | .lineRqReceive _
  | .lineDataReceive _ | .smallReceive _ | .collReceive _ | .mcastReceive _ | .streamReceive _
  | .wbarReceive _ | .wstateReceive _ | .linkAck _ _ | .linkNak _ _ | .linkReplayTimeout _ | .cellCrcFail _ _
  | .tailxReceive _ _ | .peerDownTimeout _ | .remoteReplyTimeout _ _ _ _ | .hostSnoop _ _ _ _
  | .hostTranslationAnswer _ | .hostTranslationInvalidate _ _ | .zeroLengthReadComplete _ _ _
  | .atomicopCompletion _ _ _ _ | .atomicopTimeout _ _ | .timelineHostRead _ _ | .timelineHostStore _ _
  | .timelineRaiseWrite _ | .hostLinkDown _ | .ldBind _ _ _ _ _ _ _ _ _ _ | .coldReset | .warmReset _ _
  | .logicalDeviceReset _ | .memoryZeroDone | .firmwareLoad _ | .firmwareLoadComplete | .firmwareStop _
  | .attest _ _ | .attestReportDone _ | .featureRequest _ _ | .pwrCapWrite _ _ | .arouteWrite _ _
  | .featureNegotiationDone _ | .preemptAnswerReceive _ => true

/-- Whether the constructor is an instruction word, not an event (spec/95: "the part's steps"). -/
def Instr.isWord : Instr → Bool
  | .sadd _ _ _ | .ssub _ _ _ | .smul _ _ _ | .smulhI64 _ _ _ | .smulhN64 _ _ _ | .sdivI64 _ _ _
  | .sdivN64 _ _ _ | .sremI64 _ _ _ | .sremN64 _ _ _ | .sand _ _ _ | .sor _ _ _ | .sxor _ _ _ | .snot _ _
  | .sshl _ _ _ | .sshr _ _ _ | .ssra _ _ _ | .smin _ _ _ | .smax _ _ _ | .sminn _ _ _ | .smaxn _ _ _
  | .ssel _ _ _ | .smov _ _ | .sclz _ _ | .spopc _ _ | .sbfxI64 _ _ _ | .sbfxN64 _ _ _ | .sbfi _ _ _
  | .scmp _ _ _ _ | .sli _ _ | .slit _ _ | .slitN32 _ _ | .aset _ _ _ | .aadd _ _ _ _ | .astr _ _ _
  | .amul _ _ _ _ | .aidx _ _ _ | .aget _ _ | .pand _ _ _ | .por _ _ _ | .pxor _ _ _ | .pnot _ _ | .pmov _ _
  | .pcnt _ _ | .vaddVv _ _ _ | .vaddVx _ _ _ | .vsubVv _ _ _ | .vsubVx _ _ _ | .vmulVv _ _ _ | .vmulVx _ _ _
  | .vmulhI32Vv _ _ _ | .vmulhI32Vx _ _ _ | .vmulhN32Vv _ _ _ | .vmulhN32Vx _ _ _ | .vmadVv _ _ _
  | .vmadVx _ _ _ | .vsaddI32Vv _ _ _ | .vsaddI32Vx _ _ _ | .vsaddN32Vv _ _ _ | .vsaddN32Vx _ _ _
  | .vssubI32Vv _ _ _ | .vssubI32Vx _ _ _ | .vssubN32Vv _ _ _ | .vssubN32Vx _ _ _ | .vminVv _ _ _
  | .vminVx _ _ _ | .vmaxVv _ _ _ | .vmaxVx _ _ _ | .vminnVv _ _ _ | .vminnVx _ _ _ | .vmaxnVv _ _ _
  | .vmaxnVx _ _ _ | .vandVv _ _ _ | .vandVx _ _ _ | .vorVv _ _ _ | .vorVx _ _ _ | .vxorVv _ _ _
  | .vxorVx _ _ _ | .vshlVv _ _ _ | .vshlVx _ _ _ | .vshrVv _ _ _ | .vshrVx _ _ _ | .vsraVv _ _ _
  | .vsraVx _ _ _ | .vbfxI32Vv _ _ _ | .vbfxI32Vx _ _ _ | .vbfxN32Vv _ _ _ | .vbfxN32Vx _ _ _ | .vbfiVv _ _ _
  | .vbfiVx _ _ _ | .vsel _ _ _ _ | .vnot _ _ | .vabs _ _ | .vneg _ _ | .vclz _ _ | .vpopc _ _ | .vmov _ _
  | .vli _ _ | .vcmpVv _ _ _ _ | .vcmpVx _ _ _ _ | .vshflIdx _ _ _ | .vshflIdxChk _ _ _ | .vredAdd _ _
  | .vredMin _ _ | .vredMax _ _ | .vscanAdd _ _ | .vballot _ _ | .vvoteAny _ _ | .vvoteAll _ _
  | .vshflUp _ _ _ | .vshflUpChk _ _ _ | .vshflDn _ _ _ | .vshflDnChk _ _ _ | .vshflXor _ _ _
  | .vshflXorChk _ _ _ | .vbcast _ _ _ | .vbcastChk _ _ _ | .fadd _ _ _ _ | .fsub _ _ _ _ | .fmul _ _ _ _
  | .ffma _ _ _ _ | .fmin _ _ _ _ | .fmax _ _ _ _ | .fabs _ _ _ | .fneg _ _ _ | .frcp _ _ _ | .frsq _ _ _
  | .fsqrt _ _ _ | .fexp2 _ _ _ | .flog2 _ _ _ | .fround _ _ _ _ | .fcmp _ _ _ _ _ | .cvt _ _ _ _ _
  | .cvtp _ _ _ _ | .ldGlobal _ _ _ _ _ | .stGlobal _ _ _ _ _ | .pf _ _ | .ldWindow _ _ _ _ _
  | .stWindow _ _ _ _ _ | .ldLocal _ _ _ _ _ | .stLocal _ _ _ _ _ | .atomGlobal32 _ _ _ _ _
  | .atomGlobal64 _ _ _ _ _ | .atomLocal32 _ _ _ _ _ | .atomLocal64 _ _ _ _ _ | .rld _ _ _ _ _
  | .rst _ _ _ _ _ | .ratom _ _ _ _ _ | .cpy _ _ _ _ _ | .cpyc _ _ _ _ _ | .cpyq _ _ | .cpys _ _ _ _
  | .cpyst _ _ | .cpyres _ | .cpycan _ | .tmm _ _ _ _ | .tmms _ _ _ _ | .tzero _ | .tepi _ _ _ _ | .ttrn _ _
  | .rsinit _ _ _ | .rsaddVector _ _ _ _ | .rsaddAb _ _ _ _ | .rsnorm _ _ _ _ | .rsnormReel _ _ _ _
  | .rsq _ _ | .rssave _ _ _ | .rsload _ _ _ _ | .rsfenceTeam | .rsfenceSet | .rsfenceReel | .cred _ _ _ _ _
  | .cbc _ _ _ _ | .cgat _ _ _ _ | .vdist _ _ _ _ | .topk _ _ _ | .topkm _ _ _ | .topkr _ _ _ | .nop | .exit
  | .yield | .brk _ | .join | .elect _ | .regang _ | .regangWait _ | .ret | .jmp _ | .launch _ | .ljoin _
  | .wdetach | .wmember _ | .pwreq _ | .pwreqYield _ | .pwrel | .fence _ _ | .waitcnt _ _ _ _ _ | .br _
  | .brc _ _ | .call _ | .jpt _ | .bar _ _ | .phbinit _ _ | .phbarr _ | .phbexp _ _ | .phbtest _ _ _
  | .phbwait _ _ | .wbar | .tlsig _ _ | .tlwait _ _ | .tlread _ _ | .qpost _ _ | .qtail _ _ | .sysrd _ _
  | .syswr _ _ | .svc _ | .hret _ | .pgmap _ | .pginv _ | .fltrd _ _ | .qfetch _ | .qdisp | .qcomp => true
  | .fetchBlock _ _ _ | .nopPacket _ | .launchPacket _ | .waitPacket _ | .signalPacket _ | .barrierPacket _
  | .writePacket _ | .headWriteback _ | .completionEntryWrite _ | .cqCoalesceTimer _ | .fwVisitTimeout
  | .fwImemUncorrectable _ | .queueTableUncorrectable _ | .tailWrite _ _ _ _ | .queueEnable _ _ _
  | .queueDisable _ _ _ | .contextBind _ _ _ | .cqheadWrite _ _ _ | .qStaleRead _ _ | .nrejRead _ _
  | .tlStaleRead _ | .fqLostRead _ _ | .fqSpecRead _ _ | .hostAstatRead _ | .portCounterRead _
  | .notwinRead _ _ | .fwErrClear | .registerWrite _ _ _ _ | .placementDecision _ _ _ _ | .reserve _
  | .grant _ | .commit _ | .placed _ | .start _ | .revoke _ | .refuse _ | .refuseFinal _ | .release _
  | .reserveHoldTimeout _ | .reserveAnswerTimeout _ _ | .reserveRetry _ | .deficitRefill
  | .activeSetIdleEvict _ | .activeQuantumExpire _ | .gangSwapComplete _ | .splitUnpark _ _ | .powerGrant
  | .powerOverLimit | .powerThrottleClear | .loadReturn _ _ _ _ | .storeAck _ _ _ | .atomicReturn _ _ _
  | .recallComplete _ _ _ _ | .pageWalkComplete _ _ _ | .copySectorWrite _ _ _ | .copyComplete _ _
  | .copyFault _ _ _ _ | .nvmeCompletion _ _ _ _ _ _ | .tileOpComplete _ | .tileOpFault _ _
  | .streamOpComplete _ _ | .streamOpFault _ _ _ | .searchOpComplete _ | .searchOpFault _
  | .collectiveComplete _ _ _ | .svcDone _ _ | .gangSwapOut _ | .gangSwapIn _ | .teamSlotFree _
  | .gridRetire _ | .gangResume _ _ | .gangEnd _ _ | .preempt _ _ _ | .preemptSaveComplete _
  | .contextResume _ _ _ | .twin _ _ _ | .twinWriteComplete _ _ | .step _ _ _ | .stepComplete _
  | .rival _ _ _ | .discard _ _ _ | .ccMemaWrite _ _ _ | .ccMemdRead _ _ | .ccMemdWrite _ _ _ | .cut _
  | .cowCopy _ _ | .frameReturn _ | .snap _ _ _ | .restore _ _ _ _ | .restoreComplete _
  | .snapshotBlockWrite _ _ _ _ _ | .snapshotRaiseRelease _ | .snapshotWriteComplete _ | .snapReceive _
  | .snapshotCopyAck _ | .snapshotPartnerTimeout _ | .fabricSlot _ _ | .lineWrReceive _ | .lineRqReceive _
  | .lineDataReceive _ | .smallReceive _ | .collReceive _ | .mcastReceive _ | .streamReceive _
  | .wbarReceive _ | .wstateReceive _ | .linkAck _ _ | .linkNak _ _ | .linkReplayTimeout _ | .cellCrcFail _ _
  | .tailxReceive _ _ | .peerDownTimeout _ | .remoteReplyTimeout _ _ _ _ | .hostSnoop _ _ _ _
  | .hostTranslationAnswer _ | .hostTranslationInvalidate _ _ | .zeroLengthReadComplete _ _ _
  | .atomicopCompletion _ _ _ _ | .atomicopTimeout _ _ | .timelineHostRead _ _ | .timelineHostStore _ _
  | .timelineRaiseWrite _ | .hostLinkDown _ | .ldBind _ _ _ _ _ _ _ _ _ _ | .coldReset | .warmReset _ _
  | .logicalDeviceReset _ | .memoryZeroDone | .firmwareLoad _ | .firmwareLoadComplete | .firmwareStop _
  | .attest _ _ | .attestReportDone _ | .featureRequest _ _ | .pwrCapWrite _ _ | .arouteWrite _ _
  | .featureNegotiationDone _ | .preemptAnswerReceive _ => false

/-- A well-formed instruction word (R121). -/
abbrev Instr.Encodable (i : Instr) : Prop := i.wf = true ∧ i.isWord = true

end Sys2Proof
end

