-- ==== Sys2Proof/Decode.lean ====
section
/-! DEFINITION. From instruction words to instructions and back (spec/05 R102, R103, R110 to R121). `decode` reads the
words that begin at an instruction and answers the instruction with the words that follow it, or why there is none;
bit 31 (K) belongs to the packet and is not looked at. `encode` is the other way, with K clear. -/

namespace Sys2Proof

/-- Why a word is no instruction (R103, R112, R121). -/
inductive DecodeError where
  | noWord               -- nothing to read
  | missingLiteral       -- an SL word with no word after it (R103)
  | allZero              -- the excluded all-zero pattern (R112)
  | unassignedMajor      -- MAJ is unassigned, or 0x3f (R112)
  | unassignedFunction   -- function, kind, flags or fn8 is unassigned under its MAJ
  | unassignedCode       -- a coded field holds an unassigned value
  | excludedForm         -- a zero mask, class, order or count, or types or a slot that a `cvt` excludes (R119, R207)
  | reservedBits         -- a reserved bit or an unused field is nonzero
  deriving DecidableEq, Repr

/-- What decoding answers. -/
abbrev Decoded := Except DecodeError Instr

/-- Bits [lo+n-1:lo] of `w`. -/
def fld (w lo n : Nat) : Nat := w / 2 ^ lo % 2 ^ n

/-- A scalar register field, or a vector register in a 6-bit field. -/
def fS (w lo : Nat) : Fin 64 := Fin.ofNat 64 (fld w lo 6)
/-- A vector register field. -/
def fV (w lo : Nat) : VReg := Fin.ofNat 128 (fld w lo 7)
/-- An affine register field. -/
def fA (w lo : Nat) : AReg := Fin.ofNat 16 (fld w lo 4)
/-- A predicate register or format slot field. -/
def fP (w lo : Nat) : Fin 8 := Fin.ofNat 8 (fld w lo 3)

/-- A field whose code must be assigned (R121). -/
def coded {α : Type} (o : Option α) (k : α → Decoded) : Decoded :=
  match o with
  | some x => k x
  | none => .error .unassignedCode

/-- Bits that must be zero (R110, R121). -/
def zeroBits (z : Nat) (k : Decoded) : Decoded :=
  if z = 0 then k else .error .reservedBits

/-- An instruction that excludes some values of its fields (R119, R207). -/
def formed (i : Instr) : Decoded := if i.wf then .ok i else .error .excludedForm

/-- MAJ 0x00 (R113). -/
def decodeScalarRegister (w : Nat) : Decoded :=
  match fld w 19 6 with
  | 0 => if fld w 0 31 = 0 then .error .allZero else zeroBits (fld w 0 1) (.ok (.sadd (fS w 13) (fS w 7) (fS w 1)))
  | 1 => zeroBits (fld w 0 1) (.ok (.ssub (fS w 13) (fS w 7) (fS w 1)))
  | 2 => zeroBits (fld w 0 1) (.ok (.smul (fS w 13) (fS w 7) (fS w 1)))
  | 3 => zeroBits (fld w 0 1) (.ok (.smulhI64 (fS w 13) (fS w 7) (fS w 1)))
  | 4 => zeroBits (fld w 0 1) (.ok (.smulhN64 (fS w 13) (fS w 7) (fS w 1)))
  | 5 => zeroBits (fld w 0 1) (.ok (.sdivI64 (fS w 13) (fS w 7) (fS w 1)))
  | 6 => zeroBits (fld w 0 1) (.ok (.sdivN64 (fS w 13) (fS w 7) (fS w 1)))
  | 7 => zeroBits (fld w 0 1) (.ok (.sremI64 (fS w 13) (fS w 7) (fS w 1)))
  | 8 => zeroBits (fld w 0 1) (.ok (.sremN64 (fS w 13) (fS w 7) (fS w 1)))
  | 9 => zeroBits (fld w 0 1) (.ok (.sand (fS w 13) (fS w 7) (fS w 1)))
  | 10 => zeroBits (fld w 0 1) (.ok (.sor (fS w 13) (fS w 7) (fS w 1)))
  | 11 => zeroBits (fld w 0 1) (.ok (.sxor (fS w 13) (fS w 7) (fS w 1)))
  | 12 => zeroBits (fld w 0 7) (.ok (.snot (fS w 13) (fS w 7)))
  | 13 => zeroBits (fld w 0 1) (.ok (.sshl (fS w 13) (fS w 7) (fS w 1)))
  | 14 => zeroBits (fld w 0 1) (.ok (.sshr (fS w 13) (fS w 7) (fS w 1)))
  | 15 => zeroBits (fld w 0 1) (.ok (.ssra (fS w 13) (fS w 7) (fS w 1)))
  | 16 => zeroBits (fld w 0 1) (.ok (.smin (fS w 13) (fS w 7) (fS w 1)))
  | 17 => zeroBits (fld w 0 1) (.ok (.smax (fS w 13) (fS w 7) (fS w 1)))
  | 18 => zeroBits (fld w 0 1) (.ok (.sminn (fS w 13) (fS w 7) (fS w 1)))
  | 19 => zeroBits (fld w 0 1) (.ok (.smaxn (fS w 13) (fS w 7) (fS w 1)))
  | 20 => zeroBits (fld w 0 1) (.ok (.ssel (fS w 13) (fS w 7) (fS w 1)))
  | 21 => zeroBits (fld w 0 7) (.ok (.smov (fS w 13) (fS w 7)))
  | 22 => zeroBits (fld w 0 7) (.ok (.sclz (fS w 13) (fS w 7)))
  | 23 => zeroBits (fld w 0 7) (.ok (.spopc (fS w 13) (fS w 7)))
  | 24 => zeroBits (fld w 0 1) (.ok (.sbfxI64 (fS w 13) (fS w 7) (fS w 1)))
  | 25 => zeroBits (fld w 0 1) (.ok (.sbfxN64 (fS w 13) (fS w 7) (fS w 1)))
  | 26 => zeroBits (fld w 0 1) (.ok (.sbfi (fS w 13) (fS w 7) (fS w 1)))
  | 32 | 33 | 34 | 35 | 36 | 37 | 38 | 39 | 40 | 41 => zeroBits (fld w 0 1) <| coded (Cond.ofCode (fld w 19 4)) fun c => .ok (.scmp c (fS w 13) (fS w 7) (fS w 1))
  | _ => .error .unassignedFunction

/-- MAJ 0x01 (R113). -/
def decodeSli (w : Nat) : Decoded :=
  zeroBits (fld w 13 6) (.ok (.sli (fS w 19) (BitVec.ofNat 13 (fld w 0 13))))

/-- MAJ 0x02 (R113). -/
def decodeSlit (w : Nat) (lit : W32) : Decoded :=
  match fld w 19 6 with
  | 0 => zeroBits (fld w 0 13) (.ok (.slit (fS w 13) lit))
  | 1 => zeroBits (fld w 0 13) (.ok (.slitN32 (fS w 13) lit))
  | _ => .error .unassignedFunction

/-- MAJ 0x08 (R113). -/
def decodeAffine (w : Nat) : Decoded :=
  match fld w 21 4 with
  | 0 => zeroBits (fld w 13 4) (.ok (.aset (fA w 17) (fS w 7) (BitVec.ofNat 7 (fld w 0 7))))
  | 1 => .ok (.aadd (fA w 17) (fA w 13) (fS w 7) (BitVec.ofNat 7 (fld w 0 7)))
  | 2 => zeroBits (fld w 0 7) (.ok (.astr (fA w 17) (fA w 13) (fS w 7)))
  | 3 => .ok (.amul (fA w 17) (fA w 13) (fS w 7) (BitVec.ofNat 7 (fld w 0 7)))
  | 4 => zeroBits (fld w 7 6) (.ok (.aidx (fA w 17) (fA w 13) (BitVec.ofNat 7 (fld w 0 7))))
  | 5 => zeroBits (fld w 0 7 + fld w 17 4) (.ok (.aget (fA w 13) (fS w 7)))
  | _ => .error .unassignedFunction

/-- MAJ 0x09 (R113). -/
def decodePredicate (w : Nat) : Decoded :=
  match fld w 21 4 with
  | 0 => zeroBits (fld w 0 7 + fld w 10 3 + fld w 16 1 + fld w 20 1) (.ok (.pand (fP w 17) (fP w 13) (fP w 7)))
  | 1 => zeroBits (fld w 0 7 + fld w 10 3 + fld w 16 1 + fld w 20 1) (.ok (.por (fP w 17) (fP w 13) (fP w 7)))
  | 2 => zeroBits (fld w 0 7 + fld w 10 3 + fld w 16 1 + fld w 20 1) (.ok (.pxor (fP w 17) (fP w 13) (fP w 7)))
  | 3 => zeroBits (fld w 0 13 + fld w 16 1 + fld w 20 1) (.ok (.pnot (fP w 17) (fP w 13)))
  | 4 => zeroBits (fld w 0 13 + fld w 16 1 + fld w 20 1) (.ok (.pmov (fP w 17) (fP w 13)))
  | 5 => zeroBits (fld w 0 7 + fld w 16 5) (.ok (.pcnt (fP w 13) (fS w 7)))
  | _ => .error .unassignedFunction

/-- MAJ 0x10 (R114). -/
def decodeVectorArithVV (w : Nat) : Decoded :=
  match fld w 21 4 with
  | 0 => .ok (.vaddVv (fV w 14) (fV w 7) (fV w 0))
  | 1 => .ok (.vsubVv (fV w 14) (fV w 7) (fV w 0))
  | 2 => .ok (.vmulVv (fV w 14) (fV w 7) (fV w 0))
  | 3 => .ok (.vmulhI32Vv (fV w 14) (fV w 7) (fV w 0))
  | 4 => .ok (.vmulhN32Vv (fV w 14) (fV w 7) (fV w 0))
  | 5 => .ok (.vmadVv (fV w 14) (fV w 7) (fV w 0))
  | 6 => .ok (.vsaddI32Vv (fV w 14) (fV w 7) (fV w 0))
  | 7 => .ok (.vsaddN32Vv (fV w 14) (fV w 7) (fV w 0))
  | 8 => .ok (.vssubI32Vv (fV w 14) (fV w 7) (fV w 0))
  | 9 => .ok (.vssubN32Vv (fV w 14) (fV w 7) (fV w 0))
  | 10 => .ok (.vminVv (fV w 14) (fV w 7) (fV w 0))
  | 11 => .ok (.vmaxVv (fV w 14) (fV w 7) (fV w 0))
  | 12 => .ok (.vminnVv (fV w 14) (fV w 7) (fV w 0))
  | 13 => .ok (.vmaxnVv (fV w 14) (fV w 7) (fV w 0))
  | _ => .error .unassignedFunction

/-- MAJ 0x11 (R114). -/
def decodeVectorArithVX (w : Nat) : Decoded :=
  match fld w 21 4 with
  | 0 => .ok (.vaddVx (fV w 14) (fV w 7) (Src2.ofCode (fld w 0 7)))
  | 1 => .ok (.vsubVx (fV w 14) (fV w 7) (Src2.ofCode (fld w 0 7)))
  | 2 => .ok (.vmulVx (fV w 14) (fV w 7) (Src2.ofCode (fld w 0 7)))
  | 3 => .ok (.vmulhI32Vx (fV w 14) (fV w 7) (Src2.ofCode (fld w 0 7)))
  | 4 => .ok (.vmulhN32Vx (fV w 14) (fV w 7) (Src2.ofCode (fld w 0 7)))
  | 5 => .ok (.vmadVx (fV w 14) (fV w 7) (Src2.ofCode (fld w 0 7)))
  | 6 => .ok (.vsaddI32Vx (fV w 14) (fV w 7) (Src2.ofCode (fld w 0 7)))
  | 7 => .ok (.vsaddN32Vx (fV w 14) (fV w 7) (Src2.ofCode (fld w 0 7)))
  | 8 => .ok (.vssubI32Vx (fV w 14) (fV w 7) (Src2.ofCode (fld w 0 7)))
  | 9 => .ok (.vssubN32Vx (fV w 14) (fV w 7) (Src2.ofCode (fld w 0 7)))
  | 10 => .ok (.vminVx (fV w 14) (fV w 7) (Src2.ofCode (fld w 0 7)))
  | 11 => .ok (.vmaxVx (fV w 14) (fV w 7) (Src2.ofCode (fld w 0 7)))
  | 12 => .ok (.vminnVx (fV w 14) (fV w 7) (Src2.ofCode (fld w 0 7)))
  | 13 => .ok (.vmaxnVx (fV w 14) (fV w 7) (Src2.ofCode (fld w 0 7)))
  | _ => .error .unassignedFunction

/-- MAJ 0x12 (R114). -/
def decodeVectorLogicVV (w : Nat) : Decoded :=
  match fld w 21 4 with
  | 0 => .ok (.vandVv (fV w 14) (fV w 7) (fV w 0))
  | 1 => .ok (.vorVv (fV w 14) (fV w 7) (fV w 0))
  | 2 => .ok (.vxorVv (fV w 14) (fV w 7) (fV w 0))
  | 3 => .ok (.vshlVv (fV w 14) (fV w 7) (fV w 0))
  | 4 => .ok (.vshrVv (fV w 14) (fV w 7) (fV w 0))
  | 5 => .ok (.vsraVv (fV w 14) (fV w 7) (fV w 0))
  | 6 => .ok (.vbfxI32Vv (fV w 14) (fV w 7) (fV w 0))
  | 7 => .ok (.vbfxN32Vv (fV w 14) (fV w 7) (fV w 0))
  | 8 => .ok (.vbfiVv (fV w 14) (fV w 7) (fV w 0))
  | 9 | 10 | 11 | 12 | 13 | 14 | 15 => .ok (.vsel (fP w 21) (fV w 14) (fV w 7) (fV w 0))
  | _ => .error .unassignedFunction

/-- MAJ 0x13 (R114). -/
def decodeVectorLogicVX (w : Nat) : Decoded :=
  match fld w 21 4 with
  | 0 => .ok (.vandVx (fV w 14) (fV w 7) (Src2.ofCode (fld w 0 7)))
  | 1 => .ok (.vorVx (fV w 14) (fV w 7) (Src2.ofCode (fld w 0 7)))
  | 2 => .ok (.vxorVx (fV w 14) (fV w 7) (Src2.ofCode (fld w 0 7)))
  | 3 => .ok (.vshlVx (fV w 14) (fV w 7) (Src2.ofCode (fld w 0 7)))
  | 4 => .ok (.vshrVx (fV w 14) (fV w 7) (Src2.ofCode (fld w 0 7)))
  | 5 => .ok (.vsraVx (fV w 14) (fV w 7) (Src2.ofCode (fld w 0 7)))
  | 6 => .ok (.vbfxI32Vx (fV w 14) (fV w 7) (Src2.ofCode (fld w 0 7)))
  | 7 => .ok (.vbfxN32Vx (fV w 14) (fV w 7) (Src2.ofCode (fld w 0 7)))
  | 8 => .ok (.vbfiVx (fV w 14) (fV w 7) (Src2.ofCode (fld w 0 7)))
  | 9 => zeroBits (fld w 0 7) (.ok (.vnot (fV w 14) (fV w 7)))
  | 10 => zeroBits (fld w 0 7) (.ok (.vabs (fV w 14) (fV w 7)))
  | 11 => zeroBits (fld w 0 7) (.ok (.vneg (fV w 14) (fV w 7)))
  | 12 => zeroBits (fld w 0 7) (.ok (.vclz (fV w 14) (fV w 7)))
  | 13 => zeroBits (fld w 0 7) (.ok (.vpopc (fV w 14) (fV w 7)))
  | 14 => zeroBits (fld w 0 7) (.ok (.vmov (fV w 14) (fV w 7)))
  | 15 => zeroBits (fld w 7 7) (.ok (.vli (fV w 14) (Src2.ofCode (fld w 0 7))))
  | _ => .error .unassignedFunction

/-- MAJ 0x14 (R114). -/
def decodeVcmpVV (w : Nat) : Decoded :=
  zeroBits (fld w 17 4) <| coded (Cond.ofCode (fld w 21 4)) fun c => .ok (.vcmpVv c (fP w 14) (fV w 7) (fV w 0))

/-- MAJ 0x15 (R114). -/
def decodeVcmpVX (w : Nat) : Decoded :=
  zeroBits (fld w 17 4) <| coded (Cond.ofCode (fld w 21 4)) fun c => .ok (.vcmpVx c (fP w 14) (fV w 7) (Src2.ofCode (fld w 0 7)))

/-- MAJ 0x16 (R115). -/
def decodeCrossLaneVV (w : Nat) : Decoded :=
  match fld w 21 4 with
  | 0 => .ok (.vshflIdx (fV w 14) (fV w 7) (fV w 0))
  | 1 => .ok (.vshflIdxChk (fV w 14) (fV w 7) (fV w 0))
  | 2 => zeroBits (fld w 0 7) (.ok (.vredAdd (fV w 14) (fV w 7)))
  | 3 => zeroBits (fld w 0 7) (.ok (.vredMin (fV w 14) (fV w 7)))
  | 4 => zeroBits (fld w 0 7) (.ok (.vredMax (fV w 14) (fV w 7)))
  | 5 => zeroBits (fld w 0 7) (.ok (.vscanAdd (fV w 14) (fV w 7)))
  | 6 => zeroBits (fld w 0 7 + fld w 10 4) (.ok (.vballot (fV w 14) (fP w 7)))
  | 7 => zeroBits (fld w 0 7 + fld w 10 4 + fld w 17 4) (.ok (.vvoteAny (fP w 14) (fP w 7)))
  | 8 => zeroBits (fld w 0 7 + fld w 10 4 + fld w 17 4) (.ok (.vvoteAll (fP w 14) (fP w 7)))
  | _ => .error .unassignedFunction

/-- MAJ 0x17 (R115). -/
def decodeCrossLaneVX (w : Nat) : Decoded :=
  match fld w 21 4 with
  | 0 => .ok (.vshflUp (fV w 14) (fV w 7) (Src2.ofCode (fld w 0 7)))
  | 1 => .ok (.vshflUpChk (fV w 14) (fV w 7) (Src2.ofCode (fld w 0 7)))
  | 2 => .ok (.vshflDn (fV w 14) (fV w 7) (Src2.ofCode (fld w 0 7)))
  | 3 => .ok (.vshflDnChk (fV w 14) (fV w 7) (Src2.ofCode (fld w 0 7)))
  | 4 => .ok (.vshflXor (fV w 14) (fV w 7) (Src2.ofCode (fld w 0 7)))
  | 5 => .ok (.vshflXorChk (fV w 14) (fV w 7) (Src2.ofCode (fld w 0 7)))
  | 6 => .ok (.vbcast (fV w 14) (fV w 7) (Src2.ofCode (fld w 0 7)))
  | 7 => .ok (.vbcastChk (fV w 14) (fV w 7) (Src2.ofCode (fld w 0 7)))
  | _ => .error .unassignedFunction

/-- MAJ 0x18 to 0x1a (R116). -/
def decodeFloat (w : Nat) : Decoded :=
  match fld w 21 4 with
  | 0 => coded (FType.ofCode (fld w 25 2)) fun t => .ok (.fadd t (fV w 14) (fV w 7) (fV w 0))
  | 1 => coded (FType.ofCode (fld w 25 2)) fun t => .ok (.fsub t (fV w 14) (fV w 7) (fV w 0))
  | 2 => coded (FType.ofCode (fld w 25 2)) fun t => .ok (.fmul t (fV w 14) (fV w 7) (fV w 0))
  | 3 => coded (FType.ofCode (fld w 25 2)) fun t => .ok (.ffma t (fV w 14) (fV w 7) (fV w 0))
  | 4 => coded (FType.ofCode (fld w 25 2)) fun t => .ok (.fmin t (fV w 14) (fV w 7) (fV w 0))
  | 5 => coded (FType.ofCode (fld w 25 2)) fun t => .ok (.fmax t (fV w 14) (fV w 7) (fV w 0))
  | 6 => zeroBits (fld w 0 7) <| coded (FType.ofCode (fld w 25 2)) fun t => .ok (.fabs t (fV w 14) (fV w 7))
  | 7 => zeroBits (fld w 0 7) <| coded (FType.ofCode (fld w 25 2)) fun t => .ok (.fneg t (fV w 14) (fV w 7))
  | 8 => zeroBits (fld w 0 7) <| coded (FType.ofCode (fld w 25 2)) fun t => .ok (.frcp t (fV w 14) (fV w 7))
  | 9 => zeroBits (fld w 0 7) <| coded (FType.ofCode (fld w 25 2)) fun t => .ok (.frsq t (fV w 14) (fV w 7))
  | 10 => zeroBits (fld w 0 7) <| coded (FType.ofCode (fld w 25 2)) fun t => .ok (.fsqrt t (fV w 14) (fV w 7))
  | 11 => zeroBits (fld w 0 7) <| coded (FType.ofCode (fld w 25 2)) fun t => .ok (.fexp2 t (fV w 14) (fV w 7))
  | 12 => zeroBits (fld w 0 7) <| coded (FType.ofCode (fld w 25 2)) fun t => .ok (.flog2 t (fV w 14) (fV w 7))
  | 13 => zeroBits (fld w 3 4) <| coded (FType.ofCode (fld w 25 2)) fun t => coded (RoundMode.ofCode (fld w 0 3)) fun r => .ok (.fround t (fV w 14) (fV w 7) r)
  | _ => .error .unassignedFunction

/-- MAJ 0x1b (R116). -/
def decodeFcmp (w : Nat) : Decoded :=
  zeroBits (fld w 19 2) <| coded (FCond.ofCode (fld w 21 4)) fun c => coded (FType.ofCode (fld w 17 2)) fun t => .ok (.fcmp c t (fP w 14) (fV w 7) (fV w 0))

/-- MAJ 0x1c (R116, R207). -/
def decodeCvt (w : Nat) : Decoded :=
  zeroBits (fld w 24 1) <| coded (CvtType.ofCode (fld w 21 3)) fun y => coded (CvtType.ofCode (fld w 3 4)) fun x => formed (.cvt y (fV w 14) (fV w 7) x (fP w 0))

/-- MAJ 0x1d (R116). -/
def decodeCvtp (w : Nat) : Decoded :=
  zeroBits (fld w 24 1) (.ok (.cvtp (fP w 21) (fV w 14) (fV w 7) (fV w 0)))

/-- MAJ 0x20 (R117). -/
def decodeGlobal (w : Nat) : Decoded :=
  match fld w 21 4 with
  | 0 | 1 | 2 | 3 | 4 | 5 => coded (LoadSize.ofCode (fld w 21 3)) fun z => coded (Scope.ofCode (fld w 0 3)) fun c => .ok (.ldGlobal z (fV w 14) (fA w 10) (voffOfCode (fld w 3 7)) c)
  | 6 => zeroBits (fld w 0 3 + fld w 14 7) (.ok (.pf (fA w 10) (voffOfCode (fld w 3 7))))
  | 8 | 9 | 10 | 11 | 12 | 13 => coded (StoreSize.ofCode (fld w 21 3)) fun z => coded (Scope.ofCode (fld w 0 3)) fun c => .ok (.stGlobal z (fV w 14) (fA w 10) (voffOfCode (fld w 3 7)) c)
  | _ => .error .unassignedFunction

/-- MAJ 0x21 (R117). -/
def decodeWindow (w : Nat) : Decoded :=
  match fld w 21 4 with
  | 0 | 1 | 2 | 3 | 4 | 5 => coded (LoadSize.ofCode (fld w 21 3)) fun z => coded (Scope.ofCode (fld w 0 3)) fun c => .ok (.ldWindow z (fV w 14) (fA w 10) (voffOfCode (fld w 3 7)) c)
  | 8 | 9 | 10 | 11 | 12 | 13 => coded (StoreSize.ofCode (fld w 21 3)) fun z => coded (Scope.ofCode (fld w 0 3)) fun c => .ok (.stWindow z (fV w 14) (fA w 10) (voffOfCode (fld w 3 7)) c)
  | _ => .error .unassignedFunction

/-- MAJ 0x22 (R117). -/
def decodeLocal (w : Nat) : Decoded :=
  match fld w 21 4 with
  | 0 | 1 | 2 | 3 | 4 | 5 => coded (LoadSize.ofCode (fld w 21 3)) fun z => coded (LocalSpace.ofCode (fld w 0 3)) fun p => .ok (.ldLocal z (fV w 14) (fA w 10) (voffOfCode (fld w 3 7)) p)
  | 8 | 9 | 10 | 11 | 12 | 13 => coded (StoreSize.ofCode (fld w 21 3)) fun z => coded (LocalSpace.ofCode (fld w 0 3)) fun p => .ok (.stLocal z (fV w 14) (fA w 10) (voffOfCode (fld w 3 7)) p)
  | _ => .error .unassignedFunction

/-- MAJ 0x23 (R117). -/
def decodeAtomGlobal32 (w : Nat) : Decoded :=
  coded (AtomOp.ofCode (fld w 21 4)) fun o => coded (Scope.ofCode (fld w 0 3)) fun c => .ok (.atomGlobal32 o (fV w 14) (fA w 10) (voffOfCode (fld w 3 7)) c)

/-- MAJ 0x24 (R117). -/
def decodeAtomGlobal64 (w : Nat) : Decoded :=
  coded (AtomOp.ofCode (fld w 21 4)) fun o => coded (Scope.ofCode (fld w 0 3)) fun c => .ok (.atomGlobal64 o (fV w 14) (fA w 10) (voffOfCode (fld w 3 7)) c)

/-- MAJ 0x25 (R117). -/
def decodeAtomLocal32 (w : Nat) : Decoded :=
  coded (AtomOp.ofCode (fld w 21 4)) fun o => coded (AtomPlace.ofCode (fld w 0 3)) fun c => .ok (.atomLocal32 o (fV w 14) (fA w 10) (voffOfCode (fld w 3 7)) c)

/-- MAJ 0x26 (R117). -/
def decodeAtomLocal64 (w : Nat) : Decoded :=
  coded (AtomOp.ofCode (fld w 21 4)) fun o => coded (AtomPlace.ofCode (fld w 0 3)) fun c => .ok (.atomLocal64 o (fV w 14) (fA w 10) (voffOfCode (fld w 3 7)) c)

/-- MAJ 0x27 (R117). -/
def decodeFabric (w : Nat) : Decoded :=
  match fld w 21 4 with
  | 0 | 1 => coded (Scope.ofCode (fld w 0 3)) fun c => .ok (.rld (fld w 21 1 == 1) (fV w 14) (fA w 10) (fV w 3) c)
  | 2 | 3 => coded (Scope.ofCode (fld w 0 3)) fun c => .ok (.rst (fld w 21 1 == 1) (fV w 14) (fA w 10) (fV w 3) c)
  | 4 | 5 | 6 | 7 | 8 | 9 | 10 | 11 | 12 | 13 | 14 => coded (AtomOp.ofCode (fld w 21 4 - 4)) fun o => coded (Scope.ofCode (fld w 0 3)) fun c => .ok (.ratom o (fV w 14) (fA w 10) (fV w 3) c)
  | _ => .error .unassignedFunction

/-- MAJ 0x28 (R118). -/
def decodeCopy (w : Nat) : Decoded :=
  match fld w 3 1 with
  | 0 => coded (CopySpace.ofCode (fld w 22 3)) fun x => coded (CopySpace.ofCode (fld w 0 3)) fun y => .ok (.cpy x (fS w 16) (fS w 10) (fS w 4) y)
  | 1 => coded (CopySpace.ofCode (fld w 22 3)) fun x => coded (CopySpace.ofCode (fld w 0 3)) fun y => .ok (.cpyc x (fS w 16) (fS w 10) (fS w 4) y)
  | _ => .error .unassignedFunction

/-- MAJ 0x29 (R118). -/
def decodeCopyOther (w : Nat) : Decoded :=
  match fld w 0 4 with
  | 0 => zeroBits (fld w 4 6 + fld w 22 3) (.ok (.cpyq (fS w 16) (fS w 10)))
  | 1 => coded (CopySpace.ofCode (fld w 22 3)) fun y => .ok (.cpys y (fS w 16) (fS w 10) (fS w 4))
  | 2 => zeroBits (fld w 4 6 + fld w 22 3) (.ok (.cpyst (fS w 16) (fS w 10)))
  | 3 => zeroBits (fld w 4 12 + fld w 22 3) (.ok (.cpyres (fS w 16)))
  | 4 => zeroBits (fld w 4 12 + fld w 22 3) (.ok (.cpycan (fS w 16)))
  | _ => .error .unassignedFunction

/-- MAJ 0x2a (R118). -/
def decodeMatrix (w : Nat) : Decoded :=
  match fld w 0 4 with
  | 0 => .ok (.tmm (fP w 22) (fS w 16) (fS w 10) (fS w 4))
  | 1 => .ok (.tmms (fP w 22) (fS w 16) (fS w 10) (fS w 4))
  | 2 => zeroBits (fld w 4 12 + fld w 22 3) (.ok (.tzero (fS w 16)))
  | 3 => .ok (.tepi (fP w 22) (fS w 16) (fS w 10) (fS w 4))
  | 4 => zeroBits (fld w 4 6 + fld w 22 3) (.ok (.ttrn (fS w 16) (fS w 10)))
  | _ => .error .unassignedFunction

/-- MAJ 0x2b (R118). -/
def decodeStream (w : Nat) : Decoded :=
  match fld w 0 4 with
  | 0 => zeroBits (fld w 22 3) (.ok (.rsinit (fS w 16) (fS w 10) (fS w 4)))
  | 1 => coded (DeltaType.ofCode (fld w 22 3)) fun x => .ok (.rsaddVector x (fS w 16) (fS w 10) (fS w 4))
  | 2 => coded (DeltaType.ofCode (fld w 22 3)) fun x => .ok (.rsaddAb x (fS w 16) (fS w 10) (fS w 4))
  | 3 => .ok (.rsnorm (fP w 22) (fS w 16) (fS w 10) (fS w 4))
  | 4 => .ok (.rsnormReel (fP w 22) (fS w 16) (fS w 10) (fS w 4))
  | 5 => zeroBits (fld w 4 6 + fld w 22 3) (.ok (.rsq (fS w 16) (fS w 10)))
  | 6 => zeroBits (fld w 4 6 + fld w 23 2) (.ok (.rssave (fld w 22 1 == 1) (fS w 16) (fS w 10)))
  | 7 => zeroBits (fld w 23 2) (.ok (.rsload (fld w 22 1 == 1) (fS w 16) (fS w 10) (fS w 4)))
  | 8 => zeroBits (fld w 4 21) (.ok (.rsfenceTeam))
  | 9 => zeroBits (fld w 4 21) (.ok (.rsfenceSet))
  | 10 => zeroBits (fld w 4 21) (.ok (.rsfenceReel))
  | _ => .error .unassignedFunction

/-- MAJ 0x2c (R118). -/
def decodeCollective (w : Nat) : Decoded :=
  match fld w 0 4 with
  | 0 | 1 | 2 => coded (RedOp.ofCode (fld w 0 2)) fun o => .ok (.cred (fP w 22) (fS w 16) (fS w 10) (fS w 4) o)
  | 3 => .ok (.cbc (fP w 22) (fS w 16) (fS w 10) (fS w 4))
  | 4 => .ok (.cgat (fP w 22) (fS w 16) (fS w 10) (fS w 4))
  | _ => .error .unassignedFunction

/-- MAJ 0x2d (R118). -/
def decodeSearch (w : Nat) : Decoded :=
  match fld w 0 4 with
  | 0 => .ok (.vdist (fP w 22) (fS w 16) (fS w 10) (fS w 4))
  | 1 => zeroBits (fld w 22 3) (.ok (.topk (fS w 16) (fS w 10) (fS w 4)))
  | 2 => zeroBits (fld w 22 3) (.ok (.topkm (fS w 16) (fS w 10) (fS w 4)))
  | 3 => zeroBits (fld w 22 3) (.ok (.topkr (fS w 16) (fS w 10) (fS w 4)))
  | _ => .error .unassignedFunction

/-- MAJ 0x30 (R119). -/
def decodeControl (w : Nat) : Decoded :=
  match fld w 17 8 with
  | 6 =>
    if fld w 8 1 = 0 then zeroBits (fld w 9 8) (formed (.regang (BitVec.ofNat 8 (fld w 0 8))))
    else zeroBits (fld w 9 8) (formed (.regangWait (BitVec.ofNat 8 (fld w 0 8))))
  | 13 =>
    if fld w 3 1 = 0 then zeroBits (fld w 4 13) (formed (.pwreq (fP w 0)))
    else zeroBits (fld w 4 13) (formed (.pwreqYield (fP w 0)))
  | 0 => zeroBits (fld w 0 17) (.ok (.nop))
  | 1 => zeroBits (fld w 0 17) (.ok (.exit))
  | 2 => zeroBits (fld w 0 17) (.ok (.yield))
  | 3 => zeroBits (fld w 11 6) (.ok (.brk (Fin.ofNat 2048 (fld w 0 11))))
  | 4 => zeroBits (fld w 0 17) (.ok (.join))
  | 5 => zeroBits (fld w 3 14) (.ok (.elect (fP w 0)))
  | 7 => zeroBits (fld w 0 17) (.ok (.ret))
  | 8 => zeroBits (fld w 0 11) (.ok (.jmp (fS w 11)))
  | 9 => zeroBits (fld w 0 11) (.ok (.launch (fS w 11)))
  | 10 => zeroBits (fld w 0 11) (.ok (.ljoin (fS w 11)))
  | 11 => zeroBits (fld w 0 17) (.ok (.wdetach))
  | 12 => zeroBits (fld w 0 11) (.ok (.wmember (fS w 11)))
  | 14 => zeroBits (fld w 0 17) (.ok (.pwrel))
  | 15 => zeroBits (fld w 5 12) <| coded (Scope.ofCode (fld w 0 3)) fun c => formed (.fence (Fin.ofNat 4 (fld w 3 2)) c)
  | _ => .error .unassignedFunction

/-- MAJ 0x31 (R119). -/
def decodeWaitcnt (w : Nat) : Decoded :=
  zeroBits (fld w 0 4) (.ok (.waitcnt (Fin.ofNat 32 (fld w 20 5)) (Fin.ofNat 32 (fld w 15 5)) (Fin.ofNat 32 (fld w 10 5)) (Fin.ofNat 32 (fld w 5 5)) (fld w 4 1 == 1)))

/-- MAJ 0x32 (R119). -/
def decodeBranch (w : Nat) : Decoded :=
  match fld w 22 3 with
  | 0 => zeroBits (fld w 19 3) (.ok (.br (BitVec.ofNat 19 (fld w 0 19))))
  | 1 => .ok (.brc (fP w 19) (BitVec.ofNat 19 (fld w 0 19)))
  | 2 => zeroBits (fld w 19 3) (.ok (.call (BitVec.ofNat 19 (fld w 0 19))))
  | 3 => zeroBits (fld w 19 3) (.ok (.jpt (BitVec.ofNat 19 (fld w 0 19))))
  | _ => .error .unassignedFunction

/-- MAJ 0x33 (R119). -/
def decodeBarrier (w : Nat) : Decoded :=
  match fld w 17 8 with
  | 0 => zeroBits (fld w 4 7) (.ok (.bar (fS w 11) (Fin.ofNat 16 (fld w 0 4))))
  | 1 => zeroBits (fld w 11 6) (formed (.phbinit (fA w 7) (Fin.ofNat 128 (fld w 0 7))))
  | 2 => zeroBits (fld w 0 7 + fld w 11 6) (.ok (.phbarr (fA w 7)))
  | 3 => zeroBits (fld w 0 7) (.ok (.phbexp (fS w 11) (fA w 7)))
  | 4 => zeroBits (fld w 1 3 + fld w 11 6) (.ok (.phbtest (fA w 7) (fP w 4) (fld w 0 1 == 1)))
  | 5 => zeroBits (fld w 1 6 + fld w 11 6) (.ok (.phbwait (fA w 7) (fld w 0 1 == 1)))
  | 6 => zeroBits (fld w 0 17) (.ok (.wbar))
  | _ => .error .unassignedFunction

/-- MAJ 0x34 (R119). -/
def decodeTimeline (w : Nat) : Decoded :=
  match fld w 19 6 with
  | 0 => zeroBits (fld w 0 1 + fld w 13 6) (.ok (.tlsig (fS w 7) (fS w 1)))
  | 1 => zeroBits (fld w 0 1 + fld w 13 6) (.ok (.tlwait (fS w 7) (fS w 1)))
  | 2 => zeroBits (fld w 0 7) (.ok (.tlread (fS w 13) (fS w 7)))
  | 3 => zeroBits (fld w 0 1 + fld w 13 6) (.ok (.qpost (fS w 7) (fS w 1)))
  | 4 => zeroBits (fld w 0 1 + fld w 13 6) (.ok (.qtail (fS w 7) (fS w 1)))
  | _ => .error .unassignedFunction

/-- MAJ 0x38 (R120). -/
def decodeSystem (w : Nat) : Decoded :=
  match fld w 17 8 with
  | 1 => .ok (.sysrd (fS w 11) (Fin.ofNat 2048 (fld w 0 11)))
  | 2 => .ok (.syswr (fS w 11) (Fin.ofNat 2048 (fld w 0 11)))
  | 3 => zeroBits (fld w 7 10) (.ok (.svc (fV w 0)))
  | 4 => zeroBits (fld w 0 11) (.ok (.hret (fS w 11)))
  | 5 => zeroBits (fld w 0 11) (.ok (.pgmap (fS w 11)))
  | 6 => zeroBits (fld w 0 11) (.ok (.pginv (fS w 11)))
  | 7 => zeroBits (fld w 2 9) (.ok (.fltrd (fS w 11) (Fin.ofNat 4 (fld w 0 2))))
  | _ => .error .unassignedFunction

/-- MAJ 0x3e (R71, R72). -/
def decodeFirmware (w : Nat) : Decoded :=
  match fld w 17 8 with
  | 1 => zeroBits (fld w 0 11) (.ok (.qfetch (fS w 11)))
  | 2 => zeroBits (fld w 0 17) (.ok (.qdisp))
  | 3 => zeroBits (fld w 0 17) (.ok (.qcomp))
  | _ => .error .unassignedFunction

/-- The instruction of one word `w`; `lit` is the word after it, which only an SL word uses (R103, R112). -/
def decodeWord (w : Nat) (lit : W32) : Decoded :=
  match fld w 25 6 with
  | 0x00 => decodeScalarRegister w
  | 0x01 => decodeSli w
  | 0x02 => decodeSlit w lit
  | 0x08 => decodeAffine w
  | 0x09 => decodePredicate w
  | 0x10 => decodeVectorArithVV w
  | 0x11 => decodeVectorArithVX w
  | 0x12 => decodeVectorLogicVV w
  | 0x13 => decodeVectorLogicVX w
  | 0x14 => decodeVcmpVV w
  | 0x15 => decodeVcmpVX w
  | 0x16 => decodeCrossLaneVV w
  | 0x17 => decodeCrossLaneVX w
  | 0x18 => decodeFloat w
  | 0x19 => decodeFloat w
  | 0x1a => decodeFloat w
  | 0x1b => decodeFcmp w
  | 0x1c => decodeCvt w
  | 0x1d => decodeCvtp w
  | 0x20 => decodeGlobal w
  | 0x21 => decodeWindow w
  | 0x22 => decodeLocal w
  | 0x23 => decodeAtomGlobal32 w
  | 0x24 => decodeAtomGlobal64 w
  | 0x25 => decodeAtomLocal32 w
  | 0x26 => decodeAtomLocal64 w
  | 0x27 => decodeFabric w
  | 0x28 => decodeCopy w
  | 0x29 => decodeCopyOther w
  | 0x2a => decodeMatrix w
  | 0x2b => decodeStream w
  | 0x2c => decodeCollective w
  | 0x2d => decodeSearch w
  | 0x30 => decodeControl w
  | 0x31 => decodeWaitcnt w
  | 0x32 => decodeBranch w
  | 0x33 => decodeBarrier w
  | 0x34 => decodeTimeline w
  | 0x38 => decodeSystem w
  | 0x3e => decodeFirmware w
  | _ => .error .unassignedMajor

/-- An SL word takes the next word as its literal (R103, R110). -/
def isSL (w : W32) : Bool := fld w.toNat 25 6 == 2

/-- The instruction that begins at the first word, with the words after it (R103). -/
def decode : List W32 → Except DecodeError (Instr × List W32)
  | [] => .error .noWord
  | [w] =>
    if isSL w then .error .missingLiteral
    else match decodeWord w.toNat 0 with
      | .ok i => .ok (i, [])
      | .error e => .error e
  | w :: l :: rest =>
    if isSL w then
      match decodeWord w.toNat l with
      | .ok i => .ok (i, rest)
      | .error e => .error e
    else match decodeWord w.toNat 0 with
      | .ok i => .ok (i, l :: rest)
      | .error e => .error e

/-- The first word of an instruction, K clear (R110 to R120); an event has none. -/
def encodeWord : Instr → Nat
  | .sadd d a b => 0x0 + d.val * 0x2000 + a.val * 0x80 + b.val * 0x2
  | .ssub d a b => 0x80000 + d.val * 0x2000 + a.val * 0x80 + b.val * 0x2
  | .smul d a b => 0x100000 + d.val * 0x2000 + a.val * 0x80 + b.val * 0x2
  | .smulhI64 d a b => 0x180000 + d.val * 0x2000 + a.val * 0x80 + b.val * 0x2
  | .smulhN64 d a b => 0x200000 + d.val * 0x2000 + a.val * 0x80 + b.val * 0x2
  | .sdivI64 d a b => 0x280000 + d.val * 0x2000 + a.val * 0x80 + b.val * 0x2
  | .sdivN64 d a b => 0x300000 + d.val * 0x2000 + a.val * 0x80 + b.val * 0x2
  | .sremI64 d a b => 0x380000 + d.val * 0x2000 + a.val * 0x80 + b.val * 0x2
  | .sremN64 d a b => 0x400000 + d.val * 0x2000 + a.val * 0x80 + b.val * 0x2
  | .sand d a b => 0x480000 + d.val * 0x2000 + a.val * 0x80 + b.val * 0x2
  | .sor d a b => 0x500000 + d.val * 0x2000 + a.val * 0x80 + b.val * 0x2
  | .sxor d a b => 0x580000 + d.val * 0x2000 + a.val * 0x80 + b.val * 0x2
  | .snot d a => 0x600000 + d.val * 0x2000 + a.val * 0x80
  | .sshl d a b => 0x680000 + d.val * 0x2000 + a.val * 0x80 + b.val * 0x2
  | .sshr d a b => 0x700000 + d.val * 0x2000 + a.val * 0x80 + b.val * 0x2
  | .ssra d a b => 0x780000 + d.val * 0x2000 + a.val * 0x80 + b.val * 0x2
  | .smin d a b => 0x800000 + d.val * 0x2000 + a.val * 0x80 + b.val * 0x2
  | .smax d a b => 0x880000 + d.val * 0x2000 + a.val * 0x80 + b.val * 0x2
  | .sminn d a b => 0x900000 + d.val * 0x2000 + a.val * 0x80 + b.val * 0x2
  | .smaxn d a b => 0x980000 + d.val * 0x2000 + a.val * 0x80 + b.val * 0x2
  | .ssel d a b => 0xa00000 + d.val * 0x2000 + a.val * 0x80 + b.val * 0x2
  | .smov d a => 0xa80000 + d.val * 0x2000 + a.val * 0x80
  | .sclz d a => 0xb00000 + d.val * 0x2000 + a.val * 0x80
  | .spopc d a => 0xb80000 + d.val * 0x2000 + a.val * 0x80
  | .sbfxI64 d a b => 0xc00000 + d.val * 0x2000 + a.val * 0x80 + b.val * 0x2
  | .sbfxN64 d a b => 0xc80000 + d.val * 0x2000 + a.val * 0x80 + b.val * 0x2
  | .sbfi d a b => 0xd00000 + d.val * 0x2000 + a.val * 0x80 + b.val * 0x2
  | .scmp c d a b => 0x1000000 + c.code * 0x80000 + d.val * 0x2000 + a.val * 0x80 + b.val * 0x2
  | .sli d i => 0x2000000 + d.val * 0x80000 + i.toNat
  | .slit d _ => 0x4000000 + d.val * 0x2000
  | .slitN32 d _ => 0x4080000 + d.val * 0x2000
  | .aset d b i => 0x10000000 + d.val * 0x20000 + b.val * 0x80 + i.toNat
  | .aadd d a b i => 0x10200000 + d.val * 0x20000 + a.val * 0x2000 + b.val * 0x80 + i.toNat
  | .astr d a b => 0x10400000 + d.val * 0x20000 + a.val * 0x2000 + b.val * 0x80
  | .amul d a b i => 0x10600000 + d.val * 0x20000 + a.val * 0x2000 + b.val * 0x80 + i.toNat
  | .aidx d a i => 0x10800000 + d.val * 0x20000 + a.val * 0x2000 + i.toNat
  | .aget a v => 0x10a00000 + a.val * 0x2000 + v.val * 0x80
  | .pand d a b => 0x12000000 + d.val * 0x20000 + a.val * 0x2000 + b.val * 0x80
  | .por d a b => 0x12200000 + d.val * 0x20000 + a.val * 0x2000 + b.val * 0x80
  | .pxor d a b => 0x12400000 + d.val * 0x20000 + a.val * 0x2000 + b.val * 0x80
  | .pnot d a => 0x12600000 + d.val * 0x20000 + a.val * 0x2000
  | .pmov d a => 0x12800000 + d.val * 0x20000 + a.val * 0x2000
  | .pcnt a s => 0x12a00000 + a.val * 0x2000 + s.val * 0x80
  | .vaddVv d a b => 0x20000000 + d.val * 0x4000 + a.val * 0x80 + b.val
  | .vaddVx d a x => 0x22000000 + d.val * 0x4000 + a.val * 0x80 + x.code
  | .vsubVv d a b => 0x20200000 + d.val * 0x4000 + a.val * 0x80 + b.val
  | .vsubVx d a x => 0x22200000 + d.val * 0x4000 + a.val * 0x80 + x.code
  | .vmulVv d a b => 0x20400000 + d.val * 0x4000 + a.val * 0x80 + b.val
  | .vmulVx d a x => 0x22400000 + d.val * 0x4000 + a.val * 0x80 + x.code
  | .vmulhI32Vv d a b => 0x20600000 + d.val * 0x4000 + a.val * 0x80 + b.val
  | .vmulhI32Vx d a x => 0x22600000 + d.val * 0x4000 + a.val * 0x80 + x.code
  | .vmulhN32Vv d a b => 0x20800000 + d.val * 0x4000 + a.val * 0x80 + b.val
  | .vmulhN32Vx d a x => 0x22800000 + d.val * 0x4000 + a.val * 0x80 + x.code
  | .vmadVv d a b => 0x20a00000 + d.val * 0x4000 + a.val * 0x80 + b.val
  | .vmadVx d a x => 0x22a00000 + d.val * 0x4000 + a.val * 0x80 + x.code
  | .vsaddI32Vv d a b => 0x20c00000 + d.val * 0x4000 + a.val * 0x80 + b.val
  | .vsaddI32Vx d a x => 0x22c00000 + d.val * 0x4000 + a.val * 0x80 + x.code
  | .vsaddN32Vv d a b => 0x20e00000 + d.val * 0x4000 + a.val * 0x80 + b.val
  | .vsaddN32Vx d a x => 0x22e00000 + d.val * 0x4000 + a.val * 0x80 + x.code
  | .vssubI32Vv d a b => 0x21000000 + d.val * 0x4000 + a.val * 0x80 + b.val
  | .vssubI32Vx d a x => 0x23000000 + d.val * 0x4000 + a.val * 0x80 + x.code
  | .vssubN32Vv d a b => 0x21200000 + d.val * 0x4000 + a.val * 0x80 + b.val
  | .vssubN32Vx d a x => 0x23200000 + d.val * 0x4000 + a.val * 0x80 + x.code
  | .vminVv d a b => 0x21400000 + d.val * 0x4000 + a.val * 0x80 + b.val
  | .vminVx d a x => 0x23400000 + d.val * 0x4000 + a.val * 0x80 + x.code
  | .vmaxVv d a b => 0x21600000 + d.val * 0x4000 + a.val * 0x80 + b.val
  | .vmaxVx d a x => 0x23600000 + d.val * 0x4000 + a.val * 0x80 + x.code
  | .vminnVv d a b => 0x21800000 + d.val * 0x4000 + a.val * 0x80 + b.val
  | .vminnVx d a x => 0x23800000 + d.val * 0x4000 + a.val * 0x80 + x.code
  | .vmaxnVv d a b => 0x21a00000 + d.val * 0x4000 + a.val * 0x80 + b.val
  | .vmaxnVx d a x => 0x23a00000 + d.val * 0x4000 + a.val * 0x80 + x.code
  | .vandVv d a b => 0x24000000 + d.val * 0x4000 + a.val * 0x80 + b.val
  | .vandVx d a x => 0x26000000 + d.val * 0x4000 + a.val * 0x80 + x.code
  | .vorVv d a b => 0x24200000 + d.val * 0x4000 + a.val * 0x80 + b.val
  | .vorVx d a x => 0x26200000 + d.val * 0x4000 + a.val * 0x80 + x.code
  | .vxorVv d a b => 0x24400000 + d.val * 0x4000 + a.val * 0x80 + b.val
  | .vxorVx d a x => 0x26400000 + d.val * 0x4000 + a.val * 0x80 + x.code
  | .vshlVv d a b => 0x24600000 + d.val * 0x4000 + a.val * 0x80 + b.val
  | .vshlVx d a x => 0x26600000 + d.val * 0x4000 + a.val * 0x80 + x.code
  | .vshrVv d a b => 0x24800000 + d.val * 0x4000 + a.val * 0x80 + b.val
  | .vshrVx d a x => 0x26800000 + d.val * 0x4000 + a.val * 0x80 + x.code
  | .vsraVv d a b => 0x24a00000 + d.val * 0x4000 + a.val * 0x80 + b.val
  | .vsraVx d a x => 0x26a00000 + d.val * 0x4000 + a.val * 0x80 + x.code
  | .vbfxI32Vv d a b => 0x24c00000 + d.val * 0x4000 + a.val * 0x80 + b.val
  | .vbfxI32Vx d a x => 0x26c00000 + d.val * 0x4000 + a.val * 0x80 + x.code
  | .vbfxN32Vv d a b => 0x24e00000 + d.val * 0x4000 + a.val * 0x80 + b.val
  | .vbfxN32Vx d a x => 0x26e00000 + d.val * 0x4000 + a.val * 0x80 + x.code
  | .vbfiVv d a b => 0x25000000 + d.val * 0x4000 + a.val * 0x80 + b.val
  | .vbfiVx d a x => 0x27000000 + d.val * 0x4000 + a.val * 0x80 + x.code
  | .vsel p d a b => 0x25000000 + p.val * 0x200000 + d.val * 0x4000 + a.val * 0x80 + b.val
  | .vnot d a => 0x27200000 + d.val * 0x4000 + a.val * 0x80
  | .vabs d a => 0x27400000 + d.val * 0x4000 + a.val * 0x80
  | .vneg d a => 0x27600000 + d.val * 0x4000 + a.val * 0x80
  | .vclz d a => 0x27800000 + d.val * 0x4000 + a.val * 0x80
  | .vpopc d a => 0x27a00000 + d.val * 0x4000 + a.val * 0x80
  | .vmov d a => 0x27c00000 + d.val * 0x4000 + a.val * 0x80
  | .vli d x => 0x27e00000 + d.val * 0x4000 + x.code
  | .vcmpVv c p a b => 0x28000000 + c.code * 0x200000 + p.val * 0x4000 + a.val * 0x80 + b.val
  | .vcmpVx c p a x => 0x2a000000 + c.code * 0x200000 + p.val * 0x4000 + a.val * 0x80 + x.code
  | .vshflIdx d a b => 0x2c000000 + d.val * 0x4000 + a.val * 0x80 + b.val
  | .vshflIdxChk d a b => 0x2c200000 + d.val * 0x4000 + a.val * 0x80 + b.val
  | .vredAdd d a => 0x2c400000 + d.val * 0x4000 + a.val * 0x80
  | .vredMin d a => 0x2c600000 + d.val * 0x4000 + a.val * 0x80
  | .vredMax d a => 0x2c800000 + d.val * 0x4000 + a.val * 0x80
  | .vscanAdd d a => 0x2ca00000 + d.val * 0x4000 + a.val * 0x80
  | .vballot d p => 0x2cc00000 + d.val * 0x4000 + p.val * 0x80
  | .vvoteAny d p => 0x2ce00000 + d.val * 0x4000 + p.val * 0x80
  | .vvoteAll d p => 0x2d000000 + d.val * 0x4000 + p.val * 0x80
  | .vshflUp d a x => 0x2e000000 + d.val * 0x4000 + a.val * 0x80 + x.code
  | .vshflUpChk d a x => 0x2e200000 + d.val * 0x4000 + a.val * 0x80 + x.code
  | .vshflDn d a x => 0x2e400000 + d.val * 0x4000 + a.val * 0x80 + x.code
  | .vshflDnChk d a x => 0x2e600000 + d.val * 0x4000 + a.val * 0x80 + x.code
  | .vshflXor d a x => 0x2e800000 + d.val * 0x4000 + a.val * 0x80 + x.code
  | .vshflXorChk d a x => 0x2ea00000 + d.val * 0x4000 + a.val * 0x80 + x.code
  | .vbcast d a x => 0x2ec00000 + d.val * 0x4000 + a.val * 0x80 + x.code
  | .vbcastChk d a x => 0x2ee00000 + d.val * 0x4000 + a.val * 0x80 + x.code
  | .fadd t d a b => 0x30000000 + t.code * 0x2000000 + d.val * 0x4000 + a.val * 0x80 + b.val
  | .fsub t d a b => 0x30200000 + t.code * 0x2000000 + d.val * 0x4000 + a.val * 0x80 + b.val
  | .fmul t d a b => 0x30400000 + t.code * 0x2000000 + d.val * 0x4000 + a.val * 0x80 + b.val
  | .ffma t d a b => 0x30600000 + t.code * 0x2000000 + d.val * 0x4000 + a.val * 0x80 + b.val
  | .fmin t d a b => 0x30800000 + t.code * 0x2000000 + d.val * 0x4000 + a.val * 0x80 + b.val
  | .fmax t d a b => 0x30a00000 + t.code * 0x2000000 + d.val * 0x4000 + a.val * 0x80 + b.val
  | .fabs t d a => 0x30c00000 + t.code * 0x2000000 + d.val * 0x4000 + a.val * 0x80
  | .fneg t d a => 0x30e00000 + t.code * 0x2000000 + d.val * 0x4000 + a.val * 0x80
  | .frcp t d a => 0x31000000 + t.code * 0x2000000 + d.val * 0x4000 + a.val * 0x80
  | .frsq t d a => 0x31200000 + t.code * 0x2000000 + d.val * 0x4000 + a.val * 0x80
  | .fsqrt t d a => 0x31400000 + t.code * 0x2000000 + d.val * 0x4000 + a.val * 0x80
  | .fexp2 t d a => 0x31600000 + t.code * 0x2000000 + d.val * 0x4000 + a.val * 0x80
  | .flog2 t d a => 0x31800000 + t.code * 0x2000000 + d.val * 0x4000 + a.val * 0x80
  | .fround t d a r => 0x31a00000 + t.code * 0x2000000 + d.val * 0x4000 + a.val * 0x80 + r.code
  | .fcmp c t p a b => 0x36000000 + c.code * 0x200000 + t.code * 0x20000 + p.val * 0x4000 + a.val * 0x80 + b.val
  | .cvt y d a x s => 0x38000000 + y.code * 0x200000 + d.val * 0x4000 + a.val * 0x80 + x.code * 0x8 + s.val
  | .cvtp s d a b => 0x3a000000 + s.val * 0x200000 + d.val * 0x4000 + a.val * 0x80 + b.val
  | .ldGlobal z d a v c => 0x40000000 + z.code * 0x200000 + d.val * 0x4000 + a.val * 0x400 + (voffCode v) * 0x8 + c.code
  | .stGlobal z d a v c => 0x41000000 + z.code * 0x200000 + d.val * 0x4000 + a.val * 0x400 + (voffCode v) * 0x8 + c.code
  | .pf a v => 0x40c00000 + a.val * 0x400 + (voffCode v) * 0x8
  | .ldWindow z d a v c => 0x42000000 + z.code * 0x200000 + d.val * 0x4000 + a.val * 0x400 + (voffCode v) * 0x8 + c.code
  | .stWindow z d a v c => 0x43000000 + z.code * 0x200000 + d.val * 0x4000 + a.val * 0x400 + (voffCode v) * 0x8 + c.code
  | .ldLocal z d a v p => 0x44000000 + z.code * 0x200000 + d.val * 0x4000 + a.val * 0x400 + (voffCode v) * 0x8 + p.code
  | .stLocal z d a v p => 0x45000000 + z.code * 0x200000 + d.val * 0x4000 + a.val * 0x400 + (voffCode v) * 0x8 + p.code
  | .atomGlobal32 o d a v c => 0x46000000 + o.code * 0x200000 + d.val * 0x4000 + a.val * 0x400 + (voffCode v) * 0x8 + c.code
  | .atomGlobal64 o d a v c => 0x48000000 + o.code * 0x200000 + d.val * 0x4000 + a.val * 0x400 + (voffCode v) * 0x8 + c.code
  | .atomLocal32 o d a v c => 0x4a000000 + o.code * 0x200000 + d.val * 0x4000 + a.val * 0x400 + (voffCode v) * 0x8 + c.code
  | .atomLocal64 o d a v c => 0x4c000000 + o.code * 0x200000 + d.val * 0x4000 + a.val * 0x400 + (voffCode v) * 0x8 + c.code
  | .rld w d a p c => 0x4e000000 + w.toNat * 0x200000 + d.val * 0x4000 + a.val * 0x400 + p.val * 0x8 + c.code
  | .rst w d a p c => 0x4e400000 + w.toNat * 0x200000 + d.val * 0x4000 + a.val * 0x400 + p.val * 0x8 + c.code
  | .ratom o d a p c => 0x4e000000 + (o.code + 4) * 0x200000 + d.val * 0x4000 + a.val * 0x400 + p.val * 0x8 + c.code
  | .cpy x a b c y => 0x50000000 + x.code * 0x400000 + a.val * 0x10000 + b.val * 0x400 + c.val * 0x10 + y.code
  | .cpyc x a b c y => 0x50000008 + x.code * 0x400000 + a.val * 0x10000 + b.val * 0x400 + c.val * 0x10 + y.code
  | .cpyq a b => 0x52000000 + a.val * 0x10000 + b.val * 0x400
  | .cpys y a b c => 0x52000001 + y.code * 0x400000 + a.val * 0x10000 + b.val * 0x400 + c.val * 0x10
  | .cpyst a b => 0x52000002 + a.val * 0x10000 + b.val * 0x400
  | .cpyres a => 0x52000003 + a.val * 0x10000
  | .cpycan a => 0x52000004 + a.val * 0x10000
  | .tmm x a b c => 0x54000000 + x.val * 0x400000 + a.val * 0x10000 + b.val * 0x400 + c.val * 0x10
  | .tmms x a b c => 0x54000001 + x.val * 0x400000 + a.val * 0x10000 + b.val * 0x400 + c.val * 0x10
  | .tzero a => 0x54000002 + a.val * 0x10000
  | .tepi x a b c => 0x54000003 + x.val * 0x400000 + a.val * 0x10000 + b.val * 0x400 + c.val * 0x10
  | .ttrn a b => 0x54000004 + a.val * 0x10000 + b.val * 0x400
  | .rsinit a b c => 0x56000000 + a.val * 0x10000 + b.val * 0x400 + c.val * 0x10
  | .rsaddVector x a b c => 0x56000001 + x.code * 0x400000 + a.val * 0x10000 + b.val * 0x400 + c.val * 0x10
  | .rsaddAb x a b c => 0x56000002 + x.code * 0x400000 + a.val * 0x10000 + b.val * 0x400 + c.val * 0x10
  | .rsnorm x a b c => 0x56000003 + x.val * 0x400000 + a.val * 0x10000 + b.val * 0x400 + c.val * 0x10
  | .rsnormReel x a b c => 0x56000004 + x.val * 0x400000 + a.val * 0x10000 + b.val * 0x400 + c.val * 0x10
  | .rsq a b => 0x56000005 + a.val * 0x10000 + b.val * 0x400
  | .rssave f a b => 0x56000006 + f.toNat * 0x400000 + a.val * 0x10000 + b.val * 0x400
  | .rsload f a b c => 0x56000007 + f.toNat * 0x400000 + a.val * 0x10000 + b.val * 0x400 + c.val * 0x10
  | .rsfenceTeam => 0x56000008
  | .rsfenceSet => 0x56000009
  | .rsfenceReel => 0x5600000a
  | .cred x a b c o => 0x58000000 + x.val * 0x400000 + a.val * 0x10000 + b.val * 0x400 + c.val * 0x10 + o.code
  | .cbc x a b c => 0x58000003 + x.val * 0x400000 + a.val * 0x10000 + b.val * 0x400 + c.val * 0x10
  | .cgat x a b c => 0x58000004 + x.val * 0x400000 + a.val * 0x10000 + b.val * 0x400 + c.val * 0x10
  | .vdist x a b c => 0x5a000000 + x.val * 0x400000 + a.val * 0x10000 + b.val * 0x400 + c.val * 0x10
  | .topk a b c => 0x5a000001 + a.val * 0x10000 + b.val * 0x400 + c.val * 0x10
  | .topkm a b c => 0x5a000002 + a.val * 0x10000 + b.val * 0x400 + c.val * 0x10
  | .topkr a b c => 0x5a000003 + a.val * 0x10000 + b.val * 0x400 + c.val * 0x10
  | .nop => 0x60000000
  | .exit => 0x60020000
  | .yield => 0x60040000
  | .brk c => 0x60060000 + c.val
  | .join => 0x60080000
  | .elect p => 0x600a0000 + p.val
  | .regang m => 0x600c0000 + m.toNat
  | .regangWait m => 0x600c0100 + m.toNat
  | .ret => 0x600e0000
  | .jmp v => 0x60100000 + v.val * 0x800
  | .launch s => 0x60120000 + s.val * 0x800
  | .ljoin s => 0x60140000 + s.val * 0x800
  | .wdetach => 0x60160000
  | .wmember s => 0x60180000 + s.val * 0x800
  | .pwreq c => 0x601a0000 + c.val
  | .pwreqYield c => 0x601a0008 + c.val
  | .pwrel => 0x601c0000
  | .fence o c => 0x601e0000 + o.val * 0x8 + c.code
  | .waitcnt l s c t y => 0x62000000 + l.val * 0x100000 + s.val * 0x8000 + c.val * 0x400 + t.val * 0x20 + y.toNat * 0x10
  | .br o => 0x64000000 + o.toNat
  | .brc p o => 0x64400000 + p.val * 0x80000 + o.toNat
  | .call o => 0x64800000 + o.toNat
  | .jpt o => 0x64c00000 + o.toNat
  | .bar s i => 0x66000000 + s.val * 0x800 + i.val
  | .phbinit a n => 0x66020000 + a.val * 0x80 + n.val
  | .phbarr a => 0x66040000 + a.val * 0x80
  | .phbexp s a => 0x66060000 + s.val * 0x800 + a.val * 0x80
  | .phbtest a d h => 0x66080000 + a.val * 0x80 + d.val * 0x10 + h.toNat
  | .phbwait a h => 0x660a0000 + a.val * 0x80 + h.toNat
  | .wbar => 0x660c0000
  | .tlsig a b => 0x68000000 + a.val * 0x80 + b.val * 0x2
  | .tlwait a b => 0x68080000 + a.val * 0x80 + b.val * 0x2
  | .tlread d a => 0x68100000 + d.val * 0x2000 + a.val * 0x80
  | .qpost a b => 0x68180000 + a.val * 0x80 + b.val * 0x2
  | .qtail a b => 0x68200000 + a.val * 0x80 + b.val * 0x2
  | .sysrd s r => 0x70020000 + s.val * 0x800 + r.val
  | .syswr s r => 0x70040000 + s.val * 0x800 + r.val
  | .svc v => 0x70060000 + v.val
  | .hret s => 0x70080000 + s.val * 0x800
  | .pgmap s => 0x700a0000 + s.val * 0x800
  | .pginv s => 0x700c0000 + s.val * 0x800
  | .fltrd s w => 0x700e0000 + s.val * 0x800 + w.val
  | .qfetch s => 0x7c020000 + s.val * 0x800
  | .qdisp => 0x7c040000
  | .qcomp => 0x7c060000
  | .fetchBlock _ _ _ | .nopPacket _ | .launchPacket _ | .waitPacket _ | .signalPacket _ | .barrierPacket _
  | .writePacket _ | .headWriteback _ | .completionEntryWrite _ | .cqCoalesceTimer _ | .fwVisitTimeout
  | .fwImemUncorrectable _ | .queueTableUncorrectable _ | .tailWrite _ _ _ _ | .queueEnable _ _ _
  | .queueDisable _ _ _ | .contextBind _ _ _ | .cqheadWrite _ _ _ | .qStaleRead _ _ | .nrejRead _ _
  | .tlStaleRead _ | .fqLostRead _ _ | .fqSpecRead _ _ | .hostAstatRead _ | .portCounterRead _
  | .notwinRead _ _ | .fwErrClear | .registerWrite _ _ _ _ | .placementDecision _ _ _ _ | .reserve _
  | .grant _ | .commit _ | .placed _ | .start _ | .revoke _ | .refuse _ | .refuseFinal _ | .release _
  | .reserveHoldTimeout _ | .reserveAnswerTimeout _ _ | .reserveRetry _ | .deficitRefill
  | .activeSetIdleEvict _ | .activeQuantumExpire _ | .gangSwapComplete _ | .splitUnpark _ _ | .powerGrant
  | .powerOverLimit | .powerThrottleClear | .loadReturn _ _ _ _ | .storeAck _ _ _ | .atomicReturn _ _ _
  | .recallComplete _ _ _ _ | .pageWalkComplete _ _ _ | .copySectorWrite _ _ _ | .copyComplete _ _
  | .copyFault _ _ _ _ | .nvmeCompletion _ _ _ _ _ _ | .tileOpComplete _ | .tileOpFault _ _
  | .streamOpComplete _ _ | .streamOpFault _ _ _ | .searchOpComplete _ | .searchOpFault _
  | .collectiveComplete _ _ _ | .svcDone _ _ | .gangSwapOut _ | .gangSwapIn _ | .teamSlotFree _
  | .gridRetire _ | .gangResume _ _ | .gangEnd _ _ | .preempt _ _ _ | .preemptSaveComplete _
  | .contextResume _ _ _ | .twin _ _ _ | .twinWriteComplete _ _ | .step _ _ _ | .stepComplete _
  | .rival _ _ _ | .discard _ _ _ | .ccMemaWrite _ _ _ | .ccMemdRead _ _ | .ccMemdWrite _ _ _ | .cut _
  | .cowCopy _ _ | .frameReturn _ | .snap _ _ _ | .restore _ _ _ _ | .restoreComplete _
  | .snapshotBlockWrite _ _ _ _ _ | .snapshotRaiseRelease _ | .snapshotWriteComplete _ | .snapReceive _
  | .snapshotCopyAck _ | .snapshotPartnerTimeout _ | .fabricSlot _ _ | .lineWrReceive _ | .lineRqReceive _
  | .lineDataReceive _ | .smallReceive _ | .collReceive _ | .mcastReceive _ | .streamReceive _
  | .wbarReceive _ | .wstateReceive _ | .linkAck _ _ | .linkNak _ _ | .linkReplayTimeout _ | .cellCrcFail _ _
  | .tailxReceive _ _ | .peerDownTimeout _ | .remoteReplyTimeout _ _ _ _ | .hostSnoop _ _ _ _
  | .hostTranslationAnswer _ | .hostTranslationInvalidate _ _ | .zeroLengthReadComplete _ _ _
  | .atomicopCompletion _ _ _ _ | .atomicopTimeout _ _ | .timelineHostRead _ _ | .timelineHostStore _ _
  | .timelineRaiseWrite _ | .hostLinkDown _ | .ldBind _ _ _ _ _ _ _ _ _ _ | .coldReset | .warmReset _ _
  | .logicalDeviceReset _ | .memoryZeroDone | .firmwareLoad _ | .firmwareLoadComplete | .firmwareStop _
  | .attest _ _ | .attestReportDone _ | .featureRequest _ _ | .pwrCapWrite _ _ | .arouteWrite _ _
  | .featureNegotiationDone _ | .preemptAnswerReceive _ => 0

/-- The words of an instruction: two for `slit`, one for every other instruction word, none for an event
(R103, R110). -/
def encode (i : Instr) : List W32 :=
  match i with
  | .slit _ lit => [BitVec.ofNat 32 (encodeWord i), lit]
  | .slitN32 _ lit => [BitVec.ofNat 32 (encodeWord i), lit]
  | _ => if i.isWord then [BitVec.ofNat 32 (encodeWord i)] else []

/-- `w` cut into words, the first the low one. -/
def wordsOf : Nat → Nat → List W32
  | 0, _ => []
  | n + 1, w => BitVec.ofNat 32 w :: wordsOf n (w / 2 ^ 32)

/-- The instruction whose bits are `w`, numbered as the opcode table numbers them; the longest instruction is two
words, and the bits above `nbits` are zero. -/
def decodeTableWord (nbits w : Nat) : Option Instr :=
  match decode (wordsOf 2 (w % 2 ^ nbits)) with
  | .ok (i, _) => some i
  | .error _ => none

end Sys2Proof
end

