-- ==== Sys2Proof/Machine/Number.lean ====
section
/-! DEFINITION. Numbers and formats (spec/09 R188 to R200, R203): the exact value of a stored pattern, exact arithmetic on
such values, and the one rounding that stores a value in a format. A value that is not dyadic (a quotient, a root, an
exponential, a logarithm) is carried to more than sixty bits with its last bit set, which rounds as the value itself
does (log 13 for `fexp2` and `flog2`). -/

namespace Sys2Proof.Machine

/-- A number a format can hold: NaN, an infinity, or `(-1)^neg * m * 2^e` with a signed zero (R189). -/
inductive Num where
  | nan
  | inf (neg : Bool)
  | fin (neg : Bool) (m : Nat) (e : Int)
  deriving DecidableEq, Repr

/-- The formats of R39. -/
inductive Fmt where
  | f16 | b16 | f19 | e4m3 | e5m2 | e3m4 | e3m2 | e2m3 | e2m1 | i8 | n8 | i4 | n4 | d8 | d4 | t2 | f32
  deriving DecidableEq, Repr

/-- Format codes (R39). -/
def Fmt.ofCode : Nat → Option Fmt
  | 0x01 => some .f16 | 0x02 => some .b16 | 0x03 => some .f19 | 0x04 => some .e4m3 | 0x05 => some .e5m2
  | 0x06 => some .e3m4 | 0x07 => some .e3m2 | 0x08 => some .e2m3 | 0x09 => some .e2m1 | 0x0a => some .i8
  | 0x0b => some .n8 | 0x0c => some .i4 | 0x0d => some .n4 | 0x0e => some .d8 | 0x0f => some .d4
  | 0x10 => some .t2 | 0x11 => some .f32
  | _ => none

/-- Container widths in bits (R188). -/
def Fmt.width : Fmt → Nat
  | .f32 | .f19 => 32
  | .f16 | .b16 => 16
  | .e4m3 | .e5m2 | .e3m4 | .e3m2 | .e2m3 | .i8 | .n8 | .d8 => 8
  | .e2m1 | .i4 | .n4 | .d4 => 4
  | .t2 => 2

/-- Which special values a floating format has (R189). -/
inductive Specials where
  | ieee      -- infinities and NaNs in the top exponent
  | nanOnly   -- the all-ones pattern is NaN
  | none
  deriving DecidableEq, Repr

/-- The shape of a floating format (R189). -/
structure FloatShape where
  ebits : Nat
  mbits : Nat
  bias : Nat
  special : Specials
  deriving DecidableEq, Repr

def shapeF32 : FloatShape := ⟨8, 23, 127, .ieee⟩
def shapeF16 : FloatShape := ⟨5, 10, 15, .ieee⟩
def shapeB16 : FloatShape := ⟨8, 7, 127, .ieee⟩

/-- The classes of format: floating, two's-complement or unsigned integer, dyadic, ternary (R189 to R192). -/
inductive FmtKind where
  | float (s : FloatShape)
  | int (lo hi : Int)
  | dyadic
  deriving DecidableEq, Repr

def Fmt.kind : Fmt → FmtKind
  | .f32 => .float shapeF32
  | .f19 => .float ⟨8, 10, 127, .ieee⟩
  | .f16 => .float shapeF16
  | .b16 => .float shapeB16
  | .e5m2 => .float ⟨5, 2, 15, .ieee⟩
  | .e4m3 => .float ⟨4, 3, 7, .nanOnly⟩
  | .e3m4 => .float ⟨3, 4, 3, .nanOnly⟩
  | .e3m2 => .float ⟨3, 2, 3, .none⟩
  | .e2m3 => .float ⟨2, 3, 1, .none⟩
  | .e2m1 => .float ⟨2, 1, 1, .none⟩
  | .i8 => .int (-128) 127
  | .n8 => .int 0 255
  | .i4 => .int (-8) 7
  | .n4 => .int 0 15
  | .d8 | .d4 | .t2 => .dyadic

/-- The largest finite pattern, sign clear (R189). -/
def FloatShape.maxFinite (s : FloatShape) : Nat :=
  match s.special with
  | .ieee => (2 ^ s.ebits - 1) * 2 ^ s.mbits - 1
  | .nanOnly => 2 ^ (s.ebits + s.mbits) - 2
  | .none => 2 ^ (s.ebits + s.mbits) - 1

/-- The canonical NaN (R189); a format without NaN delivers +0 (R195). -/
def FloatShape.canonicalNaN (s : FloatShape) : Nat :=
  match s.special with
  | .ieee => (2 ^ s.ebits - 1) * 2 ^ s.mbits + 2 ^ (s.mbits - 1)
  | .nanOnly => 2 ^ (s.ebits + s.mbits) - 1
  | .none => 0

/-- The sign bit of a shape, as a pattern. -/
def FloatShape.signBit (s : FloatShape) (neg : Bool) : Nat :=
  if neg then 2 ^ (s.ebits + s.mbits) else 0

/-- The value of a floating pattern (R189). -/
def FloatShape.value (s : FloatShape) (w : Nat) : Num :=
  let f := w % 2 ^ s.mbits
  let e := w / 2 ^ s.mbits % 2 ^ s.ebits
  let neg := w / 2 ^ (s.ebits + s.mbits) % 2 == 1
  let top := 2 ^ s.ebits - 1
  if s.special == .ieee && e == top then
    (if f == 0 then .inf neg else .nan)
  else if s.special == .nanOnly && e == top && f == 2 ^ s.mbits - 1 then .nan
  else if e == 0 then .fin neg f (1 - (s.bias : Int) - s.mbits)
  else .fin neg (f + 2 ^ s.mbits) ((e : Int) - s.bias - s.mbits)

/-- Whether a floating pattern is subnormal (R196). -/
def FloatShape.subnormal (s : FloatShape) (w : Nat) : Bool :=
  w / 2 ^ s.mbits % 2 ^ s.ebits == 0 && w % 2 ^ s.mbits != 0

/-- `2^e` times `m` as an integer when `e` is not negative. -/
def shiftUp (m : Nat) (e : Int) : Nat := m * 2 ^ e.toNat

/-- The multiple of `2^q` that `(-1)^neg * m * 2^e` rounds to, as the count of `2^q` (R194). -/
def roundQuantum (r : RoundMode) (neg : Bool) (m : Nat) (e q : Int) : Nat :=
  if q ≤ e then shiftUp m (e - q)
  else
    let sh := (q - e).toNat
    let k := m / 2 ^ sh
    let rest := m % 2 ^ sh
    let half := 2 ^ (sh - 1)
    let up : Bool := match r with
      | .nearestEven => decide (half < rest) || (rest == half && k % 2 == 1)
      | .towardZero => false
      | .up => rest != 0 && !neg
      | .down => rest != 0 && neg
      | .nearestAway => decide (half ≤ rest)
    if up then k + 1 else k

/-- What a finite value beyond the largest finite one becomes, or an infinity, under R195. `inf` says which. -/
def FloatShape.overflow (s : FloatShape) (r : RoundMode) (sat neg inf : Bool) : Nat :=
  let toMax : Bool := match s.special with
    | .none => true
    | _ => sat || (!inf && (r == .towardZero || (r == .up && neg) || (r == .down && !neg)))
  s.signBit neg + (
    if toMax then s.maxFinite
    else match s.special with
      | .ieee => s.maxFinite + 1
      | _ => s.canonicalNaN)

/-- The pattern a finite value is stored as (R194, R195). -/
def FloatShape.roundFin (s : FloatShape) (r : RoundMode) (sat neg : Bool) (m : Nat) (e : Int) : Nat :=
  if m = 0 then s.signBit neg
  else
    let lead : Int := (m.log2 : Int) + e
    let emin : Int := 1 - (s.bias : Int)
    let q : Int := (if lead < emin then emin else lead) - s.mbits
    let k := roundQuantum r neg m e q
    let k' := if k = 2 ^ (s.mbits + 1) then 2 ^ s.mbits else k
    let q' := if k = 2 ^ (s.mbits + 1) then q + 1 else q
    let pat : Nat :=
      if k' < 2 ^ s.mbits then k'
      else (q' + s.mbits + s.bias).toNat * 2 ^ s.mbits + (k' - 2 ^ s.mbits)
    if s.maxFinite < pat then s.overflow r sat neg false
    else s.signBit neg + pat

/-- The pattern a number is stored as in a floating format (R194, R195). -/
def FloatShape.round (s : FloatShape) (r : RoundMode) (sat : Bool) : Num → Nat
  | .nan => s.canonicalNaN
  | .inf neg => s.overflow r sat neg true
  | .fin neg m e => s.roundFin r sat neg m e

/-- Nearest-even without saturation: the rounding of every vector float form and of `tmm` (R199, R201). -/
def FloatShape.rne (s : FloatShape) (x : Num) : Nat := s.round .nearestEven false x

/-- A finite value rounded into an integer range (R194, R195). -/
def roundInt (r : RoundMode) (lo hi : Int) : Num → Int
  | .nan => 0
  | .inf neg => if neg then lo else hi
  | .fin neg m e =>
    let k : Int := roundQuantum r neg m e 0
    let v := if neg then -k else k
    if v < lo then lo else if hi < v then hi else v

/-! ### Dyadic and ternary formats (R191, R192) -/

/-- A term in units of 2^-6: sign in bit 3, shift in bits [2:0]; shift 7 is zero. -/
def dyadicTerm (n : Nat) : Int :=
  if n % 8 = 7 then 0
  else if n / 8 % 2 = 1 then -(2 ^ (6 - n % 8) : Nat) else (2 ^ (6 - n % 8) : Nat)

/-- The value of a dyadic or ternary pattern in units of 2^-6. -/
def dyadicUnits (f : Fmt) (w : Nat) : Int :=
  match f with
  | .d8 => dyadicTerm (w / 16) + dyadicTerm w
  | .d4 => dyadicTerm w
  | _ => match w % 4 with
    | 1 => 64
    | 3 => -64
    | _ => 0

/-- Nonzero terms, then misplaced or untidy terms, then negative terms, then the pattern: the order of R191's tests. -/
def dyadicRank (f : Fmt) (w : Nat) : Nat :=
  match f with
  | .d8 =>
    let a := w / 16 % 16
    let b := w % 16
    let nz (t : Nat) : Nat := if t % 8 = 7 then 0 else 1
    let untidy : Nat :=
      (if a % 8 = 7 && a != 7 then 1 else 0) + (if b % 8 = 7 && b != 7 then 1 else 0) +
      (if nz a = 0 && nz b = 1 then 1 else 0) + (if nz a = 1 && nz b = 1 && b % 8 < a % 8 then 1 else 0)
    let negs : Nat := (if nz a = 1 then a / 8 else 0) + (if nz b = 1 then b / 8 else 0)
    (nz a + nz b) * 2 ^ 16 + untidy * 2 ^ 12 + negs * 2 ^ 8 + w
  | .d4 => (if w % 16 = 15 then 256 else 0) + w
  | _ => (if w % 4 = 2 then 256 else 0) + w

/-- The candidate patterns of a dyadic or ternary format. -/
def dyadicPatterns : Fmt → List Nat
  | .d8 => List.range 256
  | .d4 => List.range 16
  | _ => List.range 4

/-- Whether candidate `v` serves better than `u` for `x` (all in one unit) under a rounding code (R194). A candidate
on the wrong side serves only when none on the right side exists, and then the nearest does (R195). -/
def dyadicBetter (r : RoundMode) (x v u : Int) : Bool :=
  let dv := (x - v).natAbs
  let du := (x - u).natAbs
  let side (c : Int) : Bool := match r with
    | .towardZero => decide (c.natAbs ≤ x.natAbs) && (decide (c = 0) || decide (0 ≤ c) == decide (0 ≤ x))
    | .up => decide (x ≤ c)
    | .down => decide (c ≤ x)
    | _ => true
  if side v != side u then side v
  else if dv != du then decide (dv < du)
  else match r with
    | .nearestAway => decide (u.natAbs < v.natAbs)
    | _ => decide (v.natAbs < u.natAbs)

/-- The canonical pattern a finite value rounds to (R191, R194). -/
def roundDyadic (f : Fmt) (r : RoundMode) (x : Num) : Nat :=
  let scaled : Int × Nat := match x with
    | .nan => (0, 0)
    | .inf neg => (if neg then -1024 else 1024, 0)
    | .fin neg m e =>
      let d := (-6 - e).toNat
      let v : Int := shiftUp m (e + 6 + d)
      (if neg then -v else v, d)
  let unit : Int := (2 ^ scaled.2 : Nat)
  let best := (dyadicPatterns f).foldl (fun acc w =>
    let v := dyadicUnits f w * unit
    if dyadicBetter r scaled.1 v acc then v else acc) 0
  let ws := (dyadicPatterns f).filter fun w => dyadicUnits f w * unit == best
  (ws.foldl (fun (acc : Option Nat) w =>
    match acc with
    | none => some w
    | some u => if dyadicRank f w < dyadicRank f u then some w else some u) none).getD 0

/-! ### Any format -/

/-- The value of a container's bits in a format; bits outside the element are ignored (R188 to R192). -/
def Fmt.value (f : Fmt) (w : Nat) : Num :=
  match f.kind with
  | .float s =>
    if f = .f19 then s.value (w / 2 ^ 13 % 2 ^ 19) else s.value (w % 2 ^ (1 + s.ebits + s.mbits))
  | .int lo _ =>
    let n := w % 2 ^ f.width
    if lo < 0 ∧ 2 ^ (f.width - 1) ≤ n then .fin true (2 ^ f.width - n) 0 else .fin false n 0
  | .dyadic =>
    let u := dyadicUnits f (w % 2 ^ f.width)
    .fin (decide (u < 0)) u.natAbs (-6)

/-- Whether a container holds a subnormal of a floating format (R196). -/
def Fmt.subnormal (f : Fmt) (w : Nat) : Bool :=
  match f.kind with
  | .float s => if f = .f19 then s.subnormal (w / 2 ^ 13 % 2 ^ 19) else s.subnormal (w % 2 ^ (1 + s.ebits + s.mbits))
  | _ => false

/-- The container bits a number is stored as (R188, R194, R195). -/
def Fmt.store (f : Fmt) (r : RoundMode) (sat : Bool) (x : Num) : Nat :=
  match f.kind with
  | .float s => if f = .f19 then s.round r sat x * 2 ^ 13 else s.round r sat x
  | .int lo hi => (roundInt r lo hi x % (2 ^ f.width : Nat)).toNat
  | .dyadic => roundDyadic f r x

/-- The number times `2^k`. -/
def Num.scale (k : Int) : Num → Num
  | .fin n m e => .fin n m (e + k)
  | x => x

/-- Whether |x| is nonzero and below the smallest normal value of a floating format (R196). -/
def Fmt.belowNormal (f : Fmt) : Num → Bool
  | .fin _ m e =>
    match f.kind with
    | .float s => m != 0 && decide ((m.log2 : Int) + e < 1 - (s.bias : Int))
    | _ => false
  | _ => false

/-- A zero of the number's sign. -/
def Num.zeroed : Num → Num
  | .fin n _ _ => .fin n 0 0
  | x => x

/-- A format slot's 64 bits (R38, R39). -/
structure FmtSlot where
  fmt : Fmt
  smode : Nat
  exp : Int
  round : RoundMode
  sat : Bool
  flush : Bool
  scaleh : Nat
  deriving DecidableEq, Repr

/-- A slot read from its 64 bits; an unused slot and an unassigned code answer none (R38, R39). -/
def FmtSlot.ofBits (w : W64) : Option FmtSlot :=
  let n := w.toNat
  match Fmt.ofCode (n % 64), RoundMode.ofCode (n / 2 ^ 16 % 16) with
  | some f, some r =>
    some { fmt := f, smode := n / 64 % 4, exp := ((w.extractLsb' 8 8).toInt), round := r,
           sat := n / 2 ^ 20 % 2 == 1, flush := n / 2 ^ 21 % 2 == 1, scaleh := n / 2 ^ 32 }
  | _, _ => none

/-- The value read from a slot's container by `cvt` and `cvtp`: flushed, then scaled (R196, R197, R209). -/
def FmtSlot.read (s : FmtSlot) (w : Nat) : Num :=
  let x := s.fmt.value w
  let x := if s.flush && s.fmt.subnormal w then x.zeroed else x
  if s.smode = 1 then x.scale s.exp else x

/-- The container a number is written as by `cvt`, `cvtp` and the engines (R194 to R197, R209). -/
def FmtSlot.write (s : FmtSlot) (x : Num) : Nat :=
  let x := if s.smode = 1 then x.scale (-s.exp) else x
  let x := if s.flush && s.fmt.belowNormal x then x.zeroed else x
  s.fmt.store s.round s.sat x

/-- The stored value of an engine operand: flushed, not scaled (R197, R199). -/
def FmtSlot.readStored (s : FmtSlot) (w : Nat) : Num :=
  let x := s.fmt.value w
  if s.flush && s.fmt.subnormal w then x.zeroed else x

/-! ### Exact arithmetic -/

def Num.neg : Num → Num
  | .nan => .nan
  | .inf n => .inf (!n)
  | .fin n m e => .fin (!n) m e

/-- The signed count of `2^e0` in a finite value, for `e0` no larger than its exponent. -/
def signedAt (n : Bool) (m : Nat) (e e0 : Int) : Int :=
  let v : Int := shiftUp m (e - e0)
  if n then -v else v

/-- The exact sum; an exact zero is -0 only when both addends are -0 (R202). -/
def Num.add : Num → Num → Num
  | .nan, _ => .nan
  | _, .nan => .nan
  | .inf a, .inf b => if a = b then .inf a else .nan
  | .inf a, .fin _ _ _ => .inf a
  | .fin _ _ _, .inf b => .inf b
  | .fin n1 m1 e1, .fin n2 m2 e2 =>
    let e0 := if e1 ≤ e2 then e1 else e2
    let s := signedAt n1 m1 e1 e0 + signedAt n2 m2 e2 e0
    if s = 0 then .fin (n1 && n2 && m1 == 0 && m2 == 0) 0 0
    else .fin (decide (s < 0)) s.natAbs e0

/-- The exact product; 0 times infinity is NaN (R199, R202). -/
def Num.mul : Num → Num → Num
  | .nan, _ => .nan
  | _, .nan => .nan
  | .inf a, .inf b => .inf (a != b)
  | .inf a, .fin n m _ => if m = 0 then .nan else .inf (a != n)
  | .fin n m _, .inf b => if m = 0 then .nan else .inf (b != n)
  | .fin n1 m1 e1, .fin n2 m2 e2 => .fin (n1 != n2) (m1 * m2) (e1 + e2)

/-- Less, equal, greater; none when either is NaN; the zeros are equal (R205). -/
def Num.compare : Num → Num → Option Ordering
  | .nan, _ => none
  | _, .nan => none
  | .inf a, .inf b => some (if a = b then .eq else if a then .lt else .gt)
  | .inf a, .fin _ _ _ => some (if a then .lt else .gt)
  | .fin _ _ _, .inf b => some (if b then .gt else .lt)
  | .fin n1 m1 e1, .fin n2 m2 e2 =>
    let e0 := if e1 ≤ e2 then e1 else e2
    let x := signedAt n1 m1 e1 e0
    let y := signedAt n2 m2 e2 e0
    some (if x < y then .lt else if x = y then .eq else .gt)

/-- The value `m * 2^e`, or one strictly between it and `(m+1) * 2^e` when `inexact`, as a dyadic number that rounds
alike in every format of the spec. -/
def sticky (neg : Bool) (m : Nat) (e : Int) (inexact : Bool) : Num :=
  if inexact then .fin neg (2 * m + 1) (e - 1) else .fin neg m e

/-- The exact quotient, carried to sixty-four bits and more (R203, R295). -/
def Num.div : Num → Num → Num
  | .nan, _ => .nan
  | _, .nan => .nan
  | .inf _, .inf _ => .nan
  | .inf a, .fin n _ _ => .inf (a != n)
  | .fin n _ _, .inf b => .fin (n != b) 0 0
  | .fin n1 m1 e1, .fin n2 m2 e2 =>
    if m2 = 0 then (if m1 = 0 then .nan else .inf (n1 != n2))
    else
      let p := m2.log2 + 66
      let q := m1 * 2 ^ p / m2
      sticky (n1 != n2) q (e1 - e2 - p) (m1 * 2 ^ p % m2 != 0)

/-- The integer square root of `n` from its `k` lowest pairs of bits down: the largest `r` with `r*r ≤ n`. -/
def isqrtFrom (n : Nat) : Nat → Nat → Nat
  | 0, r => r
  | k + 1, r =>
    let c := r + 2 ^ k
    if c * c ≤ n then isqrtFrom n k c else isqrtFrom n k r

/-- The integer square root. -/
def isqrt (n : Nat) : Nat := isqrtFrom n (n.log2 / 2 + 1) 0

/-- The square root (R203). -/
def Num.sqrt : Num → Num
  | .nan => .nan
  | .inf n => if n then .nan else .inf false
  | .fin n m e =>
    if m = 0 then .fin n 0 0
    else if n then .nan
    else
      let odd := e % 2 = 1
      let m1 := if odd then 2 * m else m
      let e1 := if odd then e - 1 else e
      let mm := m1 * 2 ^ 128
      let r := isqrt mm
      sticky false r (e1 / 2 - 64) (r * r != mm)

/-- The reciprocal of the square root (R203). -/
def Num.rsqrt : Num → Num
  | .nan => .nan
  | .inf n => if n then .nan else .fin false 0 0
  | .fin n m e =>
    if m = 0 then .inf n
    else if n then .nan
    else
      let odd := e % 2 = 1
      let m1 := if odd then 2 * m else m
      let e1 := if odd then e - 1 else e
      let p := m1.log2 + 66
      let r := isqrt (2 ^ (2 * p) / m1)
      sticky false r (-(e1 / 2) - p) (r * r * m1 != 2 ^ (2 * p))

/-- ln 2 in units of 2^-256. -/
def ln2Units : Nat := 0xb17217f7d1cf79abc9e3b39803f2f6af40f343267298b62d8a0d175b8baafa2b

/-- The Taylor terms of `exp y` from term `t` on, in units of 2^-256 (log 13). -/
def expTerms (y : Nat) : Nat → Nat → Nat → Nat
  | 0, _, _ => 0
  | k + 1, i, t => t + expTerms y k (i + 1) (t * y / (2 ^ 256 * i))

/-- `2^f` for the fraction `f` in units of 2^-256, in units of 2^-256 (log 13). -/
def exp2Fraction (f : Nat) : Nat := expTerms (f * ln2Units / 2 ^ 256) 80 1 (2 ^ 256)

/-- Two to the power (R203). Beyond ±4,096 every format of the spec has overflowed or reached zero. -/
def Num.exp2 : Num → Num
  | .nan => .nan
  | .inf n => if n then .fin false 0 0 else .inf false
  | .fin n m e =>
    if m = 0 then .fin false 1 0
    else if (13 : Int) ≤ (m.log2 : Int) + e then .fin false 1 (if n then -4096 else 4096)
    else
      let u : Int := if e < -256 then 1 else shiftUp m (e + 256)
      let x : Int := if n then -u else u
      let f := x % (2 ^ 256 : Nat)
      let k := x / (2 ^ 256 : Nat)
      if f = 0 then .fin false 1 k
      else sticky false (exp2Fraction f.toNat) (k - 256) true

/-- Terms of atanh: `z + z^3/3 + z^5/5 + ...` from power `p` on, in units of 2^-256 (log 13). -/
def atanhTerms (zz : Nat) : Nat → Nat → Nat → Nat
  | 0, _, _ => 0
  | k + 1, i, p => p / i + atanhTerms zz k (i + 2) (p * zz / 2 ^ 256)

/-- log2 of `m / 2^(log2 m)`, a number from 1 to below 2, in units of 2^-256 (log 13). -/
def log2Fraction (m : Nat) : Nat :=
  let one := 2 ^ m.log2
  let z := (m - one) * 2 ^ 256 / (m + one)
  2 * atanhTerms (z * z / 2 ^ 256) 90 1 z * 2 ^ 256 / ln2Units

/-- The binary logarithm (R203). -/
def Num.log2 : Num → Num
  | .nan => .nan
  | .inf n => if n then .nan else .inf false
  | .fin n m e =>
    if m = 0 then .inf true
    else if n then .nan
    else
      let lead : Int := (m.log2 : Int) + e
      if m = 2 ^ m.log2 then .fin (decide (lead < 0)) lead.natAbs 0
      else
        let v : Int := lead * (2 ^ 256 : Nat) + log2Fraction m
        sticky (decide (v < 0)) v.natAbs (-256) true

/-- The nearest integral value by a rounding code; a zero keeps its sign (R204). -/
def Num.roundIntegral (r : RoundMode) : Num → Num
  | .fin n m e => if 0 ≤ e then .fin n m e else .fin n (roundQuantum r n m e 0) 0
  | x => x

/-- The exact sum of products of a granule; an exactly zero sum is +0 (R199). -/
def granuleSum (ps : List Num) : Num :=
  match ps.foldl Num.add (.fin false 0 0) with
  | .fin n m e => if m = 0 then .fin false 0 0 else .fin n m e
  | x => x

end Sys2Proof.Machine
end

