-- ==== Sys2Proof/Machine/Shape.lean ====
section
/-! DEFINITION. What a word names, for the checks made at issue (spec/05 R102, R104, R121, R122): its pipe, its vector and
scalar registers, its destinations and its format slots. An event names nothing. -/

namespace Sys2Proof.Machine

/-- The pipes (R102); a vector word goes to V0 or V1. -/
inductive Pipe where
  | s | a | v | m | x
  deriving DecidableEq, Repr

/-- A destination register of one class (R104). -/
inductive Dest where
  | v (n : Nat) | s (n : Nat) | a (n : Nat) | p (n : Nat)
  deriving DecidableEq, Repr

def voffRegs : Option VReg → List Nat
  | none => []
  | some v => [v.val]

def srcRegs : Src2 → List Nat
  | .imm _ => []
  | .reg r => [r.val]

/-- The operand registers of an atomic (R228). -/
def atomRegs32 (o : AtomOp) (d : Nat) : List Nat := if o = .cas then [d, d + 1] else [d]
def atomRegs64 (o : AtomOp) (d : Nat) : List Nat := if o = .cas then [d, d + 1, d + 2, d + 3] else [d, d + 1]

/-- The vector registers a word names, second registers of pairs and the arguments of `svc` among them (R122). -/
def vregsOf : Instr → List Nat
  | .aget _ v => [v.val]
  | .vaddVv d a b => [d.val, a.val, b.val]
  | .vaddVx d a _ => [d.val, a.val]
  | .vsubVv d a b => [d.val, a.val, b.val]
  | .vsubVx d a _ => [d.val, a.val]
  | .vmulVv d a b => [d.val, a.val, b.val]
  | .vmulVx d a _ => [d.val, a.val]
  | .vmulhI32Vv d a b => [d.val, a.val, b.val]
  | .vmulhI32Vx d a _ => [d.val, a.val]
  | .vmulhN32Vv d a b => [d.val, a.val, b.val]
  | .vmulhN32Vx d a _ => [d.val, a.val]
  | .vmadVv d a b => [d.val, a.val, b.val]
  | .vmadVx d a _ => [d.val, a.val]
  | .vsaddI32Vv d a b => [d.val, a.val, b.val]
  | .vsaddI32Vx d a _ => [d.val, a.val]
  | .vsaddN32Vv d a b => [d.val, a.val, b.val]
  | .vsaddN32Vx d a _ => [d.val, a.val]
  | .vssubI32Vv d a b => [d.val, a.val, b.val]
  | .vssubI32Vx d a _ => [d.val, a.val]
  | .vssubN32Vv d a b => [d.val, a.val, b.val]
  | .vssubN32Vx d a _ => [d.val, a.val]
  | .vminVv d a b => [d.val, a.val, b.val]
  | .vminVx d a _ => [d.val, a.val]
  | .vmaxVv d a b => [d.val, a.val, b.val]
  | .vmaxVx d a _ => [d.val, a.val]
  | .vminnVv d a b => [d.val, a.val, b.val]
  | .vminnVx d a _ => [d.val, a.val]
  | .vmaxnVv d a b => [d.val, a.val, b.val]
  | .vmaxnVx d a _ => [d.val, a.val]
  | .vandVv d a b => [d.val, a.val, b.val]
  | .vandVx d a _ => [d.val, a.val]
  | .vorVv d a b => [d.val, a.val, b.val]
  | .vorVx d a _ => [d.val, a.val]
  | .vxorVv d a b => [d.val, a.val, b.val]
  | .vxorVx d a _ => [d.val, a.val]
  | .vshlVv d a b => [d.val, a.val, b.val]
  | .vshlVx d a _ => [d.val, a.val]
  | .vshrVv d a b => [d.val, a.val, b.val]
  | .vshrVx d a _ => [d.val, a.val]
  | .vsraVv d a b => [d.val, a.val, b.val]
  | .vsraVx d a _ => [d.val, a.val]
  | .vbfxI32Vv d a b => [d.val, a.val, b.val]
  | .vbfxI32Vx d a _ => [d.val, a.val]
  | .vbfxN32Vv d a b => [d.val, a.val, b.val]
  | .vbfxN32Vx d a _ => [d.val, a.val]
  | .vbfiVv d a b => [d.val, a.val, b.val]
  | .vbfiVx d a _ => [d.val, a.val]
  | .vsel _ d a b => [d.val, a.val, b.val]
  | .vnot d a => [d.val, a.val]
  | .vabs d a => [d.val, a.val]
  | .vneg d a => [d.val, a.val]
  | .vclz d a => [d.val, a.val]
  | .vpopc d a => [d.val, a.val]
  | .vmov d a => [d.val, a.val]
  | .vli d _ => [d.val]
  | .vcmpVv _ _ a b => [a.val, b.val]
  | .vcmpVx _ _ a _ => [a.val]
  | .vshflIdx d a b => [d.val, a.val, b.val]
  | .vshflIdxChk d a b => [d.val, a.val, b.val]
  | .vredAdd d a => [d.val, a.val]
  | .vredMin d a => [d.val, a.val]
  | .vredMax d a => [d.val, a.val]
  | .vscanAdd d a => [d.val, a.val]
  | .vballot d _ => [d.val]
  | .vshflUp d a _ => [d.val, a.val]
  | .vshflUpChk d a _ => [d.val, a.val]
  | .vshflDn d a _ => [d.val, a.val]
  | .vshflDnChk d a _ => [d.val, a.val]
  | .vshflXor d a _ => [d.val, a.val]
  | .vshflXorChk d a _ => [d.val, a.val]
  | .vbcast d a _ => [d.val, a.val]
  | .vbcastChk d a _ => [d.val, a.val]
  | .fadd _ d a b => [d.val, a.val, b.val]
  | .fsub _ d a b => [d.val, a.val, b.val]
  | .fmul _ d a b => [d.val, a.val, b.val]
  | .ffma _ d a b => [d.val, a.val, b.val]
  | .fmin _ d a b => [d.val, a.val, b.val]
  | .fmax _ d a b => [d.val, a.val, b.val]
  | .fabs _ d a => [d.val, a.val]
  | .fneg _ d a => [d.val, a.val]
  | .frcp _ d a => [d.val, a.val]
  | .frsq _ d a => [d.val, a.val]
  | .fsqrt _ d a => [d.val, a.val]
  | .fexp2 _ d a => [d.val, a.val]
  | .flog2 _ d a => [d.val, a.val]
  | .fround _ d a _ => [d.val, a.val]
  | .fcmp _ _ _ a b => [a.val, b.val]
  | .cvt _ d a _ _ => [d.val, a.val]
  | .cvtp _ d a b => [d.val, a.val, b.val]
  | .ldGlobal z d _ v _ => d.val :: (if z = .n64 then [d.val + 1] else []) ++ voffRegs v
  | .stGlobal z d _ v _ => d.val :: (if z = .n64 then [d.val + 1] else []) ++ voffRegs v
  | .pf _ v => voffRegs v
  | .ldWindow z d _ v _ => d.val :: (if z = .n64 then [d.val + 1] else []) ++ voffRegs v
  | .stWindow z d _ v _ => d.val :: (if z = .n64 then [d.val + 1] else []) ++ voffRegs v
  | .ldLocal z d _ v _ => d.val :: (if z = .n64 then [d.val + 1] else []) ++ voffRegs v
  | .stLocal z d _ v _ => d.val :: (if z = .n64 then [d.val + 1] else []) ++ voffRegs v
  | .atomGlobal32 o d _ v _ => atomRegs32 o d.val ++ voffRegs v
  | .atomGlobal64 o d _ v _ => atomRegs64 o d.val ++ voffRegs v
  | .atomLocal32 o d _ v _ => atomRegs32 o d.val ++ voffRegs v
  | .atomLocal64 o d _ v _ => atomRegs64 o d.val ++ voffRegs v
  | .rld w d _ p _ => d.val :: p.val :: (if w then [d.val + 1] else [])
  | .rst w d _ p _ => d.val :: p.val :: (if w then [d.val + 1] else [])
  | .ratom o d _ p _ => p.val :: atomRegs32 o d.val
  | .rsaddVector _ _ _ c => [c.val]
  | .jmp v => [v.val]
  | .svc v => [v.val, v.val + 1, v.val + 2, v.val + 3, v.val + 4]
  | _ => []

/-- The scalar registers a word names. -/
def sregsOf : Instr → List Nat
  | .sadd d a b => [d.val] ++ [a.val] ++ [b.val]
  | .ssub d a b => [d.val] ++ [a.val] ++ [b.val]
  | .smul d a b => [d.val] ++ [a.val] ++ [b.val]
  | .smulhI64 d a b => [d.val] ++ [a.val] ++ [b.val]
  | .smulhN64 d a b => [d.val] ++ [a.val] ++ [b.val]
  | .sdivI64 d a b => [d.val] ++ [a.val] ++ [b.val]
  | .sdivN64 d a b => [d.val] ++ [a.val] ++ [b.val]
  | .sremI64 d a b => [d.val] ++ [a.val] ++ [b.val]
  | .sremN64 d a b => [d.val] ++ [a.val] ++ [b.val]
  | .sand d a b => [d.val] ++ [a.val] ++ [b.val]
  | .sor d a b => [d.val] ++ [a.val] ++ [b.val]
  | .sxor d a b => [d.val] ++ [a.val] ++ [b.val]
  | .snot d a => [d.val] ++ [a.val]
  | .sshl d a b => [d.val] ++ [a.val] ++ [b.val]
  | .sshr d a b => [d.val] ++ [a.val] ++ [b.val]
  | .ssra d a b => [d.val] ++ [a.val] ++ [b.val]
  | .smin d a b => [d.val] ++ [a.val] ++ [b.val]
  | .smax d a b => [d.val] ++ [a.val] ++ [b.val]
  | .sminn d a b => [d.val] ++ [a.val] ++ [b.val]
  | .smaxn d a b => [d.val] ++ [a.val] ++ [b.val]
  | .ssel d a b => [d.val] ++ [a.val] ++ [b.val]
  | .smov d a => [d.val] ++ [a.val]
  | .sclz d a => [d.val] ++ [a.val]
  | .spopc d a => [d.val] ++ [a.val]
  | .sbfxI64 d a b => [d.val] ++ [a.val] ++ [b.val]
  | .sbfxN64 d a b => [d.val] ++ [a.val] ++ [b.val]
  | .sbfi d a b => [d.val] ++ [a.val] ++ [b.val]
  | .scmp _ d a b => [d.val] ++ [a.val] ++ [b.val]
  | .sli d _ => [d.val]
  | .slit d _ => [d.val]
  | .slitN32 d _ => [d.val]
  | .aset _ b _ => [b.val]
  | .aadd _ _ b _ => [b.val]
  | .astr _ _ b => [b.val]
  | .amul _ _ b _ => [b.val]
  | .pcnt _ s => [s.val]
  | .vaddVx _ _ x => srcRegs x
  | .vsubVx _ _ x => srcRegs x
  | .vmulVx _ _ x => srcRegs x
  | .vmulhI32Vx _ _ x => srcRegs x
  | .vmulhN32Vx _ _ x => srcRegs x
  | .vmadVx _ _ x => srcRegs x
  | .vsaddI32Vx _ _ x => srcRegs x
  | .vsaddN32Vx _ _ x => srcRegs x
  | .vssubI32Vx _ _ x => srcRegs x
  | .vssubN32Vx _ _ x => srcRegs x
  | .vminVx _ _ x => srcRegs x
  | .vmaxVx _ _ x => srcRegs x
  | .vminnVx _ _ x => srcRegs x
  | .vmaxnVx _ _ x => srcRegs x
  | .vandVx _ _ x => srcRegs x
  | .vorVx _ _ x => srcRegs x
  | .vxorVx _ _ x => srcRegs x
  | .vshlVx _ _ x => srcRegs x
  | .vshrVx _ _ x => srcRegs x
  | .vsraVx _ _ x => srcRegs x
  | .vbfxI32Vx _ _ x => srcRegs x
  | .vbfxN32Vx _ _ x => srcRegs x
  | .vbfiVx _ _ x => srcRegs x
  | .vli _ x => srcRegs x
  | .vcmpVx _ _ _ x => srcRegs x
  | .vshflUp _ _ x => srcRegs x
  | .vshflUpChk _ _ x => srcRegs x
  | .vshflDn _ _ x => srcRegs x
  | .vshflDnChk _ _ x => srcRegs x
  | .vshflXor _ _ x => srcRegs x
  | .vshflXorChk _ _ x => srcRegs x
  | .vbcast _ _ x => srcRegs x
  | .vbcastChk _ _ x => srcRegs x
  | .cpy _ a b c _ => [a.val] ++ [b.val] ++ [c.val]
  | .cpyc _ a b c _ => [a.val] ++ [b.val] ++ [c.val]
  | .cpyq a b => [a.val] ++ [b.val]
  | .cpys _ a b c => [a.val] ++ [b.val] ++ [c.val]
  | .cpyst a b => [a.val] ++ [b.val]
  | .cpyres a => [a.val]
  | .cpycan a => [a.val]
  | .tmm _ a b c => [a.val] ++ [b.val] ++ [c.val]
  | .tmms _ a b c => [a.val] ++ [b.val] ++ [c.val]
  | .tzero a => [a.val]
  | .tepi _ a b c => [a.val] ++ [b.val] ++ [c.val]
  | .ttrn a b => [a.val] ++ [b.val]
  | .rsinit a b c => [a.val] ++ [b.val] ++ [c.val]
  | .rsaddVector _ a b _ => [a.val] ++ [b.val]
  | .rsaddAb _ a b c => [a.val] ++ [b.val] ++ [c.val]
  | .rsnorm _ a b c => [a.val] ++ [b.val] ++ [c.val]
  | .rsnormReel _ a b c => [a.val] ++ [b.val] ++ [c.val]
  | .rsq a b => [a.val] ++ [b.val]
  | .rssave _ a b => [a.val] ++ [b.val]
  | .rsload _ a b c => [a.val] ++ [b.val] ++ [c.val]
  | .cred _ a b c _ => [a.val] ++ [b.val] ++ [c.val]
  | .cbc _ a b c => [a.val] ++ [b.val] ++ [c.val]
  | .cgat _ a b c => [a.val] ++ [b.val] ++ [c.val]
  | .vdist _ a b c => [a.val] ++ [b.val] ++ [c.val]
  | .topk a b c => [a.val] ++ [b.val] ++ [c.val]
  | .topkm a b c => [a.val] ++ [b.val] ++ [c.val]
  | .topkr a b c => [a.val] ++ [b.val] ++ [c.val]
  | .launch s => [s.val]
  | .ljoin s => [s.val]
  | .wmember s => [s.val]
  | .bar s _ => [s.val]
  | .phbexp s _ => [s.val]
  | .tlsig a b => [a.val] ++ [b.val]
  | .tlwait a b => [a.val] ++ [b.val]
  | .tlread d a => [d.val] ++ [a.val]
  | .qpost a b => [a.val] ++ [b.val]
  | .qtail a b => [a.val] ++ [b.val]
  | .sysrd s _ => [s.val]
  | .syswr s _ => [s.val]
  | .hret s => [s.val]
  | .pgmap s => [s.val] ++ [s.val + 1]
  | .pginv s => [s.val]
  | .fltrd s _ => [s.val]
  | .qfetch s => [s.val]
  | _ => []

/-- The destination registers of a word (R104). -/
def destsOf : Instr → List Dest
  | .sadd d _ _ => [.s d.val]
  | .ssub d _ _ => [.s d.val]
  | .smul d _ _ => [.s d.val]
  | .smulhI64 d _ _ => [.s d.val]
  | .smulhN64 d _ _ => [.s d.val]
  | .sdivI64 d _ _ => [.s d.val]
  | .sdivN64 d _ _ => [.s d.val]
  | .sremI64 d _ _ => [.s d.val]
  | .sremN64 d _ _ => [.s d.val]
  | .sand d _ _ => [.s d.val]
  | .sor d _ _ => [.s d.val]
  | .sxor d _ _ => [.s d.val]
  | .snot d _ => [.s d.val]
  | .sshl d _ _ => [.s d.val]
  | .sshr d _ _ => [.s d.val]
  | .ssra d _ _ => [.s d.val]
  | .smin d _ _ => [.s d.val]
  | .smax d _ _ => [.s d.val]
  | .sminn d _ _ => [.s d.val]
  | .smaxn d _ _ => [.s d.val]
  | .ssel d _ _ => [.s d.val]
  | .smov d _ => [.s d.val]
  | .sclz d _ => [.s d.val]
  | .spopc d _ => [.s d.val]
  | .sbfxI64 d _ _ => [.s d.val]
  | .sbfxN64 d _ _ => [.s d.val]
  | .sbfi d _ _ => [.s d.val]
  | .scmp _ d _ _ => [.s d.val]
  | .sli d _ => [.s d.val]
  | .slit d _ => [.s d.val]
  | .slitN32 d _ => [.s d.val]
  | .aset d _ _ => [.a d.val]
  | .aadd d _ _ _ => [.a d.val]
  | .astr d _ _ => [.a d.val]
  | .amul d _ _ _ => [.a d.val]
  | .aidx d _ _ => [.a d.val]
  | .aget _ v => [.v v.val]
  | .pand d _ _ => [.p d.val]
  | .por d _ _ => [.p d.val]
  | .pxor d _ _ => [.p d.val]
  | .pnot d _ => [.p d.val]
  | .pmov d _ => [.p d.val]
  | .pcnt _ s => [.s s.val]
  | .vaddVv d _ _ => [.v d.val]
  | .vaddVx d _ _ => [.v d.val]
  | .vsubVv d _ _ => [.v d.val]
  | .vsubVx d _ _ => [.v d.val]
  | .vmulVv d _ _ => [.v d.val]
  | .vmulVx d _ _ => [.v d.val]
  | .vmulhI32Vv d _ _ => [.v d.val]
  | .vmulhI32Vx d _ _ => [.v d.val]
  | .vmulhN32Vv d _ _ => [.v d.val]
  | .vmulhN32Vx d _ _ => [.v d.val]
  | .vmadVv d _ _ => [.v d.val]
  | .vmadVx d _ _ => [.v d.val]
  | .vsaddI32Vv d _ _ => [.v d.val]
  | .vsaddI32Vx d _ _ => [.v d.val]
  | .vsaddN32Vv d _ _ => [.v d.val]
  | .vsaddN32Vx d _ _ => [.v d.val]
  | .vssubI32Vv d _ _ => [.v d.val]
  | .vssubI32Vx d _ _ => [.v d.val]
  | .vssubN32Vv d _ _ => [.v d.val]
  | .vssubN32Vx d _ _ => [.v d.val]
  | .vminVv d _ _ => [.v d.val]
  | .vminVx d _ _ => [.v d.val]
  | .vmaxVv d _ _ => [.v d.val]
  | .vmaxVx d _ _ => [.v d.val]
  | .vminnVv d _ _ => [.v d.val]
  | .vminnVx d _ _ => [.v d.val]
  | .vmaxnVv d _ _ => [.v d.val]
  | .vmaxnVx d _ _ => [.v d.val]
  | .vandVv d _ _ => [.v d.val]
  | .vandVx d _ _ => [.v d.val]
  | .vorVv d _ _ => [.v d.val]
  | .vorVx d _ _ => [.v d.val]
  | .vxorVv d _ _ => [.v d.val]
  | .vxorVx d _ _ => [.v d.val]
  | .vshlVv d _ _ => [.v d.val]
  | .vshlVx d _ _ => [.v d.val]
  | .vshrVv d _ _ => [.v d.val]
  | .vshrVx d _ _ => [.v d.val]
  | .vsraVv d _ _ => [.v d.val]
  | .vsraVx d _ _ => [.v d.val]
  | .vbfxI32Vv d _ _ => [.v d.val]
  | .vbfxI32Vx d _ _ => [.v d.val]
  | .vbfxN32Vv d _ _ => [.v d.val]
  | .vbfxN32Vx d _ _ => [.v d.val]
  | .vbfiVv d _ _ => [.v d.val]
  | .vbfiVx d _ _ => [.v d.val]
  | .vsel _ d _ _ => [.v d.val]
  | .vnot d _ => [.v d.val]
  | .vabs d _ => [.v d.val]
  | .vneg d _ => [.v d.val]
  | .vclz d _ => [.v d.val]
  | .vpopc d _ => [.v d.val]
  | .vmov d _ => [.v d.val]
  | .vli d _ => [.v d.val]
  | .vcmpVv _ p _ _ => [.p p.val]
  | .vcmpVx _ p _ _ => [.p p.val]
  | .vshflIdx d _ _ => [.v d.val]
  | .vshflIdxChk d _ _ => [.v d.val, .p 7]
  | .vredAdd d _ => [.v d.val]
  | .vredMin d _ => [.v d.val]
  | .vredMax d _ => [.v d.val]
  | .vscanAdd d _ => [.v d.val]
  | .vballot d _ => [.v d.val]
  | .vvoteAny d _ => [.p d.val]
  | .vvoteAll d _ => [.p d.val]
  | .vshflUp d _ _ => [.v d.val]
  | .vshflUpChk d _ _ => [.v d.val, .p 7]
  | .vshflDn d _ _ => [.v d.val]
  | .vshflDnChk d _ _ => [.v d.val, .p 7]
  | .vshflXor d _ _ => [.v d.val]
  | .vshflXorChk d _ _ => [.v d.val, .p 7]
  | .vbcast d _ _ => [.v d.val]
  | .vbcastChk d _ _ => [.v d.val, .p 7]
  | .fadd _ d _ _ => [.v d.val]
  | .fsub _ d _ _ => [.v d.val]
  | .fmul _ d _ _ => [.v d.val]
  | .ffma _ d _ _ => [.v d.val]
  | .fmin _ d _ _ => [.v d.val]
  | .fmax _ d _ _ => [.v d.val]
  | .fabs _ d _ => [.v d.val]
  | .fneg _ d _ => [.v d.val]
  | .frcp _ d _ => [.v d.val]
  | .frsq _ d _ => [.v d.val]
  | .fsqrt _ d _ => [.v d.val]
  | .fexp2 _ d _ => [.v d.val]
  | .flog2 _ d _ => [.v d.val]
  | .fround _ d _ _ => [.v d.val]
  | .fcmp _ _ p _ _ => [.p p.val]
  | .cvt _ d _ _ _ => [.v d.val]
  | .cvtp _ d _ _ => [.v d.val]
  | .ldGlobal z d _ _ _ => .v d.val :: (if z = .n64 then [.v (d.val + 1)] else [])
  | .ldWindow z d _ _ _ => .v d.val :: (if z = .n64 then [.v (d.val + 1)] else [])
  | .ldLocal z d _ _ _ => .v d.val :: (if z = .n64 then [.v (d.val + 1)] else [])
  | .atomGlobal32 _ d _ _ _ => [.v d.val]
  | .atomGlobal64 _ d _ _ _ => [.v d.val, .v (d.val + 1)]
  | .atomLocal32 _ d _ _ _ => [.v d.val]
  | .atomLocal64 _ d _ _ _ => [.v d.val, .v (d.val + 1)]
  | .rld w d _ _ _ => .v d.val :: (if w then [.v (d.val + 1)] else [])
  | .ratom _ d _ _ _ => [.v d.val]
  | .elect p => [.p p.val]
  | .ljoin s => [.s s.val]
  | .wmember s => [.s s.val]
  | .phbtest _ d _ => [.p d.val]
  | .tlread d _ => [.s d.val]
  | .sysrd s _ => [.s s.val]
  | .svc v => [.v v.val, .v (v.val + 1)]
  | .pgmap s => [.s (s.val + 1)]
  | .fltrd s _ => [.s s.val]
  | _ => []

/-- The format slots a word names in its fields (R121). -/
def slotsOf : Instr → List FSlot
  | .cvt y _ _ x s => if y = .slot ∨ x = .slot then [s] else []
  | .cvtp s _ _ _ => [s]
  | .tmm x _ _ _ => [x]
  | .tmms x _ _ _ => [x]
  | .tepi x _ _ _ => [x]
  | .rsnorm x _ _ _ => [x]
  | .rsnormReel x _ _ _ => [x]
  | .cred x _ _ _ _ => [x]
  | .cbc x _ _ _ => [x]
  | .cgat x _ _ _ => [x]
  | .vdist x _ _ _ => [x]
  | _ => []

/-- The pipe of a word (R102). -/
def pipeOf : Instr → Pipe
  | .aset _ _ _ | .aadd _ _ _ _ | .astr _ _ _ | .amul _ _ _ _ | .aidx _ _ _ | .aget _ _ | .pand _ _ _
  | .por _ _ _ | .pxor _ _ _ | .pnot _ _ | .pmov _ _ | .pcnt _ _ => .a
  | .vaddVv _ _ _ | .vaddVx _ _ _ | .vsubVv _ _ _ | .vsubVx _ _ _ | .vmulVv _ _ _ | .vmulVx _ _ _
  | .vmulhI32Vv _ _ _ | .vmulhI32Vx _ _ _ | .vmulhN32Vv _ _ _ | .vmulhN32Vx _ _ _ | .vmadVv _ _ _
  | .vmadVx _ _ _ | .vsaddI32Vv _ _ _ | .vsaddI32Vx _ _ _ | .vsaddN32Vv _ _ _ | .vsaddN32Vx _ _ _
  | .vssubI32Vv _ _ _ | .vssubI32Vx _ _ _ | .vssubN32Vv _ _ _ | .vssubN32Vx _ _ _ | .vminVv _ _ _
  | .vminVx _ _ _ | .vmaxVv _ _ _ | .vmaxVx _ _ _ | .vminnVv _ _ _ | .vminnVx _ _ _ | .vmaxnVv _ _ _
  | .vmaxnVx _ _ _ | .vandVv _ _ _ | .vandVx _ _ _ | .vorVv _ _ _ | .vorVx _ _ _ | .vxorVv _ _ _
  | .vxorVx _ _ _ | .vshlVv _ _ _ | .vshlVx _ _ _ | .vshrVv _ _ _ | .vshrVx _ _ _ | .vsraVv _ _ _
  | .vsraVx _ _ _ | .vbfxI32Vv _ _ _ | .vbfxI32Vx _ _ _ | .vbfxN32Vv _ _ _ | .vbfxN32Vx _ _ _ | .vbfiVv _ _ _
  | .vbfiVx _ _ _ | .vsel _ _ _ _ | .vnot _ _ | .vabs _ _ | .vneg _ _ | .vclz _ _ | .vpopc _ _ | .vmov _ _
  | .vli _ _ | .vcmpVv _ _ _ _ | .vcmpVx _ _ _ _ | .vshflIdx _ _ _ | .vshflIdxChk _ _ _ | .vredAdd _ _
  | .vredMin _ _ | .vredMax _ _ | .vscanAdd _ _ | .vballot _ _ | .vvoteAny _ _ | .vvoteAll _ _
  | .vshflUp _ _ _ | .vshflUpChk _ _ _ | .vshflDn _ _ _ | .vshflDnChk _ _ _ | .vshflXor _ _ _
  | .vshflXorChk _ _ _ | .vbcast _ _ _ | .vbcastChk _ _ _ | .fadd _ _ _ _ | .fsub _ _ _ _ | .fmul _ _ _ _
  | .ffma _ _ _ _ | .fmin _ _ _ _ | .fmax _ _ _ _ | .fabs _ _ _ | .fneg _ _ _ | .frcp _ _ _ | .frsq _ _ _
  | .fsqrt _ _ _ | .fexp2 _ _ _ | .flog2 _ _ _ | .fround _ _ _ _ | .fcmp _ _ _ _ _ | .cvt _ _ _ _ _
  | .cvtp _ _ _ _ => .v
  | .ldGlobal _ _ _ _ _ | .stGlobal _ _ _ _ _ | .pf _ _ | .ldWindow _ _ _ _ _ | .stWindow _ _ _ _ _
  | .ldLocal _ _ _ _ _ | .stLocal _ _ _ _ _ | .atomGlobal32 _ _ _ _ _ | .atomGlobal64 _ _ _ _ _
  | .atomLocal32 _ _ _ _ _ | .atomLocal64 _ _ _ _ _ | .rld _ _ _ _ _ | .rst _ _ _ _ _ | .ratom _ _ _ _ _ => .m
  | .cpy _ _ _ _ _ | .cpyc _ _ _ _ _ | .cpyq _ _ | .cpys _ _ _ _ | .cpyst _ _ | .cpyres _ | .cpycan _
  | .tmm _ _ _ _ | .tmms _ _ _ _ | .tzero _ | .tepi _ _ _ _ | .ttrn _ _ | .rsinit _ _ _
  | .rsaddVector _ _ _ _ | .rsaddAb _ _ _ _ | .rsnorm _ _ _ _ | .rsnormReel _ _ _ _ | .rsq _ _
  | .rssave _ _ _ | .rsload _ _ _ _ | .rsfenceTeam | .rsfenceSet | .rsfenceReel | .cred _ _ _ _ _
  | .cbc _ _ _ _ | .cgat _ _ _ _ | .vdist _ _ _ _ | .topk _ _ _ | .topkm _ _ _ | .topkr _ _ _ => .x
  | _ => .s

end Sys2Proof.Machine
end

