-- ==== Sys2Proof/Config.lean ====
section
/-! DEFINITION. What an implementation fixes, and the values the manual leaves free. A free value is an opaque constant:
nothing in Lean evaluates it, so no proof leans on a value of it. -/

namespace Sys2Proof.Config

/-- The multicast group that carries a window's data to the parts that share a context number there (R315, R327, log 39). -/
opaque mcastGroup : Nat → Nat → Nat

/-- Device memory in bytes: eight stacks of 64 GB (spec/00; log 7). -/
def deviceBytes : Nat := 2 ^ 39

/-- Whether a Falcon-1024 signature over an image is good (R416; log 14): image digest and signature, as numbers. -/
opaque signatureGood : Nat → Nat → Bool

/-- The report signature the part makes (R418; log 14). -/
opaque sign : Nat → Nat

/-- The length of that signature in bytes, kept within 1,280 (R418; log 14). -/
opaque signBytes : Nat → Nat

/-- The part's identity number, its fused SVN floor, and the certificate of its identity key with its length, kept within
2,560 (R416, R418; log 14). -/
opaque partIdentity : Nat
opaque svnFloor : Nat
opaque certificate : Nat
opaque certificateBytes : Nat

/-- What `rsload` makes of a compact element that is no integer multiple of 2^e, by its `.b16` bits and e (R299 states no
result there; log 25); the model keeps it within the row's bounds. -/
opaque looseElement : Nat → Int → Int

/-- A word of the handler's fault record as `fltrd` reads it where no fault entered the handler, by word number (R363
states none; log 27). -/
opaque noRecord : Nat → BitVec 64

/-- The result a lane of `svc` gets when its entry is closed with SVC_ARG, by its call word (R370 states none; log 28). -/
opaque closedResult : Nat → BitVec 32

/-- What `qdisp` answers for a lane whose launch was declined, not rejected, by call (R72, R88 state none; log 33). -/
opaque declined : Nat → BitVec 32

end Sys2Proof.Config
end

