-- ==== Sys2Proof/Machine/State.lean ====
section
/-! DEFINITION. The state of the part: what moves next, the issue stage, and every piece of Machine/Parts.lean, keyed by
number; what a step answers; and the part after reset. -/

namespace Sys2Proof.Machine

/-! ### The issue stage and the whole part -/

/-- The issue stage: which gang, split and lanes a packet issues for, where it lies and which word of it acts, and the
registers as the packet found them (R105, R131). -/
structure Iss where
  gid : Nat := 0
  slices : List Nat := []
  lanes : W64 := 0
  pc : Nat := 0
  word : Nat := 0
  sup : Bool := false
  /-- set while a word set aside under R214 is performed again: its lanes are `lanes` -/
  replay : Bool := false
  src : Regs := {}
  bank : Regs := {}
  /-- the fault that the word at issue raised for its whole packet (R123) -/
  fault : Option FInfo := none
  deriving DecidableEq, Repr

/-- What moves next, as plain data (log 2). -/
inductive Move where
  /-- the clock advances (log 3) -/
  | tick (n : Nat)
  /-- an event of the opcode table -/
  | event (i : Instr)
  /-- a core issues one packet under R124 -/
  | issue (core : Nat)
  /-- the firmware core issues one packet (R71) -/
  | issueFw
  /-- the head of a gang's store queue enters the write path (R219) -/
  | drain (gid : Nat)
  /-- a team's oldest tile operation finishes one granule (R199, R281) -/
  | granule (team : Nat)
  /-- a stream operation applies its next pair (R301) -/
  | pair (team seq : Nat)
  deriving DecidableEq, Repr

/-- The part. -/
structure State where
  agenda : List Move := []
  cycle : W64 := 0
  fresh : Nat := 0
  iss : Iss := {}
  gangs : Tab Gang := []
  teams : Tab Team := []
  cores : Tab Core := []
  grids : Tab Grid := []
  ctxs : Tab Ctx := []
  dmem : Memory := []
  hmem : Tab Memory := []
  /-- the firmware core's 256 KB instruction memory (R70) -/
  imem : Memory := []
  hostMaps : List HostMap := []
  /-- pages asked of hosts, by logical device and number; who waits for each; answers that refuse, or report a page not present,
  until the access that waited takes its own (R348, R376) -/
  hostAsked : List (Nat × Nat) := []
  hostWaits : List (Asker × Nat × Nat) := []
  hostDenied : List (Asker × Nat × Nat) := []
  /-- the access in progress and the pages it still needs answers for, none between steps -/
  hostWho : Option Asker := none
  hostNeed : List (Nat × Nat) := []
  timelines : Tab W64 := []
  /-- timelines whose line a host cache holds, and raises waiting at their homes (R343) -/
  tlShared : List Nat := []
  raises : List Raise := []
  copyOrder : Nat := 0
  /-- this part's fabric address (R163 WHERE, R314) -/
  part : Nat := 0
  /-- messages sent to hosts: logical device, MSI-X vector -/
  msix : List (Nat × Nat) := []
  /-- the value the last register read answered the host -/
  hostRead : W64 := 0
  queues : Tab Queue := []
  fw : Firmware := {}
  lds : Tab LogDev := []
  tenants : Tab Tenant := []
  power : Power := {}
  /-- grids handed over and not wholly placed, oldest first (R88) -/
  pending : List Nat := []
  /-- placement decisions of the window of 256 in progress, all and by tenant (R93) -/
  decided : Nat := 0
  decisions : Tab Nat := []
  reels : List ReelHold := []
  holds : List Hold := []
  /-- the reserve queue of 16 (R92) -/
  reserveQ : List Hold := []
  ports : Tab Port := []
  /-- next SEQ by destination and plane, and next SEQ expected by source and plane, as part·32 + plane (R314, R320) -/
  seqTx : Tab Nat := []
  seqRx : Tab Nat := []
  /-- what the engine areas of save areas stand for, by the number in them (R385, log 30) -/
  engines : Tab KeptTeam := []
  /-- SMALL cells whose lanes of one address go on in the next cell of their source and plane (R229, log 20) -/
  gathering : List Cell := []
  remotes : List Remote := []
  /-- placement cells to this part itself (R91), and cells that wait until a cut's state has been taken (R380) -/
  loop : List Cell := []
  deferred : List Cell := []
  /-- cells that came ahead of their turn on their source and plane, each with its port (R320) -/
  ahead : List (Nat × Cell) := []
  down : List Nat := []
  /-- lines of host memory a die's L2 holds: die, logical device and line (R217, R332) -/
  hostLines : List (Nat × Nat × Nat) := []
  posted : List Posted := []
  atomics : List AtomicOp := []
  nvme : List NvmeRead := []
  deriving DecidableEq, Repr

/-- Why the machine stops. No instruction and no event of this model stops it: every fault of the manual is taken as
the manual says (R353), so this type has no constructor. -/
inductive Fault where
  deriving DecidableEq, Repr

/-- Why there is no next state. -/
inductive Refusal where
  /-- raised by `exec` for an instruction that has no meaning yet; safe -/
  | notModelled (mnemonic : String)
  deriving DecidableEq, Repr

/-- What a meaning answers. -/
abbrev Res := Host.Outcome State Fault Refusal

/-- The part right after cold reset (R415 and the register maps; log 8 for what the spec does not state): device memory is
being zeroed, and the firmware core's place among the teams names no context (log 32). -/
def State.reset : State := { fw := { zeroing := true }, teams := [(6208, { ctx := 64 })] }

end Sys2Proof.Machine
end

