-- ==== Sys2Proof/Machine/Ops.lean ====
section
/-! DEFINITION. The named operations over registers, lanes and control state, and taking a fault: the fault record
(R354, R355), halting (R353), the supervisor handler's entry (R358) and the return from it (R360). -/

namespace Sys2Proof.Machine

/-! ### Keys and places -/

/-- The key of a gang: core, team slot, gang number (R356's GANGID order). -/
def gidOf (core slot gang : Nat) : Nat := (core * 16 + slot) * 16 + gang
def gidTeam (gid : Nat) : Nat := gid / 16
def gidCore (gid : Nat) : Nat := gid / 256
def gidSlot (gid : Nat) : Nat := gid / 16 % 16
def gidGang (gid : Nat) : Nat := gid % 16

/-- The firmware core's gang stands beside the cores' gangs under a core number of its own (R71). -/
def fwCore : Nat := 388
def fwGid : Nat := gidOf fwCore 0 0

def State.gang (s : State) (gid : Nat) : Gang := s.gangs.get {} gid
def State.setGang (s : State) (gid : Nat) (g : Gang) : State := { s with gangs := s.gangs.set gid g }
def State.modGang (s : State) (gid : Nat) (f : Gang → Gang) : State := s.setGang gid (f (s.gang gid))
def State.team (s : State) (k : Nat) : Team := s.teams.get {} k
def State.setTeam (s : State) (k : Nat) (t : Team) : State := { s with teams := s.teams.set k t }
def State.modTeam (s : State) (k : Nat) (f : Team → Team) : State := s.setTeam k (f (s.team k))
def State.core (s : State) (k : Nat) : Core := s.cores.get {} k
def State.setCore (s : State) (k : Nat) (c : Core) : State := { s with cores := s.cores.set k c }
def State.modCore (s : State) (k : Nat) (f : Core → Core) : State := s.setCore k (f (s.core k))
def State.ctx (s : State) (k : Nat) : Ctx := s.ctxs.get {} k
def State.setCtx (s : State) (k : Nat) (c : Ctx) : State := { s with ctxs := s.ctxs.set k c }
def State.modCtx (s : State) (k : Nat) (f : Ctx → Ctx) : State := s.setCtx k (f (s.ctx k))
def State.grid (s : State) (k : Nat) : Grid := s.grids.get {} k
def State.setGrid (s : State) (k : Nat) (g : Grid) : State := { s with grids := s.grids.set k g }
def State.modGrid (s : State) (k : Nat) (f : Grid → Grid) : State := s.setGrid k (f (s.grid k))

/-- The issuing gang, its team and its core. -/
def State.cur (s : State) : Gang := s.gang s.iss.gid
def State.modCur (s : State) (f : Gang → Gang) : State := s.modGang s.iss.gid f
def State.teamKey (s : State) : Nat := gidTeam s.iss.gid
def State.curTeam (s : State) : Team := s.team s.teamKey
def State.coreKey (s : State) : Nat := gidCore s.iss.gid
def State.curGrid (s : State) : Grid := s.grid s.curTeam.grid

/-- An 8-byte word of the issuing grid's kept launch record (R24). -/
def Grid.lrWord (g : Grid) (off : Nat) : Nat := g.lr.readLE off 8
/-- LR.CODE of the issuing grid (R28). -/
def State.codeBase (s : State) : Nat := s.curGrid.lrWord 0x008
/-- The 64 bits of a format slot (R38). -/
def State.slotBits (s : State) (f : FSlot) : W64 := BitVec.ofNat 64 (s.curGrid.lrWord (0x080 + 8 * f.val))

/-! ### PCs (R107) -/

def pcIndex (pc : Nat) : Nat := 5 * (pc / 64) + pc % 64 / 12
def pcOf (index : Nat) : Nat := 64 * (index / 5) + 12 * (index % 5)
/-- 64b + 12j with j from 0 to 4, and bits [63:57] zero (R107, R108). -/
def validPc (pc : Nat) : Bool := pc % 64 % 12 == 0 && decide (pc % 64 < 60) && decide (pc < 2 ^ 57)
def pcSucc (pc : Nat) : Nat := pcOf (pcIndex pc + 1)

/-! ### Register reads: the registers as the packet found them (R105), through the bank in supervisor mode (R359) -/

def Iss.readS (q : Iss) (n : Nat) : W64 :=
  if n = 0 then 0 else if q.sup ∧ 48 ≤ n then q.bank.s.get 0 n else q.src.s.get 0 n
def Iss.readA (q : Iss) (n : Nat) : AffReg :=
  if q.sup ∧ 14 ≤ n then q.bank.a.get {} n else q.src.a.get {} n
def Iss.readV (q : Iss) (n lane : Nat) : W32 := Tab.get 0 (Tab.get [] q.src.v n) lane
/-- The lane mask of a predicate; `p0` reads one in every lane that exists (R157, R173). -/
def Iss.readP (q : Iss) (nslices n : Nat) : Nat :=
  if n = 0 then 2 ^ (4 * nslices) - 1
  else if q.sup ∧ 6 ≤ n then (q.bank.p.get 0 n).toNat else (q.src.p.get 0 n).toNat

def State.srcS (s : State) (n : SReg) : W64 := s.iss.readS n.val
def State.srcA (s : State) (n : AReg) : AffReg := s.iss.readA n.val
def State.srcV (s : State) (n : VReg) (lane : Nat) : W32 := s.iss.readV n.val lane
def State.srcP (s : State) (n : PReg) : Nat := s.iss.readP s.cur.nslices n.val

/-- The value of an affine register for a lane (R158). -/
def AffReg.lane (a : AffReg) (i : Nat) : W64 := a.base + BitVec.ofNat 64 i * a.stride.signExtend 64

/-- The active lanes of the issuing split, rising (R131). -/
def State.lanes (s : State) : List Nat := maskBits s.iss.lanes.toNat 64
def State.active (s : State) (lane : Nat) : Bool := bit s.iss.lanes.toNat lane

/-! ### Register writes -/

/-- Writes to `s0` are discarded (R157); the bank is written in supervisor mode (R359). -/
def Gang.writeS (g : Gang) (sup : Bool) (n : Nat) (x : W64) : Gang :=
  if n = 0 then g
  else if sup ∧ 48 ≤ n then { g with bank := { g.bank with s := g.bank.s.set n x } }
  else { g with regs := { g.regs with s := g.regs.s.set n x } }
def Gang.writeA (g : Gang) (sup : Bool) (n : Nat) (x : AffReg) : Gang :=
  if sup ∧ 14 ≤ n then { g with bank := { g.bank with a := g.bank.a.set n x } }
  else { g with regs := { g.regs with a := g.regs.a.set n x } }
/-- Lane values of one vector register for the listed lanes. -/
def Gang.writeV (g : Gang) (n : Nat) (lanes : List Nat) (f : Nat → W32) : Gang :=
  { g with regs := { g.regs with
      v := g.regs.v.set n (lanes.foldl (fun t i => t.set i (f i)) (g.regs.v.get [] n)) } }
/-- Predicate bits for the listed lanes; writes to `p0` are discarded (R157). -/
def Gang.writeP (g : Gang) (sup : Bool) (n : Nat) (lanes : List Nat) (f : Nat → Bool) : Gang :=
  let upd (old : W64) : W64 := lanes.foldl (fun m i => BitVec.ofNat 64 (setBits m.toNat i 1 (f i).toNat)) old
  if n = 0 then g
  else if sup ∧ 6 ≤ n then { g with bank := { g.bank with p := g.bank.p.set n (upd (g.bank.p.get 0 n)) } }
  else { g with regs := { g.regs with p := g.regs.p.set n (upd (g.regs.p.get 0 n)) } }

def State.writeS (s : State) (n : SReg) (x : W64) : State := s.modCur fun g => g.writeS s.iss.sup n.val x
def State.writeA (s : State) (n : AReg) (x : AffReg) : State := s.modCur fun g => g.writeA s.iss.sup n.val x
/-- A vector result in every active lane (R176). -/
def State.writeV (s : State) (n : VReg) (f : Nat → W32) : State := s.modCur fun g => g.writeV n.val s.lanes f
/-- A predicate result in every active lane (R181). -/
def State.writeP (s : State) (n : PReg) (f : Nat → Bool) : State := s.modCur fun g => g.writeP s.iss.sup n.val s.lanes f

/-! ### Slices -/

def Gang.slice (g : Gang) (k : Nat) : Slice := g.slices.get {} k
def Gang.setSlice (g : Gang) (k : Nat) (x : Slice) : Gang := { g with slices := g.slices.set k x }
def Gang.modSlice (g : Gang) (k : Nat) (f : Slice → Slice) : Gang := g.setSlice k (f (g.slice k))
/-- The listed slices changed by `f`. -/
def Gang.modSlices (g : Gang) (ks : List Nat) (f : Nat → Slice → Slice) : Gang :=
  ks.foldl (fun g k => g.modSlice k (f k)) g
def Gang.sliceKeys (g : Gang) : List Nat := g.slices.keys
def State.modSlices (s : State) (f : Nat → Slice → Slice) : State := s.modCur fun g => g.modSlices s.iss.slices f

/-- The lanes of slice `k` in a lane mask, as its 4 bits. -/
def laneNibble (lanes k : Nat) : BitVec 4 := BitVec.ofNat 4 (lanes / 2 ^ (4 * k))
/-- A slice's 4 bits as lanes of the gang. -/
def nibbleLanes (m : BitVec 4) (k : Nat) : Nat := m.toNat * 2 ^ (4 * k)
/-- The lane mask of the listed slices, each with the bits `f` picks. -/
def Gang.laneMask (g : Gang) (ks : List Nat) (f : Slice → BitVec 4) : Nat :=
  ks.foldl (fun m k => m + nibbleLanes (f (g.slice k)) k) 0

/-- Lanes of the gang that have not exited: live or halted (R182). -/
def Gang.notExited (g : Gang) : Nat := g.laneMask g.sliceKeys fun x => x.live ||| x.hgLanes

/-- A slice has ended when it holds no lane (R138, R442). -/
def Slice.ended (x : Slice) : Bool := x.live == 0 && x.hgLanes == 0
/-- A slice with no live lane belongs to no split: it has ended, or holds only lanes that a `jmp` halted (R442). -/
def Slice.idle (x : Slice) : Bool := x.live == 0

/-! ### Splits (R132) -/

/-- The slices of a gang in the split of slice `k`. -/
def Gang.splitOf (g : Gang) (k : Nat) : List Nat :=
  let id := (g.slice k).split
  g.sliceKeys.filter fun j => (g.slice j).split == id && !(g.slice j).idle

/-- The listed slices form splits by their PCs, each named by its lowest slice; slices with no live lane leave (R132). -/
def Gang.regroup (g : Gang) (ks : List Nat) : Gang :=
  let live := ks.filter fun k => !(g.slice k).idle
  live.foldl (fun h k =>
    let x := g.slice k
    let lead := (live.find? fun j => (g.slice j).pc == x.pc && (g.slice j).halted == x.halted && (g.slice j).sup == x.sup).getD k
    h.modSlice k fun y => { y with split := lead }) g

/-- The listed slices become one split. -/
def Gang.merge (g : Gang) (ks : List Nat) : Gang := g.modSlices ks fun _ x => { x with split := ks.headD 0 }

/-- J after a pop: the JP of the new top, or none (R137). -/
def topJp : List MaskEntry → Option Nat
  | [] => none
  | e :: _ => e.jp

/-- The loop of R138 for a slice whose running lanes are gone: where it goes on, that it ends, or none when it would
resume lanes at a join point of none. -/
def exitPop (x : Slice) : List MaskEntry → Option Slice
  | [] => some { x with mask := 0, stack := [] }
  | e :: rest =>
    if e.pend &&& x.live ≠ 0 then
      some { x with mask := e.pend &&& x.live, pc := e.pendpc, arrival := false, stack := { e with pend := 0 } :: rest }
    else
      let w := e.whole &&& x.live
      let x := { x with j := topJp rest }
      if w ≠ 0 then
        match e.jp with
        | none => none
        | some jp => some { x with mask := w, pc := pcOf (jp + 1), arrival := false, stack := rest }
      else exitPop x rest

/-- A word set aside for a slice, joined with one of the same word (R214, R342). -/
def Slice.addReplay (x : Slice) (r : Replay) : Slice :=
  if x.replays.any fun q => q.pc == r.pc && q.word == r.word then
    { x with replays := x.replays.map fun q => if q.pc = r.pc ∧ q.word = r.word then { q with lanes := q.lanes ||| r.lanes } else q }
  else { x with replays := x.replays ++ [r] }

/-! ### Device memory -/

def State.devRead (s : State) (pa n : Nat) : Nat := s.dmem.readLE pa n
def State.devWrite (s : State) (pa n v : Nat) : State := { s with dmem := s.dmem.writeLE pa n v }

/-! ### Fault records (R354, R355) -/

/-- A 32-bit free-running difference. -/
def diff32 (a b : Nat) : Nat := (a + 2 ^ 32 - b % 2 ^ 32) % 2 ^ 32

/-- One record to the context's fault queue, or one more lost (R355); the firmware core has no context (log 32). -/
def State.putFault (s : State) (c : Nat) (r : FaultRec) : State :=
  let x := s.ctx c
  let n := x.fqn + 1
  if !x.bound then s
  else if n ≤ diff32 x.fqProd x.fqCons then
    s.setCtx c { x with fqLost := min (x.fqLost + 1) (2 ^ 32 - 1) }
  else
    let base := x.fq + 32 * (x.fqProd % n)
    let ws := r.words
    let s := (List.range 4).foldl (fun s i => s.devWrite (base + 8 * i) 8 (ws.getD i 0)) s
    let s := s.setCtx c { x with fqProd := (x.fqProd + 1) % 2 ^ 32 }
    if x.fqVec = 0 then s else { s with msix := s.msix ++ [(x.ld, x.fqVec)] }

/-- The record of a fault of gang `gid` at packet `pc`, word `word` (R354). -/
def State.record (s : State) (gid : Nat) (sup : Bool) (pc word : Nat) (f : FInfo) : FaultRec :=
  { code := f.code.num, core := gidCore gid, tslot := gidSlot gid, gang := gidGang gid, sup := sup, acc := f.acc,
    ctx := (s.team (gidTeam gid)).ctx, detail := f.detail, pc := pc, addr := f.addr, lanes := f.lanes, word := word }

/-- The record written for gang `gid`, in its context's queue. -/
def State.report (s : State) (gid : Nat) (sup : Bool) (pc word : Nat) (f : FInfo) : State :=
  s.putFault (s.team (gidTeam gid)).ctx (s.record gid sup pc word f)

/-- HANDLER_DOUBLE: the whole gang halts, and the record holds the inner fault's code (R364). -/
def State.handlerDouble (s : State) (detail : Nat) (f : FInfo) : State :=
  let s := s.modCur fun g => g.modSlices g.sliceKeys fun _ x => if x.idle then x else { x with halted := true }
  let s := s.modSlices fun _ x => { x with pc := s.iss.pc }
  s.report s.iss.gid true s.iss.pc s.iss.word { f with code := .handlerDouble, detail := detail }

/-- Whether a fault may go to the supervisor handler (R353): PAGE_DEV of a thread access, a fetch or a transfer. -/
def FInfo.toHandler (f : FInfo) : Bool := f.code == .pageDev && (f.detail == 0 || f.detail == 2)

/-- The issuing split halts: precisely at its packet, or with a word set aside for the lanes named (R214, R353). -/
def State.haltSplit (s : State) (f : FInfo) (replay : Option Replay) : State :=
  let s := s.modSlices fun _ x =>
    match replay with
    | none => { x with halted := true, pc := s.iss.pc }
    | some r => { x with halted := true }.addReplay r
  s.report s.iss.gid s.iss.sup s.iss.pc s.iss.word f

/-- The split goes on at `entry` in supervisor mode with the faulting lanes; what it was doing is saved (R358). Slices
without a faulting lane wait (log 12). -/
def State.enterHandler (s : State) (entry : Nat) (f : FInfo) (replay : Option Replay) (jmp : Bool) : State :=
  let g := s.cur
  let ks := s.iss.slices
  let lanes := if f.lanes = 0xffffffff then s.iss.lanes.toNat else f.lanes
  let h : Handler :=
    { slices := ks, pc := s.iss.pc, mask := g.laneMask ks fun x => x.mask
      savedPc := ks.map fun k => (k, match replay with | none => s.iss.pc | some _ => (g.slice k).pc)
      savedMask := ks.map fun k => (k, (g.slice k).mask.toNat)
      depths := ks.map fun k => (k, ((g.slice k).stack.length, (g.slice k).rdepth))
      savedRest := ks.map fun k => (k, ((g.slice k).replays, (g.slice k).did, (g.slice k).others))
      savedSeen := ks.map fun k => (k, (g.slice k).seen)
      replay := replay, jmp := jmp, arrival := replay.isNone && ks.any fun k => (g.slice k).arrival
      record := s.record s.iss.gid false s.iss.pc s.iss.word f }
  s.modCur fun g =>
    { g.modSlices ks fun k x =>
        let x := { x with replays := [], did := [], others := none, seen := none }
        if laneNibble lanes k = 0 then { x with park := .handlerHold }
        else { x with pc := entry, arrival := false, mask := laneNibble lanes k, sup := true, park := .none }
      with handler := some h }

/-- A split that faults for the handler while another split of its gang is in it waits (R359). -/
def State.awaitHandler (s : State) (f : FInfo) (replay : Option Replay) (jmp : Bool) : State :=
  s.modSlices fun _ x =>
    { x with pc := if replay.isSome then x.pc else s.iss.pc, park := .handlerWait f s.iss.word replay jmp }

/-- A slice of a finished handler as it was saved, without the lanes `gone` that a `jmp` loses (R139, R360): a slice all of
whose running lanes are lost resumes what it holds as R138 lays down, or none when that would fault. -/
def Handler.restored (h : Handler) (k : Nat) (gone : BitVec 4) (x : Slice) : Option Slice :=
  let (rs, did, others) := h.savedRest.get ([], [], none) k
  let y : Slice :=
    { x with pc := h.savedPc.get h.pc k, arrival := h.arrival, sup := false, park := .none
             mask := (BitVec.ofNat 4 (h.savedMask.get 0 k)) &&& x.live &&& ~~~gone
             replays := h.replay.toList ++ rs, did := did, others := others, seen := h.savedSeen.get none k }
  let y := y.lose gone h.pc
  if gone ≠ 0 ∧ y.mask = 0 then exitPop y y.stack else some y

/-- The restored slices of a finished handler, as one split again (R360). -/
def Gang.leaveHandler (g : Gang) (h : Handler) (halt : Bool) (lost : Nat) : Gang :=
  let lead := h.slices.headD 0
  let g := g.modSlices h.slices fun k x =>
    { (h.restored k (laneNibble lost k) x).getD x with split := lead, halted := halt }
  { g with handler := none }

/-- The return from the handler once every slice that entered is parked at an `hret` (R360); `v` is s[sa]. -/
def State.hretDone (s : State) (v : Nat) : State :=
  match s.cur.handler with
  | none => s
  | some h =>
    let g := s.cur
    let same := h.slices.all fun k =>
      let x := g.slice k
      (x.stack.length, x.rdepth) == h.depths.get (0, 0) k
    if !same then s.handlerDouble 1 { code := .handlerDouble, lanes := h.record.lanes }
    else if v = 0 then s.modCur fun g => g.leaveHandler h false 0
    else
      let r := h.record
      let lanes := if r.lanes = 0xffffffff then h.mask else r.lanes
      if h.jmp then
        if h.slices.any fun k => (h.restored k (laneNibble lanes k) (g.slice k)).isNone then
          let s := s.modCur fun g => g.leaveHandler h true 0
          s.putFault r.ctx { r with code := FCode.illegal.num, detail := 3, addr := 0 }
        else
          let s := s.modCur fun g => (g.leaveHandler { h with replay := none } false lanes).regroup h.slices
          s.putFault r.ctx { r with detail := 1 }
      else
        let s := s.modCur fun g => g.leaveHandler h true 0
        s.putFault r.ctx { r with detail := v % 2 ^ 16 }

end Sys2Proof.Machine
end

