-- ==== Sys2Proof/Machine/Translate.lean ====
section
/-! DEFINITION. Address translation (spec/19 R344 to R348), reading and writing translated places, and fetching a
block (spec/05 R106 to R109). -/

namespace Sys2Proof.Machine

/-! ### The device-half walk (R344 to R346) -/

/-- What a walk finds. -/
inductive Walk where
  | notPresent
  | malformed
  | leaf (e : TlbEntry)
  deriving DecidableEq, Repr

/-- A present non-leaf entry: the next table, or none when it is malformed (R345, R346). -/
def pteNext (e : Nat) : Option Nat :=
  let next := bits e 12 40 * 2 ^ 12
  if bits e 1 11 = 0 ∧ next < Config.deviceBytes then some next else none

/-- A present leaf entry mapping `size` bytes, or none when it is malformed (R345, R346; log 7 for a frame beyond the
device memory). -/
def pteLeaf (e size : Nat) : Option Nat :=
  let frame := bits e 12 40 * 2 ^ 12
  if bits e 8 4 = 0 ∧ frame % size = 0 ∧ frame + size ≤ Config.deviceBytes then some frame else none

/-- The entry a leaf is cached as (R346, R347). -/
def leafEntry (c va size pte e frame : Nat) : TlbEntry :=
  { ctx := c, vbase := va / size * size, size := size, pbase := frame, w := bit e 2, x := bit e 3, zero := bit e 7,
    cow := bit e 6, pte := pte }

/-- The walk of a device-half address through the tables at `root` (R344). -/
def State.walk (s : State) (c root va : Nat) : Walk :=
  let a4 := root + 8 * bits va 43 13
  let e4 := s.devRead a4 8
  if !bit e4 0 then .notPresent else
  match pteNext e4 with
  | none => .malformed
  | some t3 =>
    let e3 := s.devRead (t3 + 8 * bits va 34 9) 8
    if !bit e3 0 then .notPresent else
    match pteNext e3 with
    | none => .malformed
    | some t2 =>
      let a2 := t2 + 8 * bits va 25 9
      let e2 := s.devRead a2 8
      if !bit e2 0 then .notPresent
      else if bit e2 1 then
        match pteLeaf e2 (2 ^ 25) with
        | none => .malformed
        | some f => .leaf (leafEntry c va (2 ^ 25) a2 e2 f)
      else
        match pteNext e2 with
        | none => .malformed
        | some t1 =>
          let a1 := t1 + 8 * bits va 16 9
          let e1 := s.devRead a1 8
          if !bit e1 0 then .notPresent
          else if !bit e1 1 then .malformed
          else match pteLeaf e1 (2 ^ 16) with
            | none => .malformed
            | some f => .leaf (leafEntry c va (2 ^ 16) a1 e1 f)

/-- The cached translation of an address on a core (R347). -/
def State.cached (s : State) (core c va : Nat) : Option TlbEntry :=
  (s.core core).tlb.find? fun e => e.ctx == c && decide (e.vbase ≤ va) && decide (va < e.vbase + e.size)

/-- A translation entered into a core's cache of 2,048, the oldest dropped when it is full (R347). -/
def State.cacheEntry (s : State) (core : Nat) (e : TlbEntry) : State :=
  s.modCore core fun k => { k with tlb := (k.tlb ++ [e]).drop (k.tlb.length - 2047) }

/-- A and D in a leaf, set at its home by a non-speculative access (R346). -/
def State.markPte (s : State) (pte : Nat) (write : Bool) : State :=
  let e := s.devRead pte 8
  let e' := setBits e 4 1 1
  let e' := if write then setBits e' 5 1 1 else e'
  if bit e 0 ∧ e ≠ e' then s.devWrite pte 8 e' else s

/-- What a translated access answers. -/
abbrev TRes := Except (FCode × Nat) Loc

/-- Permission of a device-half access: 0 read, 1 write, 2 atomic, 3 fetch (R345, R353, R366). -/
def TlbEntry.permits (e : TlbEntry) (acc : Nat) : Option (FCode × Nat) :=
  if acc = 3 then (if e.x then none else some (.protect, 16))
  else if acc = 0 then none
  else if e.zero then some (.pageDev, 2)
  else if e.w then none else some (.protect, 17)

/-- COW is set at the walk of a leaf whose page a live twin shares, and decides nothing (R345, R387). -/
def State.setCow (s : State) (c : Nat) (e : TlbEntry) : State :=
  let hit (g : Nat) : Bool := e.vbase / 65536 ≤ g && decide (g * 65536 < e.vbase + e.size)
  let twin := s.ctxs.any fun (_, x) => x.parent == some c && x.view.shared.any hit
  if twin then s.devWrite e.pte 8 (setBits (s.devRead e.pte 8) 6 1 1) else s

/-- A device-half translation for a core and context (R344 to R347). -/
def State.translateDev (s : State) (core c va acc : Nat) : State × TRes :=
  let use (s : State) (e : TlbEntry) : State × TRes :=
    match e.permits acc with
    | some f => (s, .error f)
    | none => (s.markPte e.pte (acc == 1 || acc == 2), .ok (.dev (e.pbase + (va - e.vbase))))
  match s.cached core c va with
  | some e => use s e
  | none =>
    match s.walk c (s.ctx c).pt va with
    | .notPresent => (s, .error (.pageDev, 0))
    | .malformed => (s, .error (.protect, 15))
    | .leaf e =>
      use ((s.setCow c e).cacheEntry core e) e

/-- What an access needs that finds an AtomicOp of this part on its way to its line of host memory (R340): the line, numbered
beyond every page. -/
def lineNeed (ld ha : Nat) : Nat × Nat := (ld, 2 ^ 52 + ha / 128)

/-- Whether an AtomicOp of this part is on its way to the host line of a place (R340). -/
def State.atomicHeld (s : State) (l : Loc) : Bool :=
  match l with
  | .host ld ha => s.atomics.any fun x => x.ld == ld && x.ha / 128 == ha / 128
  | _ => false

/-- An access that reads or writes a place when it is translated waits for an AtomicOp on its line (R340). -/
def State.waitLine (s : State) (l : Loc) : State :=
  match l with
  | .host ld ha => if s.atomicHeld l then { s with hostNeed := s.hostNeed ++ [lineNeed ld ha] } else s
  | _ => s

/-- Whether what an access needs is still lacking: the answer for a page, or the end of an AtomicOp. -/
def State.lacks (s : State) (p : Nat × Nat) : Bool :=
  s.hostAsked.contains p || s.atomics.any fun x => lineNeed x.ld x.ha == p

/-- Pages of 4 KB of a logical device's host half are asked of the host, at most 1,024 at a time and one request for each; the
access in progress waits for those that have been (R348). -/
def State.askHost (s : State) (l : List (Nat × Nat)) : State :=
  let asked := l.foldl (fun q p => if q.contains p ∨ 1024 ≤ q.length ∨ 2 ^ 52 ≤ p.2 then q else q ++ [p]) s.hostAsked
  { s with hostAsked := asked
           hostWaits := match s.hostWho with
             | none => s.hostWaits
             | some w => s.hostWaits ++ (l.filter fun p => asked.contains p && !s.hostWaits.contains (w, p)).eraseDups.map fun p => (w, p) }

/-- The access `w` is in progress. -/
def State.asking (s : State) (w : Asker) : State := { s with hostWho := some w }
/-- An access that is over keeps no refusal: the next one to the page asks again (R376). -/
def State.heard (s : State) (w : Asker) : State := { s with hostDenied := s.hostDenied.filter fun d => d.1 != w }

/-- An attempt of the access `w`, which keeps a refusal until the access is over: nothing of it happens but the requests until
the host has answered for every page it needs (R348, R376). -/
def State.attempting (s : State) (w : Asker) (f : State → State) : State :=
  let t := f (s.asking w)
  { (if t.hostNeed = s.hostNeed then t else (s.asking w).askHost t.hostNeed) with hostWho := s.hostWho }

/-- What the access or event `w` of state `s` comes to, once the host has answered for every page it needs; until then nothing of
it happens but the requests (R348, R376). -/
def State.accessing (s : State) (w : Asker) (f : State → State) : State :=
  let t := f (s.asking w)
  { (if t.hostNeed = s.hostNeed then t.heard w else (s.asking w).askHost t.hostNeed) with hostWho := s.hostWho }

/-- A host-half translation through what the bound host has answered (R348, log 6). An answer that refuses, or reports the page
not present, serves the access that waited for it (R376); with no answer the access needs one (`hostNeed`). -/
def State.translateHost (s : State) (ld va acc : Nat) : State × TRes :=
  let page := (ld, va / 4096)
  match s.hostMaps.find? fun m => m.ld == ld && decide (m.vbase ≤ va) && decide (va < m.vbase + m.size) with
  | none =>
    if (s.hostWho.map fun w => s.hostDenied.contains (w, page)) = some true then (s, .error (.pageHost, 0))
    else ({ s with hostNeed := s.hostNeed ++ [page] }, .error (.pageHost, 0))
  | some m =>
    (s, if (if acc = 0 then m.r else if acc = 3 then m.x else if acc = 1 then m.w else m.r && m.w) then
      .ok (.host ld (m.hbase + (va - m.vbase)))
    else .error (.protect, 18))

/-! ### Frames and views (R349, R387) -/

/-- Whether a pool entry names a 64 KB frame of the device memory (R349). -/
def goodFrame (e : Nat) : Bool := e % 65536 == 0 && decide (e < 2 ^ 52) && decide (e + 65536 ≤ Config.deviceBytes)

/-- The next frame of a pool ring, malformed entries consumed on the way; none when the pool runs empty (R349). -/
def State.takeFrom (s : State) (hint pool log : Nat) : Nat → State × Option Nat
  | 0 => (s, none)
  | n + 1 =>
    let head := s.devRead (hint + 0x20) 4
    let e := s.devRead (pool + 8 * (head % 2 ^ log)) 8
    let s := s.devWrite (hint + 0x20) 4 ((head + 1) % 2 ^ 32)
    if goodFrame e then (s, some e) else s.takeFrom hint pool log n

/-- A frame from a context's pool; a twin's come from its original's (R349, R387). -/
def State.takeFrame (s : State) (c : Nat) : State × Option Nat :=
  let x := s.ctx c
  if x.hint = 0 then (s, none)
  else s.takeFrom x.hint x.pool x.poolLog (diff32 (s.devRead (x.hint + 0x24) 4) (s.devRead (x.hint + 0x20) 4))

/-- Whether a context is a twin (R386). -/
def State.isTwin (s : State) (c : Nat) : Bool := (s.ctx c).parent.isSome

/-- The frame and permissions a view shows for an address (R387): the private copy, or what the original shows; a lost
granule faults POISON. -/
def State.viewWalk (s : State) (c va : Nat) : Nat → Except (FCode × Nat) TlbEntry
  | 0 => .error (.pageDev, 0)
  | n + 1 =>
    let x := s.ctx c
    let g := va / 65536
    let root (o : Nat) : Except (FCode × Nat) TlbEntry :=
      match s.walk o (s.ctx o).pt va with
      | .notPresent => .error (.pageDev, 0)
      | .malformed => .error (.protect, 15)
      | .leaf e => .ok e
    match x.parent with
    | none => root c
    | some o =>
      if x.view.lost.contains g then .error (.poison, 0)
      else match x.view.priv.find g with
        | some f =>
          let e : TlbEntry := { ctx := c, vbase := g * 65536, size := 65536, pbase := f, w := true, x := true, zero := false, cow := false, pte := 0 }
          -- a page that a `pgmap` of the rival mapped has the permissions it was given (R361, R390); others keep those of the
          -- tables where they still map the page
          let perm (e : TlbEntry) : TlbEntry := match x.view.perms.find g with
            | some fl => { e with w := bit fl 2, x := bit fl 3, zero := bit fl 7 }
            | none => e
          match s.viewWalk o va n with
          | .ok l => .ok (perm { e with w := l.w || l.zero, x := l.x })
          | .error _ => .ok (perm e)
        | none => if x.view.shared.contains g then s.viewWalk o va n else .error (.pageDev, 0)

/-- Contexts whose views share a granule with context `c`: its live twins, and itself for a snapshot being written. -/
def State.sharers (s : State) (c g : Nat) : List Nat :=
  (s.ctxs.filter fun (_, x) => x.parent == some c && x.view.shared.contains g).map (·.1)

/-- A view's private copy of a granule made from frame `from`; the granule is lost when the pool is empty (R387). -/
def View.take (v : View) (g : Nat) (frame : Option Nat) : View :=
  match frame with
  | some f => { v with shared := v.shared.filter (· != g), priv := v.priv.set g f }
  | none => { v with shared := v.shared.filter (· != g), lost := v.lost ++ [g] }

/-- A view takes its private copy of a granule that lies in frame `f`, from the pool of context `c`, or loses it (R387). -/
def State.copyFor (s : State) (c f : Nat) : State × Option Nat :=
  let (s, fr) := s.takeFrame c
  (match fr with
    | some d => { s with dmem := s.dmem.copy f d 65536 }
    | none => s, fr)

/-- An access of context `t` to granule `g`, translated to frame `f`, that is still to be performed, lies in frame `d` once the
granule has been copied there (R387). -/
def LaneAcc.relocated (a : LaneAcc) (g f d : Nat) : LaneAcc :=
  match a.loc with
  | .dev pa => if a.addr / 65536 = g ∧ pa / 65536 * 65536 = f then { a with loc := .dev (d + pa % 65536) } else a
  | _ => a

/-- Every access of a context still to be performed in a granule follows its copy. -/
def State.relocate (s : State) (t g f d : Nat) : State :=
  let op (o : Op) : Op := if o.actx = t then { o with lanes := o.lanes.map fun a => a.relocated g f d } else o
  let st (e : SqEntry) : SqEntry := if e.actx = t then { e with lanes := e.lanes.map fun a => a.relocated g f d } else e
  { s with gangs := s.gangs.mapVals fun k => { k with ops := k.ops.map op, sq := k.sq.map st }
           cores := s.cores.mapVals fun k => { k with wp := k.wp.map st } }

/-- A view of context `t` takes its private copy of a granule, or loses it; a twin's LOST counts that (R387). -/
def State.takeCopy (s : State) (t g f : Nat) (fr : Option Nat) : State :=
  let s := s.modCtx t fun x =>
    { x with view := x.view.take g fr, lost := if fr.isSome then x.lost else min 255 (x.lost + 1) }
  match fr with
  | some d => s.relocate t g f d
  | none => s

/-- Copy on write of a granule of context `c`, which lies in frame `f`: every live twin that shares it but `but`, and,
unless `snap`, the snapshot being written, takes a copy from the pool or loses it (R387, R403). -/
def State.cowBut (s : State) (c g f : Nat) (but : Option Nat) (snap : Bool) : State :=
  let s := ((s.sharers c g).filter fun t => but != some t).foldl (fun s t =>
    let (s, fr) := s.copyFor c f
    s.takeCopy t g f fr) s
  if (s.ctx c).snap.view.shared.contains g ∧ !snap then
    let (s, fr) := s.copyFor c f
    s.modCtx c fun x => { x with snap := { x.snap with view := x.snap.view.take g fr } }
  else s
def State.cow (s : State) (c g f : Nat) : State := s.cowBut c g f none false

/-- A twin's own first write to a granule it shares makes its private copy (R387). -/
def State.ownCopy (s : State) (t g f : Nat) : State :=
  if !(s.ctx t).view.shared.contains g then s
  else
    let (s, fr) := s.copyFor t f
    s.takeCopy t g f fr

/-- A device-half translation in a twin's view; a write makes the page private first (R387, R390). -/
def State.translateView (s : State) (c va acc : Nat) : State × TRes :=
  match s.viewWalk c va 8 with
  | .error f => (s, .error f)
  | .ok e =>
    match e.permits acc with
    | some f => (s, .error f)
    | none =>
      let off := va % 65536
      let base := e.pbase + (va - e.vbase) - off
      if acc = 1 ∨ acc = 2 then
        let s := s.ownCopy c (va / 65536) base
        match (s.ctx c).view.priv.find (va / 65536) with
        | some f => (s, .ok (.dev (f + off)))
        | none => (s, .error (.poison, 0))
      else (s, .ok (.dev (base + off)))

/-- The shadow of a host page in a twin's view: made at the first write as a copy of the live page (R387). -/
def State.shadowOf (s : State) (c page : Nat) (live : Loc) : State × TRes :=
  match (s.ctx c).view.shadows.find page with
  | some pa => (s, .ok (.dev pa))
  | none =>
    let v := (s.ctx c).view
    let k := v.shadows.length % 16
    let (s, fr) : State × Option Nat := if k = 0 then s.takeFrame c else (s, v.shadowFrames.getLast?)
    match fr with
    | none =>
      (s.modCtx c fun x => { x with view := { x.view with lostHost := x.view.lostHost ++ [page] }, lost := min 255 (x.lost + 1) },
        .error (.poison, 0))
    | some f =>
      let pa := f + 4096 * k
      let piece : Memory := match live with
        | .host ld ha => Memory.slice (s.hmem.get [] ld) (ha / 4096 * 4096) 4096
        | .dev a => s.dmem.slice (a / 4096 * 4096) 4096
        | _ => []
      let s := { s with dmem := s.dmem.paste pa 4096 piece }
      (s.modCtx c fun x => { x with view := { x.view with
          shadows := x.view.shadows.set page pa,
          shadowFrames := if k = 0 then x.view.shadowFrames ++ [f] else x.view.shadowFrames } }, .ok (.dev pa))

/-- A host-half translation in a twin's view (R387, R391). -/
def State.translateShadow (s : State) (c va acc : Nat) : State × TRes :=
  let page := va / 4096
  if (s.ctx c).view.lostHost.contains page then (s, .error (.poison, 0))
  else match s.translateHost (s.ctx c).ld va acc with
    | (s, .error f) => (s, .error f)
    | (s, .ok l) =>
      match (s.ctx c).view.shadows.find page with
      | some pa => (s, .ok (.dev (pa + va % 4096)))
      | none =>
        if acc = 1 ∨ acc = 2 then
          match s.shadowOf c page l with
          | (s, .ok (.dev pa)) => (s, .ok (.dev (pa + va % 4096)))
          | r => r
        else (s, .ok l)

/-- The context a team's accesses are translated in: its own, or SVC.CTX for a service team (R374). -/
def State.accessCtx (s : State) (team : Nat) : Nat :=
  let t := s.team team
  if t.service then (s.core (team / 16)).svcCtx else t.ctx

/-- A 57-bit virtual address translated for a context (R215). -/
def State.translateIn (s : State) (core c va acc : Nat) : State × TRes :=
  -- the firmware core has no context (log 32)
  if !(s.ctx c).bound then (s, .error (if bit va 56 then .pageDev else .pageHost, 0))
  else if s.isTwin c then (if bit va 56 then s.translateView c va acc else s.translateShadow c va acc)
  else if bit va 56 then s.translateDev core c va acc else s.translateHost (s.ctx c).ld va acc

/-- A virtual address translated for a team (R215). -/
def State.translate (s : State) (team va acc : Nat) : State × TRes :=
  s.translateIn (team / 16) (s.accessCtx team) va acc

/-! ### Places (R212) -/

def Team.buf (t : Team) : BufSpace → Memory
  | .l => t.scratch
  | .wb => t.wb
  | .ab => t.ab
  | .cb => t.cb

def Team.setBuf (t : Team) (sp : BufSpace) (m : Memory) : Team :=
  match sp with
  | .l => { t with scratch := m }
  | .wb => { t with wb := m }
  | .ab => { t with ab := m }
  | .cb => { t with cb := m }

/-- The bytes of a team's share of a buffer (R43, R267). -/
def Team.extent (t : Team) : BufSpace → Nat
  | .l => t.scratchSize
  | .wb => 1048576 / t.divisor
  | .ab => 524288 / t.divisor
  | .cb => 524288 / t.divisor

/-- Bytes of stream storage and row entries of a team (R267, R287). -/
def Team.sbExtent (t : Team) : Nat := 262144 / t.divisor
def Team.rowCount (t : Team) : Nat := 1024 / t.divisor

/-- `n` bytes at a place of this part, at its point of coherence; a place of another part reads zero here, since its
bytes come in a cell (R319). -/
def State.readLoc (s : State) (l : Loc) (n : Nat) : Nat :=
  match l with
  | .dev pa => s.dmem.readLE pa n
  | .host ld ha => Memory.readLE (s.hmem.get [] ld) ha n
  | .buf team sp off => ((s.team team).buf sp).readLE off n
  | .cf grid off => (s.grid grid).lr.readLE off n
  | .remote _ _ _ _ => 0
  | .peer _ _ => 0

/-- `n` bytes written at a place of this part, at its point of coherence. -/
def State.writeLoc (s : State) (l : Loc) (n v : Nat) : State :=
  match l with
  | .dev pa => { s with dmem := s.dmem.writeLE pa n v }
  | .host ld ha => { s with hmem := s.hmem.set ld (Memory.writeLE (s.hmem.get [] ld) ha n v) }
  | .buf team sp off => s.modTeam team fun t => t.setBuf sp ((t.buf sp).writeLE off n v)
  | .cf _ _ => s
  | .remote _ _ _ _ => s
  | .peer _ _ => s

/-- A write through a translated address: shared granules are copied first (R387). One that belongs before a cut whose
state is still to be taken belongs to both views: the view that the cut forms keeps sharing the granule, or takes the
bytes as well (R232, R380). -/
def State.writeVa (s : State) (c va : Nat) (before : Bool) (l : Loc) (n v : Nat) : State :=
  match l with
  | .dev pa =>
    let g := va / 65536
    let frame := pa - va % 65536
    if !bit va 56 then s.writeLoc l n v
    else if !before then (s.cow c g frame).writeLoc l n v
    else
      let x := s.ctx c
      let twin := x.cut.bind (·.twin)
      let snap : Bool := match x.cut with
        | some k => k.kind == .snapshot
        | none => false
      let s := s.cowBut c g frame twin snap
      let also (s : State) (f : Option Nat) : State := match f with
        | some f => s.devWrite (f + va % 65536) n v
        | none => s
      let s := match twin with
        | some t => also s ((s.ctx t).view.priv.find g)
        | none => s
      let s := if snap then also s ((s.ctx c).snap.view.priv.find g) else s
      s.writeLoc l n v
  | _ => s.writeLoc l n v

/-- Whether the state of a team is still to be taken for a cut of its context: its copies and tile operations pause until
then (log 34). -/
def State.cutPauses (s : State) (team : Nat) : Bool :=
  match (s.ctx (s.team team).ctx).cut with
  | some k => !(s.team team).service && !k.captured && k.cores.contains (team / 16)
  | none => false

/-- Whether a gang's part of a cut of its context is still to be written (R379); service teams are never cut (R374). -/
def State.beforeCut (s : State) (gid : Nat) : Bool :=
  match (s.ctx (s.team (gidTeam gid)).ctx).cut with
  | some k => !(s.team (gidTeam gid)).service && k.cores.contains (gidCore gid)
  | none => false

/-- A gang's write at its point of coherence, its address translated in context `c` (R374). -/
def State.gangWrite (s : State) (c gid va : Nat) (l : Loc) (n v : Nat) : State := s.writeVa c va (s.beforeCut gid) l n v

/-- Whether a place is on another part. -/
def Loc.isRemote : Loc → Bool
  | .remote _ _ _ _ => true
  | .peer _ _ => true
  | _ => false

/-- The place `k` bytes further on. -/
def Loc.plus (l : Loc) (k : Nat) : Loc :=
  match l with
  | .dev pa => .dev (pa + k)
  | .host ld ha => .host ld (ha + k)
  | .buf t sp off => .buf t sp (off + k)
  | .cf g off => .cf g (off + k)
  | .remote p c t off => .remote p c t (off + k)
  | .peer p va => .peer p (va + k)

/-- Whether `n` bytes at one place and `m` bytes at another share a byte. -/
def Loc.overlaps (l : Loc) (n : Nat) (k : Loc) (m : Nat) : Bool :=
  let cross (a b : Nat) : Bool := decide (a < b + m) && decide (b < a + n)
  match l, k with
  | .dev a, .dev b => cross a b
  | .host d a, .host e b => d == e && cross a b
  | .buf t p a, .buf u q b => t == u && p == q && cross a b
  | .cf g a, .cf h b => g == h && cross a b
  | .remote p c t a, .remote q d u b => p == q && c == d && t == u && cross a b
  | .peer p a, .peer q b => p == q && cross a b
  | _, _ => false

/-! ### Fetching (R106 to R109) -/

/-- Whether a block's trailer has FORMAT 1 and zero reserved bits (R106). -/
def trailerOk (block : Nat) : Bool := bits block 485 27 == 1
/-- LAND bit `j` of a block (R106). -/
def landBit (block j : Nat) : Bool := bit block (480 + j)
/-- Word `k` of slot `j` of a block (R106). -/
def blockWord (block j k : Nat) : W32 := BitVec.ofNat 32 (block / 2 ^ (96 * j + 32 * k))

/-- A fault of a fetch or transfer: ACC 3 (R108, R354). -/
def fetchFault (code : FCode) (detail addr : Nat) : FInfo := { code := code, detail := detail, acc := 3, addr := addr }

/-- The firmware core's instruction memory as blocks (R71). -/
def State.imemBlock (s : State) (pc : Nat) : Nat := s.imem.readLE (pc / 64 * 64) 64

/-- The block that holds `pc`, fetched for gang `gid`: one read of 64 bytes at one instant, or what the core has fetched
ahead (R109). That the record of a fetch fault at a packet's own issue names the block's first byte in ADDR is the model's
choice (R354 does not say; log 96). -/
def State.fetch (s : State) (gid pc : Nat) : State × Except FInfo Nat :=
  let team := gidTeam gid
  -- a service team's code is its own context's; SVC.CTX governs its `g:` accesses alone (R374)
  let ctx := (s.team team).ctx
  let base := pc / 64 * 64
  if gid = fwGid then (s, .ok (s.imemBlock pc))
  else
    match (s.core (gidCore gid)).fetched.find? fun (c, b, _) => c == ctx && b == base with
    | some (_, _, x) =>
      match s.translateIn (team / 16) ctx base 3 with
      | (t, .ok _) => (t, .ok x)
      | (_, .error _) => (s, .ok x)
    | none =>
      match s.translateIn (team / 16) ctx base 3 with
      | (s, .ok l) => (s.waitLine l, .ok (s.readLoc l 64))
      | (s, .error (c, d)) => (s, .error (fetchFault c d base))

/-- The check of a transfer's target (R108): ALIGN, the block's fetch fault with the target as ADDR, ILLEGAL for a
malformed trailer, LANDING. -/
def State.checkTarget (s : State) (gid pc : Nat) : State × Option FInfo :=
  if !validPc pc then (s, some (fetchFault .align 0 0))
  else
    match s.fetch gid pc with
    | (s, .error f) => (s, some { f with addr := pc })
    | (s, .ok block) =>
      if !trailerOk block then (s, some (fetchFault .illegal 0 0))
      else if !landBit block (pc % 64 / 12) then (s, some (fetchFault .landing 0 0))
      else (s, none)

/-- A precise fault of the issuing split: HANDLER_DOUBLE in supervisor mode, the handler when R353 sends it there, a halt
otherwise; `replay` names a word set aside for the faulting lanes (R214, R353, R358, R359, R364). -/
def State.faultWith (s : State) (f : FInfo) (replay : Option Replay) (jmp : Bool) : State :=
  let c := (s.team s.teamKey).ctx
  let entry := (s.ctx c).handler
  let s : State := if replay.isNone then { s with iss := { s.iss with fault := some f } } else s
  if s.iss.sup then s.handlerDouble f.code.num f
  else if f.toHandler ∧ entry ≠ 0 then
    if s.cur.handler.isSome then s.awaitHandler f replay jmp
    else
      match s.checkTarget s.iss.gid entry with
      -- the split has entered, at the packet that faulted, and halts there in supervisor mode (R356, R358)
      | (s, some e) => (s.enterHandler s.iss.pc f replay jmp).handlerDouble e.code.num { f with code := e.code }
      | (s, none) => s.enterHandler entry f replay jmp
  else s.haltSplit f replay

/-- A precise fault of the whole issuing split (R123). -/
def State.fault (s : State) (f : FInfo) : State := s.faultWith f none false

/-- A late fault of an operation that `slices` issued, `sup` when in supervisor mode: one record now, and the named slices'
splits halt at their next issue (R443), or the whole gang with HANDLER_DOUBLE (R364). -/
def State.lateFault (s : State) (gid : Nat) (sup : Bool) (slices : List Nat) (pc word : Nat) (f : FInfo) : State :=
  let g := s.gang gid
  let hit := slices.map fun k => (g.slice k).split
  if sup then
    let s := s.modGang gid fun g => g.modSlices g.sliceKeys fun _ x => if x.idle then x else { x with haltDue := true }
    s.report gid true pc word { f with code := .handlerDouble, detail := f.code.num }
  else
    let s := s.modGang gid fun g =>
      g.modSlices g.sliceKeys fun _ x => if hit.contains x.split ∧ !x.idle then { x with haltDue := true } else x
    s.report gid false pc word f

/-- A late fault of an engine operation halts every split of the gang (R443). -/
def State.engineFault (s : State) (gid : Nat) (sup : Bool) (pc word : Nat) (f : FInfo) : State :=
  s.lateFault gid sup (s.gang gid).sliceKeys pc word f

end Sys2Proof.Machine
end

