-- ==== Sys2Proof/Machine/Check.lean ====
section
/-! DEFINITION. The checks a word meets at issue before any effect (spec/05 R121, R122; spec/19 R120; spec/03 R71), and the
guard that every meaning passes: the first failing check is a precise fault of the whole issuing split (R123). -/

namespace Sys2Proof.Machine

def ill : FInfo := { code := .illegal }

/-- Words of control mode, legal on the firmware core alone (R71). -/
def isControlMode : Instr → Bool
  | .qfetch _ | .qdisp | .qcomp => true
  | _ => false

/-- The matrix, stream, copy, search, window and fabric families, ILLEGAL on the firmware core (spec/03). -/
def notInControlMode (i : Instr) : Bool :=
  match i with
  | .ldWindow _ _ _ _ _ | .stWindow _ _ _ _ _ | .rld _ _ _ _ _ | .rst _ _ _ _ _ | .ratom _ _ _ _ _ => true
  | .wdetach | .wmember _ | .wbar => true
  | .atomLocal32 _ _ _ _ p | .atomLocal64 _ _ _ _ p => p == .wSet || p == .wReel
  | _ => pipeOf i == .x

/-- System registers (R163, R368): unassigned, unprivileged, privileged, and which accept a write. -/
inductive SysKind where
  | unassigned | user | privileged
  deriving DecidableEq, Repr

/-- Which register a number names; 0x140 to 0x143 stand on service cores only (R368). -/
def sysKind (core n : Nat) : SysKind :=
  if n ≤ 0x00b ∨ (0x010 ≤ n ∧ n ≤ 0x01f) then .user
  else if 0x100 ≤ n ∧ n ≤ 0x103 then .privileged
  else if 0x140 ≤ n ∧ n ≤ 0x143 ∧ 384 ≤ core ∧ core ≤ 387 then .privileged
  else .unassigned

/-- Registers with an RW or WO field (R163, R164, R367, R368). -/
def sysWritable (n : Nat) : Bool :=
  n == 0x009 || (decide (0x010 ≤ n) && decide (n ≤ 0x01f)) || n == 0x140 || n == 0x141 || n == 0x143

/-- Every privileged form faults PROTECT in user mode (R120). -/
def privilegedForm : Instr → Bool
  | .hret _ | .pgmap _ | .pginv _ | .fltrd _ _ => true
  | _ => false

/-- Whether a slot that a word names is unused (R39, R121). -/
def State.slotUnused (s : State) (f : FSlot) : Bool := s.slotBits f == 0

/-- ILLEGAL, in the sense of R121 and of the forms that a register number or slot makes illegal (R163, R210, R361). -/
def illegalAt (i : Instr) (s : State) : Bool :=
  let core := s.coreKey
  !i.wf
  || (isControlMode i && core != fwCore)
  || (core == fwCore && notInControlMode i)
  || (slotsOf i).any s.slotUnused
  || (match i with
      | .sysrd _ r => sysKind core r.val == .unassigned
      | .syswr _ r => sysKind core r.val == .unassigned || !sysWritable r.val
      | .cvtp f _ _ _ =>
        match FmtSlot.ofBits (s.slotBits f) with
        | some x => decide (16 < x.fmt.width)
        | none => true
      | .cred _ _ _ _ _ => false
      | _ => false)

/-- REG_RANGE: a vector register at or above the role's VREGS (R122). -/
def regRangeAt (i : Instr) (s : State) : Bool := (vregsOf i).any fun n => decide (s.cur.vregs ≤ n)

/-- PROTECT, SPACE_ENGINE and STREAM_READ raised at issue (R120, R122, R212, R238). -/
def spaceFault (i : Instr) (s : State) : Option FInfo :=
  let copySide (dst : Bool) (sp : CopySpace) : Option FInfo :=
    match sp with
    | .sb => some { code := .streamRead }
    | .cb => some { code := .spaceEngine }
    | .wb | .ab => if dst then none else some { code := .spaceEngine }
    | _ => none
  if privilegedForm i ∧ !s.iss.sup then some { code := .protect }
  else match i with
    | .sysrd _ r | .syswr _ r =>
      if sysKind s.coreKey r.val = .privileged ∧ !s.iss.sup then some { code := .protect } else none
    | .ldLocal _ _ _ _ .sb => some { code := .streamRead }
    | .stLocal _ _ _ _ .sb => some { code := .streamRead, acc := 1 }
    | .stLocal _ _ _ _ .wb => some { code := .spaceEngine, acc := 1 }
    | .stLocal _ _ _ _ .cf => some { code := .protect, detail := 19, acc := 1 }
    | .cpy src _ _ _ dst | .cpyc src _ _ _ dst =>
      match copySide true dst with
      | some f => some f
      | none => copySide false src
    | .cpys dst _ _ _ => copySide true dst
    | _ => none

/-- The checks of R123 that belong to a word: ILLEGAL, REG_RANGE, then PROTECT, SPACE_ENGINE and STREAM_READ, with the
class each has in R123's order. -/
def wordFault (i : Instr) (s : State) : Option (Nat × FInfo) :=
  if illegalAt i s then some (5, ill)
  else if regRangeAt i s then some (6, { code := .regRange })
  else (spaceFault i s).map fun f => (7, f)

/-- A word whose accesses still need the host's answers has no effect; its split stays at its packet until they come (R348,
R376). A word performed again stays set aside. -/
def State.awaitHost (s : State) (need : List (Nat × Nat)) : State :=
  let s := s.modSlices fun k x =>
    let x := { x with awaits := need }
    if s.iss.replay then (if laneNibble s.iss.lanes.toNat k = 0 then x else x.addReplay ⟨s.iss.pc, s.iss.word, s.iss.lanes.toNat⟩)
    else { x with pc := s.iss.pc }
  { s.askHost need with hostNeed := need }

/-- Every meaning of an instruction word passes its issue checks first; a failing one is a precise fault (R123). -/
def guard (i : Instr) (s : State) (effect : State → State) : Res :=
  match wordFault i s with
  | some (_, f) => .next (s.fault f)
  | none =>
    let t := effect s
    .next (if t.hostNeed = s.hostNeed then t else s.awaitHost t.hostNeed)

end Sys2Proof.Machine
end

