-- ==== Sys2Proof/Machine/Flags.lean ====
section
/-! DEFINITION. Flag computations: the comparison conditions (spec/05 R111), the scalar exception flags (spec/07 R164,
R167), and predicate results. -/

namespace Sys2Proof.Machine

/-- Whether `a cc b` holds: conditions 0 to 5 compare signed, 6 to 9 unsigned (R111, R166, R181). -/
def condHolds {n : Nat} (c : Cond) (a b : BitVec n) : Bool :=
  match c with
  | .eq => a == b
  | .ne => a != b
  | .lt => a.slt b
  | .le => a.sle b
  | .gt => b.slt a
  | .ge => b.sle a
  | .ltn => a.ult b
  | .len => a.ule b
  | .gtn => b.ult a
  | .gen => b.ule a

/-- Whether a float condition holds of an exact comparison, which is none when either operand is NaN (R205). -/
def fcondHolds (c : FCond) (o : Option Ordering) : Bool :=
  match c, o with
  | .eq, some .eq => true
  | .ne, some .eq => false
  | .ne, _ => true
  | .lt, some .lt => true
  | .le, some .lt => true
  | .le, some .eq => true
  | .gt, some .gt => true
  | .ge, some .gt => true
  | .ge, some .eq => true
  | .unord, none => true
  | _, _ => false

/-- SXF.DZ and SXF.DOV: hardware only sets them (R164). -/
def State.setDZ (s : State) : State := s.modCur fun g => { g with regs := { g.regs with sxf := g.regs.sxf ||| 1#2 } }
def State.setDOV (s : State) : State := s.modCur fun g => { g with regs := { g.regs with sxf := g.regs.sxf ||| 2#2 } }

/-- The flags a division or remainder sets: DZ for a zero divisor, DOV for -2^63 by -1, signed (R167). -/
def State.divFlags (s : State) (signed : Bool) (a b : W64) : State :=
  if b = 0 then s.setDZ
  else if signed ∧ a = 0x8000000000000000#64 ∧ b = 0xffffffffffffffff#64 then s.setDOV
  else s

end Sys2Proof.Machine
end

