-- ==== Sys2Proof/Machine/Scalar.lean ====
section
/-! DEFINITION. Scalar instructions (spec/07 R165 to R170). Each reads s[sa] and s[sb] as the packet found them and writes
s[sd]; a write to `s0` is discarded. -/

namespace Sys2Proof.Machine

/-- `s[sd] := f s[sa] s[sb]` (R166). -/
def scalar2 (s : State) (d a b : SReg) (f : W64 → W64 → W64) : State := s.writeS d (f (s.srcS a) (s.srcS b))
/-- `s[sd] := f s[sa]` (R166). -/
def scalar1 (s : State) (d a : SReg) (f : W64 → W64) : State := s.writeS d (f (s.srcS a))

/-- The high 64 bits of a signed and of an unsigned product (R166). -/
def mulHighS (n : Nat) (a b : BitVec n) : BitVec n := BitVec.ofInt n (a.toInt * b.toInt / (2 ^ n : Nat))
def mulHighU (n : Nat) (a b : BitVec n) : BitVec n := BitVec.ofNat n (a.toNat * b.toNat / 2 ^ n)

/-- A shift by the full width or more gives zero, or copies of the sign (R166, R178). -/
def shl {n m : Nat} (a : BitVec n) (b : BitVec m) : BitVec n := if n ≤ b.toNat then 0 else a <<< b.toNat
def shr {n m : Nat} (a : BitVec n) (b : BitVec m) : BitVec n := if n ≤ b.toNat then 0 else a >>> b.toNat
def sra {n m : Nat} (a : BitVec n) (b : BitVec m) : BitVec n :=
  if n ≤ b.toNat then (if a.msb then BitVec.allOnes n else 0) else a.sshiftRight b.toNat

/-- Division and remainder with the borderline cases of R167: truncation toward zero, the remainder with the dividend's
sign. -/
def divS (a b : W64) : W64 := if b = 0 then 0xffffffffffffffff#64 else a.sdiv b
def divU (a b : W64) : W64 := if b = 0 then 0xffffffffffffffff#64 else a / b
def remS (a b : W64) : W64 := if b = 0 then a else a.srem b
def remU (a b : W64) : W64 := if b = 0 then a else a % b

def minS {n : Nat} (a b : BitVec n) : BitVec n := if b.slt a then b else a
def maxS {n : Nat} (a b : BitVec n) : BitVec n := if a.slt b then b else a
def minU {n : Nat} (a b : BitVec n) : BitVec n := if b.ult a then b else a
def maxU {n : Nat} (a b : BitVec n) : BitVec n := if a.ult b then b else a

/-- Set bits, and leading zeros, of a word (R166, R179). -/
def popCount {n : Nat} (a : BitVec n) : Nat := (maskBits a.toNat n).length
def leadingZeros {n : Nat} (a : BitVec n) : Nat := if a = 0 then n else n - 1 - a.toNat.log2

/-- The effective width of a bit field: no further than the top of the word (R168, R178). -/
def fieldWidth (n pos w : Nat) : Nat := min w (n - pos)
/-- The field of `a` at `pos`, `w` bits wide, zero-extended (R168, R178). -/
def bfxU (n : Nat) (a : BitVec n) (pos w : Nat) : BitVec n :=
  BitVec.ofNat n (bits a.toNat pos (fieldWidth n pos w))
/-- The same field, sign-extended (R168, R178). -/
def bfxS (n : Nat) (a : BitVec n) (pos w : Nat) : BitVec n :=
  let k := fieldWidth n pos w
  let f := bits a.toNat pos k
  if k = 0 then 0 else if bit f (k - 1) then BitVec.ofInt n ((f : Int) - (2 ^ k : Nat)) else BitVec.ofNat n f
/-- `old` with its field at `pos` taken from the low bits of `a` (R168, R178). -/
def bfi (n : Nat) (old a : BitVec n) (pos w : Nat) : BitVec n :=
  BitVec.ofNat n (setBits old.toNat pos (fieldWidth n pos w) a.toNat)

/-- pos and w of a scalar bit-field operand (R168). -/
def posOf64 (b : W64) : Nat := bits b.toNat 0 6
def widthOf64 (b : W64) : Nat := bits b.toNat 8 7

def execSadd (d a b : SReg) (s : State) : Res := guard (.sadd d a b) s fun s => scalar2 s d a b (· + ·)
def execSsub (d a b : SReg) (s : State) : Res := guard (.ssub d a b) s fun s => scalar2 s d a b (· - ·)
def execSmul (d a b : SReg) (s : State) : Res := guard (.smul d a b) s fun s => scalar2 s d a b (· * ·)
def execSmulhI64 (d a b : SReg) (s : State) : Res := guard (.smulhI64 d a b) s fun s => scalar2 s d a b (mulHighS 64)
def execSmulhN64 (d a b : SReg) (s : State) : Res := guard (.smulhN64 d a b) s fun s => scalar2 s d a b (mulHighU 64)
/-- Division sets DZ or DOV beside its result (R167). -/
def execSdivI64 (d a b : SReg) (s : State) : Res :=
  guard (.sdivI64 d a b) s fun s => (scalar2 s d a b divS).divFlags true (s.srcS a) (s.srcS b)
def execSdivN64 (d a b : SReg) (s : State) : Res :=
  guard (.sdivN64 d a b) s fun s => (scalar2 s d a b divU).divFlags false (s.srcS a) (s.srcS b)
def execSremI64 (d a b : SReg) (s : State) : Res :=
  guard (.sremI64 d a b) s fun s => (scalar2 s d a b remS).divFlags true (s.srcS a) (s.srcS b)
def execSremN64 (d a b : SReg) (s : State) : Res :=
  guard (.sremN64 d a b) s fun s => (scalar2 s d a b remU).divFlags false (s.srcS a) (s.srcS b)
def execSand (d a b : SReg) (s : State) : Res := guard (.sand d a b) s fun s => scalar2 s d a b (· &&& ·)
def execSor (d a b : SReg) (s : State) : Res := guard (.sor d a b) s fun s => scalar2 s d a b (· ||| ·)
def execSxor (d a b : SReg) (s : State) : Res := guard (.sxor d a b) s fun s => scalar2 s d a b (· ^^^ ·)
def execSnot (d a : SReg) (s : State) : Res := guard (.snot d a) s fun s => scalar1 s d a (~~~ ·)
def execSshl (d a b : SReg) (s : State) : Res := guard (.sshl d a b) s fun s => scalar2 s d a b shl
def execSshr (d a b : SReg) (s : State) : Res := guard (.sshr d a b) s fun s => scalar2 s d a b shr
def execSsra (d a b : SReg) (s : State) : Res := guard (.ssra d a b) s fun s => scalar2 s d a b sra
def execSmin (d a b : SReg) (s : State) : Res := guard (.smin d a b) s fun s => scalar2 s d a b minS
def execSmax (d a b : SReg) (s : State) : Res := guard (.smax d a b) s fun s => scalar2 s d a b maxS
def execSminn (d a b : SReg) (s : State) : Res := guard (.sminn d a b) s fun s => scalar2 s d a b minU
def execSmaxn (d a b : SReg) (s : State) : Res := guard (.smaxn d a b) s fun s => scalar2 s d a b maxU
/-- The old s[sd] chooses (R166). -/
def execSsel (d a b : SReg) (s : State) : Res :=
  guard (.ssel d a b) s fun s => scalar2 s d a b fun x y => if s.srcS d = 0 then y else x
def execSmov (d a : SReg) (s : State) : Res := guard (.smov d a) s fun s => scalar1 s d a id
def execSclz (d a : SReg) (s : State) : Res :=
  guard (.sclz d a) s fun s => scalar1 s d a fun x => BitVec.ofNat 64 (leadingZeros x)
def execSpopc (d a : SReg) (s : State) : Res :=
  guard (.spopc d a) s fun s => scalar1 s d a fun x => BitVec.ofNat 64 (popCount x)
def execSbfxI64 (d a b : SReg) (s : State) : Res :=
  guard (.sbfxI64 d a b) s fun s => scalar2 s d a b fun x y => bfxS 64 x (posOf64 y) (widthOf64 y)
def execSbfxN64 (d a b : SReg) (s : State) : Res :=
  guard (.sbfxN64 d a b) s fun s => scalar2 s d a b fun x y => bfxU 64 x (posOf64 y) (widthOf64 y)
/-- s[sd] is also a source (R168). -/
def execSbfi (d a b : SReg) (s : State) : Res :=
  guard (.sbfi d a b) s fun s => scalar2 s d a b fun x y => bfi 64 (s.srcS d) x (posOf64 y) (widthOf64 y)
def execScmp (c : Cond) (d a b : SReg) (s : State) : Res :=
  guard (.scmp c d a b) s fun s => scalar2 s d a b fun x y => if condHolds c x y then 1 else 0
def execSli (d : SReg) (i : BitVec 13) (s : State) : Res := guard (.sli d i) s fun s => s.writeS d (i.signExtend 64)
def execSlit (d : SReg) (lit : W32) (s : State) : Res := guard (.slit d lit) s fun s => s.writeS d (lit.signExtend 64)
def execSlitN32 (d : SReg) (lit : W32) (s : State) : Res :=
  guard (.slitN32 d lit) s fun s => s.writeS d (lit.setWidth 64)

end Sys2Proof.Machine
end

