-- ==== Sys2Proof/Machine/Affine.lean ====
section
/-! DEFINITION. Affine instructions (spec/07 R171, R172) and predicate operations (R173, R174). -/

namespace Sys2Proof.Machine

def execAset (d : AReg) (b : SReg) (i : BitVec 7) (s : State) : Res :=
  guard (.aset d b i) s fun s => s.writeA d ⟨s.srcS b, i.signExtend 32⟩
def execAadd (d a : AReg) (b : SReg) (i : BitVec 7) (s : State) : Res :=
  guard (.aadd d a b i) s fun s =>
    s.writeA d ⟨(s.srcA a).base + s.srcS b + i.signExtend 64, (s.srcA a).stride⟩
/-- Only the low 32 bits of the scalar make the stride (R171). -/
def execAstr (d a : AReg) (b : SReg) (s : State) : Res :=
  guard (.astr d a b) s fun s => s.writeA d ⟨(s.srcA a).base, (s.srcS b).setWidth 32⟩
def execAmul (d a : AReg) (b : SReg) (i : BitVec 7) (s : State) : Res :=
  guard (.amul d a b i) s fun s =>
    let k := s.srcS b + i.signExtend 64
    s.writeA d ⟨(s.srcA a).base * k, ((s.srcA a).stride.signExtend 64 * k).setWidth 32⟩
def execAidx (d a : AReg) (i : BitVec 7) (s : State) : Res :=
  guard (.aidx d a i) s fun s =>
    s.writeA d ⟨(s.srcA a).base + i.signExtend 64 * (s.srcA a).stride.signExtend 64, (s.srcA a).stride⟩
/-- The low 32 bits of the affine value of each active lane (R158, R172). -/
def execAget (a : AReg) (v : VReg64) (s : State) : Res :=
  guard (.aget a v) s fun s => s.writeV (v.castLE (by decide)) fun i => ((s.srcA a).lane i).setWidth 32

/-- `p[pd][i] := f p[pa][i] p[pb][i]` in the active lanes (R174). -/
def pred2 (s : State) (d a b : PReg) (f : Bool → Bool → Bool) : State :=
  s.writeP d fun i => f (bit (s.srcP a) i) (bit (s.srcP b) i)

def execPand (d a b : PReg) (s : State) : Res := guard (.pand d a b) s fun s => pred2 s d a b (· && ·)
def execPor (d a b : PReg) (s : State) : Res := guard (.por d a b) s fun s => pred2 s d a b (· || ·)
def execPxor (d a b : PReg) (s : State) : Res := guard (.pxor d a b) s fun s => pred2 s d a b (· != ·)
def execPnot (d a : PReg) (s : State) : Res := guard (.pnot d a) s fun s => s.writeP d fun i => !bit (s.srcP a) i
def execPmov (d a : PReg) (s : State) : Res := guard (.pmov d a) s fun s => s.writeP d fun i => bit (s.srcP a) i
/-- The number of active lanes whose bit is set (R174). -/
def execPcnt (a : PReg) (d : SReg) (s : State) : Res :=
  guard (.pcnt a d) s fun s =>
    s.writeS d (BitVec.ofNat 64 (s.lanes.filter fun i => bit (s.srcP a) i).length)

end Sys2Proof.Machine
end

