-- ==== Sys2Proof/Machine/Operands.lean ====
section
/-! DEFINITION. Memory operand forms (spec/10 R211 to R214): lane addresses, the spaces with their checks, the register
alias space `k:` (spec/07 R154 to R156) and window addresses (spec/16 R306, R307). -/

namespace Sys2Proof.Machine

/-- The address of a lane (R211). -/
def State.laneAddr (s : State) (a : AReg) (v : Option VReg) (i : Nat) : W64 :=
  (s.srcA a).lane i + (match v with
    | none => 0
    | some r => (s.srcV r i).signExtend 64)

/-- The spaces a memory instruction names, `k:` and `sb:` apart (R212). -/
inductive MSpace where
  | g | w | buf (sp : BufSpace) | cf
  deriving DecidableEq, Repr

/-- A place within a window (R306, R307): the checks in their order, then the member's scratch. -/
def State.resolveWindow (s : State) (team addr size : Nat) : TRes :=
  match (s.team team).window, (s.team team).member with
  | some w, some me =>
    let m := bits addr 24 8
    let off := bits addr 0 24
    if 2 ^ 32 ≤ addr ∨ w.entries.length ≤ m then .error (.windowRange, 0)
    else if (w.entries.getD me {}).state = 2 then .error (.windowDetached, 0)
    else
      let e := w.entries.getD m {}
      if e.state = 3 then .error (.windowDeparted, 0)
      else if e.state = 2 then .error (.windowDetached, 0)
      else if w.size < off + size then .error (.windowRange, 0)
      else if e.part = s.part then .ok (.buf (e.core * 16 + e.tslot) .l off)
      else .ok (.remote e.part e.core e.tslot off)
  | _, _ => .error (.windowRange, 0)

/-- One lane's address checked and translated (R213): ALIGN first, then the space's own checks. -/
def State.resolve (s : State) (team : Nat) (sp : MSpace) (addr size acc : Nat) : State × TRes :=
  if addr % size ≠ 0 then (s, .error (.align, 0))
  else match sp with
    | .g => if 2 ^ 57 ≤ addr then (s, .error (.align, 0)) else s.translate team addr acc
    | .w =>
      match s.resolveWindow team addr size with
      -- a rival stores to no other part (R391)
      | .ok l => (s, if l.isRemote ∧ acc ≠ 0 ∧ s.isTwin (s.team team).ctx then .error (.twinIsolated, 0) else .ok l)
      | .error e => (s, .error e)
    | .buf b =>
      if (s.team team).extent b < addr + size then (s, .error (.protect, 6)) else (s, .ok (.buf team b addr))
    | .cf => if 512 < addr + size then (s, .error (.protect, 6)) else (s, .ok (.cf (s.team team).grid addr))

/-- A lane that failed its check: lane, code, detail, address. -/
structure BadLane where
  lane : Nat
  code : FCode
  detail : Nat
  addr : Nat
  deriving DecidableEq, Repr

/-- The lanes' places, and the lanes that fail (R213, R214). `data` gives a lane's operands. -/
def State.resolveLanes (s : State) (sp : MSpace) (size acc : Nat) (lanes : List Nat) (addr : Nat → Nat)
    (data data2 : Nat → Nat) : State × List LaneAcc × List BadLane :=
  lanes.foldl (fun (s, good, bad) i =>
    match s.resolve s.teamKey sp (addr i) size acc with
    | (s, .ok l) => (s, good ++ [⟨i, l, addr i, size, data i, data2 i, sp == .w, 0⟩], bad)
    | (s, .error (c, d)) => (s, good, bad ++ [⟨i, c, d, addr i⟩])) (s, [], [])

/-- The failing lanes of a word set it aside for themselves: one record with the lowest lane's code and address and the
mask of all of them (R214, log 16). -/
def State.laneFault (s : State) (acc : Nat) (bad : List BadLane) : State :=
  match bad with
  | [] => s
  | b :: _ =>
    let lanes := maskOf (bad.map (·.lane))
    s.faultWith { code := b.code, detail := b.detail, acc := acc, addr := b.addr, lanes := lanes }
      (some ⟨s.iss.pc, s.iss.word, lanes⟩) false

/-! ### The register window as memory (R152, R154, R155) -/

/-- A byte of a little-endian register. -/
def byteOf (x k : Nat) : Nat := x / 256 ^ k % 256
/-- `x` with byte `k` replaced. -/
def putByte (x k v : Nat) : Nat := setBits x (8 * k) 8 v

/-- The byte at an offset of a gang's window (R152, R155). -/
def Regs.kRead (r : Regs) (vregs nslices off : Nat) : Nat :=
  if off < 128 * vregs then byteOf (Tab.get 0 (Tab.get [] r.v (off / 128)) (off % 128 / 4)).toNat (off % 4)
  else
    let c := off - 128 * vregs
    if c < 0x200 then (if c < 8 then 0 else byteOf (Tab.get 0 r.s (c / 8)).toNat (c % 8))
    else if c < 0x300 then
      let a := Tab.get {} r.a ((c - 0x200) / 16)
      let k := c % 16
      if k < 8 then byteOf a.base.toNat k else if k < 12 then byteOf a.stride.toNat (k - 8) else 0
    else if c < 0x320 then
      let n := (c - 0x300) / 4
      byteOf (if n = 0 then 2 ^ (4 * nslices) - 1 else (Tab.get 0 r.p n).toNat) (c % 4)
    else if c < 0x360 then byteOf (Tab.get 0 r.spill ((c - 0x320) / 8)).toNat (c % 8)
    else if c = 0x360 then r.sxf.toNat
    else 0

/-- The window with a byte written; the `s0` and `p0` slots and reserved bytes discard it (R155). -/
def Regs.kWrite (r : Regs) (vregs nslices off v : Nat) : Regs :=
  if off < 128 * vregs then
    let n := off / 128
    let i := off % 128 / 4
    let row := Tab.get [] r.v n
    { r with v := Tab.set r.v n (Tab.set row i (BitVec.ofNat 32 (putByte (Tab.get 0 row i).toNat (off % 4) v))) }
  else
    let c := off - 128 * vregs
    if c < 0x200 then
      if c < 8 then r
      else { r with s := Tab.set r.s (c / 8) (BitVec.ofNat 64 (putByte (Tab.get 0 r.s (c / 8)).toNat (c % 8) v)) }
    else if c < 0x300 then
      let n := (c - 0x200) / 16
      let a := Tab.get {} r.a n
      let k := c % 16
      if k < 8 then { r with a := Tab.set r.a n { a with base := BitVec.ofNat 64 (putByte a.base.toNat k v) } }
      else if k < 12 then
        { r with a := Tab.set r.a n { a with stride := BitVec.ofNat 32 (putByte a.stride.toNat (k - 8) v) } }
      else r
    else if c < 0x320 then
      let n := (c - 0x300) / 4
      if n = 0 then r
      else
        let m := putByte (Tab.get 0 r.p n).toNat (c % 4) v % 2 ^ (4 * nslices)
        { r with p := Tab.set r.p n (BitVec.ofNat 64 m) }
    else if c < 0x360 then
      let n := (c - 0x320) / 8
      { r with spill := Tab.set r.spill n (BitVec.ofNat 64 (putByte (Tab.get 0 r.spill n).toNat (c % 8) v)) }
    else if c = 0x360 then { r with sxf := BitVec.ofNat 2 v }
    else r

/-- `n` bytes of a window, little-endian. -/
def Regs.kReadN (r : Regs) (vregs nslices off : Nat) : Nat → Nat
  | 0 => 0
  | n + 1 => r.kReadN vregs nslices off n + r.kRead vregs nslices (off + n) * 256 ^ n
def Regs.kWriteN (r : Regs) (vregs nslices off v : Nat) : Nat → Regs
  | 0 => r
  | n + 1 => (r.kWriteN vregs nslices off v n).kWrite vregs nslices (off + n) (byteOf v n)

/-- The checks of a lane's `k:` address (R154). -/
def State.kCheck (s : State) (addr size : Nat) : Option (FCode × Nat) :=
  if addr % size ≠ 0 then some (.align, 0)
  else if 2 ^ 21 ≤ addr ∨ bits addr 17 4 ≠ gidGang s.iss.gid ∨ 128 * s.cur.vregs + 1024 < bits addr 0 17 + size then
    some (.protect, 4)
  else none

/-- The lanes of a `k:` access that pass, with their offsets, and those that fail. -/
def State.kLanes (s : State) (size : Nat) (addr : Nat → Nat) : List (Nat × Nat) × List BadLane :=
  s.lanes.foldl (fun (good, bad) i =>
    match s.kCheck (addr i) size with
    | none => (good ++ [(i, bits (addr i) 0 17)], bad)
    | some (c, d) => (good, bad ++ [⟨i, c, d, addr i⟩])) ([], [])

end Sys2Proof.Machine
end

