-- ==== Sys2Proof/Machine/Fabric.lean ====
section
/-! DEFINITION. Sending on Flisy (spec/16 R314 to R319): flows, logical planes, ports, cell sequence numbers, and the
packed entries of thread accesses to another part. -/

namespace Sys2Proof.Machine

def State.ldev (s : State) (k : Nat) : LogDev := s.lds.get {} k
def State.setLdev (s : State) (k : Nat) (d : LogDev) : State := { s with lds := s.lds.set k d }
def State.modLdev (s : State) (k : Nat) (f : LogDev → LogDev) : State := s.setLdev k (f (s.ldev k))
def State.port (s : State) (k : Nat) : Port := s.ports.get {} k
def State.setPort (s : State) (k : Nat) (p : Port) : State := { s with ports := s.ports.set k p }
def State.modPort (s : State) (k : Nat) (f : Port → Port) : State := s.setPort k (f (s.port k))

/-- Whether feature `i` is on for a context's logical device (R419). -/
def State.feature (s : State) (c i : Nat) : Bool := bit (s.ldev (s.ctx c).ld).featOn i

/-- The part a logical id names in a context's loaded place table, if its entry is usable (R52, R53). -/
def State.placeOf (s : State) (c id : Nat) : Option Nat :=
  let e := (s.ctx c).places.get 0 id
  if id < 512 ∧ bit e 31 ∧ bits e 9 22 = 0 then some (bits e 0 9) else none

/-- The context number of a part's partner context; this part's own address has a byte of the table as every other (R413). -/
def State.partnerTag (s : State) (c part : Nat) : Nat := ((s.ctx c).partners.read part).toNat % 64
/-- Whether context `c` accepts cells from a part (R315, R413). -/
def State.accepts (s : State) (c part : Nat) : Bool := bit ((s.ctx c).partners.read part).toNat 7

/-- The four classes of flow (R318, R413). -/
inductive FlowClass where
  | access | copy | coll | snap
  deriving DecidableEq, Repr

def FlowClass.num : FlowClass → Nat
  | .access => 0 | .copy => 1 | .coll => 2 | .snap => 3

/-- The flow of a class (R318); the four classes name no placement cell, and it takes flow 0 (log 74). -/
def State.flowOf (s : State) (c : Nat) (k : FlowClass) : Nat := bits (s.ctx c).flows (8 * k.num) 8

/-- The logical plane of an address (R318). -/
def planeOf (a : Nat) : Nat := (a / 128 ^^^ a / 4096) % 32

/-- The port that carries a logical plane: its own, or the next one up (R318). -/
def State.portOf (s : State) (plane : Nat) : Nat :=
  match (List.range 32).find? fun k => (s.port ((plane + k) % 32)).up with
  | some k => (plane + k) % 32
  | none => plane

/-- A cell enters its port's queue with the next SEQ of its destination, a part or a group, and plane (R314, R318); a cell to this
part itself is looped back (log 20). -/
def State.sendCell (s : State) (c : Cell) : State :=
  let key := c.dst * 32 + c.plane + if c.type = 0x0c then 16384 else 0
  let n := s.seqTx.get 0 key
  let c := { c with src := s.part, seq := n }
  let s := { s with seqTx := s.seqTx.set key ((n + 1) % 2 ^ 14) }
  if c.dst = s.part ∧ c.type ≠ 0x0c then { s with loop := s.loop ++ [c] }
  else s.modPort (s.portOf c.plane) fun p => { p with queue := p.queue ++ [c] }

/-- The SEQ the next cell to a part on a plane takes. -/
def State.nextSeq (s : State) (dst plane : Nat) : Nat := s.seqTx.get 0 (dst * 32 + plane)

/-! ### The wire (R313, R314, R319) -/

/-- CRC-16 with polynomial 0x1021 and initial value 0xffff, over `n` bytes, low byte first and each from its top bit (log 73). -/
def crcByte (crc b : Nat) : Nat :=
  (List.range 8).foldl (fun c k => if bit c 15 != bit b (7 - k) then (c * 2 % 65536) ^^^ 0x1021 else c * 2 % 65536) crc
def crc16 (n x : Nat) : Nat := (List.range n).foldl (fun c k => crcByte c (byteOf x k)) 0xffff

/-- The 16 bytes of a request entry (R319). The entry has no place for sizes below a word: bits [63:45], zero in a window entry,
carry 1 + 2·offset in the word + 8·(two bytes) for them (log 19). -/
def packRequest (e : ReqEntry) : Nat :=
  let part := if e.win ∧ e.size < 4 then 1 + e.low % 4 * 2 + (e.size - 1) % 2 * 8 else 0
  e.eop % 16 + e.wide.toNat * 2 ^ 4 + e.win.toNat * 2 ^ 5 + e.aop % 16 * 2 ^ 6 +
    ((if e.win then e.addr % 2 ^ 35 else e.addr % 2 ^ 54) + part * 2 ^ 35) * 2 ^ 10 + e.data % 2 ^ 64 * 2 ^ 64

/-- The request entry that 16 bytes spell (R319, log 19). -/
def unpackRequest (x : Nat) : ReqEntry :=
  let win := bit x 5
  let part := win && bit x 45
  { data := bits x 64 64, addr := if win then bits x 10 35 else bits x 10 54, aop := bits x 6 4, win := win, wide := bit x 4,
    eop := bits x 0 4, size := if part then (if bit x 48 then 2 else 1) else if bit x 4 then 8 else 4,
    low := if part then bits x 46 2 else 0 }

/-- The 16 bytes of a reply entry, and the entry that 16 bytes spell (R319). -/
def packReply (e : RepEntry) : Nat :=
  e.eop % 16 + e.idx % 8 * 2 ^ 4 + e.status % 256 * 2 ^ 8 + e.rseq % 2 ^ 14 * 2 ^ 16 + e.data % 2 ^ 64 * 2 ^ 64
def unpackReply (x : Nat) : RepEntry :=
  { data := bits x 64 64, rseq := bits x 16 14, status := bits x 8 8, idx := bits x 4 3, eop := bits x 0 4 }

/-- The eight body beats of a line or SMALL cell; those of types 0x08 to 0x21 are Drapol's own (R315, log 73). -/
def bodyBeats : CellBody → Option (List Nat)
  | .line bytes _ => some ((List.range 8).map fun n =>
      ((List.range 16).map fun k => (Tab.find bytes (16 * n + k)).getD 0 * 256 ^ k).sum)
  | .requests es => some ((es.map packRequest ++ List.replicate 8 0).take 8)
  | .replies es => some ((es.map packReply ++ List.replicate 8 0).take 8)
  | _ => none

/-- Bits [111:0] of a cell's header, and the header with its HCRC (R314). -/
def cellFields (c : Cell) : Nat :=
  c.dst % 2 ^ 9 + c.src % 2 ^ 9 * 2 ^ 9 + c.flow % 2 ^ 8 * 2 ^ 18 + c.type % 2 ^ 6 * 2 ^ 26 + c.seq % 2 ^ 14 * 2 ^ 32 +
    c.arg % 2 ^ 8 * 2 ^ 46 + c.laddr % 2 ^ 50 * 2 ^ 54 + c.sp % 4 * 2 ^ 104 + c.ctag % 2 ^ 6 * 2 ^ 106
def cellHead (c : Cell) : Nat := cellFields c + crc16 14 (cellFields c) * 2 ^ 112

/-- The header that a HEAD beat spells, for a cell on a plane with a body (R314). -/
def headCell (h plane : Nat) (body : CellBody) : Cell :=
  { type := bits h 26 6, dst := bits h 0 9, src := bits h 9 9, flow := bits h 18 8, seq := bits h 32 14, arg := bits h 46 8,
    sp := bits h 104 2, laddr := bits h 54 50, ctag := bits h 106 6, plane := plane, body := body }

/-- The beats a port sends for a cell: HEAD, seven BODY, TAIL (R313). -/
def cellWire (c : Cell) : Wire :=
  let data := (bodyBeats c.body).getD (List.replicate 8 0)
  { codes := [1, 2, 2, 2, 2, 2, 2, 2, 3], head := cellHead c, data := data, crcs := data.map (crc16 16) }

/-- Whether beats are framed as a cell, and whether their CRCs hold (R313, R314). -/
def wireFramed (w : Wire) : Bool := w.codes == [1, 2, 2, 2, 2, 2, 2, 2, 3] && w.data.length == 8 && w.crcs.length == 8
def wireHeadOk (w : Wire) : Bool := bits w.head 112 16 == crc16 14 (bits w.head 0 112)
def wireBodyOk (w : Wire) : Bool := w.crcs == w.data.map (crc16 16)

/-- Whether beats carry a cell: its header, and its body where the spec lays it out. -/
def wireCarries (w : Wire) (c : Cell) : Bool :=
  headCell w.head c.plane c.body == c && (match bodyBeats c.body with
    | some l => w.data == l
    | none => true)

/-- The packed request of a lane's access (R319): EOP 1 load, 2 store, 3 atomic. A `cas` of 32 bits holds both operands. -/
def LaneAcc.request (a : LaneAcc) (eop aop : Nat) : ReqEntry :=
  let data := if eop = 3 ∧ aop = 9 ∧ a.size ≠ 8 then a.data % 2 ^ 32 + a.data2 % 2 ^ 32 * 2 ^ 32 else a.data
  match a.loc with
  | .remote _ core tslot off =>
    { data := data, addr := bits off 2 22 + tslot % 16 * 2 ^ 22 + core % 512 * 2 ^ 26, aop := aop, win := true,
      wide := a.size == 8, eop := eop, size := a.size, low := off % 4 }
  | .peer _ va =>
    { data := data, addr := bits va 2 54, aop := aop, wide := a.size == 8, eop := eop, size := a.size, low := va % 4 }
  | _ => {}

/-- The entries of a lane's access: one, and for a `cas` of 64 bits, which one entry cannot hold, the padding entry after it
with the new value in DATA (log 75). -/
def LaneAcc.entries (a : LaneAcc) (eop aop : Nat) : List ReqEntry :=
  if eop = 3 ∧ aop = 9 ∧ a.size = 8 then [a.request eop aop, { data := a.data2 }] else [a.request eop aop]

/-- The part and the plane of a remote place (R318). -/
def Loc.target : Loc → Option (Nat × Nat)
  | .remote p _ _ off => some (p, planeOf off)
  | .peer p va => some (p, planeOf va)
  | _ => none

/-- The padding entry that ends a cell whose lanes of one address go on in the next (R229, R319, log 20). -/
def moreMark : ReqEntry := { addr := 1 }

/-- Entries sent in one SMALL cell, with what each reply is for; LADDR holds bits [56:7] of the first one's address (R314). -/
def State.sendEntries (s : State) (gid part plane laddr : Nat) (win : Bool) (es : List (ReqEntry × Option RemoteFor)) : State :=
  let c := (s.team (gidTeam gid)).ctx
  let seq := s.nextSeq part plane
  let waits := (es.zip (List.range es.length)).filterMap fun ((_, w), i) =>
    w.map fun w => ({ part := part, plane := plane, seq := seq, idx := i, what := w } : Remote)
  let s : State := { s with remotes := s.remotes ++ waits }
  s.sendCell { type := 0x04, dst := part, src := s.part, flow := s.flowOf c (if win then .copy else .access), arg := es.length, sp := 0,
               laddr := laddr, ctag := s.partnerTag c part, plane := plane, body := .requests (es.map (·.1)) }

/-- Lanes of one remote address, in cells of at most `n` lanes that follow each other on its plane (R229, R319, R323). -/
def State.sendLanes (s : State) (gid eop aop : Nat) (what : Nat → RemoteFor) (n : Nat) : Nat → List LaneAcc → State
  | 0, _ => s
  | k + 1, ls =>
    match ls with
    | [] => s
    | a :: _ =>
      match a.loc.target with
      | none => s
      | some (part, plane) =>
        let now := if n < ls.length then ls.take (n - 1) else ls
        let mark := if n < ls.length then [(moreMark, none)] else []
        let win := match a.loc with
          | .remote _ _ _ _ => true
          | _ => false
        let laddr := match a.loc with
          | .peer _ va => bits va 7 50
          | _ => 0
        let es := now.flatMap fun b =>
          (b.entries eop aop).zipIdx.map fun (e, i) => (e, if i = 0 then some (what b.lane) else none)
        (s.sendEntries gid part plane laddr win (es ++ mark)).sendLanes gid eop aop what n k (ls.drop now.length)

/-- A lane's entry sent in a SMALL cell of its own, and its reply awaited (R319, R323, log 20). -/
def State.sendLane (s : State) (gid : Nat) (a : LaneAcc) (eop aop : Nat) (what : RemoteFor) : State :=
  s.sendLanes gid eop aop (fun _ => what) 1 1 [a]

/-- Whether a lane's entry is on its way. -/
def State.isSent (s : State) (w : RemoteFor) : Bool := s.remotes.any fun r => r.what == w

/-- The flow of a system cell: copies and windows for those of windows, snapshots for those of cuts and snapshots (R318, log
74). -/
def State.controlFlow (s : State) (c type : Nat) : Nat :=
  if type = 0x0a ∨ type = 0x0b then s.flowOf c .copy else if type = 0x20 ∨ type = 0x21 then s.flowOf c .snap else 0

/-- A system cell of a window, reel or cut, on plane DST mod 32 (R315, R318). -/
def State.sendControl (s : State) (c type arg dst : Nat) (body : CellBody) : State :=
  s.sendCell { type := type, dst := dst, src := s.part, flow := s.controlFlow c type, arg := arg % 256, sp := 2, ctag := s.partnerTag c dst,
               plane := dst % 32, body := body }

/-- A collective or stream cell, on its context's flow and plane DST mod 32 (R315, R318). -/
def State.sendColl (s : State) (c type arg dst : Nat) (body : CellBody) : State :=
  s.sendCell { type := type, dst := dst, src := s.part, flow := s.flowOf c .coll, arg := arg % 256, sp := 2,
               ctag := s.partnerTag c dst, plane := dst % 32, body := body }

/-! ### Receiving (R315, R320) -/

/-- The space each type of cell uses; none for an unassigned type (R315). -/
def spOk (type sp : Nat) : Bool :=
  if 0x01 ≤ type ∧ type ≤ 0x03 then sp == 0 || sp == 1
  else if type = 0x04 then sp == 0
  else if (0x08 ≤ type ∧ type ≤ 0x0c) ∨ (0x10 ≤ type ∧ type ≤ 0x18) ∨ type = 0x20 ∨ type = 0x21 then sp == 2
  else false

/-- RESERVE and REFUSE-FINAL are read even where the CTAG check fails and counts them: the one asks for the binding, the other says
that there is none (R92, log 22). -/
def asksBinding (type : Nat) : Bool := type == 0x10 || type == 0x17

/-- Whether a cell is discarded and counted (R315). -/
def State.badCell (s : State) (c : Cell) : Bool :=
  !spOk c.type c.sp || !((s.ctx c.ctag).state != .unbound && s.accepts c.ctag c.src)

/-- What the SEQ of a cell is counted by: its source and plane, and for a multicast cell its group (R314). -/
def seqKey (c : Cell) : Nat := c.src * 32 + c.plane + if c.type = 0x0c then (c.dst + 1) * 16384 else 0

/-- Whether a cell answers something this part has sent. -/
def isAnswer (c : Cell) : Bool := match c.body with
  | .replies _ => true
  | .pairsAck _ _ _ _ => true
  | .collAck _ _ _ _ => true
  | .wstateAck _ _ _ => true
  | .line _ _ => c.type == 0x03
  | _ => false

/-- Whether a cell only reads here, or brings a copy source bytes: the original's memory serves it, which runs on (R380, R381). -/
def readsOnly (c : Cell) : Bool := match c.body with
  | .requests es => es.all fun e => e.eop != 2 && e.eop != 3
  | .line _ _ => c.type == 0x03
  | _ => false

/-- Whether a cell answers an operation that belongs before the cut: a reply, which is for the original only once its sender's marker
has come and leaves the other side an unknown outcome (R380, R382), or the end of REMOTE pairs (R304). -/
def endsEarlier (c : Cell) : Bool :=
  match c.body with
  | .pairsAck _ _ _ _ => true
  | .replies _ => true
  | _ => false

/-- Whether a cell is for the original only, while the state of its context is still to be taken for another side: its source has sent
its marker on the plane, or is no member part, whose cells follow R382; a pre-emption has but one side (R380). -/
def State.lateCell (s : State) (c : Cell) : Bool :=
  match (s.ctx c.ctag).cut with
  | some k => k.kind != .preempt && !k.captured &&
      (k.markers.contains (c.src * 32 + c.plane) || (c.src != s.part && !k.parts.contains c.src))
  | none => false

/-- Whether a cell waits until then: its sender's marker has come, and it neither answers what belongs before the cut nor only reads
(log 34). -/
def State.cutWaits (s : State) (c : Cell) : Bool :=
  match (s.ctx c.ctag).cut with
  | some k => k.kind != .preempt && !k.captured && k.markers.contains (c.src * 32 + c.plane) && !endsEarlier c && !readsOnly c
  | none => false

/-- The window a cell is for. -/
def windowKey : CellBody → Option Nat
  | .coll key _ _ _ _ _ => some key
  | .collAck key _ _ _ => some key
  | .pairs key _ _ _ _ _ _ _ _ => some key
  | .contribution key _ _ _ _ _ _ _ => some key
  | .wbar key _ _ => some key
  | .wstate key _ _ => some key
  | .wstateAck key _ _ => some key
  | _ => none

/-- Whether a cell is for members of a reel that are placed here and not started: START is still on its way (R91, log 81). -/
def State.startWaits (s : State) (c : Cell) : Bool :=
  match windowKey c.body with
  | some key => s.teams.any fun (_, t) => t.valid && !t.started && (s.grid t.grid).reel == some key
  | none => false
def State.cellWaits (s : State) (c : Cell) : Bool := s.cutWaits c || s.startWaits c

/-- Whether a cell waits: it was sent after its sender's cut while this part has still to take its own state, and belongs to the
original only (R380, log 34); it comes before the members that it is for have started; or an earlier one of its source and plane
waits, which an answer passes. -/
def State.afterMarker (s : State) (c : Cell) : Bool :=
  (s.deferred.any (fun d => d.src == c.src && d.plane == c.plane) && !isAnswer c) || s.cellWaits c

/-- Whether a cell that waits may be taken now: none of its source and plane waits before it, but for an answer (R320). -/
def State.mayResume (s : State) (c : Cell) : Bool :=
  s.deferred.contains c && !s.cellWaits c &&
  (isAnswer c || (s.deferred.find? fun d => d.src == c.src && d.plane == c.plane) == some c)

/-- A reply to a request, on its plane, with its class's flow (R318, R319). -/
def State.reply (s : State) (c : Cell) (k : FlowClass) (es : List RepEntry) : State :=
  s.sendCell { type := 0x04, dst := c.src, src := s.part, flow := s.flowOf c.ctag k, arg := es.length, sp := 0
               laddr := c.laddr, ctag := s.partnerTag c.ctag c.src, plane := c.plane, body := .replies es }

/-- The class of a cell's flow: window entries and lines are of copies and windows (R318). -/
def cellClass (c : Cell) : FlowClass := match c.body with
  | .requests es => if c.type == 0x02 || es.any (·.win) then .copy else .access
  | .line _ _ => .copy
  | _ => .access

/-- A request cell whose CTAG has no partner binding is answered PLACE, entry by entry (R324, log 94). -/
def State.refuseCell (s : State) (c : Cell) : State :=
  let no (i : Nat) (write : Bool) : RepEntry := ⟨0, c.seq, FCode.place.num, i, if write then 5 else 4⟩
  match c.body with
  | .requests es =>
    let l := (es.zipIdx.filter fun x => x.1.eop != 0).map fun (e, i) => no i (e.eop == 2)
    if l.isEmpty then s else s.reply c (cellClass c) l
  | .line _ _ => if c.type = 0x01 then s.reply c .copy [no 0 true] else s
  | _ => s

/-- A poisoned cell is discarded, acknowledged and counted (R321). -/
def Port.poisoned (p : Port) (lseq : Nat) : Port :=
  { p with poison := min 255 (p.poison + 1), expect := if lseq = p.expect then (p.expect + 1) % 256 else p.expect }

/-- A cell that R315 discards is counted at its port; a request is told so (R324), and a placement cell about bindings is read all the
same (log 22). -/
def State.dropBad (s : State) (port : Nat) (c : Cell) : State × Bool :=
  let s := s.modPort port fun p => { p with badcell := min 255 (p.badcell + 1) }
  if !spOk c.type c.sp then (s, false)
  else if asksBinding c.type then (s, true)
  else (s.refuseCell c, false)

/-- A cell of the part's own loop (log 20). -/
def State.acceptLoop (s : State) (c : Cell) : State × Bool :=
  match s.loop with
  | [] => (s, false)
  | d :: rest =>
    if d ≠ c then (s, false)
    else
      let t : State := { s with loop := rest }
      if t.badCell c then t.dropBad (t.portOf c.plane) c
      else if t.afterMarker c then ({ t with deferred := t.deferred ++ [c] }, false) else (t, true)

/-- A cell that has passed its port's link: the SEQ order of its source and plane; a SEQ accepted already is discarded, and a cell
ahead of its turn waits for it, so that cells are accepted in order and a resend is never delivered twice. Then BADCELL, which takes
its SEQ too (R314, R315, R320). -/
def State.acceptSeq (s : State) (port : Nat) (c : Cell) : State × Bool :=
  let key := seqKey c
  let next := s.seqRx.get 0 key
  if c.seq ≠ next then
    (if (c.seq + 2 ^ 14 - next) % 2 ^ 14 < 2 ^ 13 ∧ !(s.ahead.any fun x => seqKey x.2 == key && x.2.seq == c.seq) then
        { s with ahead := s.ahead ++ [(port, c)] }
      else s, false)
  else
    let s : State := { s with seqRx := s.seqRx.set key ((c.seq + 1) % 2 ^ 14) }
    if s.badCell c then s.dropBad port c
    else if s.afterMarker c then ({ s with deferred := s.deferred ++ [c] }, false) else (s, true)

/-- A cell that came ahead of its turn is accepted when that has come (R320). -/
def State.acceptAhead (s : State) (c : Cell) : State × Bool :=
  match s.ahead.find? fun x => x.2 == c with
  | some (port, _) =>
    if c.seq = s.seqRx.get 0 (seqKey c) then State.acceptSeq { s with ahead := s.ahead.filter fun x => x.2 != c } port c else (s, false)
  | none => (s, false)

/-- What a port makes of the beats it receives, and whether the cell passes the link: beats that are no cell, or whose CRCs fail, and
cells out of LSEQ order are discarded and NAKed (R313, R315, R320). Beats that carry another cell than the one named are no such
event. -/
def Port.receive (p : Port) (r : Rx) : Port × Bool :=
  if !p.up then (p, false)
  else if r.wire.codes = [1, 2, 2, 2, 2, 2, 2, 2, 4] then (p.poisoned r.lseq, false)
  else if !wireFramed r.wire then ({ p with naking := true }, false)
  else if !wireHeadOk r.wire then ({ p with hdrerr := min 65535 (p.hdrerr + 1), naking := true }, false)
  else if !wireBodyOk r.wire then ({ p with bodyerr := min 65535 (p.bodyerr + 1), naking := true }, false)
  else if !wireCarries r.wire r.cell then (p, false)
  else if r.lseq ≠ p.expect then ({ p with naking := true }, false)
  else ({ p with expect := (p.expect + 1) % 256, naking := false }, true)

/-- A cell taken from a port, from the part's own loop, or from those that wait: for a cut or a start, or for their turn. -/
def State.accept (s : State) (r : Rx) : State × Bool :=
  if r.port = 32 then s.acceptLoop r.cell
  else if r.port = 33 then
    (if s.mayResume r.cell then ({ s with deferred := s.deferred.erase r.cell }, true) else (s, false))
  else if r.port = 34 then s.acceptAhead r.cell
  else
    let q := (s.port r.port).receive r
    if q.2 then (s.setPort r.port q.1).acceptSeq r.port r.cell else (s.setPort r.port q.1, false)

end Sys2Proof.Machine
end

