-- ==== Sys2Proof/Machine/Memory.lean ====
section
/-! DEFINITION. The memory pipeline (spec/10 R218 to R223, R229, R231): outstanding operations in program order, the store
queue, the core's write path, the L1, and the points of coherence. -/

namespace Sys2Proof.Machine

/-- Scopes at and above `.set` reach beyond the core (R222, R223). -/
def wide (sc : Scope) : Bool := decide (3 ≤ sc.code)

/-! ### Issue -/

/-- A new outstanding operation, counted on `ld` (R220). -/
def Gang.addOp (g : Gang) (kind : OpKind) (lanes : List LaneAcc) (pc word : Nat) (slices : List Nat) (route : Nat)
    (sup count : Bool) (cycle actx : Nat) : Gang :=
  { g with ops := g.ops ++ [⟨g.seq, kind, lanes, pc, word, slices, route, sup, cycle, actx⟩], seq := g.seq + 1,
           ld := if count then g.ld + 1 else g.ld }
/-- A new store-queue entry, counted on `st` once, or once for each of its sub-issues (R219, R220, R323). -/
def Gang.addStore (g : Gang) (gid : Nat) (kind : SqKind) (lanes : List LaneAcc) (pc word : Nat) (slices : List Nat)
    (sup count : Bool) (cycle actx : Nat) (subs : List (List Nat)) : Gang :=
  { g with sq := g.sq ++ [⟨g.seq, kind, lanes, gid, pc, word, slices, sup, cycle, actx, subs⟩], seq := g.seq + 1,
           st := if count then g.st + max 1 subs.length else g.st }

def State.addOp (s : State) (kind : OpKind) (lanes : List LaneAcc) (count : Bool) : State :=
  let c := s.accessCtx s.teamKey
  let route := (s.ldev (s.ctx c).ld).aroute
  s.modCur fun g => g.addOp kind lanes s.iss.pc s.iss.word s.iss.slices route s.iss.sup count s.cycle.toNat c
def State.addStores (s : State) (kind : SqKind) (lanes : List LaneAcc) (count : Bool) (subs : List (List Nat)) : State :=
  s.modCur fun g => g.addStore s.iss.gid kind lanes s.iss.pc s.iss.word s.iss.slices s.iss.sup count s.cycle.toNat
    (s.accessCtx s.teamKey) subs
def State.addStore (s : State) (kind : SqKind) (lanes : List LaneAcc) (count : Bool) : State := s.addStores kind lanes count []

/-- A look-ahead of context `c` on a core that met an absent or forbidden page: counted and dropped (R357). -/
def State.specMiss (s : State) (core c : Nat) : State :=
  (s.modCtx c fun x => { x with fqSpec := min (x.fqSpec + 1) (2 ^ 32 - 1) }).modCore core fun k =>
    { k with specmiss := min (k.specmiss + 1) (2 ^ 64 - 1) }

/-- Pages of the host half that a look-ahead of context `c` on a core needs are asked for: it waits as an access of kind 3, and an
answer that refuses counts a miss (R348, R357). -/
def State.lookingAhead (s : State) (core c : Nat) (need : List (Nat × Nat)) : State :=
  { (s.asking ⟨2 ^ 32 + core, 3, c⟩).askHost need with hostWho := s.hostWho }

/-! ### A core's store (R36) -/

/-- Whether a gang's vector window still takes its place in the store: until the gang has ended and its loads have returned;
no engine operation writes registers but a service call, in which its gang lives (R138). -/
def Gang.holdsWindow (g : Gang) : Bool := g.resident && !g.swapped && (!g.ended || !g.ops.isEmpty)

/-- Bytes of a core's store in use (R36): windows of gangs that hold one, and scratch that is not swapped out. -/
def State.storeUsed (s : State) (core : Nat) : Nat :=
  (s.gangs.map fun (k, g) => if gidCore k = core ∧ g.holdsWindow then 128 * g.vregs + 1024 else 0).sum +
  (s.teams.map fun (k, t) => if k / 16 = core ∧ t.valid ∧ !t.scratchOut then t.scratchSize else 0).sum

/-- Lines that a core's L1 partition holds: the remainder of the 512 KB store (R36, R218). -/
def State.l1Room (s : State) (core : Nat) : Nat := (524288 - s.storeUsed core) / 128

/-! ### The L1 (R218) -/

/-- The key of the 16-byte sector that holds a place of `g:`; other places are never in an L1. -/
def sectorKey : Loc → Option Nat
  | .dev pa => some (2 * (pa / 16))
  | .host ld ha => some (2 * (ha / 16 * 16 + ld) + 1)
  | _ => none

/-- The byte of a place within its sector. -/
def sectorByte : Loc → Nat
  | .dev pa => pa % 16
  | .host _ ha => ha % 16
  | _ => 0

/-- The place of a sector's first byte. -/
def Loc.sectorBase : Loc → Loc
  | .dev pa => .dev (pa / 16 * 16)
  | .host ld ha => .host ld (ha / 16 * 16)
  | l => l

/-- The place a sector key names. -/
def keyPlace (k : Nat) : Loc := if k % 2 = 0 then .dev (k / 2 * 16) else .host (k / 2 % 16) (k / 2 / 16 * 16)

/-- The first byte of the 128-byte line a place lies in. -/
def Loc.line : Loc → Loc
  | .dev pa => .dev (pa / 128 * 128)
  | .host ld ha => .host ld (ha / 128 * 128)
  | .buf t sp off => .buf t sp (off / 128 * 128)
  | .cf g off => .cf g (off / 128 * 128)
  | .remote p c t off => .remote p c t (off / 128 * 128)
  | .peer p va => .peer p (va / 128 * 128)

/-- Keys of the eight sectors of the 128-byte line that holds a place. -/
def lineKeys : Loc → List Nat
  | .dev pa => (List.range 8).map fun k => 2 * (pa / 128 * 8 + k)
  | .host ld ha => (List.range 8).map fun k => 2 * ((ha / 128 * 8 + k) * 16 + ld) + 1
  | _ => []

/-- A line's sectors dropped from a core's L1 (R224, R228). -/
def State.dropLine (s : State) (core : Nat) (l : Loc) : State :=
  s.modCore core fun c => { c with l1 := (lineKeys l).foldl (fun t k => t.erase k) c.l1 }
/-- The whole L1 of a core invalidated (R222). -/
def State.invalidateL1 (s : State) (core : Nat) : State := s.modCore core fun c => { c with l1 := [] }

/-- The partition a core's L1 has left, its lines beyond that dropped, the lowest-numbered first but for `keep`'s (log 76). -/
def trimL1 (room : Nat) (keep : Option Loc) (l1 : Tab Nat) : Tab Nat :=
  let ls := l1.foldl (fun ls (k, _) => let l := (keyPlace k).line; if ls.contains l then ls else ls ++ [l]) []
  let out := (ls.filter fun l => keep != some l).take (ls.length - room)
  l1.filter fun (k, _) => !out.contains (keyPlace k).line

/-- A store updates the sectors the L1 holds and allocates none (R218). -/
def l1Store (l1 : Tab Nat) (a : LaneAcc) : Tab Nat :=
  (List.range a.size).foldl (fun t n =>
    let l := a.loc.plus n
    match (sectorKey l).bind fun k => (Tab.find t k).map fun w => (k, w) with
    | some (k, w) => t.set k (setBits w (8 * sectorByte l) 8 (byteOf a.data n))
    | none => t) l1

/-! ### Which bytes a load is served (R219) -/

/-- The byte a store part holds for a place, if it holds one. -/
def LaneAcc.byteFor (a : LaneAcc) (l : Loc) : Option Nat :=
  match (List.range a.size).find? fun k => a.loc.plus k == l with
  | some k => some (byteOf a.data k)
  | none => none

/-- The newest byte for a place among entries, oldest first; in one entry the highest lane (R216, R219). -/
def newestByte (es : List SqEntry) (l : Loc) : Option Nat :=
  es.foldl (fun acc e => e.lanes.foldl (fun acc a =>
    match a.byteFor l with
    | some b => some b
    | none => acc) acc) none

/-- The row bytes of a tensor box, and the tensor coordinates of one of its rows (R240). -/
def boxRow (ebits : Nat) (extents : List Nat) : Nat := extents.headD 1 * 2 ^ ebits / 8
def boxDigits : List Nat → Nat → List Nat
  | [], _ => []
  | e :: es, r => r % max 1 e :: boxDigits es (r / max 1 e)

/-- Where stream byte `p` of a side stands: a byte address of its space, or none outside a tensor (R240). -/
def CopySide.byteAt (side : CopySide) (p : Nat) : Option Nat :=
  match side with
  | .flat _ a => some (a + p)
  | .tensor base eb sizes strides cs extents =>
    let w := boxRow eb extents
    let xs := boxDigits extents.tail (p / max 1 w)
    let d0 : Int := cs.headD 0 * (2 ^ eb : Nat) / 8 + (p % max 1 w : Nat)
    let ds := List.zipWith (fun (c : Int) (x : Nat) => c + x) cs.tail xs
    let inside := decide (0 ≤ d0) && decide (d0 < (sizes.headD 1 * 2 ^ eb / 8 : Nat)) &&
      (List.zipWith (fun (d : Int) (n : Nat) => decide (0 ≤ d) && decide (d < (n : Int))) ds sizes.tail).all id
    if inside then
      some (base + d0.toNat + 16 * (List.zipWith (fun (d : Int) (n : Nat) => d.toNat * n) ds strides).sum)
    else none
  | .storage _ _ _ => some p
  | .metadata => some p

/-- The space a side lies in. -/
def CopySide.space : CopySide → CopySpace
  | .flat sp _ => sp
  | _ => .g

/-- The stream bytes of the piece that starts at `p`, with their destination addresses (R243); `fuel` bounds the bytes. -/
def pieceFrom (dst : CopySide) (region : Option Nat) (p : Nat) : Nat → List (Nat × Nat)
  | 0 => []
  | n + 1 =>
    match dst.byteAt p with
    | none => pieceFrom dst region (p + 1) n
    | some a =>
      match region with
      | none => (p, a) :: pieceFrom dst (some (a / 4096)) (p + 1) n
      | some g => if a / 4096 = g then (p, a) :: pieceFrom dst region (p + 1) n else []

def CopyRec.piece (r : CopyRec) : List (Nat × Nat) := pieceFrom r.dst none r.pos (r.len - r.pos)
/-- The stream offset after the piece's last byte. -/
def CopyRec.pieceEnd (r : CopyRec) : Nat := (r.piece.getLast?.map fun x => x.1 + 1).getD r.len

/-- Whether a running copy still owns the 128-byte line at `addr` of a space: some byte of it is not written (R224,
R243, log 17). -/
def CopyRec.owns (r : CopyRec) (sp : CopySpace) (addr : Nat) : Bool :=
  r.state == .running && r.dst != .metadata && r.dst.space == sp &&
  match r.dst with
  | .flat _ a =>
    decide (r.pos < r.len) && decide ((a + r.pos) / 128 ≤ addr / 128) && decide (addr / 128 ≤ (a + r.len - 1) / 128) &&
      !(decide (addr / 4096 = (a + r.pos) / 4096) && (List.range 8).all fun k =>
          let sec := addr / 128 * 8 + k
          decide (sec * 16 + 16 ≤ a + r.pos) || decide (a + r.len ≤ sec * 16) || r.sectors.contains (sec % 256))
  | side =>
    let stop := r.pieceEnd
    (List.range (r.len - r.pos)).any fun i =>
      match side.byteAt (r.pos + i) with
      | some a => a / 128 == addr / 128 && (decide (stop ≤ r.pos + i) || !r.sectors.contains (a / 16 % 256))
      | none => false

/-- Whether an `rssave` owns the line at an address of `g:` (R299). -/
def StreamOp.owns (o : StreamOp) (addr : Nat) : Bool :=
  match o.kind with
  | .save _ va => decide (va / 128 ≤ addr / 128) && decide (addr / 128 ≤ (va + o.bytes - 1) / 128)
  | _ => false

/-- Where an address of `g:` lies as a core's context sees it now, if it is mapped; nothing is marked or counted. -/
def State.peek (s : State) (core c va : Nat) : Option Loc :=
  if bit va 56 then
    match s.cached core c va with
    | some e => some (.dev (e.pbase + (va - e.vbase)))
    | none => match s.viewWalk c va 8 with
      | .ok e => some (.dev (e.pbase + (va - e.vbase)))
      | .error _ => none
  else match (s.ctx c).view.shadows.find (va / 4096) with
    | some pa => some (.dev (pa + va % 4096))
    | none => (s.hostMaps.find? fun m => m.ld == (s.ctx c).ld && decide (m.vbase ≤ va) && decide (va < m.vbase + m.size)).map
        fun m => .host m.ld (m.hbase + (va - m.vbase))

/-- The offset of a place of `g:` in its 4 KB page; other places have none. -/
def Loc.inPage : Loc → Option Nat
  | .dev pa => some (pa % 4096)
  | .host _ ha => some (ha % 4096)
  | _ => none

/-- The 4 KB pages that a copy's destination touches. -/
def CopyRec.pages (r : CopyRec) : List Nat :=
  match r.dst with
  | .flat _ a => (List.range (r.len / 4096 + 2)).map fun i => a / 4096 + i
  | side => ((List.range r.len).filterMap fun p => (side.byteAt p).map (· / 4096)).foldl (fun l p => if l.contains p then l else l ++ [p]) []

/-- Whether one of the virtual pages listed shows the line of `l` at an address that `owns` (R224: lines are physical). -/
def State.ownedIn (s : State) (core c : Nat) (pages : List Nat) (owns : Nat → Bool) (l : Loc) : Bool :=
  match l.inPage with
  | none => false
  | some off => pages.any fun p =>
      owns (p * 4096 + off) && (s.peek core c (p * 4096 + off)).map Loc.line == some l.line

/-- Whether a running copy of a core owns the line of a place (R224, R243). -/
def State.copyOwns (s : State) (core : Nat) (r : CopyRec) (l : Loc) : Bool :=
  let team := gidTeam r.gid
  r.state == .running && r.dst != .metadata &&
  match r.dst.space, l with
  | .g, l => s.ownedIn core (s.accessCtx team) r.pages (r.owns .g) l
  | .l, .buf t .l off => t == team && r.owns .l off
  | .wb, .buf t .wb off => t == team && r.owns .wb off
  | .ab, .buf t .ab off => t == team && r.owns .ab off
  | .w, .buf t .l off =>
    match (s.team team).window with
    | some w => (w.entries.zipIdx).any fun (e, i) => e.part == s.part && e.core * 16 + e.tslot == t && r.owns .w (i * 2 ^ 24 + off)
    | none => false
  | .w, .remote p c t off =>
    match (s.team team).window with
    | some w => (w.entries.zipIdx).any fun (e, i) => e.part == p && e.core == c && e.tslot == t && r.owns .w (i * 2 ^ 24 + off)
    | none => false
  | _, _ => false

/-- Whether an `rssave` of a team owns the line of a place (R224, R299). -/
def State.saveOwns (s : State) (team : Nat) (o : StreamOp) (l : Loc) : Bool :=
  match o.kind with
  | .save _ va =>
    s.ownedIn (team / 16) (s.accessCtx team) ((List.range (o.bytes / 4096 + 2)).map fun i => va / 4096 + i) o.owns l
  | _ => false

/-- Whether one of two contexts is a twin and they see memory through different views: an engine owns its lines in its own view only
(R381). -/
def State.viewsApart (s : State) (c d : Nat) : Bool := c != d && (s.isTwin c || s.isTwin d)

/-- Whether an access of context `c` that came at `before` must wait for the line of its place: an engine that came earlier owns it in
the same view (R224, R381), or an AtomicOp has not completed on it (R340). -/
def State.recalled (s : State) (c : Nat) (l : Loc) (before : Nat) : Bool :=
  s.atomicHeld l ||
  (s.teams.any fun (k, t) => t.streams.any fun o =>
    decide (o.order < before) && !s.viewsApart c (s.accessCtx k) && s.saveOwns k o l) ||
  s.cores.any fun (ck, q) => q.copies.any fun (_, r) =>
    decide (r.order < before) && !s.viewsApart c (s.accessCtx (gidTeam r.gid)) && s.copyOwns ck r l

/-- An engine takes its lines: its core's L1 drops those that hold a byte of its destination (R224). -/
def State.takeLines (s : State) (core : Nat) (owns : Loc → Bool) : State :=
  s.modCore core fun c => { c with l1 := c.l1.filter fun (k, _) => !owns (keyPlace k) }
def State.takeCopyLines (s : State) (core : Nat) (r : CopyRec) : State := s.takeLines core (s.copyOwns core r)

/-- A core's write path without the lanes that a posted write has performed already (R335). -/
def State.path (s : State) (core : Nat) : List SqEntry :=
  (s.core core).wp.map fun e => { e with lanes := e.lanes.filter fun a => !s.posted.any fun p => p.what == .store e.gid e.seq a.lane }

/-- The bytes a lane reads at the point of coherence, under whatever store sources stand before it. -/
def State.serveBytes (s : State) (own wp : List SqEntry) (a : LaneAcc) (base : Nat) : Nat → Nat
  | 0 => 0
  | n + 1 =>
    let l := a.loc.plus n
    let b := match newestByte own l with
      | some b => b
      | none => match newestByte wp l with
        | some b => b
        | none => byteOf base n
    s.serveBytes own wp a base n + b * 256 ^ n

/-- The byte of a place in a core's L1, when it holds the sector (R218). -/
def State.l1Byte (s : State) (core : Nat) (l : Loc) : Option Nat :=
  ((sectorKey l).bind (Tab.find (s.core core).l1)).map fun w => byteOf w (sectorByte l)

/-- Whether the stores that come before the home serve every byte of a lane (R219). -/
def covered (own wp : List SqEntry) (a : LaneAcc) : Bool :=
  (List.range a.size).all fun n => (newestByte own (a.loc.plus n)).isSome || (newestByte wp (a.loc.plus n)).isSome

/-- A sector that misses, filled with what the write path and the home hold (R218, R219, R221). -/
def State.fillSector (s : State) (core : Nat) (l : Loc) : State :=
  match sectorKey l with
  | none => s
  | some k =>
    if ((s.core core).l1.find k).isSome then s
    else
      let b := l.sectorBase
      let w := s.serveBytes [] (s.path core) ⟨0, b, 0, 16, 0, 0, false, 0⟩ (s.readLoc b 16) 16
      s.modCore core fun c => { c with l1 := trimL1 (s.l1Room core) (some l.line) (c.l1.set k w) }

/-- The sectors a lane touches, filled, and its bytes as the L1 then holds them; a place that no L1 holds is read at its home. -/
def State.l1Read (s : State) (core : Nat) (a : LaneAcc) : State × Nat :=
  match sectorKey a.loc with
  | none => (s, s.readLoc a.loc a.size)
  | some _ =>
    let t := (List.range ((sectorByte a.loc + a.size + 15) / 16)).foldl (fun s i => s.fillSector core (a.loc.sectorBase.plus (16 * i))) s
    (t, ((List.range a.size).map fun n => (t.l1Byte core (a.loc.plus n)).getD (t.readLoc (a.loc.plus n) 1) * 256 ^ n).sum)

/-! ### Lines of host memory in a die's L2 (R217, R332) -/

/-- The HBM stack of a physical address, and the die whose L2 is its home (R217). -/
def stackOf (pa : Nat) : Nat := (pa / 2 ^ 13 % 8) ^^^ (pa / 2 ^ 23 % 8)
def homeDie (pa : Nat) : Nat := stackOf pa / 2
/-- The die of a core (R84). -/
def dieOf (core : Nat) : Nat := if core < 384 then core / 96 else core - 384

/-- A line of host memory enters the L2 of a core's die under CXL.cache; for a write the die alone keeps it (R217, R332). -/
def State.holdLine (s : State) (core : Nat) (l : Loc) (own : Bool) : State :=
  match l with
  | .host ld ha =>
    if (s.ldev ld).cache then
      let x := (dieOf core, ld, ha / 128)
      { s with hostLines := (s.hostLines.filter fun y => y != x && !(own && y.2 == x.2)) ++ [x] }
    else s
  | _ => s
/-- Every die gives a line up (R332, R340). -/
def State.dropHostLine (s : State) (ld ha : Nat) : State := { s with hostLines := s.hostLines.filter fun y => y.2 != (ld, ha / 128) }

/-! ### Order among a gang's operations -/

/-- Whether an operation holds back later loads and atomics of its gang: an acquire at `.set` or wider, or a fence that
has not completed (R222, R231). -/
def Op.blocks (o : Op) : Bool :=
  match o.kind with
  | .load _ _ sc => wide sc
  | .atomic _ _ sc => wide sc
  | .fence _ _ => true
  | .tlread _ _ _ => true
  | .qpost => false

/-- Whether an operation holds back later engine reads of its gang: an acquire or a fence that acquires, at `.set` or wider
(R222, R231). -/
def Op.blocksEngine (o : Op) : Bool :=
  match o.kind with
  | .load _ _ sc => wide sc
  | .atomic _ _ sc => wide sc
  | .fence order sc => wide sc && order != 2
  | .tlread _ _ _ => true
  | .qpost => false

/-- Whether an engine operation that a gang issued at `gseq` must not read yet (R222, R231). -/
def State.engineHeld (s : State) (gid gseq : Nat) : Bool :=
  (s.gang gid).ops.any fun p => decide (p.seq < gseq) && p.blocksEngine

/-- Whether a load-class operation of the gang is outstanding before `seq`. -/
def Gang.loadsBefore (g : Gang) (seq : Nat) : Bool :=
  g.ops.any fun o => decide (o.seq < seq) && (match o.kind with
    | .fence _ _ => false
    | _ => true)

/-- Whether a store of the gang that has left its queue is unacknowledged before `seq`: in the write path, or a raise that waits
at its timeline's home (R220, R336). -/
def State.sentBefore (s : State) (gid seq : Nat) : Bool :=
  ((s.core (gidCore gid)).wp.any fun e => e.gid == gid && decide (e.seq < seq)) ||
  s.raises.any fun r => match r.who with
    | .gang g n => g == gid && decide (n < seq)
    | _ => false
/-- Whether a store of the gang is unacknowledged before `seq` (R220). -/
def State.storesBefore (s : State) (gid seq : Nat) : Bool :=
  (s.gang gid).sq.any (fun e => decide (e.seq < seq)) || s.sentBefore gid seq

/-- Whether two operations name a byte in common. -/
def Op.meets (o p : Op) : Bool := o.lanes.any fun a => p.lanes.any fun b => a.loc.overlaps a.size b.loc b.size

/-- Whether an operation may be performed now: no earlier blocking operation of the gang is outstanding (R222), and none to
the same bytes (R221). -/
def Gang.mayPerform (g : Gang) (o : Op) : Bool := !g.ops.any fun p => decide (p.seq < o.seq) && (p.blocks || p.meets o)

/-- Whether a fence's condition holds (R231): `.acq` and `.ar` wait for earlier loads at wide scope; `.ar` waits for the
store queue to drain, and at wide scope for acknowledgements. -/
def State.fenceDone (s : State) (gid : Nat) (o : Op) : Bool :=
  match o.kind with
  | .fence order sc =>
    let g := s.gang gid
    !(g.ops.any fun p => decide (p.seq < o.seq) && (match p.kind with
        | .fence _ _ => true
        | _ => false)) &&
    (if order = 2 then true
     else if wide sc then
       !g.loadsBefore o.seq && (order == 1 || !s.storesBefore gid o.seq)
     else order == 1 || !g.sq.any fun e => decide (e.seq < o.seq))
  | _ => false

/-- The first completed fence of a gang leaves, invalidating the L1 when it is a wide acquire (R222, R231). -/
def State.settleOnce (s : State) (gid : Nat) : State :=
  match (s.gang gid).ops.find? (s.fenceDone gid) with
  | none => s
  | some o =>
    let s := s.modGang gid fun g => { g with ops := g.ops.filter fun p => p.seq != o.seq }
    match o.kind with
    | .fence order sc => if wide sc ∧ order ≠ 2 then s.invalidateL1 (gidCore gid) else s
    | _ => s

/-- Every fence that can complete does, as many as the gang has operations. -/
def State.settleN (s : State) (gid : Nat) : Nat → State
  | 0 => s
  | n + 1 => (s.settleOnce gid).settleN gid n
def State.settle (s : State) (gid : Nat) : State := s.settleN gid (s.gang gid).ops.length

/-- An operation's lane has returned: `ld` falls when the last one has, and a wide acquire then invalidates the L1
(R220, R222). -/
def State.finishLanes (s : State) (gid : Nat) (o : Op) (lanes : List Nat) : State :=
  let rest := o.lanes.filter fun a => !lanes.contains a.lane
  if rest.isEmpty then
    let s := s.modGang gid fun g => { g with ops := g.ops.filter fun p => p.seq != o.seq, ld := g.ld - 1 }
    let s := match o.kind with
      | .load _ _ sc => if wide sc then s.invalidateL1 (gidCore gid) else s
      | .atomic _ _ sc => if wide sc then s.invalidateL1 (gidCore gid) else s
      | .tlread _ _ _ => s.invalidateL1 (gidCore gid)
      | _ => s
    s.settle gid
  else
    s.modGang gid fun g => { g with ops := g.ops.map fun p => if p.seq = o.seq then { p with lanes := rest } else p }

/-! ### The store queue and write path (R219, R223) -/

/-- Whether an atomic that stands before everything in its gang's store queue has left its position there: at `.set` or wider it
waits for earlier loads and acknowledgements (R229). -/
def State.atomicLeft (s : State) (gid : Nat) (o : Op) (scope : Scope) : Bool :=
  !wide scope || !((s.gang gid).loadsBefore o.seq || s.sentBefore gid o.seq)

/-- Whether the head of a gang's store queue may leave it (R219, R223, R229): a wide release, a marker and what acts as
one wait for earlier loads and acknowledgements; nothing passes an atomic that has not left its place in the queue, nor an earlier
load or atomic of the same bytes (log 18); a store to another part waits for an engine that owns its line (R224). -/
def State.mayDrain (s : State) (gid : Nat) (e : SqEntry) : Bool :=
  let g := s.gang gid
  let release := match e.kind with
    | .store sc => wide sc
    | .marker => true
    | .qtail _ _ _ => true
    | .tlsig _ _ => true
    | .qpost _ => false
  let ready := match e.kind with
    | .qpost r => r
    | _ => true
  ready &&
  !(release && (g.loadsBefore e.seq || s.sentBefore gid e.seq)) &&
  !(e.lanes.any fun a => a.loc.isRemote && s.recalled e.actx a.loc (s.copyOrder + 1)) &&
  !(g.ops.any fun o => decide (o.seq < e.seq) && (match o.kind with
      | .atomic _ _ scope => !s.atomicLeft gid o scope || o.lanes.any fun a => e.lanes.any fun b => a.loc.overlaps a.size b.loc b.size
      | .load _ _ _ => o.lanes.any fun a => e.lanes.any fun b => a.loc.overlaps a.size b.loc b.size
      | _ => false))

/-- A store part enters the write path: the L1's sectors take it (R218, R219), and lanes for another part are sent
(R319, R323). -/
def State.enterWp (s : State) (gid : Nat) (e : SqEntry) : State :=
  let s := s.modCore (gidCore gid) fun c => { c with wp := c.wp ++ [e], l1 := e.lanes.foldl l1Store c.l1 }
  e.lanes.foldl (fun s a => s.sendLane gid a 2 0 (.store gid e.seq a.lane)) s

/-- Whether a write-path lane may be performed: no earlier store part of the core to the same bytes is outstanding, no
lower lane of its own entry (R216, R219), and no engine owns its line (R224). -/
def State.mayAck (s : State) (core : Nat) (e : SqEntry) (a : LaneAcc) : Bool :=
  let before := (s.core core).wp.takeWhile fun w => !(w.gid == e.gid && w.seq == e.seq)
  !(before.any fun w => w.lanes.any fun b => a.loc.overlaps a.size b.loc b.size) &&
  !(e.lanes.any fun b => decide (b.lane < a.lane) && a.loc.overlaps a.size b.loc b.size) &&
  !(s.recalled e.actx a.loc (s.copyOrder + 1))

/-- Whether a lane's acknowledgement is the last of its store, or of its sub-issue (R220, R323). -/
def SqEntry.lastOf (e : SqEntry) (lane : Nat) : Bool :=
  let mates := match e.subs.find? fun l => l.contains lane with
    | some l => e.lanes.filter fun (b : LaneAcc) => l.contains b.lane
    | none => e.lanes
  mates.all fun b => b.lane == lane

/-- A store lane is acknowledged; `st` falls with the last, of each sub-issue where the store has several (R220, R323). -/
def State.ackLane (s : State) (core : Nat) (e : SqEntry) (lane : Nat) : State :=
  let rest := e.lanes.filter fun b => b.lane != lane
  let s := if e.lastOf lane then s.modGang e.gid fun g => { g with st := g.st - 1 } else s
  if rest.isEmpty then
    (s.modCore core fun c => { c with wp := c.wp.filter fun w => !(w.gid == e.gid && w.seq == e.seq) }).settle e.gid
  else
    s.modCore core fun c =>
      { c with wp := c.wp.map fun w => if w.gid = e.gid ∧ w.seq = e.seq then { w with lanes := rest } else w }

end Sys2Proof.Machine
end

