-- ==== Sys2Proof/Machine/MemOps.lean ====
section
/-! DEFINITION. Memory instructions (spec/10 R226 to R231, spec/16 R322 to R325) and the events that finish them
(spec/10 R219 to R224, R229; spec/18 R332 to R342; spec/19 R347). -/

namespace Sys2Proof.Machine

/-! ### Sizes and atomic operations -/

def loadBytes : LoadSize → Nat
  | .n8 | .i8 => 1
  | .n16 | .i16 => 2
  | .n32 => 4
  | .n64 => 8
def loadSigned : LoadSize → Bool
  | .i8 | .i16 => true
  | _ => false
def storeBytes : StoreSize → Nat
  | .n8 => 1
  | .n16 => 2
  | .n32 => 4
  | .n64 => 8

/-- The word a load of 1, 2 or 4 bytes writes (R226). -/
def extendLoad (signed : Bool) (size x : Nat) : W32 :=
  if signed ∧ bit x (8 * size - 1) then BitVec.ofInt 32 ((x : Int) - (2 ^ (8 * size) : Nat)) else BitVec.ofNat 32 x

/-- The new value of an atomic of `n` bits (R228). -/
def atomNew (op : AtomOp) (n old b b2 : Nat) : Nat :=
  let x := BitVec.ofNat n old
  let y := BitVec.ofNat n b
  match op with
  | .add => (old + b) % 2 ^ n
  | .min => (minS x y).toNat
  | .max => (maxS x y).toNat
  | .minn => (minU x y).toNat
  | .maxn => (maxU x y).toNat
  | .and => (x &&& y).toNat
  | .or => (x ||| y).toNat
  | .xor => (x ^^^ y).toNat
  | .xchg => b % 2 ^ n
  | .cas => if old = b % 2 ^ n then b2 % 2 ^ n else old
  | .inc => if b % 2 ^ n ≤ old then 0 else (old + 1) % 2 ^ n

/-- The value of a register or of a register pair for a lane. -/
def State.srcN (s : State) (d size i : Nat) : Nat :=
  let lo := (s.iss.readV d i).toNat
  if size = 8 then lo + (s.iss.readV (d + 1) i).toNat * 2 ^ 32 else lo % 2 ^ (8 * size)

/-- A loaded or old value written to a lane of `vd`, or of the pair (R226, R228). -/
def Gang.writeLoaded (g : Gang) (d : Nat) (signed : Bool) (size i x : Nat) : Gang :=
  if size = 8 then (g.writeV d [i] fun _ => BitVec.ofNat 32 x).writeV (d + 1) [i] fun _ => BitVec.ofNat 32 (x / 2 ^ 32)
  else g.writeV d [i] fun _ => extendLoad signed size x

/-! ### Issue -/

/-- An operation's lanes for other parts leave as soon as the order rules allow (R222, R229). -/
def State.mayAtomic (s : State) (gid : Nat) (o : Op) (scope : Scope) : Bool :=
  let g := s.gang gid
  g.mayPerform o && !(g.sq.any fun e => decide (e.seq < o.seq)) &&
  -- a store part of the core to the same bytes comes before it at its home (R219, R221)
  !((s.path (gidCore gid)).any fun e => e.lanes.any fun b => o.lanes.any fun a => a.loc.overlaps a.size b.loc b.size) &&
  (!wide scope || (!s.storesBefore gid o.seq && !g.loadsBefore o.seq))

/-- Whether the order rules let an operation be performed now. -/
def State.mayDo (s : State) (gid : Nat) (o : Op) : Bool :=
  match o.kind with
  | .load _ _ _ => (s.gang gid).mayPerform o
  | .atomic _ _ scope => s.mayAtomic gid o scope
  | .tlread _ _ _ => (s.gang gid).mayPerform o
  | .qpost => (s.gang gid).mayPerform o
  | .fence _ _ => false

/-- Lanes of an operation at one place, rising. -/
def Op.together (o : Op) (a : LaneAcc) : List LaneAcc := o.lanes.filter fun b => b.loc == a.loc

/-- Whether a store of the gang or of its core that a load must be served from is still on its way (R219, R221). -/
def State.storeAhead (s : State) (gid : Nat) (o : Op) (a : LaneAcc) : Bool :=
  let hit (e : SqEntry) : Bool := e.lanes.any fun b => a.loc.overlaps a.size b.loc b.size
  ((s.gang gid).sq.any fun e => decide (e.seq < o.seq) && hit e) || (s.core (gidCore gid)).wp.any hit

/-- The remote lanes of an operation that may be performed are sent (R323): each load's when no store comes before it, the
lanes of an atomic that name one address together (R229). -/
def State.sendOp (s : State) (gid seq : Nat) : State :=
  match (s.gang gid).ops.find? fun o => o.seq == seq with
  | none => s
  | some o =>
    if !s.mayDo gid o then s
    else o.lanes.foldl (fun s a =>
      let what := RemoteFor.load gid seq
      if !a.loc.isRemote ∨ s.isSent (what a.lane) ∨ s.recalled o.actx a.loc (s.copyOrder + 1) then s
      else match o.kind with
        | .atomic _ op _ => s.sendLanes gid 3 op.code what (if op = .cas ∧ a.size = 8 then 4 else 8) 64 (o.together a)
        | _ => if s.storeAhead gid o a then s else s.sendLane gid a 1 0 (what a.lane)) s

/-- A load-class operation issues for the lanes that passed; the failing lanes set the word aside (R214, R220). -/
def State.issueOp (s : State) (kind : OpKind) (good : List LaneAcc) : State :=
  if good.isEmpty then s
  else
    let seq := s.cur.seq
    (s.addOp kind good true).sendOp s.iss.gid seq

/-- `ld` from a space with places (R226). -/
def State.loadFrom (s : State) (sp : MSpace) (size : LoadSize) (d : VReg) (a : AReg) (v : Option VReg) (scope : Scope) :
    State :=
  let (s, good, bad) := s.resolveLanes sp (loadBytes size) 0 s.lanes (fun i => (s.laneAddr a v i).toNat) (fun _ => 0) fun _ => 0
  (s.issueOp (.load d.val (loadSigned size) scope) good).laneFault 0 bad

/-- `st` to a space with places (R227). -/
def State.storeTo (s : State) (sp : MSpace) (size : StoreSize) (d : VReg) (a : AReg) (v : Option VReg) (scope : Scope) :
    State :=
  let n := storeBytes size
  let (s, good, bad) := s.resolveLanes sp n 1 s.lanes (fun i => (s.laneAddr a v i).toNat) (s.srcN d.val n) fun _ => 0
  let s := if good.isEmpty then s else s.addStore (.store scope) good true
  s.laneFault 1 bad

/-- `atom` on a space with places (R228). -/
def State.atomOn (s : State) (sp : MSpace) (size : Nat) (op : AtomOp) (d : VReg) (a : AReg) (v : Option VReg) (scope : Scope) :
    State :=
  let new := if size = 8 then d.val + 2 else d.val + 1
  let (s, good, bad) := s.resolveLanes sp size 2 s.lanes (fun i => (s.laneAddr a v i).toNat) (s.srcN d.val size)
    fun i => if op = .cas then s.srcN new size i else 0
  (s.issueOp (.atomic d.val op scope) good).laneFault 2 bad

def execLdGlobal (z : LoadSize) (d : VReg) (a : AReg) (v : Option VReg) (c : Scope) (s : State) : Res :=
  guard (.ldGlobal z d a v c) s fun s => s.loadFrom .g z d a v c
def execStGlobal (z : StoreSize) (d : VReg) (a : AReg) (v : Option VReg) (c : Scope) (s : State) : Res :=
  guard (.stGlobal z d a v c) s fun s => s.storeTo .g z d a v c
def execLdWindow (z : LoadSize) (d : VReg) (a : AReg) (v : Option VReg) (c : Scope) (s : State) : Res :=
  guard (.ldWindow z d a v c) s fun s => s.loadFrom .w z d a v c
def execStWindow (z : StoreSize) (d : VReg) (a : AReg) (v : Option VReg) (c : Scope) (s : State) : Res :=
  guard (.stWindow z d a v c) s fun s => s.storeTo .w z d a v c

/-- A prefetch of a line for a team, in context `c`, and whether it is over: it fills the line, or an absent or forbidden page
counts a speculative miss; it never faults and sets no A or D (R230, R357). It waits for a host's answer (R348) and for a line
that an engine owns or an AtomicOp holds (R224, R340). -/
def State.tryPrefetch (s : State) (team c va : Nat) : State × Bool :=
  let core := team / 16
  let line := va / 128 * 128
  let w : Asker := ⟨team, 2, line⟩
  if 2 ^ 57 ≤ va then (s.specMiss core c, true)
  else
    let (t, r) := (s.asking w).translateIn core c line 0
    if t.hostNeed ≠ s.hostNeed then ({ (s.asking w).askHost (t.hostNeed.drop s.hostNeed.length) with hostWho := s.hostWho }, false)
    else match r with
      | .error _ => ((s.heard w).specMiss core c, true)
      | .ok l =>
        if s.recalled c l (s.copyOrder + 1) then (s, false)
        else ((List.range 8).foldl (fun s k => s.fillSector core (l.plus (16 * k))) (s.holdLine core l false), true)

/-- A prefetch of a lane, kept while it has to wait. -/
def State.prefetch (s : State) (va : Nat) : State :=
  let team := s.teamKey
  let c := s.accessCtx team
  let x := (team, c, va / 128 * 128)
  match s.tryPrefetch team c va with
  | (s, true) => s
  | (s, false) => s.modCore s.coreKey fun k =>
    if k.prefetches.contains x then k else { k with prefetches := k.prefetches ++ [x] }

/-- The prefetches of a core that wait are tried again. -/
def State.retryPrefetches (s : State) (core : Nat) : State :=
  (s.core core).prefetches.foldl (fun s x =>
    match s.tryPrefetch x.1 x.2.1 x.2.2 with
    | (s, true) => s.modCore core fun k => { k with prefetches := k.prefetches.erase x }
    | (s, false) => s) s

def execPf (a : AReg) (v : Option VReg) (s : State) : Res :=
  guard (.pf a v) s fun s => s.lanes.foldl (fun t i => t.prefetch (s.laneAddr a v i).toNat) s

/-- A load from the core-local spaces (R212); `k:` reads the register window at once (R154). -/
def execLdLocal (z : LoadSize) (d : VReg) (a : AReg) (v : Option VReg) (p : LocalSpace) (s : State) : Res :=
  guard (.ldLocal z d a v p) s fun s =>
    match p with
    | .l => s.loadFrom (.buf .l) z d a v .gang
    | .wb => s.loadFrom (.buf .wb) z d a v .gang
    | .ab => s.loadFrom (.buf .ab) z d a v .gang
    | .cb => s.loadFrom (.buf .cb) z d a v .gang
    | .cf => s.loadFrom .cf z d a v .gang
    | .sb => s
    | .k =>
      let n := loadBytes z
      let (good, bad) := s.kLanes n fun i => (s.laneAddr a v i).toNat
      let g := s.cur
      let s := s.modCur fun h => good.foldl (fun h (i, off) =>
        h.writeLoaded d.val (loadSigned z) n i (s.iss.src.kReadN g.vregs g.nslices off n)) h
      s.laneFault 0 bad

/-- A store to the core-local spaces (R212); `k:` writes the register window at once, in lane order (R155). -/
def execStLocal (z : StoreSize) (d : VReg) (a : AReg) (v : Option VReg) (p : LocalSpace) (s : State) : Res :=
  guard (.stLocal z d a v p) s fun s =>
    match p with
    | .l => s.storeTo (.buf .l) z d a v .gang
    | .ab => s.storeTo (.buf .ab) z d a v .gang
    | .cb => s.storeTo (.buf .cb) z d a v .gang
    | .wb | .cf | .sb => s
    | .k =>
      let n := storeBytes z
      let (good, bad) := s.kLanes n fun i => (s.laneAddr a v i).toNat
      let t := s.modCur fun h => good.foldl (fun h (i, off) =>
        { h with regs := h.regs.kWriteN h.vregs h.nslices off (s.srcN d.val n i) n }) h
      t.laneFault 1 bad

def execAtomGlobal32 (o : AtomOp) (d : VReg) (a : AReg) (v : Option VReg) (c : Scope) (s : State) : Res :=
  guard (.atomGlobal32 o d a v c) s fun s => s.atomOn .g 4 o d a v c
def execAtomGlobal64 (o : AtomOp) (d : VReg) (a : AReg) (v : Option VReg) (c : Scope) (s : State) : Res :=
  guard (.atomGlobal64 o d a v c) s fun s => s.atomOn .g 8 o d a v c

/-- The space and scope of a local atomic's place code (R117). -/
def placeSpace : AtomPlace → MSpace × Scope
  | .lRelaxed => (.buf .l, .gang)
  | .lTeam => (.buf .l, .team)
  | .lCore => (.buf .l, .core)
  | .wSet => (.w, .set)
  | .wReel => (.w, .reel)

def execAtomLocal32 (o : AtomOp) (d : VReg) (a : AReg) (v : Option VReg) (c : AtomPlace) (s : State) : Res :=
  guard (.atomLocal32 o d a v c) s fun s => s.atomOn (placeSpace c).1 4 o d a v (placeSpace c).2
def execAtomLocal64 (o : AtomOp) (d : VReg) (a : AReg) (v : Option VReg) (c : AtomPlace) (s : State) : Res :=
  guard (.atomLocal64 o d a v c) s fun s => s.atomOn (placeSpace c).1 8 o d a v (placeSpace c).2

/-! ### Remote access (R322 to R325) -/

/-- The check of a lane of a fabric access: PLACE, then ALIGN, then PROTECT detail 13 (R323). -/
def State.peerCheck (s : State) (peer addr size : Nat) : Except (FCode × Nat) Nat :=
  let c := (s.team s.teamKey).ctx
  match (if s.feature c 2 then s.placeOf c peer else none) with
  | none => .error (.place, 0)
  | some part =>
    if addr % size ≠ 0 ∨ 2 ^ 57 ≤ addr then .error (.align, 0)
    else if !bit addr 56 then .error (.protect, 13)
    else .ok part

/-- The lanes of a fabric access that pass, each with its peer, and those set aside (R323). -/
def State.peerLanes (s : State) (size : Nat) (a : AReg) (p : VReg) (data data2 : Nat → Nat) :
    List (Nat × LaneAcc) × List BadLane :=
  s.lanes.foldl (fun (good, bad) i =>
    let addr := (s.laneAddr a none i).toNat
    let peer := (s.srcV p i).toNat
    match s.peerCheck peer addr size with
    | .ok part => (good ++ [(peer, ⟨i, .peer part addr, addr, size, data i, data2 i, false, peer⟩)], bad)
    | .error (c, d) => (good, bad ++ [⟨i, c, d, addr⟩])) ([], [])

/-- The distinct peers, rising. -/
def peersOf (good : List (Nat × LaneAcc)) : List Nat :=
  (List.range 512).filter fun q => good.any fun x => x.1 == q

/-- One sub-issue for each distinct peer, in ascending order (R323). -/
def State.subIssues (s : State) (good : List (Nat × LaneAcc)) (f : State → List LaneAcc → State) : State :=
  (peersOf good).foldl (fun s q => f s ((good.filter fun x => x.1 == q).map (·.2))) s

def execRld (w : Bool) (d : VReg) (a : AReg) (p : VReg) (c : Scope) (s : State) : Res :=
  guard (.rld w d a p c) s fun s =>
    let size := if w then 8 else 4
    let (good, bad) := s.peerLanes size a p (fun _ => 0) fun _ => 0
    (s.subIssues good fun s l => s.issueOp (.load d.val false c) l).laneFault 0 bad

/-- A rival's fabric store or atomic faults TWIN_ISOLATED for its whole split; the record names its lowest lane's address
(R325, R354, spec/22 checkpoint 3). -/
def State.isolateFabric (s : State) (a : AReg) (acc : Nat) : State :=
  s.fault { code := .twinIsolated, acc := acc, addr := (s.laneAddr a none (s.lanes.headD 0)).toNat }

def execRst (w : Bool) (d : VReg) (a : AReg) (p : VReg) (c : Scope) (s : State) : Res :=
  guard (.rst w d a p c) s fun s =>
    if s.isTwin (s.team s.teamKey).ctx then s.isolateFabric a 1
    else
      let size := if w then 8 else 4
      let (good, bad) := s.peerLanes size a p (s.srcN d.val size) fun _ => 0
      let ls := (peersOf good).map fun q => (good.filter fun x => x.1 == q).map (·.2)
      let s := if good.isEmpty then s else s.addStores (.store c) ls.flatten true (ls.map fun l => l.map (·.lane))
      s.laneFault 1 bad

def execRatom (o : AtomOp) (d : VReg) (a : AReg) (p : VReg) (c : Scope) (s : State) : Res :=
  guard (.ratom o d a p c) s fun s =>
    if s.isTwin (s.team s.teamKey).ctx then s.isolateFabric a 2
    else
      let (good, bad) := s.peerLanes 4 a p (s.srcN d.val 4) fun i => if o = .cas then s.srcN (d.val + 1) 4 i else 0
      (s.subIssues good fun s l => s.issueOp (.atomic d.val o c) l).laneFault 2 bad

/-! ### Fences (R231) -/

/-- `.rel` and `.ar` hold back the commits of later `syswr`s, and wide ones put a marker into the store queue; `.acq` and
`.ar` are operations that hold back later loads; `.gang` has no effect. -/
def State.fenceIssue (s : State) (order : Nat) (scope : Scope) : State :=
  if scope = .gang then s
  else
    let s := if order ≠ 1 then s.modCur fun g => { g with relSeq := some g.seq } else s
    let s := if wide scope ∧ order ≠ 1 then s.addStore .marker [] false else s
    (s.addOp (.fence order scope) [] false).settle s.iss.gid

/-- Orders: 1 `.acq`, 2 `.rel`, 3 `.ar` (R119). -/
def execFence (o : Fin 4) (c : Scope) (s : State) : Res := guard (.fence o c) s fun s => s.fenceIssue o.val c

/-! ### Completion of loads and stores -/

def State.findOp (s : State) (gid seq lane : Nat) : Option (Op × LaneAcc) :=
  match (s.gang gid).ops.find? fun o => o.seq == seq with
  | none => none
  | some o => (o.lanes.find? fun a => a.lane == lane).map fun a => (o, a)

/-- The registers that a load of `size` bytes writes: `d`, or the pair. -/
def loadedRegs (d size : Nat) : List Nat := if size = 8 then [d, d + 1] else [d]

/-- What a register lane held at a cut counts no more, once an operation that belongs before the cut has written it (R382). -/
def State.forgetOlds (s : State) (gid d size lane : Nat) : State :=
  let c := (s.team (gidTeam gid)).ctx
  match (s.ctx c).cut with
  | some k =>
    if k.late.olds.isEmpty then s
    else s.modCtx c fun x => { x with cut := some { k with late := { k.late with
      olds := k.late.olds.filter fun o => !(o.1 == gid && (loadedRegs d size).contains o.2.1 && o.2.2.1 == lane) } } }
  | none => s

/-- A lane's loaded value is written, and the lane has returned (R226). -/
def State.deliver (s : State) (gid : Nat) (o : Op) (a : LaneAcc) (x : Nat) : State :=
  match o.kind with
  | .load d signed _ =>
    ((s.forgetOlds gid d a.size a.lane).modGang gid fun g => g.writeLoaded d signed a.size a.lane x).finishLanes gid o [a.lane]
  | .atomic d _ _ =>
    ((s.forgetOlds gid d a.size a.lane).modGang gid fun g => g.writeLoaded d false a.size a.lane x).finishLanes gid o [a.lane]
  | .tlread d bank _ =>
    (s.modGang gid fun g => g.writeS bank d (BitVec.ofNat 64 x)).finishLanes gid o [a.lane]
  | .qpost =>
    let s := s.modGang gid fun g => { g with
      sq := g.sq.map fun e => if e.seq = o.seq + 1 then
          { e with kind := .qpost true, lanes := e.lanes.map fun b => { b with data := x } } else e }
    s.finishLanes gid o [a.lane]
  | .fence _ _ => s

/-- Lanes that fault after issue return without a value, and their splits halt at their next issue; under R342 the word
is set aside for them (R324, R342, R443). -/
def State.failLanes (s : State) (gid : Nat) (o : Op) (lanes : List Nat) (f : FInfo) (again : Bool) : State :=
  let m := maskOf lanes
  let s := s.lateFault gid o.sup o.slices o.pc o.word { f with lanes := m }
  let s := if again then
      s.modGang gid fun g => g.modSlices o.slices fun k x =>
        if laneNibble m k = 0 then x else x.addReplay ⟨o.pc, o.word, m⟩
    else s
  s.finishLanes gid o lanes

/-- The value a lane's load is served (R219, R222). -/
def State.loadLane (s : State) (gid : Nat) (o : Op) (a : LaneAcc) (evict : Bool) : State :=
  let core := gidCore gid
  let own := (s.gang gid).sq.filter fun e => decide (e.seq < o.seq)
  let acquire : Bool := match o.kind with
    | .load _ _ sc => wide sc
    | .qpost => false
    | _ => true
  let s := (if evict then s.dropLine core a.loc else s).holdLine core a.loc false
  if acquire then s.deliver gid o a (s.serveBytes own (s.path core) a (s.readLoc a.loc a.size) a.size)
  else
    let (t, x) := s.l1Read core a
    t.deliver gid o a (t.serveBytes own (t.path core) a x a.size)

/-- A load lane of another part's place: served from the stores of its gang and core that hold all its bytes (R219), or asked of that
part. -/
def State.returnRemote (s : State) (gid : Nat) (o : Op) (a : LaneAcc) : State :=
  let own := (s.gang gid).sq.filter fun e => decide (e.seq < o.seq)
  let load : Bool := match o.kind with
    | .load _ _ _ => true
    | _ => false
  if load ∧ s.mayDo gid o ∧ !s.isSent (.load gid o.seq a.lane) ∧ covered own (s.path (gidCore gid)) a then
    s.deliver gid o a (s.serveBytes own (s.path (gidCore gid)) a 0 a.size)
  else s.sendOp gid o.seq

/-- Whether a twin has lost the granule that a lane still to be performed names: the access faults POISON (R387). -/
def State.laneLost (s : State) (o : Op) (a : LaneAcc) : Bool :=
  match o.kind, a.loc with
  | .load _ _ _, .dev _ => (s.ctx o.actx).view.lost.contains (a.addr / 65536)
  | _, _ => false

/-- A load lane returns when it may be performed and no engine holds its line; a line may first leave the L1 (R218, R219,
R222, R224). A lane for another part leaves for it when it may. -/
def State.returnLoad (s : State) (gid seq lane : Nat) (evict : Bool) : State :=
  match s.findOp gid seq lane with
  | none => s
  | some (o, a) =>
    if a.loc.isRemote then s.returnRemote gid o a
    else if !s.mayDo gid o ∨ s.recalled o.actx a.loc (s.copyOrder + 1) then s
    else match o.kind with
      | .load _ _ _ =>
        if s.laneLost o a then s.failLanes gid o [a.lane] { code := .poison, addr := a.addr } false else s.loadLane gid o a evict
      | .qpost => s.loadLane gid o a evict
      | .tlread _ _ k => s.deliver gid o a (Tab.get 0 s.timelines k).toNat
      | _ => s

def execLoadReturn (gid seq lane : Nat) (evict : Bool) (s : State) : Res := .next (s.returnLoad gid seq lane evict)

def State.findStore (s : State) (gid seq lane : Nat) : Option (SqEntry × LaneAcc) :=
  match (s.core (gidCore gid)).wp.find? fun e => e.gid == gid && e.seq == seq with
  | none => none
  | some e => (e.lanes.find? fun a => a.lane == lane).map fun a => (e, a)

/-- A write that CXL.io carries to its host waits there for the read that acknowledges it (R332, R335). -/
def State.post (s : State) (l : Loc) (what : RemoteFor) : Option State :=
  match l with
  | .host ld ha => if (s.ldev ld).cache then none else some { s with posted := s.posted ++ [⟨ld, ha / 4096, what⟩] }
  | _ => none

/-- A store lane is performed at its point of coherence and acknowledged; a posted host write waits for the read that
follows it (R220, R335). -/
def State.performStore (s : State) (gid seq lane : Nat) : State :=
  match s.findStore gid seq lane with
  | none => s
  | some (e, a) =>
    if !s.mayAck (gidCore gid) e a ∨ a.loc.isRemote ∨ s.posted.any (fun p => p.what == .store gid seq lane) then s
    else
      let s := (s.gangWrite e.actx gid a.addr a.loc a.size a.data).holdLine (gidCore gid) a.loc true
      (s.post a.loc (.store gid seq lane)).getD (s.ackLane (gidCore gid) e lane)

def execStoreAck (gid seq lane : Nat) (s : State) : Res := .next (s.performStore gid seq lane)

/-! ### Completion of atomics -/

/-- Atomics of the listed lanes performed together in lane order, each lane receiving the old value it saw (R229). -/
def State.performAtomic (s : State) (gid : Nat) (o : Op) (op : AtomOp) (ls : List LaneAcc) : State :=
  ls.foldl (fun s a =>
    let old := s.readLoc a.loc a.size
    let s := s.gangWrite o.actx gid a.addr a.loc a.size (atomNew op (8 * a.size) old a.data a.data2)
    match (s.gang gid).ops.find? fun p => p.seq == o.seq with
    | some p => s.deliver gid p a old
    | none => s) (match ls with
      | a :: _ => s.dropLine (gidCore gid) a.loc
      | [] => s)

/-- The operations PCI Express carries (R332). -/
def isAtomicOp : AtomOp → Bool
  | .add | .xchg | .cas => true
  | _ => false

def saturate16 (n : Nat) : Nat := min n 65535

/-- A host-half atomic takes its route (R332, R340): ATOMIC_UNSUPPORTED, ownership in the die's L2, or an AtomicOp that is
sent when none is on its way to the line. -/
def State.hostAtomic (s : State) (gid : Nat) (o : Op) (op : AtomOp) (a : LaneAcc) (ld ha : Nat) : State :=
  let d := s.ldev ld
  let ls := if op = .cas ∧ !(d.cache && o.route == 1) then [a] else o.together a
  let lanes := ls.map (·.lane)
  let owned (s : State) : State := (s.performAtomic gid o op (o.together a)).holdLine (gidCore gid) a.loc true
  if !isAtomicOp op then
    if d.cache ∧ o.route ≠ 2 then owned s
    else
      let s := s.modLdev ld fun d => { d with unsup := saturate16 (d.unsup + lanes.length) }
      s.failLanes gid o lanes { code := .atomicUnsupported, detail := 1, acc := 2, addr := a.addr } true
  else if d.cache ∧ o.route = 1 then owned s
  -- lanes of a `cas` go one after another, in lane order
  else if op = .cas ∧ (o.together a).any (fun b => decide (b.lane < a.lane)) then s
  else
    { s.dropHostLine ld ha with atomics := s.atomics ++ [⟨ld, ha, gid, o.seq, lanes⟩] }

/-- The lanes of an atomic that name one place are performed together (R229). -/
def State.returnAtomic (s : State) (gid seq lane : Nat) : State :=
  match s.findOp gid seq lane with
  | none => s
  | some (o, a) =>
    match o.kind with
    | .atomic _ op _ =>
      if a.loc.isRemote then s.sendOp gid seq
      else if !s.mayDo gid o ∨ s.recalled o.actx a.loc (s.copyOrder + 1) then s
      else match a.loc with
        | .host ld ha => s.hostAtomic gid o op a ld ha
        | _ => s.performAtomic gid o op (o.together a)
    | _ => s

def execAtomicReturn (gid seq lane : Nat) (s : State) : Res := .next (s.returnAtomic gid seq lane)

/-- A recalled access proceeds once the engine has finished its line (R224). -/
def execRecallComplete (gid seq lane : Nat) (store : Bool) (s : State) : Res :=
  .next (if store then s.performStore gid seq lane
    else match s.findOp gid seq lane with
      | some (o, _) => (match o.kind with
          | .atomic _ _ _ => s.returnAtomic gid seq lane
          | _ => s.returnLoad gid seq lane false)
      | none => s)

/-- A walk made ahead of need (by the walker, a hardware prefetch or an engine) returns a translation to a core's cache, or is
dropped and counted; no page of the device half is forbidden to a read (R347, R357). -/
def State.walkAhead (s : State) (core c va : Nat) : State :=
  if s.isTwin c ∨ (s.cached core c va).isSome then s
  else match s.walk c (s.ctx c).pt va with
    | .leaf e => (s.setCow c e).cacheEntry core e
    | _ => s.specMiss core c

def execPageWalkComplete (core c va : Nat) (s : State) : Res := .next (s.walkAhead core c va)

/-! ### AtomicOps and CXL.io acknowledgements (R335, R341) -/

/-- How an AtomicOp is answered: successful, Unsupported Request, or aborted with a completion status. -/
def State.finishAtomicOp (s : State) (x : AtomicOp) (ok ur : Bool) (status : Nat) : State :=
  let s := { s with atomics := s.atomics.filter (· != x) }
  match (s.gang x.gid).ops.find? fun o => o.seq == x.seq with
  | none => s
  | some o =>
    match o.kind with
    | .atomic _ op _ =>
      let ls := o.lanes.filter fun a => x.lanes.contains a.lane
      let addr := (ls.headD ⟨0, .dev 0, 0, 0, 0, 0, false, 0⟩).addr
      let d := s.ldev x.ld
      if ok then s.performAtomic x.gid o op ls
      else if ur then
        let s := s.modLdev x.ld fun d => { d with ur := saturate16 (d.ur + 1) }
        if o.route = 0 ∧ d.cache then
          let s := s.modLdev x.ld fun d => { d with fallback := saturate16 (d.fallback + 1) }
          (s.performAtomic x.gid o op ls).holdLine (gidCore x.gid) (.host x.ld x.ha) true
        else
          let s := s.modLdev x.ld fun d => { d with unsup := saturate16 (d.unsup + ls.length) }
          s.failLanes x.gid o x.lanes
            { code := .atomicUnsupported, detail := if o.route = 2 then 2 else 0, acc := 2, addr := addr } true
      else
        let s := s.modLdev x.ld fun d => { d with abort := saturate16 (d.abort + 1) }
        s.failLanes x.gid o x.lanes { code := .poison, detail := status, acc := 2, addr := addr } true
    | _ => s

/-- The completion of the oldest AtomicOp to a host address (R341): `ur` for Unsupported Request; otherwise `status` 0 is
success and any other a Completer Abort or poisoned completion. -/
def execAtomicopCompletion (ld ha : Nat) (ur : Bool) (status : Nat) (s : State) : Res :=
  .next (match s.atomics.find? fun x => x.ld == ld && x.ha == ha with
    | none => s
    | some x => s.finishAtomicOp x (!ur && status == 0) ur status)

/-- No completion within 50 ms: POISON with detail 0xff (R341). -/
def execAtomicopTimeout (ld ha : Nat) (s : State) : Res :=
  .next (match s.atomics.find? fun x => x.ld == ld && x.ha == ha with
    | none => s
    | some x => s.finishAtomicOp x false false 0xff)

/-- The host takes a line from a die's L2, and may write it then; `data` is little-endian from `ha` (R332, R340). -/
def State.snoop (s : State) (ld ha n data : Nat) : State :=
  if s.atomics.any fun x => x.ld == ld && x.ha / 128 == ha / 128 then s
  else
    (s.dropHostLine ld ha).writeLoc (.host ld ha) n data

def execHostSnoop (ld ha n data : Nat) (s : State) : Res := .next (s.snoop ld ha n data)

end Sys2Proof.Machine
end

