-- ==== Sys2Proof/Machine/Windows.lean ====
section
/-! DEFINITION. Windows (spec/16 R306 to R312): member states and their spread, `wdetach`, `wmember`, the window barrier,
and the ends of gangs and teams as far as the window sees them (R308). -/

namespace Sys2Proof.Machine

/-- The window of a team, if it has one. -/
def State.windowOf (s : State) (team : Nat) : Option Window := (s.team team).window

/-- Teams on this part that hold a copy of a window table. -/
def State.windowTeams (s : State) (key : Nat) : List Nat :=
  (s.teams.filter fun (_, t) => t.valid && (match t.window with
    | some w => w.key == key
    | none => false)).map (·.1)

/-- The other parts that run members of a window. -/
def Window.parts (w : Window) (self : Nat) : List Nat :=
  (w.entries.map (·.part)).foldl (fun l p => if p = self ∨ l.contains p then l else l ++ [p]) []

def State.modWindow (s : State) (team : Nat) (f : Window → Window) : State :=
  s.modTeam team fun t => { t with window := t.window.map f }

/-- Every split of a team that is parked at a `wbar` halts with WINDOW_DEPARTED (R312). -/
def State.haltWbars (s : State) (team : Nat) : State :=
  (s.gangs.filter fun (gid, _) => gidTeam gid == team).foldl (fun s (gid, g) =>
    g.sliceKeys.foldl (fun s k =>
      let x := (s.gang gid).slice k
      match x.park with
      | .wbar _ =>
        let mates := g.sliceKeys.filter fun j => (g.slice j).split == x.split
        let s := s.modGang gid fun h => h.modSlices mates fun _ y => { y with park := .none, halted := true }
        s.report gid x.sup x.pc 0 { code := .windowDeparted }
      | _ => s) s) s

/-- A member's new state in one copy of the table; departed is final (R308). -/
def WEntry.become (e : WEntry) (st : Nat) : WEntry := if e.state = 3 then e else { e with state := st }

/-- A member's new state applied to the copies of this part (R308); departing halts the parked `wbar`s (R312). -/
def State.applyMember (s : State) (key rank st : Nat) : State :=
  (s.windowTeams key).foldl (fun s t =>
    let s := s.modWindow t fun w => { w with entries := w.entries.modify rank (·.become st) }
    if st = 3 then s.haltWbars t else s) s

/-- A member's new state applied to every copy: here at once, over WSTATE cells to the other parts, which answer (R308,
R309). -/
def State.setMember (s : State) (team rank st : Nat) : State :=
  match s.windowOf team with
  | none => s
  | some w =>
    let c := (s.team team).ctx
    let s := s.applyMember w.key rank st
    let far := (w.parts s.part).filter fun p => !s.down.contains p
    let s := s.modWindow team fun w => { w with unapplied := far, unquiet := far }
    (w.parts s.part).foldl (fun s p => s.sendControl c 0x0b st p (.wstate w.key rank st)) s

/-! ### Detaching (R309, R310) -/

/-- Whether a team has an outstanding load, store or atomic with a lane that `hit` picks, a running copy with a `w:` address that
`named` picks, or a REMOTE `rsadd` to a member that `far` picks. -/
def State.windowUse (s : State) (team : Nat) (hit : LaneAcc → Bool) (named : Nat → Bool) (far : Nat → Bool) : Bool :=
  let core := s.core (team / 16)
  let side (x : CopySide) : Bool := match x with
    | .flat .w a => named a
    | _ => false
  (s.gangs.any fun (gid, g) => gidTeam gid == team &&
    (g.ops.any (fun o => o.lanes.any hit) || g.sq.any fun e => e.lanes.any hit)) ||
  core.wp.any (fun e => gidTeam e.gid == team && e.lanes.any hit) ||
  core.copies.any (fun (_, r) => r.state == .running && r.tslot == team % 16 && (side r.src || side r.dst)) ||
  (s.team team).streams.any fun o => match o.kind with
    | .addRemote _ m _ _ _ => far m
    | _ => false

/-- A team's window operations that have not completed: `w:` accesses, copies with a `w:` side, REMOTE `rsadd` (R310). -/
def State.windowBusy (s : State) (team : Nat) : Bool := s.windowUse team (·.win) (fun _ => true) fun _ => true

/-- Whether a team of this part that holds a copy of a window, but the member itself, has an access to a member that has not
completed (R309). -/
def State.usesMember (s : State) (key rank : Nat) : Bool :=
  (s.windowTeams key).any fun t =>
    (s.team t).member != some rank && match (s.team t).window with
      | some w =>
        let e := w.entries.getD rank {}
        s.windowUse t (fun a => a.win && (match a.loc with
            | .buf k _ _ => e.part == s.part && k == e.core * 16 + e.tslot
            | .remote p c k _ => p == e.part && c == e.core && k == e.tslot
            | _ => false)) (fun a => bits a 24 8 == rank) (· == rank)
      | none => false

/-- A part's answer to a change of state of a member: applied, and quiet when it has no access to it left (R309). -/
def State.answerWstate (s : State) (c part key rank : Nat) : State :=
  let s := s.sendControl c 0x0b 0 part (.wstateAck key rank false)
  if s.usesMember key rank then
    match s.windowTeams key with
    | t :: _ => s.modWindow t fun w => { w with owes := w.owes ++ [(rank, part)] }
    | [] => s
  else s.sendControl c 0x0b 0 part (.wstateAck key rank true)

/-- The answers that a team's copy owes are sent once the accesses have completed (R309). -/
def State.payWindow (s : State) (team : Nat) : State :=
  match s.windowOf team with
  | none => s
  | some w =>
    let now := w.owes.filter fun (rank, _) => !s.usesMember w.key rank
    if now.isEmpty then s
    else
      let s := s.modWindow team fun w => { w with owes := w.owes.filter fun x => !now.contains x }
      now.foldl (fun s (rank, p) => s.sendControl (s.team team).ctx 0x0b 0 p (.wstateAck w.key rank true)) s
def State.payWindows (s : State) : State := s.teams.foldl (fun s (k, _) => s.payWindow k) s

/-- What a team that leaves the part owes passes to another team of its window here, or is answered: with the last of them no access
is left (R309). -/
def State.passOwes (s : State) (team : Nat) : State :=
  match s.windowOf team with
  | none => s
  | some w =>
    match (s.windowTeams w.key).filter (· != team) with
    | t :: _ => s.modWindow t fun v => { v with owes := v.owes ++ w.owes }
    | [] => w.owes.foldl (fun s (rank, p) => s.sendControl (s.team team).ctx 0x0b 0 p (.wstateAck w.key rank true)) s

/-- A part has answered a member's change. -/
def State.heardWstate (s : State) (part key rank : Nat) (quiet : Bool) : State :=
  ((s.windowTeams key).filter fun t => (s.team t).member == some rank).foldl (fun s t => s.modWindow t fun w =>
    { w with unapplied := w.unapplied.filter (· != part)
             unquiet := if quiet then w.unquiet.filter (· != part) else w.unquiet }) s

/-- Whether every member's core has applied a team's last change of state (R309, R310). -/
def State.memberApplied (s : State) (team : Nat) : Bool := match s.windowOf team with
  | some w => w.unapplied.isEmpty
  | none => true

/-- The issuing split parks at its packet (R126). -/
def State.parkSplit (s : State) (p : Park) : State :=
  s.modSlices fun _ x => { x with park := p, pc := s.iss.pc }

/-- The state of the issuing team's own window entry. -/
def State.ownMember (s : State) (team : Nat) : Nat :=
  match s.windowOf team, (s.team team).member with
  | some w, some m => (w.entries.getD m {}).state
  | _, _ => 0

/-- The split of a `wdetach` goes on once the team is detached and every member's core has applied it (R310). -/
def State.detached (s : State) (team : Nat) : Bool := s.ownMember team == 2 && s.memberApplied team

/-- `wdetach`: at once when nothing of the window is outstanding and no other part has to hear of it, parked until then
otherwise (R310). -/
def execWdetach (s : State) : Res :=
  guard .wdetach s fun s =>
    let team := s.teamKey
    match s.windowOf team, (s.team team).member with
    | some _, some m =>
      if s.ownMember team = 2 then s
      else if s.windowBusy team then s.parkSplit .wdetach
      else
        let t := s.setMember team m 2
        if t.memberApplied team then t else t.parkSplit .wdetach
    | _, _ => s.fault { code := .illegal, detail := 14 }

/-- `wmember` (R311). -/
def execWmember (a : SReg) (s : State) : Res :=
  guard (.wmember a) s fun s =>
    let n := (s.srcS a).toNat
    if 256 ≤ n then s.fault { code := .illegal, detail := 14 }
    else match s.windowOf s.teamKey with
      | none => s.writeS a 0xffffffffffffffff#64
      | some w =>
        if w.entries.length ≤ n then s.writeS a 0xffffffffffffffff#64
        else s.writeS a (BitVec.ofNat 64 (w.entries.getD n {}).state)

/-! ### The window barrier (R312) -/

/-- Whether a gang stands at the barrier: every live split that is not halted is parked at a `wbar` of generation `gen`,
and its release has been performed. -/
def State.gangAtWbar (s : State) (gid gen : Nat) : Bool :=
  let g := s.gang gid
  g.slices.all (fun (_, x) => x.idle || x.halted || x.park == .wbar gen) &&
  g.sq.isEmpty && g.ops.isEmpty && !s.sentBefore gid g.seq

/-- Whether a team has arrived: every gang that has not ended stands at the barrier. -/
def State.teamAtWbar (s : State) (team gen : Nat) : Bool :=
  s.gangs.all fun (gid, g) => gidTeam gid != team || !g.resident || g.ended || s.gangAtWbar gid gen

/-- `rank` has made `count` arrivals, as the copies of this part now know. -/
def State.noteArrival (s : State) (key rank count : Nat) : State :=
  (s.windowTeams key).foldl (fun s t => s.modWindow t fun w => { w with arrivals := w.arrivals.set rank count }) s

/-- A team's arrival, told to every member. -/
def State.arriveWbar (s : State) (team : Nat) : State :=
  match s.windowOf team, (s.team team).member with
  | some w, some m =>
    let n := (w.gen + 1) % 2 ^ 16
    let c := (s.team team).ctx
    let s := s.modWindow team fun w => { w with gen := n }
    let s := s.noteArrival w.key m n
    (w.parts s.part).foldl (fun s p => s.sendControl c 0x0a n p (.wbar w.key m n)) s
  | _, _ => s

/-- Whether generation `gen` is complete in a copy of the table: every attached member has arrived at it. -/
def Window.complete (w : Window) (gen : Nat) : Bool :=
  (List.range w.entries.length).all fun m =>
    (w.entries.getD m {}).state != 0 ||
    (let n := w.arrivals.get 0 m
     decide ((n + 2 ^ 16 - gen) % 2 ^ 16 < 2 ^ 15) && n != gen)

def Window.departed (w : Window) : Bool := w.entries.any fun e => e.state == 3

/-- `wbar`: a release at `.set` or wider, and a park (R312). In a rival it may not reach another part (R391). -/
def execWbar (s : State) : Res :=
  guard .wbar s fun s =>
    match s.windowOf s.teamKey with
    | none => s.fault { code := .illegal, detail := 14 }
    | some w =>
      if s.isTwin (s.team s.teamKey).ctx ∧ !(w.parts s.part).isEmpty then s.fault { code := .twinIsolated }
      else if w.departed then s.fault { code := .windowDeparted }
      else (s.addStore .marker [] false).parkSplit (.wbar w.gen)

/-! ### Cells (R308, R312) -/

def execWbarReceive (r : Rx) (s : State) : Res :=
  .next (match s.accept r with
    | (s, true) =>
      match r.cell.body with
      | .wbar key rank count => s.noteArrival key rank count
      | _ => s
    | (s, false) => s)

def execWstateReceive (r : Rx) (s : State) : Res :=
  .next (match s.accept r with
    | (s, true) =>
      match r.cell.body with
      | .wstate key rank st => (s.applyMember key rank st).answerWstate r.cell.ctag r.cell.src key rank
      | .wstateAck key rank quiet => s.heardWstate r.cell.src key rank quiet
      | _ => s
    | (s, false) => s)

/-! ### Ends (R138, R308) -/

/-- A tenant whose last gang has left a core's gang table has no deficit counter there (R125). -/
def State.settleDeficits (s : State) (core : Nat) : State :=
  let here (t : Nat) : Bool := s.gangs.any fun (k, g) =>
    gidCore k == core && g.resident && !g.ended && !g.swapped && (s.team (gidTeam k)).tenant == t
  s.modCore core fun c => { c with deficit := c.deficit.filter fun x => here x.1 }

/-- The live lanes of a gang are gone: it has ended, and with a team's last gang the member begins to detach. -/
def State.endIfDone (s : State) (gid : Nat) : State :=
  let g := s.gang gid
  if !g.resident ∨ g.ended ∨ !(g.slices.all fun (_, x) => x.ended) then s
  else
    let s := (s.modGang gid fun g => { g with ended := true, active := none }).settleDeficits (gidCore gid)
    let team := gidTeam gid
    let t := s.team team
    if s.gangs.all (fun (k, h) => gidTeam k != team || !h.resident || h.ended) then
      match t.window, t.member with
      | some w, some m => if (w.entries.getD m {}).state = 0 then s.setMember team m 1 else s
      | _, _ => s
    else s

end Sys2Proof.Machine
end

