-- ==== Sys2Proof/Machine/Launch.lean ====
section
/-! DEFINITION. Launch records: reading them, the checks of spec/02 R23 to R45 and spec/04 R100 with their reasons, the
sizes of a team (R35, R267), and handing a grid over (spec/03 R60, spec/04 R88, R95). -/

namespace Sys2Proof.Machine

/-! ### Reading through a context (R440) -/

/-- The bytes of a place of `g:` at its point of coherence, counted from its first. -/
def State.placeBytes (s : State) (l : Loc) (m : Nat) : State × Memory :=
  (s, match l with
    | .dev pa => s.dmem.slice pa m
    | .host ld ha => Memory.slice (s.hmem.get [] ld) ha m
    | _ => [])

/-- `n` bytes at a virtual address, 64-byte block by block, each block's bytes as `serve` reads them; `fuel` bounds the blocks. -/
def State.readBlocks (serve : State → Loc → Nat → State × Memory) (s : State) (core c va n : Nat) :
    Nat → State × Except (FCode × Nat × Nat) Memory
  | 0 => (s, .ok [])
  | k + 1 =>
    if n = 0 then (s, .ok [])
    else
      let m := min n (64 - va % 64)
      match s.translateIn core c va 0 with
      | (s, .error (f, d)) => (s, .error (f, d, va))
      | (s, .ok l) =>
        let (s, piece) := serve (s.waitLine l) l m
        match State.readBlocks serve s core c (va + m) (n - m) k with
        | (s, .ok rest) => (s, .ok (piece ++ rest.map fun x => (x.1 + m, x.2)))
        | r => r

/-- `n` bytes at a virtual address of a context, counted from its first. -/
def State.readVa (s : State) (core c va n : Nat) : State × Except (FCode × Nat × Nat) Memory :=
  State.readBlocks State.placeBytes s core c va n (n / 64 + 2)

/-- `n` bytes written at a virtual address that lies within one block, or the fault (R440). -/
def State.storeVa (s : State) (core c va n v : Nat) : State × Option (FCode × Nat) :=
  match s.translateIn core c va 1 with
  | (s, .error f) => (s, some f)
  | (s, .ok l) => ((s.writeVa c va false l n v).waitLine l, none)

/-- The bytes of a place as a load of gang `gid` is served them: from its own store queue, its core's write path, the L1 and the
home (R219). -/
def State.loadBytes (gid : Nat) (s : State) (l : Loc) (m : Nat) : State × Memory :=
  let core := gidCore gid
  let a : LaneAcc := ⟨0, l, 0, m, 0, 0, false, 0⟩
  let (s, x) := (s.holdLine core l false).l1Read core a
  (s, Memory.writeLE [] 0 m (s.serveBytes (s.gang gid).sq (s.path core) a x m))

/-- `n` bytes at a virtual address as one load of gang `gid`; an address with bits [63:57] nonzero faults ALIGN (R146, R215). -/
def State.readLoad (s : State) (gid c va n : Nat) : State × Except (FCode × Nat × Nat) Memory :=
  if 2 ^ 57 ≤ va then (s, .error (.align, 0, va))
  else State.readBlocks (State.loadBytes gid) s (gidCore gid) c va n (n / 64 + 2)

/-- Whether an engine owns a line of the `n` bytes that a gang's load is to read (R224). -/
def State.loadHeld (s : State) (core c va n : Nat) : Bool :=
  (List.range (n / 128 + 1)).any fun k =>
    match s.peek core c (va + min (128 * k) (n - 1)) with
    | some l => s.recalled c l (s.copyOrder + 1)
    | none => false

/-! ### Fields (R27 to R32, R40) -/

def lrWord (m : Memory) (off : Nat) : Nat := m.readLE off 8
def lrRoles (m : Memory) : Nat := bits (lrWord m 0) 8 2 + 1
def lrSet (m : Memory) : Bool := bit (lrWord m 0) 10
def lrReel (m : Memory) : Bool := bit (lrWord m 0) 11
def lrService (m : Memory) : Bool := bit (lrWord m 0) 12
def lrGx (m : Memory) : Nat := bits (lrWord m 0x10) 0 16
def lrGy (m : Memory) : Nat := bits (lrWord m 0x10) 16 16
def lrGz (m : Memory) : Nat := bits (lrWord m 0x10) 32 16
def lrTeams (m : Memory) : Nat := lrGx m * lrGy m * lrGz m
def lrGangs (m : Memory) : Nat := bits (lrWord m 0x18) 0 5
def lrSlices (m : Memory) : Nat := bits (lrWord m 0x18) 8 4
def lrScratch (m : Memory) : Nat := bits (lrWord m 0x18) 16 9
def lrRole (m : Memory) (n : Nat) : Nat := lrWord m (0x20 + 8 * n)
def roleVregs (w : Nat) : Nat := bits w 0 8
def roleGangs (w : Nat) : Nat := bits w 8 5
def roleEntry (w : Nat) : Nat := bits w 16 32
def lrW (m : Memory) : Nat := bits (lrWord m 0x40) 0 4
def lrH (m : Memory) : Nat := bits (lrWord m 0x40) 4 4
def lrT (m : Memory) : Nat := bits (lrWord m 0x40) 8 5
def lrMembers (m : Memory) : Nat := bits (lrWord m 0x40) 0 9
def lrParts (m : Memory) : Nat := bits (lrWord m 0x40) 9 7
def lrPlace (m : Memory) : Nat := lrWord m 0x48
def lrSmap (m : Memory) : Nat := lrWord m 0x50
def lrRoleList (m : Memory) : List Nat := (List.range (lrRoles m)).map (lrRole m)

/-- The role of gang `g` of a team: gangs are numbered in role order (R34). -/
def roleOf (m : Memory) (g : Nat) : Nat :=
  let rec go : List Nat → Nat → Nat → Nat
    | [], _, n => n
    | w :: rest, left, n => if left < roleGangs w then n else go rest (left - roleGangs w) (n + 1)
  go (lrRoleList m) g 0

/-- Store bytes of a team (R35). -/
def occupancy (m : Memory) : Nat :=
  ((lrRoleList m).map fun w => roleGangs w * (128 * roleVregs w + 1024)).sum + lrScratch m * 1024

/-- The least power of two that is at least `n`, up to 16. -/
def powerAtLeast (n : Nat) : Nat := ([1, 2, 4, 8].find? fun p => decide (n ≤ p)).getD 16

/-- The buffer divisor D (R267). -/
def divisor (m : Memory) : Nat :=
  powerAtLeast (min 16 (min (64 / max 1 (lrGangs m)) (458752 / max 1 (occupancy m))))

/-! ### Checks (R45, R100) -/

/-- Whether a packed format slot passes R39: unused, or with assigned codes and matching scale fields. -/
def slotOk (x : Nat) : Bool :=
  x == 0 ||
  (decide (1 ≤ bits x 0 6) && decide (bits x 0 6 ≤ 0x11) && decide (bits x 16 4 ≤ 4) &&
   ((bits x 32 32 != 0) == decide (2 ≤ bits x 6 2)) && (bits x 8 8 == 0 || bits x 6 2 == 1))

/-- Whether a reserved field of the record is nonzero (R23, R27 to R33, R38). -/
def reservedSet (m : Memory) : Bool :=
  bits (lrWord m 0) 13 51 != 0 || bits (lrWord m 0x10) 48 16 != 0 ||
  bits (lrWord m 0x18) 25 39 != 0 || bits (lrWord m 0x18) 12 4 != 0 || bits (lrWord m 0x18) 5 3 != 0 ||
  (List.range 4).any (fun n =>
    let w := lrRole m n
    if n < lrRoles m then bits w 48 16 != 0 || bits w 13 3 != 0 else w != 0) ||
  (lrSet m && !lrReel m && bits (lrWord m 0x40) 13 51 != 0) || (lrReel m && !lrSet m && bits (lrWord m 0x40) 16 48 != 0) ||
  m.any (fun c => (decide (0x58 ≤ c.1) && decide (c.1 < 0x80)) || (decide (0xc0 ≤ c.1) && decide (c.1 < 0x100))) ||
  (List.range 8).any fun n => bits (lrWord m (0x80 + 8 * n)) 22 10 != 0

/-- The place list: ids in bits [8:0], the rest zero, none twice (R42). -/
def placeIds (m : Memory) (n : Nat) : List Nat := (List.range n).map fun k => m.readLE (2 * k) 2
def distinct (l : List Nat) : Bool := l.eraseDups.length == l.length

/-- Whether a stream map keeps R296's rules. -/
def smapOk (m : Memory) (members : Nat) : Bool :=
  let n := bits (m.readLE 0 8) 0 8
  let mask (k : Nat) : Nat := m.readLE (0x40 + 64 * k) 32
  let row (k : Nat) : Nat := m.readLE (0x60 + 64 * k) 2
  decide (1 ≤ n) && decide (n ≤ 64) && m.readLE 1 63 == 0 &&
  (List.range n).all (fun k =>
    let c := (maskBits (mask k) 256).length
    decide (1 ≤ c) && decide (c ≤ 64) && decide (mask k < 2 ^ members) && m.readLE (0x62 + 64 * k) 30 == 0 &&
    (List.range k).all fun j => row j != row k || mask j &&& mask k == 0)

/-- Bytes of the stream map: header and spans. -/
def smapBytes (hdr : Nat) : Nat := 0x40 + 64 * bits hdr 0 8

/-- Where a launch comes from, for the checks that depend on it. -/
structure LaunchFrom where
  ctx : Nat
  tenant : Nat
  child : Bool
  mgmt : Bool
  deriving DecidableEq, Repr

def gangLimit (t : Tenant) : Nat := if t.gangmax = 0 then 64 else t.gangmax

/-- Whether a team, or the T teams of a set's core, fits an empty core (R36, R37, R86, R100). -/
def fitsEmpty (m : Memory) (t : Tenant) : Bool :=
  let k := if lrSet m && !lrReel m then max 1 (lrT m) else 1
  decide (k * occupancy m ≤ 458752) && decide (k * lrGangs m ≤ gangLimit t) && decide (k ≤ 16) &&
  decide (k ≤ divisor m)

/-- Set and reel geometry (R40 to R42). -/
def geometryBad (m : Memory) : Bool :=
  let n := lrTeams m
  if lrSet m && lrReel m then true
  else if lrSet m then
    let k := lrW m * lrH m * lrT m
    decide (lrT m < 1) || decide (16 < lrT m) || decide (lrH m < 1) || decide (8 < lrH m) || decide (lrW m < 1) ||
    decide (12 < lrW m) || decide (24 < k) || n % max 1 k != 0
  else if lrReel m then
    decide (lrParts m < 1) || decide (64 < lrParts m) || decide (lrMembers m < 1) || decide (256 < lrMembers m) ||
    lrMembers m != n || lrMembers m % max 1 (lrParts m) != 0
  else lrWord m 0x40 != 0

/-- Every reason that holds for a record, in rising order (R45, R100); `places` is the place list that could be read,
`smap` the stream map. That a place list which cannot be read rejects with 0x0a is the model's choice (log 77). -/
def State.launchReasons (s : State) (f : LaunchFrom) (m : Memory) (places : Option (List Nat)) (smap : Option Memory) :
    List Nat :=
  let roles := lrRoleList m
  let service := lrService m
  let resident := s.teams.any fun (_, t) => t.valid && t.service
  let reelOff := lrReel m && !lrSet m && !s.feature f.ctx 2
  let badPlace : Bool :=
    if lrReel m && !lrSet m then
      match places with
      | none => true
      | some l => !(l.all fun p => decide (p < 512) && (s.placeOf f.ctx p).isSome) || !distinct l
    else lrPlace m != 0
  let badSmap : Bool := lrSmap m != 0 && (!lrReel m || (match smap with
    | none => true
    | some x => !smapOk x (lrMembers m)))
  [ (0x01, bits (lrWord m 0) 0 8 != 0x02),
    (0x02, reservedSet m),
    (0x03, lrGx m == 0 || lrGy m == 0 || lrGz m == 0 || decide (16777216 < lrTeams m)),
    (0x04, decide (lrGangs m < 1) || decide (16 < lrGangs m) || decide (lrSlices m < 1) || decide (8 < lrSlices m) ||
      roles.any (fun w => decide (roleGangs w < 1) || decide (16 < roleGangs w)) ||
      (roles.map roleGangs).sum != lrGangs m),
    (0x05, roles.any fun w => decide (roleVregs w < 1) || decide (128 < roleVregs w) || roleEntry w % 64 % 12 != 0 ||
      decide (60 ≤ roleEntry w % 64)),
    (0x06, decide (448 < lrScratch m) || !fitsEmpty m (s.tenants.get {} f.tenant)),
    (0x07, !((List.range 8).all fun n => slotOk (lrWord m (0x80 + 8 * n)))),
    (0x08, geometryBad m),
    (0x09, lrWord m 8 % 64 != 0),
    (0x0a, badPlace),
    (0x0c, reelOff),
    (0x0d, f.child && lrReel m),
    (0x0e, badSmap),
    (0x10, service && (!f.mgmt || f.child || lrGx m != 4 || lrGy m != 1 || lrGz m != 1 || lrSet m || lrReel m || resident)) ]
  |>.filterMap fun (r, b) => if b then some r else none

/-- What a grid is handed over with. -/
structure Handed where
  lr : Memory
  places : List Nat
  smap : Memory
  deriving DecidableEq, Repr

/-- The place list and stream map of a launch record read and checked with it: the copies, or the reason (R24, R45, R296, R440).
That an LR.PLACE or LR.SMAP with one of bits [63:57] set counts as an address that cannot be read is the model's choice (log 90). -/
def State.checkLaunch (s : State) (core : Nat) (f : LaunchFrom) (m : Memory) : State × Except Nat Handed :=
      let want := lrReel m && !lrSet m && lrPlace m != 0 && decide (lrPlace m < 2 ^ 57) && decide (lrParts m ≤ 64)
      let (s, places) : State × Option (List Nat) :=
        if want then
          match s.readVa core f.ctx (lrPlace m) (2 * lrParts m) with
          | (s, .ok p) => (s, some (placeIds p (lrParts m)))
          | (s, .error _) => (s, none)
        else (s, none)
      let (s, smap) : State × Option Memory :=
        if lrSmap m ≠ 0 ∧ lrSmap m % 64 = 0 ∧ lrSmap m < 2 ^ 57 then
          match s.readVa core f.ctx (lrSmap m) 64 with
          | (s, .ok h) =>
            match s.readVa core f.ctx (lrSmap m) (smapBytes (h.readLE 0 8)) with
            | (s, .ok x) => (s, some x)
            | (s, .error _) => (s, none)
          | (s, .error _) => (s, none)
        else (s, none)
      match s.launchReasons f m places smap with
      | r :: _ => (s, .error r)
      | [] => (s, .ok ⟨m, places.getD [], smap.getD []⟩)

/-- The launch record at an address read by the dispatcher, and checked (R440, log 90). -/
def State.readLaunch (s : State) (core : Nat) (f : LaunchFrom) (va : Nat) : State × Except Nat Handed :=
  if va % 64 ≠ 0 ∨ 2 ^ 57 ≤ va then (s, .error 0x11)
  else match s.readVa core f.ctx va 512 with
    | (s, .error _) => (s, .error 0x11)
    | (s, .ok m) => s.checkLaunch core f m

/-- A fresh number of the part's own. -/
def State.freshKey (s : State) : State × Nat := ({ s with fresh := s.fresh + 1 }, s.fresh + 1)

/-- A grid enters the hand-over list (R88, R95). -/
def State.addGrid (s : State) (g : Grid) : State × Nat :=
  let (s, k) := s.freshKey
  let g := { g with valid := true, order := k, since := s.cycle.toNat, teams := if lrReel g.lr then 0 else lrTeams g.lr }
  ({ s.setGrid k g with pending := s.pending ++ [k] }, k)

/-- Whether the hand-over list has room (R88). -/
def State.listRoom (s : State) : Bool := decide (s.pending.length < 2048)

end Sys2Proof.Machine
end

