-- ==== Sys2Proof/Machine/Control.lean ====
section
/-! DEFINITION. Control flow (spec/06 R132 to R149). Before a word acts, the issuing split's slices stand at the
successor of the packet; a word that parks, branches or faults moves them. -/

namespace Sys2Proof.Machine

/-! ### Parked slices -/

/-- Parked slices go on: past their packet, or to its other words when it has some (R126, log 21). -/
def State.goOn (s : State) (gid : Nat) (ks : List Nat) : State :=
  s.modGang gid fun g => g.modSlices ks fun _ x =>
    { x with park := .none, pc := if x.others.isSome then x.pc else pcSucc x.pc, did := x.others.toList, others := none }

/-- What the other words of a packet read once its control word has been performed: the registers as they stand before that word
writes its result (R105, log 21). -/
def State.keepSeen (s : State) (gid : Nat) (ks : List Nat) : State :=
  s.modGang gid fun g => g.modSlices ks fun _ x =>
    if x.others.isSome then { x with seen := some (g.regs, g.bank) } else x

/-! ### Branches (R135, R136) -/

/-- The PC a signed packet offset from the issuing packet names, if there is one. -/
def State.target (s : State) (off : BitVec 19) : Nat :=
  let i : Int := pcIndex s.iss.pc + off.toInt
  -- an index below zero wraps out of the valid range
  if i < 0 then 2 ^ 64 - 1 else pcOf i.toNat

def execBr (o : BitVec 19) (s : State) : Res :=
  guard (.br o) s fun s =>
    match s.checkTarget s.iss.gid (s.target o) with
    | (s, some f) => s.fault f
    | (s, none) => s.modSlices fun _ x => { x with pc := s.target o, arrival := false }

/-- The mask stack holds 8 entries (R130, R136). -/
def stackFull (x : Slice) (n : Nat) : Bool := decide (8 < x.stack.length + n)

def execBrc (p : PReg) (o : BitVec 19) (s : State) : Res :=
  guard (.brc p o) s fun s =>
    let g := s.cur
    let ps := s.srcP p
    let mask (k : Nat) : BitVec 4 := (g.slice k).mask &&& (g.slice k).live
    let taken (k : Nat) : BitVec 4 := mask k &&& laneNibble ps k
    let fall (k : Nat) : BitVec 4 := mask k &&& ~~~(taken k)
    let any : Bool := s.iss.slices.any fun k => taken k != 0
    let deep : Bool := s.iss.slices.any fun k => taken k != 0 && fall k != 0 && stackFull (g.slice k) 1
    let act (s : State) : State :=
      s.modSlices fun k x =>
        if fall k = 0 then { x with pc := s.target o, arrival := false }
        else if taken k = 0 then x
        else { x with stack := ⟨taken k, s.target o, mask k, x.j⟩ :: x.stack, mask := fall k }
    if deep then s.fault { code := .illegal, detail := 2 }
    else if any then
      match s.checkTarget s.iss.gid (s.target o) with
      | (s, some f) => s.fault f
      | (s, none) => act s
    else act s

def execJpt (o : BitVec 19) (s : State) : Res :=
  guard (.jpt o) s fun s =>
    if !validPc (s.target o) then s.fault (fetchFault .align 0 0)
    else s.modSlices fun _ x => { x with j := some (pcIndex (s.target o)) }

/-! ### Calls and returns (R140) -/

/-- A spill access of a slice: 8-byte aligned, translated as a load or store of the device half, in which no address of the host
half is mapped (R140, log 97). -/
def State.spillPlace (s : State) (va acc : Nat) : State × Except FInfo Loc :=
  if va % 8 ≠ 0 ∨ 2 ^ 57 ≤ va then (s, .error { code := .align, acc := acc, addr := va })
  else if !bit va 56 then (s, .error { code := .pageDev, acc := acc, addr := va })
  else match s.translate s.teamKey va acc with
    | (s, .ok l) => (s, .ok l)
    | (s, .error (c, d)) => (s, .error { code := c, detail := d, acc := acc, addr := va })

/-- A slice whose push has no place: RDEPTH at its limit, or a spill with a spill head of zero (PROTECT detail 3). -/
def State.pushBad (s : State) (k : Nat) : Bool :=
  let x := s.cur.slice k
  x.rdepth == 65535 || (decide (16 ≤ x.rstack.length) && Tab.get 0 s.iss.src.spill k == 0)

/-- The first fault of the slices' spill stores, if any. -/
def State.pushCheck (s : State) : List Nat → State × Option FInfo
  | [] => (s, none)
  | k :: rest =>
    let x := s.cur.slice k
    if 16 ≤ x.rstack.length then
      match s.spillPlace (Tab.get 0 s.iss.src.spill k).toNat 1 with
      | (s, .error f) => (s, some f)
      | (s, .ok _) => s.pushCheck rest
    else s.pushCheck rest

/-- A push of one slice: the oldest of 16 entries spills upward (R140). -/
def State.pushReturn (s : State) (k index : Nat) : State :=
  let x := s.cur.slice k
  if x.rstack.length < 16 then
    s.modCur fun g => g.modSlice k fun x => { x with rstack := index :: x.rstack, rdepth := x.rdepth + 1 }
  else
    let head := (Tab.get 0 s.iss.src.spill k).toNat
    match s.spillPlace head 1 with
    | (s, .error _) => s
    | (s, .ok l) =>
      let s := (s.gangWrite (s.accessCtx s.teamKey) s.iss.gid head l 8 (x.rstack.getLastD 0)).dropLine s.coreKey l
      s.modCur fun g =>
        { g.modSlice k fun x => { x with rstack := index :: x.rstack.dropLast, rdepth := x.rdepth + 1 } with
          regs := { g.regs with spill := g.regs.spill.set k (BitVec.ofNat 64 (head + 8)) } }

def execCall (o : BitVec 19) (s : State) : Res :=
  guard (.call o) s fun s =>
    if s.iss.slices.any s.pushBad then s.fault { code := .protect, detail := 3 }
    else match s.checkTarget s.iss.gid (s.target o) with
    | (s, some f) => s.fault f
    | (s, none) =>
      match s.checkTarget s.iss.gid (pcSucc s.iss.pc) with
      | (s, some f) => s.fault f
      | (s, none) =>
        match s.pushCheck s.iss.slices with
        | (s, some f) => s.fault f
        | (s, none) =>
          let i := pcIndex (pcSucc s.iss.pc)
          let s := s.iss.slices.foldl (fun s k => s.pushReturn k i) s
          s.modSlices fun _ x => { x with pc := s.target o, arrival := false }

/-- What a slice's `ret` pops: the index, and whether it was refilled from the spill stack. -/
def State.popOf (s : State) (k : Nat) : State × Except FInfo (Nat × Bool) :=
  match (s.cur.slice k).rstack with
  | i :: _ => (s, .ok (i, false))
  | [] =>
    let head := (Tab.get 0 s.iss.src.spill k - 8 : W64).toNat
    match s.spillPlace head 0 with
    | (s, .error f) => (s, .error f)
    | (s, .ok l) => (s, .ok (s.readLoc l 8, true))

/-- Every slice's pop and target checked (R140): the targets, or the first fault. -/
def State.popAll (s : State) : List Nat → State × Except FInfo (List (Nat × Nat × Bool))
  | [] => (s, .ok [])
  | k :: rest =>
    match s.popOf k with
    | (s, .error f) => (s, .error f)
    | (s, .ok (i, spilled)) =>
      match s.checkTarget s.iss.gid (pcOf i) with
      | (s, some f) => (s, .error f)
      | (s, none) =>
        match s.popAll rest with
        | (s, .ok l) => (s, .ok ((k, i, spilled) :: l))
        | r => r

/-- The issuing slices, those that pop on chip before those that refill from the spill stack, so that a target check (R123,
class 8) is reported before a refill's fault, which R123 does not list (log 36). -/
def State.popOrder (s : State) : List Nat :=
  let spilled (k : Nat) : Bool := (s.cur.slice k).rstack.isEmpty
  (s.iss.slices.filter fun k => !spilled k) ++ s.iss.slices.filter spilled

def execRet (s : State) : Res :=
  guard .ret s fun s =>
    if s.iss.slices.any fun k => (s.cur.slice k).rdepth == 0 then s.fault { code := .illegal, detail := 1 }
    else match s.popAll s.popOrder with
    | (s, .error f) => s.fault f
    | (s, .ok l) =>
      l.foldl (fun s (k, i, spilled) =>
        s.modCur fun g =>
          let g := g.modSlice k fun x =>
            { x with pc := pcOf i, arrival := false, rdepth := x.rdepth - 1, rstack := if spilled then [] else x.rstack.tail }
          if spilled then
            { g with regs := { g.regs with spill := g.regs.spill.set k (Tab.get 0 g.regs.spill k - 8) } }
          else g) s

/-! ### `join` and `exit` (R137, R138) -/

/-- `join` of one slice, whose PC has linear index `i`: the loop of R137. -/
def joinPop (i : Nat) (x : Slice) : List MaskEntry → Slice
  | [] => { x with stack := [] }
  | e :: rest =>
    if e.jp ≠ some i then { x with stack := e :: rest }
    else if e.pend &&& x.live ≠ 0 then
      { x with mask := e.pend &&& x.live, pc := e.pendpc, arrival := false, stack := { e with pend := 0 } :: rest }
    else joinPop i { x with mask := e.whole &&& x.live, j := topJp rest } rest

def execJoin (s : State) : Res :=
  guard .join s fun s => s.modSlices fun _ x => joinPop (pcIndex s.iss.pc) x x.stack

def execExit (s : State) : Res :=
  guard .exit s fun s =>
    let g := s.cur
    let next (k : Nat) : Option Slice :=
      let x := g.slice k
      exitPop { x with live := x.live &&& ~~~x.mask } x.stack
    if s.iss.slices.any fun k => (next k).isNone then s.fault { code := .illegal, detail := 3 }
    else (s.modSlices fun k x => (next k).getD x).endIfDone s.iss.gid

/-! ### `jmp` (R139) -/

/-- Each active lane's target and its fault, if it has one. -/
def State.jumpLanes (s : State) (v : Nat) : List Nat → State × List (Nat × Nat × Option FInfo)
  | [] => (s, [])
  | i :: rest =>
    let t := (s.codeBase + (s.iss.readV v i).toNat) % 2 ^ 64
    let (s, f) := s.checkTarget s.iss.gid t
    let (s, l) := s.jumpLanes v rest
    (s, (i, t, f) :: l)

/-- Distinct values, in rising order. -/
def rising (l : List Nat) : List Nat :=
  sortBy (l.foldl (fun acc x => if acc.contains x then acc else acc ++ [x]) []) fun a b => decide (a ≤ b)

/-- A slice's push of every target but the lowest, highest first (R139). -/
def jumpSlice (x : Slice) (k : Nat) (good : List (Nat × Nat)) : Slice :=
  let mine := good.filter fun (i, _) => i / 4 == k
  let lanesTo (ts : List Nat) : BitVec 4 := laneNibble (maskOf ((mine.filter fun (_, t) => ts.contains t).map (·.1))) k
  match rising (mine.map (·.2)) with
  | [] => x
  | t1 :: more =>
    let upTo (t : Nat) : List Nat := (t1 :: more).filter fun u => decide (u ≤ t)
    let es := more.map fun t => MaskEntry.mk (lanesTo [t]) t (lanesTo (upTo t)) x.j
    { x with stack := es ++ x.stack, mask := lanesTo [t1], pc := t1, arrival := false }

/-- One record for each fault code among the bad lanes (R139). -/
def State.reportJump (s : State) (bad : List (Nat × FInfo)) : State :=
  let codes := bad.foldl (fun l (_, f) => if l.contains f.code then l else l ++ [f.code]) []
  codes.foldl (fun s c =>
    let mine := bad.filter fun (_, f) => f.code == c
    match mine with
    | (_, f) :: _ => s.report s.iss.gid s.iss.sup s.iss.pc s.iss.word { f with lanes := maskOf (mine.map (·.1)) }
    | [] => s) s

/-- The jump once no lane goes to the handler (R139): the bad lanes halt, the others part by target. -/
def State.jump (s : State) (all : List (Nat × Nat × Option FInfo)) : State :=
  let g := s.cur
  let good := all.filterMap fun (i, t, f) => if f.isNone then some (i, t) else none
  let bad := all.filterMap fun (i, _, f) => f.map fun f => (i, f)
  let badMask := maskOf (bad.map (·.1))
  let deep : Bool := s.iss.slices.any fun k =>
    stackFull (g.slice k) ((rising ((good.filter fun (i, _) => i / 4 == k).map (·.2))).length - 1)
  let next (k : Nat) : Option Slice :=
    let x := g.slice k
    let gone := laneNibble badMask k
    let y : Slice :=
      x.lose gone s.iss.pc
    if good.any fun (i, _) => i / 4 == k then some (jumpSlice y k good)
    else if gone = 0 then some y
    else exitPop y y.stack
  if deep then s.fault { code := .illegal, detail := 2 }
  else if s.iss.slices.any fun k => (next k).isNone then s.fault { code := .illegal, detail := 3 }
  else (s.modSlices fun k x => (next k).getD x).reportJump bad

def execJmp (v : VReg64) (s : State) : Res :=
  guard (.jmp v) s fun s =>
    let (s, all) := s.jumpLanes v.val s.lanes
    let bad := all.filterMap fun (i, t, f) => f.map fun f => (i, t, f)
    let entry := (s.ctx (s.team s.teamKey).ctx).handler
    let absent := bad.filter fun (_, _, f) => f.toHandler
    match bad, absent with
    | [], _ => s.jump all
    | (_, _, f) :: _, [] =>
      if s.iss.sup then s.fault { f with lanes := maskOf (bad.map (·.1)) } else s.jump all
    | (_, _, f) :: _, (_, _, h) :: _ =>
      if s.iss.sup then s.fault { f with lanes := maskOf (bad.map (·.1)) }
      else if entry ≠ 0 then s.faultWith { h with lanes := maskOf (absent.map (·.1)) } none true
      else s.jump all

/-! ### `regang` (R141) -/

def sliceMask (m : BitVec 8) : List Nat := maskBits m.toNat 8

def execRegang (m : BitVec 8) (s : State) : Res :=
  guard (.regang m) s fun s =>
    let inM := s.iss.slices.filter fun k => (sliceMask m).contains k
    let out := s.iss.slices.filter fun k => !(sliceMask m).contains k
    s.modCur fun g =>
      let others := g.sliceKeys.filter fun k =>
        let x := g.slice k
        !inM.isEmpty && !s.iss.slices.contains k && !x.idle && !x.halted && x.park == .none && x.pc == s.iss.pc &&
        (g.splitOf k).all fun j => (sliceMask m).contains j
      let all := sortBy (inM ++ others) fun a b => decide (a ≤ b)
      let g := g.modSlices others fun _ x => { x with pc := pcSucc s.iss.pc, arrival := false, did := [] }
      let g := if inM.isEmpty then g else g.merge all
      g.merge out

/-- Whether every live slice named in a mask is parked at the same `regang.wait` (R141). -/
def Gang.regangReady (g : Gang) (m pc : Nat) : Bool :=
  (maskBits m 8).all fun k => !(g.sliceKeys.contains k) || (g.slice k).ended || ((g.slice k).park == .regang m && (g.slice k).pc == pc)

/-- The slices waiting at one `regang.wait` merge and go on. -/
def State.regangMerge (s : State) (gid m pc : Nat) : State :=
  let g := s.gang gid
  let ks := g.sliceKeys.filter fun k => !(g.slice k).ended && (g.slice k).park == .regang m && (g.slice k).pc == pc
  s.modGang gid fun g => (g.modSlices ks fun _ x =>
    { x with park := .none, pc := pcSucc pc, did := [], others := none }).merge ks

def execRegangWait (m : BitVec 8) (s : State) : Res :=
  guard (.regangWait m) s fun s =>
    let inM := s.iss.slices.filter fun k => (sliceMask m).contains k
    let out := s.iss.slices.filter fun k => !(sliceMask m).contains k
    let s := s.modCur fun g =>
      let g := g.modSlices inM fun _ x => { x with park := .regang m.toNat, pc := s.iss.pc }
      (g.merge inM).merge out
    if !inM.isEmpty ∧ s.cur.regangReady m.toNat s.iss.pc then s.regangMerge s.iss.gid m.toNat s.iss.pc else s

/-! ### `elect`, `nop`, `yield` (R142, R144) -/

/-- The elected lane of a role in a team: gang key and lane (R142). -/
def State.elected (s : State) (team role : Nat) : Option (Nat × Nat) :=
  (List.range 16).findSome? fun k =>
    let gid := team * 16 + k
    let g := s.gang gid
    if !g.resident ∨ g.ended ∨ g.role ≠ role then none
    else (maskBits (g.laneMask g.sliceKeys fun x => if x.halted then 0 else x.live) 64).head?.map fun i => (gid, i)

def execElect (p : PReg) (s : State) : Res :=
  guard (.elect p) s fun s =>
    let win := s.elected s.teamKey s.cur.role
    s.writeP p fun i => win == some (s.iss.gid, i)

def execNop (s : State) : Res := guard .nop s id

/-- The active gangs of a core, and its pending gangs, oldest first (R127). -/
def State.activeGangs (s : State) (core : Nat) : List Nat :=
  (s.gangs.filter fun (gid, g) => gidCore gid == core && g.resident && !g.ended && g.active.isSome).map (·.1)
def State.pendingGangs (s : State) (core : Nat) : List Nat :=
  (sortBy (s.gangs.filter fun (gid, g) => gidCore gid == core && g.resident && !g.ended && !g.swapped && g.active.isNone)
    (fun a b => decide (a.2.age ≤ b.2.age))).map (·.1)

/-- Whether a split could issue as far as its slices show: some slice runs and is neither parked nor halted (R126). -/
def Gang.runnable (g : Gang) : Bool :=
  g.slices.any fun (_, x) => x.mask &&& x.live != 0 && x.park == .none && !x.halted

/-- An event of R127 for a gang of the active set, beside those that wait already: it leaves once a pending gang is ready
(`State.settleActive`). -/
def State.leaveActive (s : State) (gid : Nat) (why : Leave) : State :=
  s.modGang gid fun g => if g.active.isSome ∧ !g.leaving.contains why then { g with leaving := g.leaving ++ [why] } else g

def execYield (s : State) : Res := guard .yield s fun s => s.leaveActive s.iss.gid .always

/-! ### Child grids (R146, R147) -/

def State.childFrom (s : State) : LaunchFrom :=
  let t := s.curTeam
  { ctx := t.ctx, tenant := t.tenant, child := true, mgmt := false }

/-- The child record, read by the gang as one load, handed over, or its rejection noted for `ljoin` (R146). -/
def State.launchChild (s : State) (va : Nat) : State :=
  match s.readLoad s.iss.gid (s.accessCtx s.teamKey) va 512 with
  | (s, .error (c, d, a)) => s.fault { code := c, detail := d, addr := a }
  | (s, .ok m) =>
    match s.checkLaunch s.coreKey s.childFrom m with
    | (s, .error r) =>
      s.modCur fun g => { g with joined := g.joined + 1, rejected := g.rejected + 1,
                                 reason := if g.rejected = 0 then r else min g.reason r }
    | (s, .ok h) =>
      let t := s.curTeam
      let (s, k) := s.addGrid { ctx := t.ctx, tenant := t.tenant, depth := s.curGrid.depth + 1, lr := h.lr, smap := h.smap,
                                places := h.places, parent := some s.iss.gid, parentGrid := t.grid, parentTeam := t.number }
      let s := s.modGrid t.grid fun g => { g with kids := g.kids + 1 }
      s.modCur fun g => { g with children := g.children ++ [k] }

/-- `launch` (R146); that it parks while the hand-over list is full is the model's choice (R88, log 78). -/
def execLaunch (a : SReg) (s : State) : Res :=
  guard (.launch a) s fun s =>
    if s.lanes.isEmpty then s
    else
      let va := (s.srcS a).toNat
      if va % 64 ≠ 0 then s.fault { code := .align, addr := va }
      else if 10 ≤ s.curGrid.depth then s.fault { code := .nestDepth }
      else if 16 ≤ s.cur.children.length ∨ !s.listRoom then s.parkSplit (.launch va)
      else s.launchChild va

/-- The word `ljoin` writes (R147). -/
def Gang.joinWord (g : Gang) : Nat :=
  g.joined % 65536 + g.rejected % 65536 * 2 ^ 16 + (if g.rejected = 0 then 0 else g.reason % 256) * 2 ^ 32
/-- The child record cleared. -/
def Gang.clearJoin (g : Gang) : Gang := { g with joined := 0, rejected := 0, reason := 0 }

def execLjoin (d : SReg) (s : State) : Res :=
  guard (.ljoin d) s fun s =>
    if s.cur.children.isEmpty then
      (s.writeS d (BitVec.ofNat 64 s.cur.joinWord)).modCur Gang.clearJoin
    else s.parkSplit (.ljoin d.val)

/-! ### Power (R148, R149) -/

/-- The allowance of a grant class in quarter-watts (R97). -/
def allowance (c : Nat) : Nat := [0, 1, 2, 4, 6, 9, 12, 18].getD c 0

/-- A request joins the controller's list, or raises the class of the team's pending one (R98, R148). -/
def State.askPower (s : State) (team cls : Nat) : State :=
  match (s.team team).request with
  | some c =>
    let m := max c cls
    let s := s.modTeam team fun t => { t with request := some m }
    { s with power := { s.power with fifo := s.power.fifo.map fun (k, x) => if k = team then (k, m) else (k, x) } }
  | none =>
    let s := s.modTeam team fun t => { t with grant := none, request := some cls }
    { s with power := { s.power with fifo := s.power.fifo ++ [(team, cls)] } }

/-- Whether a team holds a grant of at least a class. -/
def Team.holds (t : Team) (cls : Nat) : Bool :=
  match t.grant with
  | some c => decide (cls ≤ c)
  | none => false

def State.requestPower (s : State) (cls : Nat) (yield : Bool) : State :=
  if s.lanes.isEmpty ∨ s.curTeam.holds cls then s
  else
    let s := (s.askPower s.teamKey cls).parkSplit (.pwreq cls)
    if yield then s.leaveActive s.iss.gid (.parked (s.iss.slices.headD 0)) else s

def execPwreq (c : PReg) (s : State) : Res := guard (.pwreq c) s fun s => s.requestPower c.val false
def execPwreqYield (c : PReg) (s : State) : Res := guard (.pwreqYield c) s fun s => s.requestPower c.val true
def execPwrel (s : State) : Res :=
  guard .pwrel s fun s => if s.lanes.isEmpty then s else s.modTeam s.teamKey fun t => { t with grant := none }

/-! ### Power events (R98) -/

/-- Quarter-watts granted (R99). -/
def State.granted (s : State) : Nat := (s.teams.vals.map fun t => match t.grant with
  | some c => allowance c
  | none => 0).sum

/-- The oldest request is granted when its allowance fits the pool (R98). -/
def execPowerGrant (s : State) : Res :=
  .next (match s.power.fifo with
    | (team, c) :: rest =>
      if s.power.pool < s.granted + allowance c then s
      else
        let s : State := { s with power := { s.power with fifo := rest } }
        s.modTeam team fun t => { t with grant := some c, request := none }
    | [] => s)

def execPowerOverLimit (s : State) : Res := .next { s with power := { s.power with throttle := true } }
def execPowerThrottleClear (s : State) : Res := .next { s with power := { s.power with throttle := false } }

/-! ### The active set (R127, R128) -/

/-- A gang that has not been ready for 64 cycles is to leave the active set; the agenda says when (log 4), and nothing comes
of it when the gang is ready after all. -/
def execActiveSetIdleEvict (gid : Nat) (s : State) : Res := .next (s.leaveActive gid .idle)
/-- The end of a gang's quantum of 16,384 cycles. -/
def execActiveQuantumExpire (gid : Nat) (s : State) : Res := .next (s.leaveActive gid .always)
/-- The entering gang may issue (R128). -/
def execGangSwapComplete (gid : Nat) (s : State) : Res :=
  .next (s.modCore (gidCore gid) fun c => { c with swaps := c.swaps.filter fun w => w.2 != gid })

/-- Every tenant's deficit counter on every core gains its weight, up to four times it (R125). -/
def execDeficitRefill (s : State) : Res :=
  .next { s with cores := s.cores.mapVals fun c =>
    { c with deficit := c.deficit.map fun (t, d) =>
        let w := (s.tenants.get {} t).weight
        (t, min (d + w) (4 * w)) } }

end Sys2Proof.Machine
end

