-- ==== Sys2Proof/Machine/Copies.lean ====
section
/-! DEFINITION. Copies (spec/11 R238 to R253, spec/20 R375 to R377) and tensor descriptors (spec/02 R46 to R50). -/

namespace Sys2Proof.Machine

/-! ### Descriptors (R46 to R50) -/

structure Desc where
  base : Nat
  ebits : Nat
  efmt : Nat
  rank : Nat
  sizes : List Nat
  strides : List Nat
  deriving DecidableEq, Repr

/-- The fields of a descriptor's 64 bytes, if it is well formed (R47 to R49). -/
def descOf (m : Nat) : Option Desc :=
  let ctl := bits m 64 64
  let rank := bits ctl 0 3
  let sizes := (List.range 5).map fun k => bits m (128 + 32 * k) 32
  let strides := (List.range 4).map fun k => bits m (320 + 32 * k) 32
  let eb := bits ctl 16 3
  if bits ctl 45 19 ≠ 0 ∨ bits ctl 19 13 ≠ 0 ∨ bits ctl 14 2 ≠ 0 ∨ bits ctl 3 5 ≠ 0 ∨ bits m 288 32 ≠ 0 ∨
     bits m 448 64 ≠ 0 ∨ 4 < rank ∨ eb = 0 ∨ eb = 7 ∨ bits m 0 4 ≠ 0 ∨ sizes.any (· == 0) ∨
     (List.range 5).any (fun k => decide (rank < k) && sizes.getD k 1 != 1) ∨ sizes.headD 0 * 2 ^ eb % 8 ≠ 0 then none
  else some ⟨bits m 0 64, eb, bits ctl 8 6, rank, sizes, strides⟩

/-- A handle's descriptor in a context, or the detail of HANDLE_STALE (R49, R50). -/
def State.descriptor (s : State) (c handle : Nat) : Except Nat Desc :=
  let x := s.ctx c
  let slot := bits handle 0 20
  if slot = 0 ∨ 2 ^ x.dsize ≤ slot then .error 0
  else
    let m := s.devRead (x.desc + 64 * slot) 64
    let ctl := bits m 64 64
    if !bit ctl 44 then .error 1
    else if bits ctl 32 12 ≠ bits handle 20 12 then .error 0
    else match descOf m with
      | some d => .ok d
      | none => .error 2

/-! ### Records (R242, R247) -/

def CopyRec.id (r : CopyRec) (idx : Nat) : Nat := r.seq % 65536 * 1024 + idx
def State.copyRec (s : State) (core idx : Nat) : CopyRec := Tab.get {} (s.core core).copies idx
def State.setCopy (s : State) (core idx : Nat) (r : CopyRec) : State :=
  s.modCore core fun c => { c with copies := Tab.set c.copies idx r }
/-- Whether the room that a reel holds on a core needs a record at its own index (R86, R91). -/
def State.recordHeld (s : State) (core i : Nat) : Bool :=
  s.holds.any fun h => h.granted && !h.committed && (h.cores.zip h.needs).any fun (c, l) => c == core && l.contains i
/-- The lowest free record of a core (R242). -/
def State.freeCopy (s : State) (core : Nat) : Option Nat :=
  (List.range 1024).find? fun k => (s.copyRec core k).state == .gone && !s.recordHeld core k
/-- The index of the record an ID names, when its sequence number still matches. -/
def State.copyById (s : State) (core id : Nat) : Option Nat :=
  let k := id % 1024
  let r := s.copyRec core k
  if r.state != .gone ∧ r.id k = id then some k else none

/-! ### Sides -/

/-- The stream bytes of one destination sector of the piece (R243). -/
def CopyRec.sectorBytes (r : CopyRec) (sector : Nat) : List (Nat × Nat) := r.piece.filter fun x => x.2 / 16 % 256 == sector
/-- Sectors of the piece that hold a byte not yet written (R247). -/
def CopyRec.missing (r : CopyRec) : List Nat :=
  (rising (r.piece.map fun x => x.2 / 16 % 256)).filter fun k => !r.sectors.contains k

/-- The 64-byte image of a record (R247). -/
def CopyRec.image (r : CopyRec) (idx : Nat) : Nat :=
  let st := match r.state with
    | .gone => 0 | .running => 1 | .faulted => 2 | .severed => 3
  let stat := r.id idx + gidGang r.gid * 2 ^ 48 + r.fcode % 256 * 2 ^ 52 + r.fside.toNat * 2 ^ 60 + st * 2 ^ 61
  let count := r.delivered % 2 ^ 32 + r.len % 2 ^ 32 * 2 ^ 32
  let map := if r.dst = .metadata then 0 else maskOf r.missing
  -- the piece's first byte that a destination region holds; bytes outside a tensor are in none
  let off := if r.dst = .metadata then 0 else (r.piece.head?.map (·.1)).getD r.pos
  stat + count * 2 ^ 64 + (if r.state = .faulted then r.faddr else 0) % 2 ^ 64 * 2 ^ 128 + off % 2 ^ 32 * 2 ^ 192 + map * 2 ^ 256

/-- A place of a window that a copy reads or writes; a rival's copy writes none on another part (R391). -/
def State.twinMayWrite (s : State) (team acc : Nat) (l : Loc) : State × Except (FCode × Nat) Loc :=
  (s, if acc = 1 ∧ l.isRemote ∧ s.isTwin (s.team team).ctx then .error (.twinIsolated, 0) else .ok l)

/-- Where a byte of a side stands on this part or another: translated or checked now (R246). -/
def State.sidePlace (s : State) (core team : Nat) (side : CopySide) (acc addr : Nat) : State × Except (FCode × Nat) Loc :=
  match side.space with
  | .g => s.translateIn core (s.accessCtx team) (addr % 2 ^ 57) acc
  | .l => (s, .ok (.buf team .l addr))
  | .wb => (s, .ok (.buf team .wb addr))
  | .ab => (s, .ok (.buf team .ab addr))
  | .cb => (s, .ok (.buf team .cb addr))
  | .sb => (s, .error (.streamRead, 0))
  | .w =>
    match s.resolveWindow team addr 1 with
    -- a copy already checked sees only a departure (R246)
    | .error (.windowDeparted, d) => (s, .error (.windowDeparted, d))
    | .error _ =>
      match s.windowOf team with
      | some w =>
        let e := w.entries.getD (bits addr 24 8) {}
        if e.part = s.part then (s, .ok (.buf (e.core * 16 + e.tslot) .l (bits addr 0 24)))
        else s.twinMayWrite team acc (.remote e.part e.core e.tslot (bits addr 0 24))
      | none => (s, .error (.windowDeparted, 0))
    | .ok l => s.twinMayWrite team acc l

/-- A source byte: its value, that it has yet to come, or the fault of reading it. -/
inductive SrcByte where
  | val (x : Nat)
  | wait
  | bad (code : FCode) (detail addr : Nat)
  deriving DecidableEq, Repr

def State.srcByte (s : State) (core : Nat) (r : CopyRec) (p : Nat) : State × SrcByte :=
  match r.src with
  | .storage _ _ _ => (s, if r.come.contains (p / 512) then .val (Memory.read r.held p).toNat else .wait)
  | side =>
    match side.byteAt p with
    | none => (s, .val 0)
    | some a =>
      match s.sidePlace core (gidTeam r.gid) side 0 a with
      | (s, .error (c, d)) => (s, .bad c d a)
      | (s, .ok l) =>
        if l.isRemote then (s, if r.come.contains p then .val (Memory.read r.held p).toNat else .wait)
        else (s, if s.atomicHeld l then .wait else .val (s.readLoc l 1))

/-- The source bytes of a list of stream offsets: values, a wait, or the first fault. -/
def State.srcBytes (s : State) (core : Nat) (r : CopyRec) : List (Nat × Nat) → State × Except (Option (FCode × Nat × Nat)) (List (Nat × Nat))
  | [] => (s, .ok [])
  | (p, a) :: rest =>
    match s.srcByte core r p with
    | (s, .bad c d x) => (s, .error (some (c, d, x)))
    | (s, .wait) => (s, .error none)
    | (s, .val v) =>
      match s.srcBytes core r rest with
      | (s, .ok l) => (s, .ok ((a, v) :: l))
      | e => e

/-! ### Phase-bit words (R257, R258) -/

def phbP (w : Nat) : Bool := bit w 63
def phbFlt (w : Nat) : Bool := bit w 62
def phbArr (w : Nat) : Nat := bits w 54 7
def phbCnt (w : Nat) : Nat := bits w 47 7
def phbBytes (w : Nat) : Nat := bits w 0 47

/-- `check`: a phase completes when no arrival and no byte is awaited. -/
def phbCheck (w : Nat) : Nat :=
  if phbArr w = 0 ∧ phbBytes w = 0 then setBits (setBits w 63 1 (1 - (phbP w).toNat)) 54 7 (phbCnt w) else w
/-- `arrive` with expected bytes `b`. -/
def phbArrive (w b : Nat) : Nat :=
  let w := if phbArr w = 0 then setBits w 61 1 1 else setBits w 54 7 (phbArr w - 1)
  phbCheck (setBits w 0 47 (phbBytes w + b))
/-- `deliver` of `n` bytes. -/
def phbDeliver (w n : Nat) : Nat := phbCheck (setBits w 0 47 (phbBytes w + 2 ^ 47 - n % 2 ^ 47))
def phbSetFlt (w : Nat) (on : Bool) : Nat := setBits w 62 1 on.toNat

/-- A barrier word of a team's scratch changed at the scratch atomic unit (R258). -/
def State.modPhb (s : State) (team off : Nat) (f : Nat → Nat) : State :=
  s.modTeam team fun t => { t with scratch := t.scratch.writeLE off 8 (f (t.scratch.readLE off 8)) }

/-- The team whose scratch holds a copy's barrier: the destination member's for `w:` (R244); none on another part. -/
def State.barTeam (s : State) (r : CopyRec) : Option Nat :=
  match r.dst with
  | .flat .w a =>
    match s.windowOf (gidTeam r.gid) with
    | some w =>
      let e := w.entries.getD (bits a 24 8) {}
      if e.part = s.part then some (e.core * 16 + e.tslot) else none
    | none => none
  | _ => some (gidTeam r.gid)

def State.modBar (s : State) (r : CopyRec) (f : Nat → Nat) : State :=
  if r.bar = 0 then s
  else match s.barTeam r with
    | some t => s.modPhb t r.bar f
    | none => s

/-- FLT of a copy's barrier set or cleared (R246, R251, R377): here at the scratch atomic unit, on another part by an atomic that
its member's core performs. -/
def State.setFlt (s : State) (r : CopyRec) (on : Bool) : State :=
  let s := s.modBar r fun w => phbSetFlt w on
  match r.dst with
  | .flat .w a =>
    if r.bar = 0 then s
    else match s.sidePlace (gidCore r.gid) (gidTeam r.gid) r.dst 0 (a / 2 ^ 24 * 2 ^ 24 + r.bar) with
      | (s, .ok (.remote p c t off)) =>
        let op : AtomOp := if on then .or else .and
        let x := if on then 2 ^ 62 else 2 ^ 64 - 1 - 2 ^ 62
        s.sendLane r.gid ⟨0, .remote p c t off, off, 8, x, 0, true, 0⟩ 3 op.code .flag
      | _ => s
  | _ => s

/-! ### Progress (R243 to R245) -/

/-- The piece's sectors are all written: the walk goes on to the next piece. -/
def CopyRec.advance (r : CopyRec) : CopyRec :=
  if r.missing.isEmpty ∧ r.sent.isEmpty ∧ r.pos < r.len then
    { r with pos := r.pieceEnd, sectors := [] }
  else r

/-- The bytes of a sector written to their places on this part, or the first fault of a place; before the state of a cut is taken
they belong to both views (R381). -/
def State.writeBytes (s : State) (core : Nat) (r : CopyRec) : List (Nat × Nat) → State × Option (FCode × Nat × Nat)
  | [] => (s, none)
  | (a, v) :: rest =>
    match s.sidePlace core (gidTeam r.gid) r.dst 1 a with
    | (s, .error (c, d)) => (s, some (c, d, a))
    | (s, .ok l) =>
      let team := gidTeam r.gid
      (s.writeVa (s.accessCtx team) a (s.cutPauses team) l 1 v).writeBytes core r rest

/-- Whether an access waits for a line that a copy owns: one of this part, or a cell that another part sent. -/
def State.lineWanted (s : State) (core : Nat) (r : CopyRec) : Bool :=
  let hit (ls : List LaneAcc) : Bool := ls.any fun a => s.copyOwns core r a.loc
  (s.gangs.any fun (_, g) => g.ops.any (fun o => hit o.lanes) || g.sq.any fun e => hit e.lanes) ||
  (s.cores.any fun (_, k) => k.wp.any fun e => hit e.lanes) ||
  s.deferred.any fun c => (c.type == 0x01 || c.type == 0x02 || c.type == 0x04) && !s.cellWaits c

/-- Whether a copy of a window pauses until the state of a cut of its context has been taken, so that no sector reaches another part
after the marker and counts as delivered before it; one that an access waits for goes on (log 34). -/
def State.copyPauses (s : State) (core : Nat) (r : CopyRec) : Bool :=
  s.cutPauses (gidTeam r.gid) && (r.src.space == .w || r.dst.space == .w) && !s.lineWanted core r

/-- Whether the source of a copy may share bytes with its destination (R243). -/
def CopyRec.mayOverlap (r : CopyRec) : Bool :=
  match r.src, r.dst with
  | .flat x a, .flat y b =>
    if x = y then decide (a < b + r.len) && decide (b < a + r.len) else (x == .l && y == .w) || (x == .w && y == .l)
  | .storage _ _ _, _ => false
  | _, .metadata => false
  | x, y => x.space == y.space

/-- The bytes of a sector, by destination address: of a copy whose sides may overlap, those of the piece as its source was
read (R243). -/
def State.sectorSource (s : State) (core : Nat) (r : CopyRec) (sector : Nat) :
    State × Except (Option (FCode × Nat × Nat)) (List (Nat × Nat)) :=
  if r.gotPos = some r.pos then (s, .ok (r.got.filter fun x => x.1 / 16 % 256 == sector))
  else s.srcBytes core r (r.sectorBytes sector)

/-- The source of the piece read whole before any of it is written, where the sides may overlap (R243). -/
def State.readPiece (s : State) (core : Nat) (r : CopyRec) : State × Except (Option (FCode × Nat × Nat)) CopyRec :=
  if !r.mayOverlap ∨ r.gotPos = some r.pos then (s, .ok r)
  else
    match s.srcBytes core r (r.piece.filter fun x => r.missing.contains (x.2 / 16 % 256)) with
    | (s, .ok l) => (s, .ok { r with gotPos := some r.pos, got := l })
    | (s, .error e) => (s, .error e)

/-- What a sector's write meets: the fault of a source byte, then of a destination byte, if any; no byte is written
here (R246). -/
def State.sectorFault (s : State) (core : Nat) (r : CopyRec) (sector : Nat) : State × Option (Bool × FCode × Nat × Nat) :=
  match s.sectorSource core r sector with
  | (s, .error (some (c, d, a))) => (s, some (false, c, d, a))
  | (s, .error none) => (s, none)
  | (s, .ok _) =>
    (r.sectorBytes sector).foldl (fun (s, acc) (_, a) =>
      match acc with
      | some f => (s, some f)
      | none =>
        match s.sidePlace core (gidTeam r.gid) r.dst 1 a with
        | (s, .error (c, d)) => (s, some (true, c, d, a))
        | (s, .ok _) => (s, none)) (s, none)

/-- Earlier operations that still own the line of a destination byte, or an AtomicOp on it, hold the sector back (R224, R340). -/
def State.copyHeld (s : State) (core : Nat) (r : CopyRec) (a : Nat) : Bool :=
  match s.sidePlace core (gidTeam r.gid) r.dst 0 a with
  | (_, .ok l) => s.recalled (s.accessCtx (gidTeam r.gid)) l r.order
  | (_, .error _) => false

/-- Source bytes of a copy asked of another part, in one line-read entry for the first that has not been (R316). -/
def State.askLine (s : State) (core : Nat) (r : CopyRec) (id : Nat) (ps : List (Nat × Nat)) : State :=
  let c := s.accessCtx (gidTeam r.gid)
  let asked (q : Nat) : Bool := s.remotes.any fun x => match x.what with
    | .copyRead k i qs => k == core && i == id && qs.contains q
    | _ => false
  let left := (ps.map (·.1)).filter fun q => !r.come.contains q && !asked q
  match left.findSome? fun q => (r.src.byteAt q).map fun a => (q, a) with
  | none => s
  | some (_, a0) =>
    match s.sidePlace core (gidTeam r.gid) r.src 0 a0 with
    | (s, .ok (.remote part rc rt off)) =>
      let mine := left.filter fun q => match r.src.byteAt q with
        | some b => decide (b / 128 = a0 / 128)
        | none => false
      let plane := planeOf off
      let seq := s.nextSeq part plane
      let mask := maskOf (mine.filterMap fun q => (r.src.byteAt q).map fun b => b % 128 / 16)
      let s : State := { s with remotes := s.remotes ++ [{ part := part, plane := plane, seq := seq, idx := 0, what := .copyRead core id mine }] }
      s.sendCell { type := 0x02, dst := part, src := s.part, flow := s.flowOf c .copy, arg := 1, sp := 1,
                   laddr := off / 128 + rt * 2 ^ 17 + rc * 2 ^ 21, ctag := s.partnerTag c part, plane := plane,
                   body := .requests [{ data := mask * 2 ^ 56, addr := off / 128 * 32 + rt * 2 ^ 22 + rc * 2 ^ 26, win := true, eop := 6 }] }
    | (s, _) => s

/-- Splits parked on a copy's continuation go on at the successor (R248). -/
def State.wakeCopy (s : State) (gid id : Nat) : State :=
  let g := s.gang gid
  s.goOn gid (g.sliceKeys.filter fun k => (g.slice k).park == .cpyc id)

/-- A copy stops with a fault (R246): the record stays FAULTED with its final map, one fault record is written, then FLT is set and
`cp` falls (R375). While sectors are on their way to another part or a host, it only starts no other. -/
def State.stopCopy (s : State) (core idx : Nat) (side : Bool) (code : FCode) (faddr : Nat) (detail : Nat) : State :=
  let r := s.copyRec core idx
  if !r.sent.isEmpty then s.setCopy core idx { r with stop := some (r.stop.getD (side, code, faddr, detail)) }
  else
    let s := s.setCopy core idx { r with state := .faulted, fside := side, fcode := code.num, faddr := faddr, stop := none }
    let s : State := { s with nvme := s.nvme.filter fun n => !(n.core == core && n.id == r.id idx) }
    let s := s.report r.gid false r.pc r.word { code := code, detail := detail, acc := side.toNat, addr := faddr }
    let s := s.setFlt r true
    let s := s.modGang r.gid fun g => { g with cp := g.cp - 1 }
    s.wakeCopy r.gid (r.id idx)

/-- A copy that is to stop does, once nothing of it is on its way. -/
def State.settleStop (s : State) (core idx : Nat) : State :=
  let r := s.copyRec core idx
  match r.stop with
  | some (side, code, faddr, detail) => if r.state = .running ∧ r.sent.isEmpty then s.stopCopy core idx side code faddr detail else s
  | none => s

/-- Sectors of a copy acknowledged at their point of coherence: they are written (R220, R246). -/
def State.copyAcked (s : State) (core id : Nat) (sectors : List Nat) (n : Nat) : State :=
  match s.copyById core id with
  | some i =>
    let r := s.copyRec core i
    let r := { r with sectors := r.sectors ++ sectors, sent := r.sent.filter fun k => !sectors.contains k, delivered := r.delivered + n }
    -- a copy that is to stop stays at its piece (R247)
    (s.setCopy core i (if r.state = .running ∧ r.stop.isNone then r.advance else r)).settleStop core i
  | none => s

/-- The lines of host memory that source bytes of a copy lie in, by stream offset, are read through the die's L2 (R332). -/
def State.holdBytes (s : State) (core : Nat) (r : CopyRec) (ps : List Nat) : State :=
  if r.src.space != .g then s
  else ps.foldl (fun s p =>
    match (r.src.byteAt p).bind (s.peek core (s.accessCtx (gidTeam r.gid))) with
    | some l => s.holdLine core l false
    | none => s) s

/-- A sector of the next piece, while one is being written: the engine looks ahead at its source, and an absent or forbidden page
is counted and left until its piece comes (R243, R357). -/
def State.lookAhead (s : State) (core : Nat) (r : CopyRec) (sector : Nat) : State :=
  let next : CopyRec := { r with pos := r.pieceEnd, sectors := [] }
  match (next.sectorBytes sector).findSome? fun (p, _) => r.src.byteAt p with
  | none => s
  | some a =>
    if r.src.space != .g then s
    else
      let c := s.accessCtx (gidTeam r.gid)
      match State.translateIn { s with hostWho := none } core c (a % 2 ^ 57) 0 with
      | (t, .error _) => if t.hostNeed = s.hostNeed then s.specMiss core c else s.lookingAhead core c t.hostNeed
      | (_, .ok _) => s

/-- The missing sectors of the piece in the destination line of an address, with their bytes; a wait or fault of any is that of the
line (R316). -/
def State.lineSectors (s : State) (core : Nat) (r : CopyRec) : List Nat →
    State × Except (Option (FCode × Nat × Nat)) (List (Nat × List (Nat × Nat)))
  | [] => (s, .ok [])
  | k :: rest =>
    match s.sectorSource core r k with
    | (s, .error e) => (s, .error e)
    | (s, .ok l) =>
      match s.lineSectors core r rest with
      | (s, .ok t) => (s, .ok (if l.isEmpty then t else (k, l) :: t))
      | e => e

/-- One destination line on another part written with one LINE_WR, whose mask names the piece's sectors there (R316). -/
def State.sendLine (s : State) (core idx : Nat) (r : CopyRec) (part rc rt off : Nat) : State :=
  let todo := (List.range 8).map (fun k => off / 128 * 8 % 256 + k) |>.filter fun k => !r.sectors.contains k && !r.sent.contains k
  match s.lineSectors core r todo with
  | (s, .error none) => s.askLine core r (r.id idx) (todo.flatMap r.sectorBytes)
  | (s, .error (some _)) => s
  | (s, .ok all) =>
    let bytes := (all.map (·.2)).flatten
    let plane := planeOf off
    let c := s.accessCtx (gidTeam r.gid)
    let entry : Remote := ⟨part, plane, s.nextSeq part plane, 0, .copyWrite core (r.id idx) (all.map (·.1)) bytes.length⟩
    let s : State := { s with remotes := s.remotes ++ [entry] }
    let s := s.setCopy core idx { r with sent := r.sent ++ all.map (·.1) }
    s.sendCell { type := 0x01, dst := part, src := s.part, flow := s.flowOf c .copy,
                 arg := maskOf (all.map fun x => x.1 % 8), sp := 1, laddr := off / 128 + rt * 2 ^ 17 + rc * 2 ^ 21,
                 ctag := s.partnerTag c part, plane := plane, body := .line (bytes.map fun (a, v) => (a % 128, v)) r.bar }

/-- One destination sector of a running copy written at its point of coherence and counted on its barrier (R243, R244), or posted
to a host (R332); a sector of another part leaves in a LINE_WR with the rest of its line (R316). -/
def State.copySector (s : State) (core idx sector : Nat) : State :=
  let r := s.copyRec core idx
  let bs := r.sectorBytes sector
  if r.state ≠ .running ∨ r.stop.isSome ∨ r.sectors.contains sector ∨ r.sent.contains sector ∨ s.engineHeld r.gid r.gseq then s
  else if bs.isEmpty then s.lookAhead core r sector
  else if bs.any fun x => s.copyHeld core r x.2 then s
  else match s.readPiece core r with
    | (s, .error none) => s.askLine core r (r.id idx) r.piece
    | (s, .error (some _)) => s
    | (s, .ok r) =>
      match s.sectorSource core r sector with
      | (s, .error none) => s.askLine core r (r.id idx) bs
      | (s, .error (some _)) => s
      | (s, .ok vs) =>
        match s.sidePlace core (gidTeam r.gid) r.dst 1 (vs.headD (0, 0)).1 with
        | (s, .error _) => s
        | (s, .ok (.remote part rc rt off)) => s.sendLine core idx r part rc rt off
        | (s, .ok l) =>
          match s.writeBytes core r vs with
          | (_, some _) => s
          | (s, none) =>
            let s := (s.holdBytes core r (bs.map (·.1))).holdLine core l true
            match s.post l (.copyWrite core (r.id idx) [sector] bs.length) with
            | some s => s.setCopy core idx { r with sent := r.sent ++ [sector] }
            | none =>
              (s.setCopy core idx r).copyAcked core (r.id idx) [sector] bs.length |>.modBar r fun w => phbDeliver w bs.length

/-- Metadata entries a team holds in a core's queue (R275). -/
def State.metaOf (s : State) (core team : Nat) : List Nat :=
  ((s.core core).metadata.filter fun x => x.1 == team).map (·.2)

/-- The next entry of the oldest `cpyq` of a core enters the queue when it has room (R249, R275). -/
def State.enterMeta (s : State) (core idx : Nat) : State :=
  let r := s.copyRec core idx
  let team := gidTeam r.gid
  let older : Bool := (s.core core).copies.any fun (_, q) => q.state == .running && q.dst == .metadata && decide (q.order < r.order)
  if r.state ≠ .running ∨ s.engineHeld r.gid r.gseq ∨ r.dst ≠ .metadata ∨ older ∨ r.len ≤ r.entered ∨ 64 ≤ (s.core core).metadata.length ∨
     32 ≤ (s.metaOf core team).length then s
  else match s.srcBytes core r ((List.range 16).map fun k => (r.entered + k, k)) with
    | (s, .ok vs) =>
      let x := numLE (vs.map fun v => BitVec.ofNat 8 v.2)
      let s := s.holdBytes core r ((List.range 16).map fun k => r.entered + k)
      let s := s.modCore core fun k => { k with metadata := k.metadata ++ [(team, x)] }
      s.setCopy core idx { r with entered := r.entered + 16, delivered := r.delivered + 16 }
    | (s, .error _) => s

/-- The access of a copy as it asks a host. -/
def State.copyAsker (s : State) (core idx : Nat) : Asker := ⟨gidTeam (s.copyRec core idx).gid, 4, core * 1024 + idx⟩

def execCopySectorWrite (core idx sector : Nat) (s : State) : Res :=
  .next (s.attempting (s.copyAsker core idx) fun s => (if s.copyPauses core (s.copyRec core idx) then s
    else if (s.copyRec core idx).dst = .metadata then s.enterMeta core idx else s.copySector core idx sector))

/-- Whether a copy has nothing left to do. -/
def CopyRec.finished (r : CopyRec) : Bool :=
  r.sent.isEmpty && r.stop.isNone && (if r.dst = .metadata then decide (r.len ≤ r.entered) else r.missing.isEmpty && decide (r.len ≤ (r.advance).pos))

/-- A copy is done: `cp` falls, the record is freed, its continuation goes on (R245, R248). -/
def State.freeCopyRec (s : State) (core idx : Nat) (lower : Bool) : State :=
  let r := s.copyRec core idx
  let s := s.setCopy core idx { state := .gone, seq := r.seq }
  let s : State := { s with nvme := s.nvme.filter fun n => !(n.core == core && n.id == r.id idx) }
  let s := if lower then s.modGang r.gid fun g => { g with cp := g.cp - 1 } else s
  s.wakeCopy r.gid (r.id idx)

def execCopyComplete (core idx : Nat) (s : State) : Res :=
  .next (let r := s.copyRec core idx
    if r.state = .running ∧ r.finished ∧ !s.copyPauses core r then s.freeCopyRec core idx true else s)

/-! ### Faults (R246, R375) -/

/-- The page a fault of a side lies on: the translation's own for a permission fault, else the half's smallest (R375). -/
def State.faultPage (s : State) (c addr : Nat) (code : FCode) (detail : Nat) : Nat × Nat :=
  let small := if bit addr 56 then 65536 else 4096
  let block (n : Nat) : Nat × Nat := (addr / n * n, n)
  if code = .protect ∧ detail ≠ 15 then
    if bit addr 56 then
      match s.walk c (s.ctx c).pt addr with
      | .leaf e => (e.vbase, e.size)
      | _ => block small
    else
      match s.hostMaps.find? fun m => m.ld == (s.ctx c).ld && decide (m.vbase ≤ addr) && decide (addr < m.vbase + m.size) with
      | some m => (m.vbase, m.size)
      | none => block small
  else block small

/-- The lowest address of a copy's bytes within a page, on one side (R247). -/
def CopyRec.lowestOn (r : CopyRec) (side : CopySide) (base size addr : Nat) : Nat :=
  match side with
  | .flat .g a => max a base
  | .tensor _ _ _ _ _ _ =>
    ((List.range r.len).filterMap fun p => (side.byteAt p).filter fun a => decide (base ≤ a) && decide (a < base + size)).foldl min addr
  | _ => addr

/-- The address of a fault of one side, as CR.FADDR and the record show it: the lowest of the copy's bytes on the faulting page
(R247, R375); an uncorrectable error lies on a mapped page. -/
def State.faultAddr (s : State) (r : CopyRec) (side : Bool) (code : FCode) (detail a : Nat) : Nat :=
  let (b, n) := s.faultPage (s.accessCtx (gidTeam r.gid)) a (if code = .eccUncorr then .protect else code) detail
  r.lowestOn (if side then r.dst else r.src) b n a

/-- A copy meets the fault of one of its sectors (R246): its own translation or window fault, or, with `ecc`, an
uncorrectable source read. -/
def State.copyFault (s : State) (core idx sector : Nat) (ecc : Bool) : State :=
  let r := s.copyRec core idx
  let meta_ := r.dst == .metadata
  if r.state ≠ .running ∨ r.stop.isSome ∨ s.copyPauses core r ∨ s.engineHeld r.gid r.gseq ∨
     (if meta_ then decide (r.len ≤ r.entered) else r.sectors.contains sector || r.sent.contains sector) then s
  else
    let bs := if meta_ then (List.range 16).map fun k => (r.entered + k, k) else r.sectorBytes sector
    if ecc then
      match bs.findSome? fun x => r.src.byteAt x.1 with
      | some a => if r.gotPos = some r.pos then s else s.stopCopy core idx false .eccUncorr (s.faultAddr r false .eccUncorr 0 a) (r.id idx)
      | none => s
    else if meta_ then
      match s.srcBytes core r bs with
      | (s, .error (some (c, d, a))) => s.stopCopy core idx false c (s.faultAddr r false c d a) (r.id idx)
      | (s, _) => s
    else match s.sectorFault core r sector with
      | (s, some (side, c, d, a)) => s.stopCopy core idx side c (s.faultAddr r side c d a) (r.id idx)
      | (s, none) => s

def execCopyFault (core idx sector : Nat) (ecc : Bool) (s : State) : Res := .next (s.accessing (s.copyAsker core idx) fun s => s.copyFault core idx sector ecc)

/-- An NVMe read of a storage copy completes: its bytes come, or the copy stops with POISON (R249). -/
def State.nvmeDone (s : State) (core id pos status block data : Nat) : State :=
  match s.nvme.find? fun n => n.core == core && n.id == id && n.pos == pos with
  | none => s
  | some n =>
    let s : State := { s with nvme := s.nvme.filter (· != n) }
    match s.copyById core id with
    | none => s
    | some idx =>
      let r := s.copyRec core idx
      if r.state ≠ .running then s
      else if status ≠ 0 then s.stopCopy core idx false .poison block status
      else s.setCopy core idx { r with held := r.held.writeLE pos n.bytes data,
                                       come := r.come ++ (List.range (n.bytes / 512)).map fun k => pos / 512 + k }

def execNvmeCompletion (core id pos status block data : Nat) (s : State) : Res :=
  .next (s.nvmeDone core id pos status block data)

/-! ### Issue (R239 to R242) -/

/-- A record allocated and set running for the issuing gang (R242). -/
def State.startCopy (s : State) (src dst : CopySide) (len bar : Nat) (park : Bool) : State :=
  let core := s.coreKey
  match s.freeCopy core with
  | none => s
  | some k =>
    let r : CopyRec := { state := .running, seq := (s.copyRec core k).seq + 1, tslot := gidSlot s.iss.gid, gid := s.iss.gid,
                         pc := s.iss.pc, word := s.iss.word, src := src, dst := dst, len := len, bar := bar,
                         order := s.copyOrder + 1, gseq := s.cur.seq }
    let s : State := { s with copyOrder := s.copyOrder + 1 }
    let s := (s.setCopy core k r).takeCopyLines core r
    let s := s.modCur fun g => { g with cp := g.cp + 1, lastCopy := r.id k }
    if park then (s.parkSplit (.cpyc (r.id k))).leaveActive s.iss.gid (.parked (s.iss.slices.headD 0)) else s

/-- The tensor side of a copy from the four registers `sn` to `sn+3` (R240): the side, its packed length, and whether it
keeps R240's rules. -/
def State.tensorSide (s : State) (n : SReg) (d : Desc) : CopySide × Nat × Bool :=
  let r (k : Nat) : Nat := (s.iss.readS (n.val + k)).toNat
  let sx (x : Nat) : Int := (BitVec.ofNat 32 x).toInt
  let cs := [sx (bits (r 0) 32 32), sx (bits (r 1) 0 32), sx (bits (r 1) 32 32), sx (bits (r 2) 0 32), sx (bits (r 2) 32 32)]
  let es := (List.range 5).map fun k => bits (r 3) (12 * k) 12 + 1
  let w := 2 ^ d.ebits
  let len := es.foldl (· * ·) 1 * w / 8
  let ok := bits (r 3) 60 4 == 0 && (List.range 5).all (fun k => decide (k ≤ d.rank) || es.getD k 1 == 1) &&
    es.headD 1 * w % 8 == 0 && decide (cs.headD 0 * (w : Nat) % 8 = 0) && decide (len < 2 ^ 32)
  (.tensor d.base d.ebits d.sizes d.strides cs es, len, ok)

/-- The checks of a flat side that R241 lists at 3 to 5: ALIGN, PROTECT 6, then the window's own. -/
def State.sideCheck (s : State) (sp : CopySpace) (addr len : Nat) : Option (Nat × FInfo) :=
  let t := s.curTeam
  let range (ext : Nat) : Option (Nat × FInfo) :=
    if ext < addr + len then some (4, { code := .protect, detail := 6, addr := addr }) else none
  match sp with
  | .g => if 2 ^ 57 ≤ addr then some (3, { code := .align, addr := addr }) else none
  | .l => range t.scratchSize
  | .wb => range (t.extent .wb)
  | .ab => range (t.extent .ab)
  | .cb => range (t.extent .cb)
  | .sb => none
  | .w =>
    match s.resolveWindow s.teamKey addr len with
    | .error (c, d) => some (5, { code := c, detail := d, addr := addr })
    | .ok l => if l.isRemote ∧ s.isTwin t.ctx then some (6, { code := .twinIsolated, addr := addr }) else none

/-- The first of a list of found faults in R241's order. -/
def firstFault (l : List (Nat × FInfo)) : Option FInfo :=
  (sortBy l fun a b => decide (a.1 ≤ b.1)).head?.map (·.2)

def ill7 : FInfo := { code := .illegal, detail := 7 }

/-- The checks and start of `cpy` and `cpyc` (R239 to R242). -/
def State.copy (s : State) (ssp : CopySpace) (a b c : SReg) (dsp : CopySpace) (park : Bool) : State :=
  let o := (s.srcS c).toNat
  let tensor := bit o 63
  let tdst := bit o 62
  let bar := bits o 32 24
  let da := (s.srcS a).toNat
  let sa := (s.srcS b).toNat
  let cx := s.curTeam.ctx
  let tn := if tdst then a else b
  let desc := s.descriptor cx (bits (s.iss.readS tn.val).toNat 0 32)
  let barBad := (if bar % 8 ≠ 0 then [(3, ({ code := .align, addr := bar } : FInfo))] else []) ++
    (if bar ≠ 0 ∧ s.curTeam.scratchSize < bar + 8 then [(4, ({ code := .protect, detail := 6, addr := bar } : FInfo))] else [])
  let go (src dst : CopySide) (len : Nat) (faults : List (Nat × FInfo)) : State :=
    match firstFault (faults ++ barBad) with
    | some f => s.fault f
    | none => s.startCopy src dst len bar park
  if bits o 56 6 ≠ 0 then s.fault ill7
  else if !tensor then
    let len := bits o 0 32
    if tdst ∨ len = 0 then s.fault ill7
    else
      -- a rival reads a remote member live, and writes none (R391)
      let sc := (s.sideCheck ssp sa len).filter fun x => x.2.code != .twinIsolated
      go (.flat ssp sa) (.flat dsp da) len ((s.sideCheck dsp da len).toList ++ sc.toList)
  else
    let tsp := if tdst then dsp else ssp
    if bits o 0 32 ≠ 0 ∨ tsp ≠ .g ∨ tn.val < 1 ∨ 60 < tn.val then s.fault ill7
    else match desc with
      | .error d =>
        -- the length is not known, and is 1 at the least (R239)
        let other := if tdst then s.sideCheck ssp sa 1 else s.sideCheck dsp da 1
        if bits (s.iss.readS (tn.val + 3)).toNat 60 4 ≠ 0 then s.fault ill7
        else match firstFault (other.toList ++ barBad) with
        | some f => s.fault f
        | none => s.fault { code := .handleStale, detail := d }
      | .ok d =>
        let (side, len, ok) := s.tensorSide tn d
        if !ok then s.fault ill7
        else if tdst then go (.flat ssp sa) side len ((s.sideCheck ssp sa len).filter fun x => x.2.code != .twinIsolated).toList
        else go side (.flat dsp da) len (s.sideCheck dsp da len).toList

def execCpy (x : CopySpace) (a b c : SReg) (y : CopySpace) (s : State) : Res :=
  guard (.cpy x a b c y) s fun s => if s.lanes.isEmpty then s else s.copy x a b c y false

/-- The successor is checked as a continuation (R118, R108). -/
def execCpyc (x : CopySpace) (a b c : SReg) (y : CopySpace) (s : State) : Res :=
  guard (.cpyc x a b c y) s fun s =>
    if s.lanes.isEmpty then s
    else match s.checkTarget s.iss.gid (pcSucc s.iss.pc) with
      | (s, some f) => s.fault f
      | (s, none) => s.copy x a b c y true

/-- `cpyq` (R249): 1 to 64 entries of 16 bytes. -/
def execCpyq (a b : SReg) (s : State) : Res :=
  guard (.cpyq a b) s fun s =>
    let addr := (s.srcS a).toNat
    let n := (s.srcS b).toNat
    if s.lanes.isEmpty then s
    else if n < 1 ∨ 64 < n then s.fault ill7
    else if addr % 16 ≠ 0 ∨ 2 ^ 57 ≤ addr then s.fault { code := .align, addr := addr }
    else s.startCopy (.flat .g addr) .metadata (16 * n) 0 false

/-- A storage channel's entry of 32 bytes, when it is valid and granted (R249, R414, R419), and the block size it names. -/
def State.channelEntry (s : State) (c ch : Nat) : Option Nat :=
  let e := (s.ldev (s.ctx c).ld).regs.readLE (0x6000 + 32 * ch) 32
  if bit e 32 ∧ s.feature c 5 then some e else none
def channelBlock (e : Nat) : Nat := if bit e 33 then 4096 else 512

/-- The NVMe reads of a storage copy's bytes, at most 128 KB each (R249). -/
def storageReads (core id len ch block entry : Nat) : List NvmeRead :=
  (List.range ((len + 131071) / 131072)).map fun i =>
    ⟨core, id, 131072 * i, min 131072 (len - 131072 * i), ch, block + 131072 * i / channelBlock entry, entry⟩

/-- `cpys` (R249): NVMe reads of at most 128 KB each. -/
def execCpys (y : CopySpace) (a b c : SReg) (s : State) : Res :=
  guard (.cpys y a b c) s fun s =>
    let o := (s.srcS c).toNat
    let w := (s.srcS b).toNat
    let da := (s.srcS a).toNat
    let len := bits o 0 32
    let bar := bits o 32 24
    let ch := bits w 48 8
    let entry := s.channelEntry s.curTeam.ctx ch
    if s.lanes.isEmpty then s
    else if y = .w ∨ bits o 56 8 ≠ 0 ∨ len = 0 ∨ bits w 56 8 ≠ 0 ∨ len % channelBlock (entry.getD 0) ≠ 0 then s.fault ill7
    else
      let barBad := (if bar % 8 ≠ 0 then [(3, ({ code := .align, addr := bar } : FInfo))] else []) ++
        (if bar ≠ 0 ∧ s.curTeam.scratchSize < bar + 8 then [(4, ({ code := .protect, detail := 6, addr := bar } : FInfo))] else [])
      match firstFault ((s.sideCheck y da len).toList ++ barBad) with
      | some f => s.fault f
      | none =>
        match entry with
        | none => s.fault { code := .protect, detail := 8 }
        | some e =>
          let core := s.coreKey
          match s.freeCopy core with
          | none => s
          | some k =>
            let s := s.startCopy (.storage ch (bits w 0 48) e) (.flat y da) len bar false
            { s with nvme := s.nvme ++ storageReads core ((s.copyRec core k).id k) len ch (bits w 0 48) e }

/-! ### Record names and the forms that use them (R248, R250 to R252) -/

/-- The ID a record name gives, or none when it breaks R248. -/
def State.recordName (s : State) (a : SReg) : Option Nat :=
  let x := (s.srcS a).toNat
  if bit x 63 then (if x = 2 ^ 63 then some s.cur.lastCopy else none)
  else if x < 2 ^ 26 then some x else none

/-- A record name checked: ILLEGAL 7, PROTECT 7 for another team's record, else the ID and the live record's index. -/
def State.namedCopy (s : State) (a : SReg) : Except FInfo (Nat × Option Nat) :=
  match s.recordName a with
  | none => .error ill7
  | some id =>
    match s.copyById s.coreKey id with
    | some k => if (s.copyRec s.coreKey k).tslot ≠ gidSlot s.iss.gid then .error { code := .protect, detail := 7 } else .ok (id, some k)
    | none => .ok (id, none)

def execCpyst (a b : SReg) (s : State) : Res :=
  guard (.cpyst a b) s fun s =>
    let off := (s.srcS a).toNat
    if s.lanes.isEmpty then s
    else match s.namedCopy b with
      | .error f => s.fault f
      | .ok (id, k) =>
        if off % 64 ≠ 0 then s.fault { code := .align, acc := 1, addr := off }
        else if s.curTeam.scratchSize < off + 64 then s.fault { code := .protect, detail := 6, acc := 1, addr := off }
        else
          let img := match k with
            | some k => (s.copyRec s.coreKey k).image k
            | none => id
          s.addStore (.store .gang) [⟨0, .buf s.teamKey .l off, off, 64, img, 0, false, 0⟩] true

/-- The reads of a storage copy start again where its bytes have not come, through the channel as the `cpys` found it (R249, R251,
R414). -/
def State.readAgain (s : State) (core k : Nat) : State :=
  let r := s.copyRec core k
  match r.src with
  | .storage ch b e =>
    { s with nvme := s.nvme ++ (storageReads core (r.id k) r.len ch b e).filter fun x =>
        decide (r.pos / 131072 * 131072 ≤ x.pos) && !r.come.contains (x.pos / 512) }
  | _ => s

def execCpyres (a : SReg) (s : State) : Res :=
  guard (.cpyres a) s fun s =>
    if s.lanes.isEmpty then s
    else match s.namedCopy a with
      | .error f => s.fault f
      | .ok (_, none) => s
      | .ok (_, some k) =>
        let core := s.coreKey
        let r := s.copyRec core k
        -- the record runs again for this instruction (R251, R375)
        let go (s : State) (gid : Nat) : State :=
          let q : CopyRec := { r with state := .running, gid := gid, pc := s.iss.pc, word := s.iss.word, fcode := 0, faddr := 0,
                                      fside := false, gseq := (s.gang gid).seq }.advance
          (((s.setCopy core k q).setFlt q false).readAgain core k).takeCopyLines core q
        match r.state with
        | .faulted => (go s s.iss.gid).modCur fun g => { g with cp := g.cp + 1 }
        | .severed => go s r.gid
        | _ => s

/-- Sectors of a cancelled copy that were on their way to a host complete and are counted (R252). -/
def State.countPosted (s : State) (core k : Nat) : State :=
  let r := s.copyRec core k
  let mine (p : Posted) : Option Nat := match p.what with
    | .copyWrite c id _ n => if c = core ∧ id = r.id k then some n else none
    | _ => none
  let n := (s.posted.filterMap mine).sum
  let s := { s with posted := s.posted.filter fun p => (mine p).isNone }
  if n = 0 then s else s.modBar r fun w => phbDeliver w n

def execCpycan (a : SReg) (s : State) : Res :=
  guard (.cpycan a) s fun s =>
    if s.lanes.isEmpty then s
    else match s.namedCopy a with
      | .error f => s.fault f
      | .ok (_, none) => s
      | .ok (_, some k) =>
        match (s.copyRec s.coreKey k).state with
        | .running | .severed => (s.countPosted s.coreKey k).freeCopyRec s.coreKey k true
        | .faulted => (s.countPosted s.coreKey k).freeCopyRec s.coreKey k false
        | .gone => s

end Sys2Proof.Machine
end

