-- ==== Sys2Proof/Machine/Sync.lean ====
section
/-! DEFINITION. Queue tails and timelines (spec/03 R62, R78 to R80, spec/18 R343), the store queue's head (spec/10 R219,
R223), and the synchronisation instructions of spec/11: `waitcnt`, `bar`, the phase-bit forms, the timeline forms,
`qpost` and `qtail` (R254 to R263). -/

namespace Sys2Proof.Machine

/-! ### Queues: tails and completed packets -/

def State.queue (s : State) (q : Nat) : Queue := s.queues.get {} q
def State.setQueue (s : State) (q : Nat) (x : Queue) : State := { s with queues := s.queues.set q x }
def State.modQueue (s : State) (q : Nat) (f : Queue → Queue) : State := s.setQueue q (f (s.queue q))

/-- Q.STALE counts up to its maximum (R65). -/
def Queue.countStale (q : Queue) : Queue := { q with stale := min (q.stale + 1) 0xffffffff }
def Queue.size (q : Queue) : Nat := 2 ^ q.logsize

/-- A tail write of 4 bytes (R62). -/
def Queue.tailWrite (q : Queue) (new : W32) : Queue :=
  if q.state = 1 ∧ (0#32).slt (new - q.tail) ∧ (new - q.head).toNat ≤ q.size then { q with tail := new }
  else q.countStale

/-- The logical device whose queue range holds `q` (R441). -/
def State.queueOwner (s : State) (q : Nat) : Option Nat :=
  (s.lds.find? fun (_, d) => decide (d.qfirst ≤ q) && decide (q < d.qfirst + d.qcount)).map (·.1)

def pktWord (p : Packet) (k : Nat) : Nat := p.words.getD k 0
def pktOp (p : Packet) : Nat := bits (pktWord p 0) 0 8
def pktSerial (p : Packet) : Bool := bit (pktWord p 0) 8
def pktCe (p : Packet) : Bool := bit (pktWord p 0) 9
def pktTag (p : Packet) : Nat := bits (pktWord p 0) 48 16

/-- A completion entry without its phase bit (R80): the value after the raise, when the packet raised the queue's timeline; a grid
raises the one it was handed over with. `k` is the timeline that was raised, if one was. -/
def State.entryOf (s : State) (q : Nat) (p : Packet) (status : Nat) (k : Option Nat) : Nat :=
  let x := s.queue q
  let value := match k with
    | some k => if pktOp p = 2 ∨ (pktOp p = 4 ∧ k = x.tl) then (Tab.get 0 s.timelines k).toNat else 0
    | none => 0
  value + pktTag p * 2 ^ 64 + q % 1024 * 2 ^ 80 + status % 256 * 2 ^ 96 + pktOp p * 2 ^ 104

/-- A packet of a queue completes: it leaves the table, and with CE an entry waits to be written (R59, R80). -/
def State.completePacket (s : State) (q index status : Nat) (k : Option Nat) : State :=
  let x := s.queue q
  match x.table.find? fun p => p.index == index with
  | none => s
  | some p =>
    let entries := if pktCe p ∧ x.compat then x.entries ++ [s.entryOf q p status k] else x.entries
    s.setQueue q { x with table := x.table.filter fun y => y.index != index, entries := entries }

/-! ### Raises (R78, R343, R401) -/

def satisfied (t x : W64) : Bool := !((t - x).slt 0)
/-- Whether a raise changes the timeline. -/
def lifts (t v : W64) : Bool := (0#64).slt (v - t)

/-- What follows an applied raise of timeline `k`: the gang's `st` falls, a packet completes (R59, R80, R260). -/
def State.raised (s : State) (k : Nat) (who : Raiser) : State :=
  match who with
  | .none => s
  | .gang gid _ => (s.modGang gid fun g => { g with st := g.st - 1 }).settle gid
  | .packet q i => s.completePacket q i 0 (some k)
  | .launch q i st => s.completePacket q i st (some k)

/-- The raise rule (R78). -/
def State.applyRaise (s : State) (k : Nat) (v : W64) (who : Raiser) : State :=
  let t : W64 := Tab.get 0 s.timelines k
  let s : State := if lifts t v then { s with timelines := s.timelines.set k v } else s
  s.raised k who

/-- Contexts whose snapshots a raise triggers (R401). One that waits for its own raise already triggers none. -/
def State.triggered (s : State) (k : Nat) (v : W64) : List Nat :=
  let t : W64 := Tab.get 0 s.timelines k
  (s.ctxs.filter fun (_, x) => x.bound && x.snap.enable && x.snap.period != 0 && x.snap.tl == k && lifts t v &&
    !x.snap.wanted && !x.snap.holding &&
    satisfied v (BitVec.ofNat 64 x.snap.next) && !satisfied t (BitVec.ofNat 64 x.snap.next)).map (·.1)

/-- The snapshots a raise triggers are wanted, and hold it (R401). -/
def State.trigger (s : State) (k : Nat) (v : W64) : State :=
  (s.triggered k v).foldl (fun s c => s.modCtx c fun x =>
    { x with snap := { x.snap with wanted := true, holding := true, trigger := some (k, v.toNat),
                                   next := (x.snap.next + x.snap.period) % 2 ^ 64 } }) s

/-- Whether a snapshot still holds a raise (R401). -/
def State.raiseHeld (s : State) (r : Raise) : Bool :=
  s.ctxs.any fun (_, x) => x.snap.holding && x.snap.trigger == some (r.tl, r.value)

/-- A raise reaches its timeline's home (R78): it is applied at once, or waits there for earlier raises, for the hosts
that hold the line (R343), or for the cut it triggers (R401). -/
def State.raise (s : State) (k : Nat) (v : W64) (who : Raiser) : State :=
  let t : W64 := Tab.get 0 s.timelines k
  if s.raises.any fun r => r.tl == k then { s with raises := s.raises ++ [⟨k, v.toNat, who, false⟩] }
  else if !(s.triggered k v).isEmpty ∨ (lifts t v ∧ s.tlShared.contains k) then
    { s.trigger k v with raises := s.raises ++ [⟨k, v.toNat, who, true⟩] }
  else s.applyRaise k v who

/-- The oldest raise waiting at a timeline's home is applied once every host has answered and no snapshot holds it (R343,
R401); one that has come to the head there is first looked at for the snapshots it triggers. A raise that lifts the timeline
leaves the line in no host cache (R79). A raise that a poisoned queue's packet sent before is still applied (log 79). -/
def State.raiseWrite (s : State) (k : Nat) : State :=
  match s.raises.find? fun r => r.tl == k with
  | none => s
  | some r =>
    let v : W64 := BitVec.ofNat 64 r.value
    if s.raiseHeld r then s
    else if !r.seen ∧ !(s.triggered k v).isEmpty then
      { s.trigger k v with raises := s.raises.map fun x => if x = r then { x with seen := true } else x }
    else
      let s : State := { s with raises := s.raises.erase r
                                tlShared := if lifts (Tab.get 0 s.timelines k) v then s.tlShared.filter (· != k) else s.tlShared }
      s.applyRaise k v r.who

def execTimelineRaiseWrite (k : Nat) (s : State) : Res := .next (s.raiseWrite k)

/-! ### The store queue's head (R219, R223, R260 to R262) -/

/-- The head of a gang's store queue leaves it when it may: into the write path, or to do what it stands for. -/
def State.drainHead (s : State) (gid : Nat) : State :=
  match (s.gang gid).sq with
  | [] => s
  | e :: rest =>
    if !s.mayDrain gid e then s
    else
      let s := s.modGang gid fun g => { g with sq := rest }
      let s := match e.kind with
        | .store _ => s.enterWp gid e
        | .qpost _ => s.enterWp gid e
        | .marker => s
        | .qtail q tail _ =>
          (s.modQueue q fun x => x.tailWrite (BitVec.ofNat 32 tail)).modGang gid fun g => { g with st := g.st - 1 }
        | .tlsig k v => s.raise k (BitVec.ofNat 64 v) (.gang gid e.seq)
      s.settle gid

def State.drainN (s : State) (gid : Nat) : Nat → State
  | 0 => s
  | n + 1 => (s.drainHead gid).drainN gid n
/-- The store queue drains into the write path as far as it may (R256, R258). -/
def State.drainAll (s : State) (gid : Nat) : State := s.drainN gid (s.gang gid).sq.length

/-! ### `waitcnt` (R254) -/

/-- Whether the counters stand at or below the thresholds; 31 names no class. -/
def Gang.countsOk (g : Gang) (l st c t : Nat) : Bool :=
  let ok (f n : Nat) : Bool := f == 31 || decide (n ≤ f)
  ok l g.ld && ok st g.st && ok c g.cp && ok t g.tm

def execWaitcnt (l st c t : Fin 32) (y : Bool) (s : State) : Res :=
  guard (.waitcnt l st c t y) s fun s =>
    let none31 := l.val == 31 && st.val == 31 && c.val == 31 && t.val == 31
    if s.cur.countsOk l.val st.val c.val t.val then
      if none31 ∧ y then s.leaveActive s.iss.gid .always else s
    else
      let s := s.parkSplit (.waitcnt l.val st.val c.val t.val)
      if y then s.leaveActive s.iss.gid (.parked (s.iss.slices.headD 0)) else s

/-! ### Team barriers (R256) -/

/-- Whether a gang has arrived: every split with live lanes, halted ones apart, is parked at this barrier. -/
def Gang.atBar (g : Gang) (id : Nat) : Bool :=
  g.slices.any (fun (_, x) => !x.idle && !x.halted) &&
  g.slices.all fun (_, x) => x.idle || x.halted || (match x.park with
    | .bar i _ => i == id
    | _ => false)

def Team.bar (t : Team) (id : Nat) : Bar := Tab.get {} t.bars id
def State.setBar (s : State) (team id : Nat) (b : Bar) : State := s.modTeam team fun t => { t with bars := Tab.set t.bars id b }

/-- Gangs of a team that have not ended. -/
def State.liveGangs (s : State) (team : Nat) : List Nat :=
  (s.gangs.filter fun (k, g) => gidTeam k == team && g.resident && !g.ended).map (·.1)

/-- The parked splits of a gang at a barrier go on. -/
def State.leaveBar (s : State) (id gid : Nat) : State :=
  let g := s.gang gid
  s.goOn gid (g.sliceKeys.filter fun k => match (g.slice k).park with
    | .bar i _ => i == id
    | _ => false)

/-- A generation completes when its N gangs have arrived, or, with N = 0, every gang that has not ended. -/
def State.completeBar (s : State) (team id : Nat) : State :=
  let b := (s.team team).bar id
  match b.n with
  | none => s
  | some n =>
    let full := if n = 0 then (s.liveGangs team).all b.arrived.contains else decide (n ≤ b.arrived.length)
    if full ∧ !b.arrived.isEmpty then b.arrived.foldl (fun s gid => s.leaveBar id gid) (s.setBar team id {}) else s

/-- A gang's arrival, when it has just come about and its store queue has drained into the write path; the generation's first
arrival fixes N. -/
def State.arriveBar (s : State) (gid id n : Nat) : State :=
  let team := gidTeam gid
  let b := (s.team team).bar id
  if (s.gang gid).atBar id ∧ !b.arrived.contains gid ∧ (s.gang gid).sq.isEmpty then
    (s.setBar team id { n := some (b.n.getD n), arrived := b.arrived ++ [gid] }).completeBar team id
  else s

def execBar (a : SReg) (i : Fin 16) (s : State) : Res :=
  guard (.bar a i) s fun s =>
    let n := bits (s.srcS a).toNat 0 5
    if 16 < n then s.fault ill7
    else ((s.drainAll s.iss.gid).parkSplit (.bar i.val n)).arriveBar s.iss.gid i.val n

/-! ### Phase-bit forms (R258) -/

/-- The barrier word's offset for the lowest active lane; a fault; or none for a split with no active lane. -/
def State.phbPlace (s : State) (a : AReg) (acc : Nat) : Option (Except FInfo Nat) :=
  match s.lanes with
  | [] => none
  | i :: _ =>
    let off := ((s.srcA a).lane i).toNat
    if off % 8 ≠ 0 then some (.error { code := .align, acc := acc, addr := off })
    else if s.curTeam.scratchSize < off + 8 then some (.error { code := .protect, detail := 6, acc := acc, addr := off })
    else some (.ok off)

/-- The core's stores to a word are performed before the scratch atomic unit changes it (R258). -/
def State.flushWord (s : State) (core team off : Nat) : State :=
  (s.core core).wp.foldl (fun s e => e.lanes.foldl (fun s a =>
    if a.loc.overlaps a.size (.buf team .l off) 8 then s.performStore e.gid e.seq a.lane else s) s) s

/-- The word as the atomic unit holds it, with every earlier store of the gang in the write path and performed. -/
def State.phbReady (s : State) (off : Nat) : State := (s.drainAll s.iss.gid).flushWord s.coreKey s.teamKey off

/-- Whether the form must still wait: its gang's store queue has not drained (`all`), a store to the word is not performed, or an
engine owns the word's line (R224, R243, R258, R259). -/
def State.phbBlocked (s : State) (off : Nat) (all : Bool) : Bool :=
  let w : Loc := .buf s.teamKey .l off
  let hits (e : SqEntry) : Bool := e.lanes.any fun a => a.loc.overlaps a.size w 8
  s.cur.sq.any (fun e => all || hits e) || (s.core s.coreKey).wp.any hits || s.recalled (s.accessCtx s.teamKey) w (s.copyOrder + 1)

/-- Whether a phase-bit form is not ready at issue. -/
def State.phbWaits (s : State) (a : AReg) (all : Bool) : Bool :=
  match s.phbPlace a 0 with
  | some (.ok off) => (s.phbReady off).phbBlocked off all
  | _ => false

/-- A phase-bit form acts once for a split with an active lane; it stays at its packet until it may (`all`: its gang's stores come
first). -/
def State.phbAct (s : State) (a : AReg) (acc : Nat) (all : Bool) (f : State → Nat → State) : State :=
  match s.phbPlace a acc with
  | none => s
  | some (.error e) => s.fault e
  | some (.ok off) =>
    let t := s.phbReady off
    if t.phbBlocked off all then t.modSlices fun _ x => { x with pc := s.iss.pc } else f t off

def State.phbWord (s : State) (team off : Nat) : Nat := (s.team team).scratch.readLE off 8

def execPhbinit (a : AReg) (n : Fin 128) (s : State) : Res :=
  guard (.phbinit a n) s fun s =>
    s.phbAct a 1 false fun s off => s.modPhb s.teamKey off fun _ => n.val * 2 ^ 54 + n.val * 2 ^ 47
def execPhbarr (a : AReg) (s : State) : Res :=
  guard (.phbarr a) s fun s => s.phbAct a 1 true fun s off => s.modPhb s.teamKey off fun w => phbArrive w 0
def execPhbexp (b : SReg) (a : AReg) (s : State) : Res :=
  guard (.phbexp b a) s fun s =>
    let n := (s.srcS b).toNat
    if s.lanes.isEmpty then s
    else if 2 ^ 46 ≤ n then s.fault ill7
    else s.phbAct a 1 true fun s off => s.modPhb s.teamKey off fun w => phbArrive w n
def execPhbtest (a : AReg) (d : PReg) (h : Bool) (s : State) : Res :=
  guard (.phbtest a d h) s fun s =>
    s.phbAct a 0 false fun s off => s.writeP d fun _ => phbP (s.phbWord s.teamKey off) != h
/-- Whether a wait on a phase passes. -/
def phbPasses (w : Nat) (h : Bool) : Bool := phbP w != h || phbFlt w
def execPhbwait (a : AReg) (h : Bool) (s : State) : Res :=
  guard (.phbwait a h) s fun s =>
    s.phbAct a 0 false fun s off =>
      if phbPasses (s.phbWord s.teamKey off) h then s else s.parkSplit (.phbwait off h)

/-! ### Timelines (R260) -/

def ownLd (s : State) : LogDev := s.ldev (s.ctx s.curTeam.ctx).ld

/-- The checks of a timeline index: ILLEGAL 7, then PROTECT 9. -/
def State.tlCheck (s : State) (a : SReg) : Except FInfo Nat :=
  let x := (s.srcS a).toNat
  let d := ownLd s
  if 2 ^ 12 ≤ x then .error ill7
  else if d.tlfirst ≤ x ∧ x < d.tlfirst + d.tlcount then .ok x
  else .error { code := .protect, detail := 9 }

def isolated : FInfo := { code := .twinIsolated }

def execTlsig (a b : SReg) (s : State) : Res :=
  guard (.tlsig a b) s fun s =>
    if s.isTwin s.curTeam.ctx then s.fault isolated
    else match s.tlCheck a with
      | .error f => s.fault f
      | .ok k => s.addStore (.tlsig k (s.srcS b).toNat) [] true

/-- `tlwait` issues once it is satisfied (R260); until then the split stays where it is. -/
def execTlwait (a b : SReg) (s : State) : Res :=
  guard (.tlwait a b) s fun s =>
    match s.tlCheck a with
    | .error f => s.fault f
    | .ok k =>
      if satisfied (Tab.get 0 s.timelines k) (s.srcS b) then s.invalidateL1 s.coreKey
      else s.modSlices fun _ x => { x with pc := s.iss.pc }

def execTlread (d a : SReg) (s : State) : Res :=
  guard (.tlread d a) s fun s =>
    match s.tlCheck a with
    | .error f => s.fault f
    | .ok k => s.addOp (.tlread d.val s.iss.sup k) [⟨0, .cf 0 0, 0, 8, 0, 0, false, 0⟩] true

/-! ### Device-side posting (R261, R262) -/

/-- The ownership check of a queue number. -/
def State.ownQueue (s : State) (q : Nat) : Bool :=
  let d := ownLd s
  decide (d.qfirst ≤ q) && decide (q < d.qfirst + d.qcount)

def execQpost (a b : SReg) (s : State) : Res :=
  guard (.qpost a b) s fun s =>
    let x := (s.srcS a).toNat
    let va := (s.srcS b).toNat
    let q := bits x 0 10
    let c := s.accessCtx s.teamKey
    if s.isTwin s.curTeam.ctx then s.fault isolated
    else if bits x 10 22 ≠ 0 then s.fault ill7
    else if va % 64 ≠ 0 ∨ 2 ^ 57 ≤ va then s.fault { code := .align, addr := va }
    else if !s.ownQueue q then s.fault { code := .protect, detail := 10 }
    else if (s.queue q).state ≠ 1 then s.modQueue q Queue.countStale
    else
      let slot := ((s.queue q).base + 64 * (bits x 32 32 % (s.queue q).size)) % 2 ^ 57
      match s.translateIn s.coreKey c va 0 with
      | (s, .error (f, d)) => s.fault { code := f, detail := d, addr := va }
      | (s, .ok l) =>
        match s.translateIn s.coreKey c slot 1 with
        | (s, .error (f, d)) => s.fault { code := f, detail := d, acc := 1, addr := slot }
        | (s, .ok t) =>
          let s := s.addOp .qpost [⟨0, l, va, 64, 0, 0, false, 0⟩] true
          s.addStore (.qpost false) [⟨0, t, slot, 64, 0, 0, false, 0⟩] true

def execQtail (a b : SReg) (s : State) : Res :=
  guard (.qtail a b) s fun s =>
    let q := (s.srcS a).toNat
    let t := (s.srcS b).toNat
    if s.isTwin s.curTeam.ctx then s.fault isolated
    else if 2 ^ 10 ≤ q ∨ 2 ^ 32 ≤ t then s.fault ill7
    else if !s.ownQueue q then s.fault { code := .protect, detail := 10 }
    else s.addStore (.qtail q t (!bit (s.queue q).base 56)) [] true

end Sys2Proof.Machine
end

