-- ==== Sys2Proof/Machine/Matrix.lean ====
section
/-! DEFINITION. The matrix engine (spec/13 R270 to R284, spec/09 R198, R199): checks at issue, granules of a multiply,
`tzero`, `tepi`, `ttrn`, completion and faults. -/

namespace Sys2Proof.Machine

/-! ### Elements and shapes (R188, R198, R270) -/

/-- `w` bits at a bit position counted from a byte offset. -/
def elemAt (m : Memory) (off pos w : Nat) : Nat := m.readLE (off + pos / 8) 5 / 2 ^ (pos % 8) % 2 ^ w
/-- The same bits replaced. -/
def putElem (m : Memory) (off pos w x : Nat) : Memory :=
  m.writeLE (off + pos / 8) 5 (setBits (m.readLE (off + pos / 8) 5) (pos % 8) w x)

/-- The K-granule of a class; `.f32` is no matrix operand, dyadic formats stand in B only (R198). -/
def classOf : Fmt → Option Nat
  | .f19 => some 8
  | .f16 | .b16 => some 16
  | .e4m3 | .e5m2 | .e3m4 | .e3m2 | .e2m3 | .i8 | .n8 => some 32
  | .e2m1 | .i4 | .n4 | .t2 => some 64
  | .d8 | .d4 | .f32 => none

def isDyadic : Fmt → Bool
  | .d8 | .d4 => true
  | _ => false

/-- The granule of a pair of formats, if the engine takes the pair (R198, R272). -/
def granuleOf (a b : Fmt) : Option Nat :=
  match classOf a with
  | none => none
  | some g => if isDyadic b then (if g = 32 then some 64 else none) else if classOf b = some g then some g else none

/-- A C region as a scalar names it (R271). -/
def regionOf (x : W64) : CRegion :=
  let n := x.toNat
  { off := bits n 0 32, m := 16 * bits n 32 8, n := 16 * bits n 40 8, kg := bits n 48 16 }
def CRegion.shapeOk (c : CRegion) : Bool :=
  decide (16 ≤ c.m) && decide (c.m ≤ 128) && decide (16 ≤ c.n) && decide (c.n ≤ 256)

def ill5 : FInfo := { code := .illegal, detail := 5 }
def protect6 : FInfo := { code := .protect, detail := 6 }

/-- Whether `n` bytes at an offset lie inside a team's share. -/
def Team.inShare (t : Team) (sp : BufSpace) (off n : Nat) : Bool := decide (off + n ≤ t.extent sp)

/-- A tile operation starts: `tm` rises, and it takes its place in the part's issue order (R280). -/
def State.startTile (s : State) (k : TileKind) : State :=
  let op : TileOp := { gid := s.iss.gid, pc := s.iss.pc, word := s.iss.word, kind := k, order := s.copyOrder + 1, sup := s.iss.sup,
                       gseq := s.cur.seq }
  (State.modTeam { s with copyOrder := s.copyOrder + 1 } s.teamKey fun t => { t with tiles := t.tiles ++ [op] }).modCur fun g => { g with tm := g.tm + 1 }

/-- The first fault of a list of checks, in their order; `none` lets the operation start. -/
def firstBad : List (Bool × FInfo) → Option FInfo
  | [] => none
  | (b, f) :: rest => if b then some f else firstBad rest

def alignFault : FInfo := { code := .align }

/-! ### Issue -/

def State.tmmIssue (s : State) (sparse : Bool) (x : FSlot) (a b c : SReg) : State :=
  let sa := (s.srcS a).toNat
  let r := regionOf (s.srcS b)
  let sc := (s.srcS c).toNat
  let aoff := bits sa 0 32
  let boff := bits sa 32 32
  let aw := s.slotBits x
  let bw := s.slotBits ⟨sc % 8, by omega⟩
  let t := s.curTeam
  let pair := match FmtSlot.ofBits aw, FmtSlot.ofBits bw with
    | some fa, some fb => (granuleOf fa.fmt fb.fmt).map fun g => (fa.fmt.width, fb.fmt.width, g)
    | _, _ => none
  if bw = 0 then s.fault ill
  else match pair with
    | none => s.fault ill5
    | some (wa, wb, g) =>
      let k := r.kg * g
      match firstBad [(sc / 8 != 0 || !r.shapeOk || r.kg == 0, ill5),
          (aoff % 16 != 0 || boff % 16 != 0 || r.off % 16 != 0, alignFault),
          (!t.inShare .ab aoff (r.m * k * wa / 8) || !t.inShare .wb boff (k * r.n * wb / 8 / (if sparse then 2 else 1)) ||
            !t.inShare .cb r.off (4 * r.m * r.n), protect6)] with
      | some f => s.fault f
      | none => s.startTile (.tmm sparse aoff boff r aw bw)

def execTmm (x : FSlot) (a b c : SReg) (s : State) : Res :=
  guard (.tmm x a b c) s fun s => if s.lanes.isEmpty then s else s.tmmIssue false x a b c
def execTmms (x : FSlot) (a b c : SReg) (s : State) : Res :=
  guard (.tmms x a b c) s fun s => if s.lanes.isEmpty then s else s.tmmIssue true x a b c

def execTzero (a : SReg) (s : State) : Res :=
  guard (.tzero a) s fun s =>
    let r := regionOf (s.srcS a)
    if s.lanes.isEmpty then s
    else match firstBad [(!r.shapeOk, ill5), (r.off % 16 != 0, alignFault),
        (!s.curTeam.inShare .cb r.off (4 * r.m * r.n), protect6)] with
      | some f => s.fault f
      | none => s.startTile (.tzero r)

/-- The scale an operand slot applies (R197), with its descriptor checked: `side` is the SMODE that names a vector. -/
def State.scaleOf (s : State) (w : W64) (side : Nat) : Except FInfo ScaleSrc :=
  let x := w.toNat
  let mode := bits x 6 2
  if mode = 1 then .ok (.pow (BitVec.ofNat 8 (bits x 8 8)).toInt)
  else if mode = side then
    match s.descriptor s.curTeam.ctx (bits x 32 32) with
    | .error d => .error { code := .handleStale, detail := d }
    | .ok d => .ok (.vector d.base (if d.rank = 0 ∧ d.ebits = 4 then d.sizes.headD 0 else 0))
  else .ok .one

/-- Whether a scale vector has rank 1 and 16-bit elements (R277). -/
def State.scaleShape (s : State) (w : W64) (side : Nat) : Bool :=
  let x := w.toNat
  if bits x 6 2 = side then
    match s.descriptor s.curTeam.ctx (bits x 32 32) with
    | .ok d => d.rank == 0 && d.ebits == 4
    | .error _ => true
  else true

def execTepi (x : FSlot) (a b c : SReg) (s : State) : Res :=
  guard (.tepi x a b c) s fun s =>
    let r := regionOf (s.srcS a)
    let sb := (s.srcS b).toNat
    let sc := (s.srcS c).toNat
    let scales := bit sb 39
    let aw := s.slotBits ⟨bits sb 32 3, Nat.mod_lt _ (by decide)⟩
    let bw := s.slotBits ⟨bits sb 36 3, Nat.mod_lt _ (by decide)⟩
    let ow := s.slotBits x
    let ooff := bits sb 0 32
    let boff := bits sc 0 32
    let bias := bit sc 32
    let act := bits sc 33 3
    let t := s.curTeam
    let w := match FmtSlot.ofBits ow with
      | some f => f.fmt.width
      | none => 0
    let sA := if scales then s.scaleOf aw 2 else .ok .one
    let sB := if scales then s.scaleOf bw 3 else .ok .one
    if s.lanes.isEmpty then s
    else if scales ∧ (aw = 0 ∨ bw = 0) then s.fault ill
    else match firstBad [(!r.shapeOk || bit sb 35 || (!scales && bits sb 32 20 != 0) || sc / 2 ^ 36 != 0 ||
          decide (3 ≤ act) || (!bias && boff != 0) || decide (2 ≤ bits ow.toNat 6 2) ||
          (scales && (bits aw.toNat 6 2 == 3 || bits bw.toNat 6 2 == 2)), ill5)] with
      | some f => s.fault f
      | none =>
        match sA, sB with
        | .error f, _ => s.fault f
        | _, .error f => s.fault f
        | .ok sA, .ok sB =>
          match firstBad [(scales && (!s.scaleShape aw 2 || !s.scaleShape bw 3), ill5),
              (r.off % 16 != 0 || ooff % 16 != 0 || boff % 4 != 0, alignFault),
              (!t.inShare .cb r.off (4 * r.m * r.n) || !t.inShare .ab ooff (r.m * r.n * w / 8) ||
                (bias && !t.inShare .ab boff (4 * r.n)), protect6)] with
          | some f => s.fault f
          | none =>
            s.startTile (.tepi r ooff ow sA sB (16 * bits sb 40 12) (16 * bits sb 52 12) act (if bias then some boff else none))

def execTtrn (a b : SReg) (s : State) : Res :=
  guard (.ttrn a b) s fun s =>
    let sa := (s.srcS a).toNat
    let sb := (s.srcS b).toNat
    let src := bits sa 0 32
    let dst := bits sa 32 32
    let eb := bits sb 32 3
    let cols := bits sb 16 16
    let rows := bits sb 0 16
    let n := rows * cols * 2 ^ eb / 8
    let t := s.curTeam
    if s.lanes.isEmpty then s
    else match firstBad [(sb / 2 ^ 35 != 0 || decide (eb < 1) || decide (5 < eb) || rows == 0 || cols == 0 ||
          decide (4096 < rows) || decide (4096 < cols) || rows * 2 ^ eb % 8 != 0 || cols * 2 ^ eb % 8 != 0 ||
          (decide (src < dst + n) && decide (dst < src + n)), ill5),
        (src % 16 != 0 || dst % 16 != 0, alignFault),
        (!t.inShare .ab src n || !t.inShare .ab dst n, protect6)] with
      | some f => s.fault f
      | none => s.startTile (.ttrn dst src eb cols rows)

/-! ### A granule (R199, R274) -/

/-- The formats and the granule of a multiply, known to be a pair the engine takes. -/
def tmmShape (aw bw : W64) : Option (FmtSlot × FmtSlot × Nat) :=
  match FmtSlot.ofBits aw, FmtSlot.ofBits bw with
  | some a, some b => (granuleOf a.fmt b.fmt).map fun g => (a, b, g)
  | _, _ => none

/-- The nibble of an entry list for a group of the granule and a column: entries stand group by group, block by block
(R274). -/
def metaNibble (popped : List Nat) (blocks group col : Nat) : Nat :=
  bits (popped.getD (group * blocks + col / 32) 0) (4 * (col % 32)) 4

/-- The products of one element over granule `g` (R199, R274). -/
def granuleProducts (t : Team) (fa fb : FmtSlot) (sparse : Bool) (aoff boff : Nat) (c : CRegion) (gk : Nat) (popped : List Nat)
    (g i j : Nat) : List Num :=
  let k := c.kg * gk
  let a (kk : Nat) : Num := fa.readStored (elemAt t.ab aoff ((i * k + kk) * fa.fmt.width) fa.fmt.width)
  if sparse then
    let b (kk : Nat) : Num := fb.readStored (elemAt t.wb boff ((j * (k / 2) + kk) * fb.fmt.width) fb.fmt.width)
    let blocks := (c.n + 31) / 32
    (List.range (gk / 4)).flatMap fun q0 =>
      let q := g * (gk / 4) + q0
      let nib := metaNibble popped blocks q0 j
      [(a (4 * q + nib % 4)).mul (b (2 * q)), (a (4 * q + nib / 4)).mul (b (2 * q + 1))]
  else
    let b (kk : Nat) : Num := fb.readStored (elemAt t.wb boff ((j * k + kk) * fb.fmt.width) fb.fmt.width)
    (List.range gk).map fun kk => (a (g * gk + kk)).mul (b (g * gk + kk))

/-- C after one granule: each element with its exact granule sum added with one rounding (R199). -/
def granuleC (t : Team) (fa fb : FmtSlot) (sparse : Bool) (aoff boff : Nat) (c : CRegion) (gk : Nat) (popped : List Nat)
    (g : Nat) : Memory :=
  (List.range (c.m * c.n)).foldl (fun m ij =>
    let at4 := c.off + 4 * ij
    let old := shapeF32.value (m.readLE at4 4)
    let sum := granuleSum (granuleProducts t fa fb sparse aoff boff c gk popped g (ij / c.n) (ij % c.n))
    m.writeLE at4 4 (shapeF32.rne (old.add sum))) t.cb

def TileKind.isTmm : TileKind → Bool
  | .tmm _ _ _ _ _ _ => true
  | _ => false

/-- Entries that a group of a `tmms` takes, and those its next granule takes; none for the others (R274). -/
def TileOp.groupEntries (op : TileOp) : Nat × Nat :=
  match op.kind with
  | .tmm true _ _ c aw bw =>
    match tmmShape aw bw with
    | some (_, _, g) => ((c.n + 31) / 32, g / 4 * ((c.n + 31) / 32))
    | none => (0, 0)
  | _ => (0, 0)

/-- Whether a `tmms` lacks the entries of its next group (R275). -/
def State.tileStalled (s : State) (team : Nat) (op : TileOp) : Bool :=
  decide (op.popped.length < op.groupEntries.2) && decide ((s.metaOf (team / 16) team).length < op.groupEntries.1)

/-- Whether a cut stops an operation before its next granule (R284, log 34), or its twin only steps (R389). -/
def State.tilePaused (s : State) (team : Nat) (op : TileOp) : Bool :=
  (op.kind.isTmm && s.cutPauses team) || ((s.ctx (s.team team).ctx).state == .stepping && op.saved)

/-- Whether the operation that the engine of a core has begun is still on it: it is neither over, nor short of entries, nor paused
(R275, R282). -/
def State.tileTurnOn (s : State) (turn : Nat × Nat) : Bool :=
  match (s.team turn.1).tiles with
  | q :: _ => q.order == turn.2 && !s.tileStalled turn.1 q && !s.tilePaused turn.1 q
  | [] => false

/-- Whether an operation of another team of the core comes first: the engine runs one at a time, and one that it has begun it finishes;
else in issue order, in team order where two stand equal (a twin's copy of an operation and the original's). Only one that lacks
entries lets others by (R280, R282). -/
def State.tileAhead (s : State) (team : Nat) (op : TileOp) : Bool :=
  match (s.core (team / 16)).tileTurn.filter s.tileTurnOn with
  | some turn => turn.1 != team
  | none =>
    s.teams.any fun (k, t) => k / 16 == team / 16 && k != team && match t.tiles with
      | q :: _ => (decide (q.order < op.order) || (q.order == op.order && decide (k < team))) && !s.tileStalled k q && !s.tilePaused k q
      | [] => false

/-- Whether an operation waits: for the core's earlier ones, for an acquire of its gang (R222), for lines that it reads and an
earlier copy still owns (R281), or because it is paused. -/
def State.tileHeld (s : State) (team : Nat) (op : TileOp) : Bool :=
  let held (sp : CopySpace) (off n : Nat) : Bool :=
    (s.core (team / 16)).copies.any fun (_, r) => decide (r.order < op.order) && r.tslot == team % 16 &&
      (List.range (n / 128 + 2)).any fun l => r.owns sp (off / 128 * 128 + 128 * l) && decide (off / 128 * 128 + 128 * l < off + n)
  s.tilePaused team op || s.tileAhead team op ||
  match op.kind with
  | .tmm sparse aoff boff c aw bw =>
    s.engineHeld op.gid op.gseq ||
    match tmmShape aw bw with
    | some (fa, fb, g) =>
      held .ab aoff (c.m * c.kg * g * fa.fmt.width / 8) ||
      held .wb boff (c.kg * g * c.n * fb.fmt.width / 8 / (if sparse then 2 else 1))
    | none => false
  | .tepi c _ _ _ _ _ _ _ bias =>
    s.engineHeld op.gid op.gseq || (match bias with
      | some boff => held .ab boff (4 * c.n)
      | none => false)
  | .ttrn _ src eb cols rows => s.engineHeld op.gid op.gseq || held .ab src (rows * cols * 2 ^ eb / 8)
  | .tzero _ => false

/-- Whether a `tzero`, `tepi` or `ttrn` of a team is in progress: a cut waits for it (R284). -/
def State.tileInProgress (s : State) (team : Nat) : Bool :=
  match (s.team team).tiles with
  | op :: _ => !op.kind.isTmm && !s.tileHeld team op
  | [] => false

def State.setTiles (s : State) (team : Nat) (l : List TileOp) : State := s.modTeam team fun t => { t with tiles := l }

/-- A `tmms` pops the entries of the groups of its granule that it can start: those that its team's queue holds whole (R274,
R275). -/
def State.popMeta (s : State) (team need : Nat) (op : TileOp) : State × TileOp :=
  let core := team / 16
  let have_ := s.metaOf core team
  let block := max 1 op.groupEntries.1
  let n := min (need - op.popped.length) (have_.length / block * block)
  let rec dropN (k : Nat) : List (Nat × Nat) → List (Nat × Nat)
    | [] => []
    | e :: rest => if k = 0 then e :: rest else if e.1 = team then dropN (k - 1) rest else e :: dropN k rest
  (s.modCore core fun c => { c with metadata := dropN n c.metadata }, { op with popped := op.popped ++ have_.take n })

/-- The oldest tile operation of a team finishes its next granule, if it is a multiply that may go on (R199, R275,
R284). -/
def State.granule (s : State) (team : Nat) : State :=
  let t := s.team team
  match t.tiles with
  | [] => s
  | op :: rest =>
    match op.kind with
    | .tmm sparse aoff boff c aw bw =>
      match tmmShape aw bw with
      | none => s
      | some (fa, fb, g) =>
        if s.tileHeld team op ∨ c.kg ≤ op.done then s
        else
          let need := op.groupEntries.2
          let (s, op) := (s.modCore (team / 16) fun q => { q with tileTurn := some (team, op.order) }).popMeta team need op
          if op.popped.length < need then s.setTiles team (op :: rest)
          else
            let m := granuleC (s.team team) fa fb sparse aoff boff c g op.popped op.done
            s.modTeam team fun t => { t with cb := m, tiles := { op with done := op.done + 1, popped := [] } :: rest }
    | _ => s

def State.granules (s : State) (team : Nat) : Nat → State
  | 0 => s
  | n + 1 => (s.granule team).granules team n

/-! ### `tzero`, `tepi`, `ttrn` as whole acts (R276 to R279) -/

/-- The bytes of a C region made zero. -/
def zeroRegion (m : Memory) (c : CRegion) : Memory := m.paste c.off (4 * c.m * c.n) []

/-- A scale for an index: its value, or the fault of reading it (R197, R278, R283). -/
def State.scaleAt (s : State) (team : Nat) (x : ScaleSrc) (i : Nat) : State × Except (FCode × Nat × Nat) Num :=
  match x with
  | .one => (s, .ok (.fin false 1 0))
  | .pow e => (s, .ok (.fin false 1 e))
  | .vector base size =>
    if size ≤ i then (s, .ok (.fin false 0 0))
    else match s.translate team ((base + 2 * i) % 2 ^ 57) 0 with
      | (s, .ok l) =>
        let s := (s.waitLine l).holdLine (team / 16) l false
        (s, .ok (shapeF16.value (s.readLoc l 2)))
      | (s, .error (c, d)) => (s, .error (c, d, base + 2 * i))

/-- The scales of `n` indices from `i0` on, or the first fault. -/
def State.scalesFrom (s : State) (team : Nat) (x : ScaleSrc) (i0 : Nat) : Nat → State × Except (FCode × Nat × Nat) (List Num)
  | 0 => (s, .ok [])
  | n + 1 =>
    match s.scalesFrom team x i0 n with
    | (s, .error f) => (s, .error f)
    | (s, .ok l) =>
      match s.scaleAt team x (i0 + n) with
      | (s, .ok v) => (s, .ok (l ++ [v]))
      | (s, .error f) => (s, .error f)

/-- One output element of `tepi`, as stored bits (R278). -/
def tepiElem (slot : FmtSlot) (act : Nat) (x sA sB b : Num) : Nat :=
  let f (y : Num) : Num := shapeF32.value (shapeF32.rne y)
  let relu (u : Num) : Num := match u with
    | .fin true _ _ => .fin false 0 0
    | .inf true => .fin false 0 0
    | u => u
  let u := f (((x.mul sA).mul sB).add b)
  slot.write (if act = 0 then u else if act = 1 then relu u else let w := relu u; f (w.mul w))

/-- The AB share after a `tepi`, from its scales (R278). -/
def tepiOut (t : Team) (c : CRegion) (ooff : Nat) (slot : FmtSlot) (as bs : List Num) (act : Nat) (bias : Option Nat) : Memory :=
  let one : Num := .fin false 1 0
  let w := slot.fmt.width
  let outs := (List.range (c.m * c.n)).map fun ij =>
    let x := shapeF32.value (t.cb.readLE (c.off + 4 * ij) 4)
    let b := match bias with
      | some o => shapeF32.value (t.ab.readLE (o + 4 * (ij % c.n)) 4)
      | none => .fin false 0 0
    (ij, tepiElem slot act x (as.getD (ij / c.n) one) (bs.getD (ij % c.n) one) b)
  outs.foldl (fun m (ij, v) => putElem m ooff (ij * w) w v) t.ab

/-- The AB share after a `ttrn` (R279). -/
def transposed (m : Memory) (dst src eb cols rows : Nat) : Memory :=
  let w := 2 ^ eb
  (List.range (rows * cols)).foldl (fun t rc =>
    let r := rc / cols
    let c := rc % cols
    putElem t dst ((c * rows + r) * w) w (elemAt m src ((r * cols + c) * w) w)) m

/-! ### Ends (R280, R283) -/

/-- The oldest tile operation leaves; `tm` falls. -/
def State.tileDone (s : State) (team : Nat) (op : TileOp) : State :=
  ((s.modTeam team fun t => { t with tiles := t.tiles.tail }).modGang op.gid fun g => { g with tm := g.tm - 1 }).heard ⟨team, 5, 0⟩

/-- The oldest tile operation of a team finishes, when nothing holds it back (R275, R280, R281). -/
def State.tileComplete (s : State) (team : Nat) : State :=
  match (s.team team).tiles with
  | [] => s
  | op :: _ =>
    if s.tileHeld team op then s
    else match op.kind with
      | .tmm _ _ _ c _ _ =>
        let s := s.granules team (c.kg - op.done)
        match (s.team team).tiles with
        | op :: _ => if c.kg ≤ op.done then s.tileDone team op else s
        | [] => s
      | .tzero c => (s.modTeam team fun t => { t with cb := zeroRegion t.cb c }).tileDone team op
      | .ttrn dst src eb cols rows =>
        (s.modTeam team fun t => { t with ab := transposed t.ab dst src eb cols rows }).tileDone team op
      | .tepi c ooff ow sA sB row0 col0 act bias =>
        match FmtSlot.ofBits ow with
        | none => s
        | some slot =>
          match s.scalesFrom team sA row0 c.m with
          | (s, .error _) => s
          | (s, .ok as) =>
            match s.scalesFrom team sB col0 c.n with
            | (s, .error _) => s
            | (s, .ok bs) =>
              (s.modTeam team fun t => { t with ab := tepiOut t c ooff slot as bs act bias }).tileDone team op

def execTileOpComplete (team : Nat) (s : State) : Res := .next (s.attempting ⟨team, 5, 0⟩ fun s => s.tileComplete team)

/-- A tile operation ends on an uncorrectable buffer read (`ecc`), or on the translation fault of a scale (R283). -/
def State.tileFault (s : State) (team : Nat) (ecc : Bool) : State :=
  match (s.team team).tiles with
  | [] => s
  | op :: _ =>
    if s.tileHeld team op then s
    else if ecc then (s.tileDone team op).engineFault op.gid op.sup op.pc op.word { code := .eccUncorr }
    else match op.kind with
      | .tepi c _ _ sA sB row0 col0 _ _ =>
        let stop (s : State) (f : FCode × Nat × Nat) : State :=
          (s.tileDone team op).engineFault op.gid op.sup op.pc op.word { code := f.1, detail := f.2.1, addr := f.2.2 }
        match s.scalesFrom team sA row0 c.m with
        | (s, .error f) => stop s f
        | (s, .ok _) =>
          match s.scalesFrom team sB col0 c.n with
          | (s, .error f) => stop s f
          | (s, .ok _) => s
      | _ => s

def execTileOpFault (team : Nat) (ecc : Bool) (s : State) : Res := .next (s.attempting ⟨team, 5, 0⟩ fun s => s.tileFault team ecc)

end Sys2Proof.Machine
end

