-- ==== Sys2Proof/Machine/Stream.lean ====
section
/-! DEFINITION. The stream accumulator (spec/15 R287 to R305): rows, checks at issue, pairs, normalised reads, images,
REMOTE pairs, fences, completion and faults. -/

namespace Sys2Proof.Machine

def ill11 : FInfo := { code := .illegal, detail := 11 }
def ill12 : FInfo := { code := .illegal, detail := 12 }
def protect12 : FInfo := { code := .protect, detail := 12 }

/-! ### Rows and pairs (R287, R289, R293) -/

/-- The largest magnitude of an element. -/
def rowMax : Int := 2 ^ 31 - 1
def clampRow (x : Int) : Int := if rowMax < x then rowMax else if x < -rowMax then -rowMax else x
/-- The exact sum of squares of a row's elements. -/
def sumSquares (l : List Int) : Nat := (l.map fun n => (n * n).toNat).sum
/-- The element region of a row: first byte and bytes. -/
def regionsMeet (o1 l1 o2 l2 : Nat) : Bool := decide (o1 < o2 + 4 * l2) && decide (o2 < o1 + 4 * l1)

/-- A delta type as a number format, and the bytes of a packed delta (R293). -/
def deltaFmt : DeltaType → Fmt
  | .f32 => .f32 | .f16 => .f16 | .b16 => .b16 | .e4m3 => .e4m3
def deltaSize : DeltaType → Nat
  | .f32 => 4 | .f16 => 2 | .b16 => 2 | .e4m3 => 1

/-- A delta rounded to an integer at exponent `e`, and whether that saturated (R293). -/
def roundDelta (t : DeltaType) (e : Int) (raw : Nat) : Int × Bool :=
  match (deltaFmt t).value (raw % 2 ^ (8 * deltaSize t)) with
  | .nan => (0, true)
  | x =>
    let d := roundInt .nearestEven (-2 ^ 200) (2 ^ 200) (x.scale (-e))
    (clampRow d, decide (clampRow d ≠ d))

/-- One pair applied to a row, whole (R293, R301); a row has no element past its length. -/
def Row.apply (r : Row) (j : Nat) (d : Int) (sat : Bool) : Row :=
  let old := r.n.getD j 0
  let new := clampRow (old + d)
  if r.n.length ≤ j then r
  else
    { r with n := r.n.set j new, q := ((r.q : Int) + (new - old) * (new + old)).toNat
             sat := r.sat || sat || decide (new ≠ old + d) }

def Team.row (t : Team) (k : Nat) : Option Row := t.rows.find k
def State.setRow (s : State) (team k : Nat) (r : Row) : State := s.modTeam team fun t => { t with rows := t.rows.set k r }
def State.dropRow (s : State) (team k : Nat) : State := s.modTeam team fun t => { t with rows := t.rows.erase k }

/-- Whether a region meets another valid row of the team, or one that an `rsinit` is about to make (R287, R291). -/
def Team.overlapsRow (t : Team) (k off len : Nat) : Bool :=
  (t.rows.any fun (j, r) => j != k && regionsMeet off len r.off r.len) ||
  t.streams.any fun o => o.row != k && (match o.kind with
    | .init l f _ => l != 0 && regionsMeet off len f l
    | _ => false)

/-! ### Row names (R288, R291) -/

structure RowName where
  row : Nat
  span : Nat
  member : Nat
  remote : Bool
  deriving DecidableEq, Repr

def rowName (x : W64) : RowName :=
  let n := x.toNat
  { row := bits n 0 16, span := bits n 16 16, member := bits n 32 8, remote := bit n 40 }

/-- Whether a row name breaks R288 or R291's second check. -/
def badRowName (t : Team) (x : W64) (mayRemote maySpan : Bool) : Bool :=
  let r := rowName x
  x.toNat / 2 ^ 41 != 0 || decide (t.rowCount ≤ r.row) || (!r.remote && r.member != 0) || (r.remote && !mayRemote) ||
  (!maySpan && r.span != 0)

/-! ### Order (R300) -/

def StreamKind.isAdd : StreamKind → Bool
  | .add _ _ => true
  | .incoming _ _ _ _ _ => true
  | _ => false
def StreamKind.isRead : StreamKind → Bool
  | .norm _ _ _ _ _ => true
  | .normReel _ _ _ _ _ _ _ => true
  | .rsq _ => true
  | .save _ _ => true
  | _ => false
def StreamKind.isRemoteAdd : StreamKind → Bool
  | .addRemote _ _ _ _ _ => true
  | _ => false
/-- It makes the row anew. -/
def StreamKind.remakes : StreamKind → Bool
  | .init _ _ _ => true
  | .load _ _ _ => true
  | _ => false

/-- Whether an operation `a` on a row of a team, member `me`, holds back another one `b` on the same row number: adds and reads
are unordered between an add and a later read, and a read that has taken its row lets adds go on (R300, R301). Pairs from other
teams keep their own order of arrival, and the row they were checked against stays until they are applied (R294). REMOTE adds
to one member leave in issue order, and one to the team's own row keeps its place among the team's adds (R300). -/
def StreamOp.holds (me : Option Nat) (a b : StreamOp) : Bool :=
  a.row == b.row && match a.kind, b.kind with
  | .incoming _ _ _ _ _, .incoming _ _ _ _ _ => decide (a.seq < b.seq)
  | .incoming _ _ _ _ _, kb => kb.remakes
  | _, .incoming _ _ _ _ _ => false
  | .addRemote _ m _ _ sent, .addRemote _ n _ _ _ => decide (a.seq < b.seq) && m == n && !sent
  | .addRemote _ m _ _ _, kb => decide (a.seq < b.seq) && kb.isAdd && me == some m
  | ka, .addRemote _ n _ _ _ => decide (a.seq < b.seq) && ka.isAdd && me == some n
  | ka, kb =>
    decide (a.seq < b.seq) &&
    if ka.isAdd then !kb.isRead
    else if ka.isRead ∧ a.snap.isSome then !kb.isAdd
    else true

def Team.streamOp (t : Team) (seq : Nat) : Option StreamOp := t.streams.find? fun o => o.seq == seq
def Team.mayStream (t : Team) (o : StreamOp) : Bool := !t.streams.any fun a => a.holds t.member o

/-- The port an operation runs on: the add port, or the normalising port (R305); pairs that have arrived take neither. -/
def StreamKind.port : StreamKind → Option Bool
  | .init _ _ _ => some true
  | .add _ _ => some true
  | .addRemote _ _ _ _ _ => some true
  | .incoming _ _ _ _ _ => none
  | _ => some false

/-- Whether an operation has left its port: its pairs are on their way, or it was saved while its exchange went on (R304, R305,
log 82). -/
def StreamOp.offPort (o : StreamOp) : Bool :=
  match o.kind with
  | .addRemote _ _ _ _ sent => sent
  | .normReel _ _ _ _ _ _ _ => o.saved && o.snap.isSome
  | _ => false

/-- Whether a saved operation stands still while its twin steps (R389). -/
def State.streamPaused (s : State) (team : Nat) (o : StreamOp) : Bool :=
  (s.ctx (s.team team).ctx).state == .stepping && o.saved

/-- Whether an operation `a` keeps the port from another one of its core: a port runs one at a time, in issue order (R305). -/
def StreamOp.takesPort (a o : StreamOp) : Bool :=
  o.kind.port.isSome && !o.offPort && a.kind.port == o.kind.port && decide (a.order < o.order) && !a.offPort

/-- Whether an operation issued earlier on the core is on the same port (R305). -/
def State.portAhead (s : State) (team : Nat) (o : StreamOp) : Bool :=
  s.teams.any fun (k, t) => k / 16 == team / 16 && t.streams.any fun a => a.takesPort o && !s.streamPaused k a

def State.setStream (s : State) (team : Nat) (o : StreamOp) : State :=
  s.modTeam team fun t => { t with streams := t.streams.map fun p => if p.seq = o.seq then o else p }

/-- A load whose turn has come makes its row invalid until it completes (R299). -/
def State.startLoads (s : State) (team : Nat) : State :=
  let t := s.team team
  t.streams.foldl (fun s o =>
    match o.kind with
    | .load _ _ _ => if t.mayStream o then s.dropRow team o.row else s
    | _ => s) s

/-- An operation leaves its team's list; `tm` falls for one of the team's own (R290). -/
def State.endStream (s : State) (team : Nat) (o : StreamOp) : State :=
  let s := (s.modTeam team fun t => { t with streams := t.streams.filter fun p => p.seq != o.seq }).heard ⟨team, 6, o.seq⟩
  let s := match o.kind with
    | .incoming _ _ _ _ _ => s
    | _ => s.modGang o.gid fun g => { g with tm := g.tm - 1 }
  s.startLoads team

/-- A stream operation starts, in issue order, and counts on `tm` (R290, R300, R305). -/
def State.startStream (s : State) (row : Nat) (k : StreamKind) (bytes : Nat) : State :=
  let n := s.curTeam.streamSeq
  let s : State := { s with copyOrder := s.copyOrder + 1 }
  let o : StreamOp := { seq := n, gid := s.iss.gid, pc := s.iss.pc, word := s.iss.word, row := row, kind := k, order := s.copyOrder
                        bytes := bytes, sup := s.iss.sup, gseq := s.cur.seq }
  let s := s.modTeam s.teamKey fun t => { t with streams := t.streams ++ [o], streamSeq := n + 1 }
  (s.modCur fun g => { g with tm := g.tm + 1 }).startLoads s.teamKey

/-! ### Issue (R290 to R299) -/

def execRsinit (a b c : SReg) (s : State) : Res :=
  guard (.rsinit a b c) s fun s =>
    let t := s.curTeam
    let x := s.srcS a
    let sb := (s.srcS b).toNat
    let e := (s.srcS c).toInt
    let len := bits sb 0 16
    let off := bits sb 32 32
    let k := (rowName x).row
    if s.lanes.isEmpty then s
    else match firstBad [
        (badRowName t x false false || bits sb 16 16 != 0 || len % 32 != 0 || decide (16384 < len) ||
          (if len = 0 then off != 0 || e != 0 else decide (e < -40) || decide (8 < e) || t.overlapsRow k off len), ill11),
        (off % 128 != 0, alignFault), (decide (t.sbExtent < off + 4 * len), protect6)] with
      | some f => s.fault f
      | none => s.startStream k (.init len off e) 0

/-- The checks and start common to the two forms of `rsadd`: `fits` says whether the elements lie within a row length. -/
def State.rsadd (s : State) (x : W64) (type : DeltaType) (optionBad : Bool) (fits : Nat → Bool) (later : List (Bool × FInfo))
    (src : DeltaSrc) : State :=
  let t := s.curTeam
  let r := rowName x
  let own := t.row r.row
  let len := match own with
    | some w => fits w.len
    | none => true
  match firstBad ([(badRowName t x true false || optionBad || (!r.remote && !len), ill11), (own.isNone, ill12)] ++ later) with
  | some f => s.fault f
  | none =>
    if !r.remote then s.startStream r.row (.add type src) 0
    else match s.resolveWindow s.teamKey (r.member * 2 ^ 24) 0 with
      | .error (c, d) => s.fault { code := c, detail := d }
      | .ok l =>
        if l.isRemote ∧ s.isTwin t.ctx then s.fault { code := .twinIsolated }
        else
          let e := match own with
            | some w => w.e
            | none => 0
          s.startStream r.row (.addRemote type r.member e src false) 0

def execRsaddVector (x : DeltaType) (a b : SReg) (v : VReg64) (s : State) : Res :=
  guard (.rsaddVector x a b v) s fun s =>
    let sb := (s.srcS b).toNat
    let c0 := bits sb 0 32
    if s.lanes.isEmpty then s
    else
      let ps := s.lanes.map fun i => (c0 + i, (s.iss.readV v.val i).toNat)
      s.rsadd (s.srcS a) x (bits sb 32 32 != 0) (fun l => decide (c0 + 32 ≤ l)) [] (.lanes c0 ps)

def execRsaddAb (x : DeltaType) (a b c : SReg) (s : State) : Res :=
  guard (.rsaddAb x a b c) s fun s =>
    let sb := (s.srcS b).toNat
    let c0 := bits sb 0 32
    let n := bits sb 32 32
    let off := (s.srcS c).toNat
    if s.lanes.isEmpty then s
    else s.rsadd (s.srcS a) x (n == 0 || decide (16384 < n)) (fun l => decide (c0 + n ≤ l))
      [(off % 16 != 0, alignFault), (!s.curTeam.inShare .ab off (n * deltaSize x), protect6)] (.ab off c0 n)

/-- Span `k` of a grid's kept stream map: row number and member mask; none at or above the span count (R296). -/
def Grid.span (g : Grid) (k : Nat) : Option (Nat × Nat) :=
  if k < (g.smap.read 0).toNat then some (g.smap.readLE (0x60 + 64 * k) 2, g.smap.readLE (0x40 + 64 * k) 32) else none

/-- Members of a team's window on other parts that a mask names. -/
def Window.farMembers (w : Window) (self mask : Nat) : List Nat :=
  (List.range w.entries.length).filter fun m => bit mask m && (w.entries.getD m {}).part != self

/-- Whether the output of a normalised read of `len` elements meets its gains, and whether either lies outside the share (R291,
R295). -/
def normMeets (len w out gains : Nat) (nogain : Bool) : Bool :=
  !nogain && decide (out < gains + 4 * len) && decide (gains < out + len * w / 8)
def Team.normOutside (t : Team) (len w out gains : Nat) (nogain : Bool) : Bool :=
  !t.inShare .ab out (len * w / 8) || (!nogain && !t.inShare .ab gains (4 * len))

/-- The operands of a normalised read checked and the operation started (R295, R297). -/
def State.rsnorm (s : State) (f : FSlot) (a b c : SReg) (reel : Bool) : State :=
  let t := s.curTeam
  let x := s.srcS a
  let r := rowName x
  let sb := (s.srcS b).toNat
  let sc := (s.srcS c).toNat
  let out := bits sb 0 32
  let gains := bits sb 32 32
  let nogain := bit sc 32
  let fw := s.slotBits f
  let own := t.row r.row
  let len := match own with
    | some w => w.len
    | none => 0
  let w := match FmtSlot.ofBits fw with
    | some k => k.fmt.width
    | none => 0
  let span := s.curGrid.span r.span
  let spanBad := reel && (match span, t.member with
    | some (row, mask), some m => row != r.row || !bit mask m
    | _, _ => true)
  match firstBad [
      (badRowName t x false reel || spanBad || bits sc 33 31 != 0 || decide (2 ≤ bits fw.toNat 6 2) ||
        (nogain && gains != 0) || normMeets len w out gains nogain, ill11),
      (own.isNone, ill12), (out % 16 != 0 || gains % 16 != 0, alignFault), (t.normOutside len w out gains nogain, protect6),
      (reel && s.isTwin t.ctx && (match span, t.window with
        | some (_, mask), some v => !(v.farMembers s.part mask).isEmpty
        | _, _ => false), { code := .twinIsolated })] with
  | some f => s.fault f
  | none =>
    let eps := bits sc 0 32
    if reel then
      let k := t.spanCount.get 0 r.span
      let s := s.modTeam s.teamKey fun t => { t with spanCount := t.spanCount.set r.span ((k + 1) % 2 ^ 16) }
      s.startStream r.row (.normReel fw out gains eps nogain r.span k) 0
    else s.startStream r.row (.norm fw out gains eps nogain) 0

def execRsnorm (x : FSlot) (a b c : SReg) (s : State) : Res :=
  guard (.rsnorm x a b c) s fun s => if s.lanes.isEmpty then s else s.rsnorm x a b c false
def execRsnormReel (x : FSlot) (a b c : SReg) (s : State) : Res :=
  guard (.rsnormReel x a b c) s fun s => if s.lanes.isEmpty then s else s.rsnorm x a b c true

/-- `rsq` of an invalid row is no fault (R298). -/
def execRsq (a b : SReg) (s : State) : Res :=
  guard (.rsq a b) s fun s =>
    let t := s.curTeam
    let off := (s.srcS b).toNat
    if s.lanes.isEmpty then s
    else match firstBad [(badRowName t (s.srcS a) false false, ill11), (off % 16 != 0, alignFault),
        (!t.inShare .ab off 32, protect6)] with
      | some f => s.fault f
      | none => s.startStream (rowName (s.srcS a)).row (.rsq off) 0

/-- Bytes of a row image (R299). -/
def imageBytes (compact : Bool) (len : Nat) : Nat := 16 + (if compact then 2 else 4) * len

/-- `rssave` takes its destination lines at issue, as a copy does (R224, R299). -/
def execRssave (f : Bool) (a b : SReg) (s : State) : Res :=
  guard (.rssave f a b) s fun s =>
    let t := s.curTeam
    let va := (s.srcS b).toNat
    let k := (rowName (s.srcS a)).row
    let own := t.row k
    let len := match own with
      | some w => w.len
      | none => 0
    if s.lanes.isEmpty then s
    else match firstBad [(badRowName t (s.srcS a) false false, ill11), (own.isNone, ill12),
        (va % 16 != 0 || decide (2 ^ 57 ≤ va), alignFault)] with
      | some f => s.fault f
      | none =>
        let n := t.streamSeq
        let s := s.startStream k (.save f va) (imageBytes f len)
        match s.curTeam.streamOp n with
        | some o => s.takeLines s.coreKey (s.saveOwns s.teamKey o)
        | none => s

def execRsload (f : Bool) (a b c : SReg) (s : State) : Res :=
  guard (.rsload f a b c) s fun s =>
    let t := s.curTeam
    let va := (s.srcS b).toNat
    let off := bits (s.srcS c).toNat 0 32
    if s.lanes.isEmpty then s
    else match firstBad [(badRowName t (s.srcS a) false false, ill11),
        (va % 16 != 0 || decide (2 ^ 57 ≤ va) || off % 128 != 0, alignFault)] with
      | some f => s.fault f
      | none => s.startStream (rowName (s.srcS a)).row (.load f va off) 0

/-! ### Fences (R302) -/

/-- Whether every add that a fence waits for has been applied: 0 `.team`, 1 `.set`, 2 `.reel`. -/
def State.rsfenceDone (s : State) (team scope seq : Nat) : Bool :=
  let t := s.team team
  !t.streams.any fun o => decide (o.seq < seq) && (match o.kind with
    | .add _ _ => true
    | .addRemote _ m _ _ _ =>
      scope == 2 || (scope == 1 && (match t.window with
        | some w => (w.entries.getD m {}).part == s.part
        | none => true))
    | _ => false)

def State.rsfence (s : State) (scope : Nat) : State :=
  let n := s.curTeam.streamSeq
  if s.lanes.isEmpty ∨ s.rsfenceDone s.teamKey scope n then s else s.parkSplit (.rsfence scope n)

def execRsfenceTeam (s : State) : Res := guard .rsfenceTeam s fun s => s.rsfence 0
def execRsfenceSet (s : State) : Res := guard .rsfenceSet s fun s => s.rsfence 1
def execRsfenceReel (s : State) : Res := guard .rsfenceReel s fun s => s.rsfence 2

/-! ### REMOTE pairs (R294) -/

/-- The element-delta pairs of a source, in list order; AB is read now (R225, R293). -/
def State.deltas (s : State) (team : Nat) (type : DeltaType) : DeltaSrc → List (Nat × Nat)
  | .lanes _ ps => ps
  | .ab off c0 n => (List.range n).map fun k => (c0 + k, (s.team team).ab.readLE (off + k * deltaSize type) (deltaSize type))
/-- One past the last element of a source's range. -/
def DeltaSrc.hi : DeltaSrc → Nat
  | .lanes c0 _ => c0 + 32
  | .ab _ c0 n => c0 + n

/-- The sender's operation ends on the member's answer: PROTECT 12 when the member's check failed, ECC_UNCORR when its row met an
uncorrectable error (R294, R303). -/
def State.ackPairs (s : State) (team seq status : Nat) : State :=
  match (s.team team).streamOp seq with
  | none => s
  | some o =>
    if !o.kind.isRemoteAdd then s
    else
      let s := s.endStream team o
      if status = 0 then s
      else s.engineFault o.gid o.sup o.pc o.word (if status = 2 then { code := .eccUncorr } else protect12)

/-- The answer to REMOTE pairs goes back to the part that sent them. -/
def State.answerPairs (s : State) (c part core tslot seq status : Nat) : State :=
  if part = s.part then s.ackPairs (core * 16 + tslot) seq status
  else s.sendColl c 0x09 1 part (.pairsAck core tslot seq status)

/-- REMOTE pairs arrive at a member's row: checked, then applied one by one (R294, R301). -/
def State.takePairs (s : State) (team row : Nat) (e : Int) (hi : Nat) (ps : List StreamPair) (part core tslot seq : Nat) : State :=
  let t := s.team team
  let ok := match t.row row with
    | some r => r.e == e && decide (hi ≤ r.len)
    | none => false
  if !ok then s.answerPairs t.ctx part core tslot seq 1
  else
    let n := t.streamSeq
    let o : StreamOp := { seq := n, gid := team * 16, pc := 0, word := 0, row := row, kind := .incoming part core tslot seq ps }
    s.modTeam team fun t => { t with streams := t.streams ++ [o], streamSeq := n + 1 }

/-- A team's REMOTE pairs leave: converted here, carried whole to the member (R294, log 26). -/
def State.sendPairs (s : State) (team : Nat) (o : StreamOp) (type : DeltaType) (m : Nat) (e : Int) (src : DeltaSrc) : State :=
  let t := s.team team
  let ps := (s.deltas team type src).map fun (j, raw) =>
    let (d, sat) := roundDelta type e raw
    StreamPair.mk j d sat
  let s := s.setStream team { o with kind := .addRemote type m e src true }
  match t.window with
  | none => s
  | some w =>
    let en := w.entries.getD m {}
    let to_ := en.core * 16 + en.tslot
    if en.part = s.part then
      -- the member's team is still there: its slot is not freed before the add has ended (R309)
      if (s.windowTeams w.key).contains to_ ∧ (s.team to_).member = some m then
        s.takePairs to_ o.row e src.hi ps s.part (team / 16) (team % 16) o.seq
      else s.ackPairs team o.seq 1
    else if s.isTwin t.ctx then
      -- issued before the cut, and still unsent: a rival changes nothing on another part (R391)
      (s.endStream team o).engineFault o.gid o.sup o.pc o.word { code := .twinIsolated }
    else s.sendColl t.ctx 0x09 ps.length en.part (.pairs w.key m o.row e src.hi ps (team / 16) (team % 16) o.seq)

/-! ### Normalised reads (R295, R297) -/

/-- m and r of a read (R295). -/
def normFactors (q len : Nat) (e : Int) (eps : Nat) : Nat × Nat :=
  let l : Num := .fin false len 0
  let m := shapeF32.rne (((Num.fin false q (2 * e)).add ((shapeF32.value eps).mul l)).div l)
  (m, shapeF32.rne (shapeF32.value m).rsqrt)

/-- A team's AB share after a normalised read of a row's elements, and the row's marks of it. -/
def normOut (t : Team) (slot : FmtSlot) (row : Row) (m r : Nat) (out gains : Nat) (nogain : Bool) : Memory :=
  let w := slot.fmt.width
  let ys := (List.range row.len).map fun j =>
    let g : Num := if nogain then .fin false 1 0 else shapeF32.value (t.ab.readLE (gains + 4 * j) 4)
    let n := row.n.getD j 0
    let y : Num := if m = 0 then .fin false 0 0
      else ((Num.fin (decide (n < 0)) n.natAbs row.e).mul (shapeF32.value r)).mul g
    (j, slot.write y)
  ys.foldl (fun ab (j, y) => putElem ab out (j * w) w y) t.ab

/-- The output written and the row marked. -/
def State.normDone (s : State) (team : Nat) (o : StreamOp) (fw : W64) (row : Row) (q len : Nat) (sat : Bool)
    (out gains eps : Nat) (nogain : Bool) : State :=
  match FmtSlot.ofBits fw with
  | none => s
  | some slot =>
    let (m, r) := normFactors q len row.e eps
    let s := s.modTeam team fun t =>
      let rows := match t.rows.find o.row with
        | some x => t.rows.set o.row { x with lastm := m, lastr := r, lastl := len, lsat := sat }
        | none => t.rows
      { t with ab := normOut t slot row m r out gains nogain, rows := rows }
    s.endStream team o

/-- A member's contribution, as a body. -/
def contributionOf (key span k rank : Nat) (r : Row) : CellBody := .contribution key span k rank r.q r.len r.e r.sat

/-- Whether the `k`-th issue of `n` so far, modulo 2^16, is one of them (R297, R326). -/
def issued (n k : Nat) : Bool := decide ((n + 2 ^ 16 - 1 - k % 2 ^ 16) % 2 ^ 16 < 2 ^ 15)

/-- Whether a contribution or collective data comes too late: the team's operation that it is for has ended, by a fault (R297, R303,
R328). -/
def Team.tooLate (t : Team) : CellBody → Bool
  | .contribution _ span k _ _ _ _ _ => issued (t.spanCount.get 0 span) k && !t.streams.any fun o => (match o.kind with
    | .normReel _ _ _ _ _ sp n => sp == span && n == k
    | _ => false)
  | .coll _ _ tag k _ _ => issued (t.collCount.get 0 tag) k && !t.colls.any fun o => o.tag == tag && o.k == k
  | .collAck _ _ tag k => issued (t.collCount.get 0 tag) k && !t.colls.any fun o => o.tag == tag && o.k == k
  | _ => false

/-- A contribution reaches a team of this part that runs a member of the span (R297). -/
def State.keepEarly (s : State) (team : Nat) (b : CellBody) : State :=
  s.modTeam team fun t => if t.tooLate b then t else { t with early := t.early ++ [b] }

/-- A member's contribution goes to every member of the span, itself included. -/
def State.contribute (s : State) (team span k : Nat) (r : Row) : State :=
  let t := s.team team
  match t.window, t.member, (s.grid t.grid).span span with
  | some w, some me, some (_, mask) =>
    let b := contributionOf w.key span k me r
    let here := (s.windowTeams w.key).filter fun x => match (s.team x).member with
      | some m => bit mask m
      | none => false
    let s := here.foldl (fun s x => s.keepEarly x b) s
    let far := ((w.farMembers s.part mask).map fun m => (w.entries.getD m {}).part).foldl
      (fun l p => if l.contains p then l else l ++ [p]) []
    far.foldl (fun s p => s.sendColl t.ctx 0x09 1 p b) s
  | _, _, _ => s

/-- The contributions held for an issue, by rank: Q, L, e, SAT. -/
def Team.contributions (t : Team) (span k : Nat) : Tab (Nat × Nat × Int × Bool) :=
  t.early.filterMap fun b => match b with
    | .contribution _ sp kk rank q len e sat => if sp = span ∧ kk = k then some (rank, (q, len, e, sat)) else none
    | _ => none
def State.dropContributions (s : State) (team span k : Nat) : State :=
  s.modTeam team fun t => { t with early := t.early.filter fun b => match b with
    | .contribution _ sp kk _ _ _ _ _ => !(sp == span && kk == k)
    | _ => true }

/-- The members of a span, from a team's grid. -/
def State.spanMembers (s : State) (team span : Nat) : List Nat :=
  match (s.grid (s.team team).grid).span span with
  | some (_, mask) => maskBits mask 256
  | none => []

/-! ### Images (R298, R299) -/

/-- The record of `rsq`, as a 32-byte number. -/
def rsqRecord (r : Option Row) : Nat :=
  match r with
  | none => 0
  | some r =>
    r.q % 2 ^ 80 + (r.e % 256).toNat * 2 ^ 80 + (r.sat.toNat + 2 + 4 * r.lsat.toNat) * 2 ^ 88 + r.len * 2 ^ 96 +
    r.lastm * 2 ^ 128 + r.lastr * 2 ^ 160 + r.lastl * 2 ^ 192

/-- An element as a compact image holds it. -/
def compactElem (e n : Int) : Nat := shapeB16.rne (.fin (decide (n < 0)) n.natAbs e)

/-- The image of a row, as bytes from its start. -/
def rowImage (compact : Bool) (r : Row) : List Byte :=
  bytesLE 10 (if compact then 0 else r.q) ++ bytesLE 1 (r.e % 256).toNat ++ bytesLE 1 r.sat.toNat ++
  bytesLE 2 (r.len / 32) ++ bytesLE 1 (if compact then 2 else 1) ++ bytesLE 1 0 ++
  r.n.flatMap fun n => if compact then bytesLE 2 (compactElem r.e n) else bytesLE 4 (n % 2 ^ 32).toNat

/-- The element a compact image rebuilds (R299, log 25). -/
def rebuilt (e : Int) (w : Nat) : Int :=
  match (shapeB16.value w).scale (-e) with
  | .fin neg m x =>
    if 0 ≤ x ∨ m % 2 ^ (-x).toNat = 0 then
      let k : Int := (if 0 ≤ x then m * 2 ^ x.toNat else m / 2 ^ (-x).toNat : Nat)
      clampRow (if neg then -k else k)
    else clampRow (Config.looseElement w e)
  | _ => clampRow (Config.looseElement w e)

/-- 16 bytes at a `g:` address for a team, or the fault of its translation. -/
def State.readSector (s : State) (team va : Nat) : State × Except (FCode × Nat × Nat) Nat :=
  match s.translate team (va % 2 ^ 57) 0 with
  | (s, .ok l) => (((s.waitLine l).holdLine (team / 16) l false), .ok (s.readLoc l 16))
  | (s, .error (c, d)) => (s, .error (c, d, va))

/-- `n` sectors from `va`, as one number. -/
def State.readSectors (s : State) (team va : Nat) : Nat → State × Except (FCode × Nat × Nat) Nat
  | 0 => (s, .ok 0)
  | n + 1 =>
    match s.readSectors team va n with
    | (s, .error f) => (s, .error f)
    | (s, .ok x) =>
      match s.readSector team (va + 16 * n) with
      | (s, .ok y) => (s, .ok (x + y * 256 ^ (16 * n)))
      | (s, .error f) => (s, .error f)

/-- Bytes of an `rssave` written sector by sector, up to the first fault of a translation (R303); those that CXL.io carries are posted
(R332). -/
def State.writeSectors (s : State) (team seq : Nat) : Nat → List Byte → Nat → State × Option (FCode × Nat × Nat)
  | _, [], _ => (s, none)
  | _, _, 0 => (s, none)
  | va, bs, fuel + 1 =>
    let now := bs.take (16 - va % 16)
    match s.translate team (va % 2 ^ 57) 1 with
    | (s, .error (c, d)) => (s, some (c, d, va))
    | (s, .ok l) =>
      let s := (s.writeVa (s.accessCtx team) (va % 2 ^ 57) (s.cutPauses team) l now.length (numLE now)).holdLine (team / 16) l true
      ((s.post l (.streamWrite team seq)).getD s).writeSectors team seq (va + now.length) (bs.drop (16 - va % 16)) fuel

/-- What reading an image answers: the row, or the fault that ends the load (R299, R303). -/
def State.loadImage (s : State) (team : Nat) (o : StreamOp) (compact : Bool) (va off : Nat) :
    State × Except (FCode × Nat × Nat) Row :=
  match s.readSector team va with
  | (s, .error f) => (s, .error f)
  | (s, .ok h) =>
    let bad : FCode × Nat × Nat := (.illegal, 11, 0)
    let e : Int := (BitVec.ofNat 8 (bits h 80 8)).toInt
    let len := 32 * bits h 96 16
    let t := s.team team
    if bits h 112 8 ≠ (if compact then 2 else 1) ∨ len < 32 ∨ 16384 < len ∨ e < -40 ∨ 8 < e ∨ bits h 120 8 ≠ 0 ∨
       bits h 89 7 ≠ 0 ∨ (compact ∧ bits h 0 80 ≠ 0) ∨ t.overlapsRow o.row off len then (s, .error bad)
    else if t.sbExtent < off + 4 * len then (s, .error (.protect, 6, 0))
    else match s.readSectors team (va + 16) ((if compact then 2 else 4) * len / 16) with
      | (s, .error f) => (s, .error f)
      | (s, .ok x) =>
        let ns : List Int := (List.range len).map fun j =>
          if compact then rebuilt e (bits x (16 * j) 16) else (BitVec.ofNat 32 (bits x (32 * j) 32)).toInt
        let q := sumSquares ns
        if !compact ∧ (ns.contains (-2 ^ 31) ∨ q ≠ bits h 0 80) then (s, .error bad)
        else (s, .ok { len := len, off := off, e := e, n := ns, q := q, sat := bit h 88 })

/-! ### Progress -/

/-- Earlier engine operations own a line that an `rssave` writes: it waits (R224). -/
def State.saveHeld (s : State) (team : Nat) (o : StreamOp) (va : Nat) : Bool :=
  (List.range (o.bytes / 128 + 2)).any fun k =>
    let a := va / 128 * 128 + 128 * k
    decide (a < va + o.bytes) && match s.peek (team / 16) (s.accessCtx team) (a % 2 ^ 57) with
      | some l => s.recalled (s.accessCtx team) l o.order
      | none => false

/-- Whether an operation reads memory or AB after its issue (R222, R225). -/
def StreamKind.readsLater : StreamKind → Bool
  | .add _ (.ab _ _ _) => true
  | .addRemote _ _ _ (.ab _ _ _) _ => true
  | .norm _ _ _ _ nogain => !nogain
  | .normReel _ _ _ _ nogain _ _ => !nogain
  | .load _ _ _ => true
  | _ => false

/-- Whether an operation waits: for others on its row (R300), for an acquire of its gang (R222), for lines that an earlier engine
operation owns (R224), or because its twin steps (R389). -/
def State.streamWaits (s : State) (team : Nat) (o : StreamOp) : Bool :=
  !(s.team team).mayStream o || s.streamPaused team o ||
  (o.kind.readsLater && s.engineHeld o.gid o.gseq) ||
  match o.kind with
  | .save _ va => s.saveHeld team o va
  | _ => false

/-- Whether an operation waits for any of these, or for its port (R305). An `rsnorm.reel` takes its row, and sends its contribution,
before its turn on the port comes: members on one core need each other's (R297, log 82). -/
def State.streamHeld (s : State) (team : Nat) (o : StreamOp) : Bool := s.streamWaits team o || s.portAhead team o

def StreamKind.isReelNorm : StreamKind → Bool
  | .normReel _ _ _ _ _ _ _ => true
  | _ => false

/-- Whether a member of a span has departed (R297). -/
def State.spanGone (s : State) (team span : Nat) : Bool :=
  (s.spanMembers team span).any fun m => match (s.team team).window with
    | some w => (w.entries.getD m {}).state == 3
    | none => false

/-- Whether an `rsnorm.reel` has taken its row and still needs another member's contribution (R297). -/
def State.lacksMembers (s : State) (team : Nat) (o : StreamOp) : Bool :=
  match o.kind, o.snap with
  | .normReel _ _ _ _ _ span k, some r =>
    let got := (s.team team).contributions span k
    !((s.spanMembers team span).all fun m => got.any fun x => x.1 == m) && !s.spanGone team span &&
      !got.any fun x => x.2.2.2.1 != r.e
  | _, _ => false

/-- The operations of a core that go no further before another member acts, or while a twin steps, given those that `stuck` names:
they, and those that wait behind one on its row or port. -/
def State.stuckBehind (s : State) (all : List (Nat × StreamOp)) (stuck : List (Nat × Nat)) : List (Nat × Nat) :=
  (all.filter fun (k, o) => s.lacksMembers k o || s.streamPaused k o || all.any fun (j, a) => stuck.contains (j, a.seq) &&
    ((j == k && a.holds (s.team k).member o) || (a.takesPort o && !(o.kind.isReelNorm && o.snap.isNone)))).map fun (k, o) => (k, o.seq)
def State.stuckIn (s : State) (all : List (Nat × StreamOp)) : Nat → List (Nat × Nat)
  | 0 => []
  | n + 1 => s.stuckBehind all (s.stuckIn all n)

/-- The stream operations of a core that a cut cannot wait for (R304): team and number. -/
def State.streamsStuck (s : State) (core : Nat) : List (Nat × Nat) :=
  let all := (s.teams.filter fun x => x.1 / 16 == core).flatMap fun (k, t) => t.streams.map fun o => (k, o)
  s.stuckIn all (all.length + 1)

/-- Whether an operation of a team may still go on: a cut waits for it. An `rsnorm.reel` that lacks contributions is saved, and so is
what waits behind it (R304). -/
def State.streamInProgress (s : State) (team : Nat) : Bool :=
  let stuck := s.streamsStuck (team / 16)
  (s.team team).streams.any fun o => !stuck.contains (team, o.seq)

/-- Whether the pairs and contributions that a team's operations have for other members have left, but for what a cut cannot wait for
(R304). -/
def State.streamsSent (s : State) (team : Nat) : Bool :=
  let stuck := s.streamsStuck (team / 16)
  (s.team team).streams.all fun o => stuck.contains (team, o.seq) || match o.kind with
    | .addRemote _ _ _ _ sent => sent
    | .normReel _ _ _ _ _ _ _ => o.snap.isSome
    | _ => true

/-- Whether an add names elements past the row as it now stands: an `rsinit` or `rsload` that was still to act at the issue of
the add has made the row anew, and shorter (log 80). -/
def StreamOp.tooLong (o : StreamOp) (r : Row) : Bool :=
  match o.kind with
  | .add _ src => decide (r.len < src.hi)
  | _ => false

/-- A row that a read has taken; what an `rssave` writes is the image of that row. -/
def StreamOp.take (o : StreamOp) (r : Row) : StreamOp :=
  { o with snap := some r
           bytes := match o.kind with
             | .save compact _ => imageBytes compact r.len
             | _ => o.bytes }

/-- The fault of a normalised read whose row was made anew after its issue, with another length (log 80). -/
def Team.normLate (t : Team) (fw : W64) (len out gains : Nat) (nogain : Bool) : Option FInfo :=
  let w := match FmtSlot.ofBits fw with
    | some k => k.fmt.width
    | none => 0
  if normMeets len w out gains nogain then some ill11
  else if t.normOutside len w out gains nogain then some protect6
  else none

/-- One pair applied, REMOTE pairs sent, or a row taken by a read (R293, R294, R301). -/
def State.streamPair (s : State) (team seq : Nat) : State :=
  let t := s.team team
  match t.streamOp seq with
  | none => s
  | some o =>
    if (if o.kind.isReelNorm then s.streamWaits team o else s.streamHeld team o) then s
    else match o.kind, t.row o.row with
      | .add type src, some r =>
        if o.tooLong r then s
        else match (s.deltas team type src)[o.applied]? with
        | some (j, raw) =>
          let (d, sat) := roundDelta type r.e raw
          (s.setRow team o.row (r.apply j d sat)).setStream team { o with applied := o.applied + 1 }
        | none => s
      | .incoming _ _ _ _ ps, some r =>
        match ps[o.applied]? with
        | some p => (s.setRow team o.row (r.apply p.elem p.delta p.sat)).setStream team { o with applied := o.applied + 1 }
        | none => s
      | .addRemote type m e src false, _ => s.sendPairs team o type m e src
      | .normReel _ _ _ _ _ span k, some r =>
        if o.snap.isSome then s else (s.setStream team (o.take r)).contribute team span k r
      | k, some r => if k.isRead ∧ o.snap.isNone then s.setStream team (o.take r) else s
      | _, none => s

def State.streamPairs (s : State) (team seq : Nat) : Nat → State
  | 0 => s
  | n + 1 => (s.streamPair team seq).streamPairs team seq n

/-- An `rssave` that has written its sectors ends when every posted one has been acknowledged (R335). -/
def State.saveEnds (s : State) (team seq : Nat) : State :=
  match (s.team team).streamOp seq with
  | some o =>
    let save : Bool := match o.kind with
      | .save _ _ => true
      | _ => false
    if save ∧ o.applied = 1 ∧ !(s.posted.any fun p => p.what == .streamWrite team seq) then s.endStream team o else s
  | none => s

/-- A stream operation does what it still has to do and finishes, when nothing holds it back and no fault ends it (R290,
R303). A REMOTE add sends its pairs and finishes on the answer. -/
def State.streamComplete (s : State) (team seq : Nat) : State :=
  match (s.team team).streamOp seq with
  | none => s
  | some o =>
    if s.streamHeld team o then (if o.kind.isReelNorm then s.streamPair team seq else s)
    else match o.kind with
      | .init len off e =>
        let s := if len = 0 then s.dropRow team o.row
          else s.setRow team o.row { len := len, off := off, e := e, n := List.replicate len 0, q := 0 }
        s.endStream team o
      | .add type src =>
        match (s.team team).row o.row with
        | none => s
        | some r =>
          if o.tooLong r then s
          else (s.streamPairs team seq ((s.deltas team type src).length - o.applied)).endStream team o
      | .incoming part core tslot k ps =>
        if ((s.team team).row o.row).isNone then s
        else
          let s := (s.streamPairs team seq (ps.length - o.applied)).endStream team o
          s.answerPairs (s.team team).ctx part core tslot k 0
      | .addRemote _ _ _ _ sent => if sent then s else s.streamPair team seq
      | .norm fw out gains eps nogain =>
        let s := s.streamPair team seq
        match ((s.team team).streamOp seq).bind (·.snap) with
        | some r =>
          if ((s.team team).normLate fw r.len out gains nogain).isSome then s
          else s.normDone team o fw r r.q r.len r.sat out gains eps nogain
        | none => s
      | .normReel fw out gains eps nogain span k =>
        let s := s.streamPair team seq
        match ((s.team team).streamOp seq).bind (·.snap) with
        | none => s
        | some r =>
          let got := (s.team team).contributions span k
          let ms := s.spanMembers team span
          if !(ms.all fun m => got.any fun x => x.1 == m) ∨ got.any (fun x => x.2.2.2.1 != r.e) ∨
             ((s.team team).normLate fw r.len out gains nogain).isSome then s
          else
            let q := (got.map fun x => x.2.1).sum
            let len := (got.map fun x => x.2.2.1).sum
            let s := s.normDone team o fw r q len (got.any fun x => x.2.2.2.2) out gains eps nogain
            s.dropContributions team span k
      | .rsq off =>
        let r := if o.snap.isSome then o.snap else (s.team team).row o.row
        (s.modTeam team fun t => { t with ab := t.ab.writeLE off 32 (rsqRecord r) }).endStream team o
      | .save compact va =>
        let s := s.streamPair team seq
        match ((s.team team).streamOp seq).bind (·.snap) with
        | none => s
        | some r =>
          let bs := rowImage compact r
          if o.applied = 1 then s
          else match s.writeSectors team seq va bs bs.length with
            | (s, none) => (s.setStream team { o.take r with applied := 1 }).saveEnds team seq
            | (_, some _) => s
      | .load compact va off =>
        match s.loadImage team o compact va off with
        | (s, .ok r) => (s.setRow team o.row r).endStream team o
        | (s, .error _) => s

def execStreamOpComplete (team seq : Nat) (s : State) : Res := .next (s.attempting ⟨team, 6, seq⟩ fun s => s.streamComplete team seq)

/-- An operation ends with a fault of its packet (R303). -/
def State.stopStream (s : State) (team : Nat) (o : StreamOp) (f : FInfo) : State :=
  match o.kind with
  | .incoming part core tslot k _ =>
    (s.endStream team o).answerPairs (s.team team).ctx part core tslot k (if f.code = .eccUncorr then 2 else 1)
  | _ => (s.endStream team o).engineFault o.gid o.sup o.pc o.word f

/-- A stream operation meets what ends it: an uncorrectable error (`ecc`) of its row, or its own fault (R303). -/
def State.streamFault (s : State) (team seq : Nat) (ecc : Bool) : State :=
  let t := s.team team
  match t.streamOp seq with
  | none => s
  | some o =>
    let invalid := (t.row o.row).isNone && o.snap.isNone
    if (if o.kind.isReelNorm then s.streamWaits team o else s.streamHeld team o) ∨ (o.applied = 1 ∧ !o.kind.isAdd) then s
    else if ecc then
      if o.kind.isRemoteAdd then s
      else
        let s := match o.kind with
          | .normReel _ _ _ _ _ span k => s.dropContributions team span k
          | _ => s
        (s.dropRow team o.row).stopStream team o { code := .eccUncorr }
    else match o.kind with
      | .add _ _ =>
        match t.row o.row with
        | none => s.stopStream team o ill12
        | some r => if o.tooLong r then s.stopStream team o ill11 else s
      | .incoming _ _ _ _ _ => if invalid then s.stopStream team o protect12 else s
      | .norm fw out gains _ nogain =>
        if invalid then s.stopStream team o ill12
        else
          let s := s.streamPair team seq
          match (((s.team team).streamOp seq).bind (·.snap)).bind fun r => t.normLate fw r.len out gains nogain with
          | some f => s.stopStream team o f
          | none => s
      | .normReel fw out gains _ nogain span k =>
        let got := t.contributions span k
        let gone := s.spanGone team span
        let stop (f : FInfo) : State := (s.dropContributions team span k).stopStream team o f
        if invalid then stop ill12
        else match o.snap with
          | some r =>
            if got.any fun x => x.2.2.2.1 != r.e then stop ill11
            else if gone then stop { code := .windowDeparted }
            else match t.normLate fw r.len out gains nogain with
              | some f => stop f
              | none => s
          | none => if gone then stop { code := .windowDeparted } else s
      | .save compact va =>
        if invalid then s.stopStream team o ill12
        else
          let s := s.streamPair team seq
          match ((s.team team).streamOp seq).bind (·.snap) with
          | none => s
          | some r =>
            let bs := rowImage compact r
            match s.writeSectors team seq va bs bs.length with
            | (s, some (c, d, a)) => s.stopStream team o { code := c, detail := d, acc := 1, addr := a }
            | (_, none) => s
      | .load compact va off =>
        match s.loadImage team o compact va off with
        | (s, .error (c, d, a)) => (s.dropRow team o.row).stopStream team o { code := c, detail := d, addr := a }
        | (s, .ok _) => s
      | _ => s

def execStreamOpFault (team seq : Nat) (ecc : Bool) (s : State) : Res := .next (s.attempting ⟨team, 6, seq⟩ fun s => s.streamFault team seq ecc)

/-! ### Posted writes (R335) -/

/-- A zero-length read of a page completes: the `n` oldest writes posted to it before are acknowledged (R335). -/
def State.zeroLengthRead (s : State) (ld page n : Nat) : State :=
  let hit := (s.posted.filter fun p => p.ld == ld && p.page == page).take n
  let s := { s with posted := s.posted.filter fun p => !hit.contains p }
  hit.foldl (fun s p =>
    match p.what with
    | .store gid seq lane =>
      match s.findStore gid seq lane with
      | some (e, _) => s.ackLane (gidCore gid) e lane
      | none => s
    | .copyWrite core id sectors k =>
      match s.copyById core id with
      | some i => (s.copyAcked core id sectors k).modBar (s.copyRec core i) fun w => phbDeliver w k
      | none => s
    | .streamWrite team seq => s.saveEnds team seq
    | _ => s) s

def execZeroLengthReadComplete (ld page n : Nat) (s : State) : Res := .next (s.zeroLengthRead ld page n)

/-! ### Cells -/

/-- REMOTE pairs, their answers and contributions arrive from another part (R294, R297). -/
def execStreamReceive (r : Rx) (s : State) : Res :=
  .next (match s.accept r with
    | (s, false) => s
    | (s, true) =>
      match r.cell.body with
      | .pairs key m row e hi ps core tslot seq =>
        match (s.windowTeams key).find? fun t => (s.team t).member == some m with
        | some t => s.takePairs t row e hi ps r.cell.src core tslot seq
        | none => s.answerPairs r.cell.ctag r.cell.src core tslot seq 1
      | .pairsAck core tslot seq status => s.ackPairs (core * 16 + tslot) seq status
      | .contribution key span _ _ _ _ _ _ =>
        ((s.windowTeams key).filter fun t => match (s.team t).member with
          | some m => (s.spanMembers t span).contains m
          | none => false).foldl (fun s t => s.keepEarly t r.cell.body) s
      | _ => s)

end Sys2Proof.Machine
end

