-- ==== Sys2Proof/Machine/Search.lean ====
section
/-! DEFINITION. The search engine (spec/10 R233 to R237): distances, selections, merges and folds. -/

namespace Sys2Proof.Machine

/-! ### Keys (R234) -/

/-- A distance's place in the total order: NaN above everything, -0 with +0. -/
def distKey (w : Nat) : Int :=
  let mag : Nat := w % 2 ^ 31
  if 0x7f800000 < mag then (2 : Int) ^ 32 else if bit w 31 then -(mag : Int) else mag

/-- Whether pair (distance, id) `a` stands before `b` or with it. -/
def pairLe (a b : Nat × Nat) : Bool :=
  decide (distKey a.1 < distKey b.1) || (decide (distKey a.1 = distKey b.1) && decide (a.2 ≤ b.2))

/-- The `k` least of a list of pairs, in key order. -/
def leastK (k : Nat) (l : List (Nat × Nat)) : List (Nat × Nat) := (sortBy l pairLe).take k

/-- `n` pairs of 8 bytes at an offset. -/
def pairsAt (m : Memory) (off n : Nat) : List (Nat × Nat) :=
  (List.range n).map fun i => (m.readLE (off + 8 * i) 4, m.readLE (off + 8 * i + 4) 4)
def putPairs (m : Memory) (off : Nat) (l : List (Nat × Nat)) : Memory :=
  (l.zip (List.range l.length)).foldl (fun m ((d, id), i) => (m.writeLE (off + 8 * i) 4 d).writeLE (off + 8 * i + 4) 4 id) m

/-! ### Issue (R233) -/

/-- A search operation starts on its core and counts on `tm`. -/
def State.startSearch (s : State) (k : SearchKind) : State :=
  (s.modCore s.coreKey fun c => { c with searches := c.searches ++ [⟨s.iss.gid, s.iss.pc, s.iss.word, k, s.iss.sup, s.cur.seq⟩] }).modCur
    fun g => { g with tm := g.tm + 1 }

/-- The formats of `vdist` (R235). -/
def distFormat : Fmt → Bool
  | .f32 | .f16 | .b16 | .e4m3 | .e5m2 | .e3m4 | .i8 | .n8 | .i4 | .n4 => true
  | _ => false

def execVdist (x : FSlot) (a b c : SReg) (s : State) : Res :=
  guard (.vdist x a b c) s fun s =>
    let sa := (s.srcS a).toNat
    let sb := (s.srcS b).toNat
    let sc := (s.srcS c).toNat
    let fw := s.slotBits x
    let t := s.curTeam
    let n := bits sc 0 16
    let query := bits sa 0 32
    let out := bits sa 32 32
    let index := bits sb 32 32
    if s.lanes.isEmpty then s
    else match FmtSlot.ofBits fw with
      | none => s.fault ill5
      | some f =>
        if !distFormat f.fmt ∨ 2 ≤ f.smode ∨ n < 1 ∨ 4096 < n ∨ 2 ≤ bits sc 16 2 ∨ sc / 2 ^ 18 ≠ 0 then s.fault ill5
        else match s.descriptor t.ctx (bits sb 0 32) with
          | .error d => s.fault { code := .handleStale, detail := d }
          | .ok d =>
            let size0 := d.sizes.headD 0
            match firstBad [(d.rank != 1 || decide (8192 < size0) || d.efmt != bits fw.toNat 0 6, ill5),
                (out % 4 != 0 || index % 4 != 0, alignFault),
                (!t.inShare .ab query ((size0 * f.fmt.width + 7) / 8) || !t.inShare .ab out (4 * n) ||
                  !t.inShare .ab index (4 * n), protect6)] with
            | some f => s.fault f
            | none =>
              s.startSearch (.vdist fw query out index d.base (d.strides.headD 0) size0 (d.sizes.getD 1 0) n (bits sc 16 2))

def execTopk (a b c : SReg) (s : State) : Res :=
  guard (.topk a b c) s fun s =>
    let sa := (s.srcS a).toNat
    let sc := (s.srcS c).toNat
    let src := bits sa 0 32
    let out := bits sa 32 32
    let n := bits sc 0 16
    let k := bits sc 16 16
    let t := s.curTeam
    if s.lanes.isEmpty then s
    else match firstBad [(decide (n < 1) || decide (16384 < n) || decide (k < 1) || decide (256 < k) || decide (n < k), ill5),
        (src % 4 != 0 || out % 8 != 0, alignFault), (!t.inShare .ab src (4 * n) || !t.inShare .ab out (8 * k), protect6)] with
      | some f => s.fault f
      | none => s.startSearch (.topk src out (bits (s.srcS b).toNat 0 32) n k)

def execTopkm (a b c : SReg) (s : State) : Res :=
  guard (.topkm a b c) s fun s =>
    let sa := (s.srcS a).toNat
    let l1 := bits sa 0 32
    let l2 := bits (s.srcS b).toNat 0 32
    let out := bits sa 32 32
    let k := bits (s.srcS c).toNat 0 16
    let t := s.curTeam
    let meets (l : Nat) : Bool := l != out && decide (l < out + 8 * k) && decide (out < l + 8 * k)
    if s.lanes.isEmpty then s
    else match firstBad [(decide (k < 1) || decide (256 < k) || meets l1 || meets l2, ill5),
        (l1 % 8 != 0 || l2 % 8 != 0 || out % 8 != 0, alignFault),
        (!t.inShare .ab l1 (8 * k) || !t.inShare .ab l2 (8 * k) || !t.inShare .ab out (8 * k), protect6)] with
      | some f => s.fault f
      | none => s.startSearch (.topkm l1 l2 out k)

def execTopkr (a b c : SReg) (s : State) : Res :=
  guard (.topkr a b c) s fun s =>
    let src := bits (s.srcS a).toNat 0 32
    let run := bits (s.srcS b).toNat 0 32
    let k := bits (s.srcS c).toNat 0 16
    let t := s.curTeam
    if s.lanes.isEmpty then s
    else match firstBad [(decide (k < 1) || decide (256 < k), ill5), (src % 8 != 0 || run % 8 != 0, alignFault),
        (!t.inShare .ab src (8 * k) || !t.inShare .l run (8 * k), protect6)] with
      | some f => s.fault f
      | none => s.startSearch (.topkr src run k)

/-! ### Results (R235 to R237) -/

/-- One distance between stored elements, as f32 bits (R235). -/
def distance (f : FmtSlot) (metric : Nat) (q c : List Nat) : Nat :=
  let terms := List.zipWith (fun x y =>
    let x := f.readStored x
    let y := f.readStored y
    if metric = 0 then
      let d := x.add y.neg
      d.mul d
    else (x.mul y).neg) q c
  shapeF32.rne ((granuleSum terms).scale (if f.smode = 1 then 2 * f.exp else 0))

/-- The `n` distances of a `vdist`, or those before the first whose row faults, with that fault (R235). -/
def State.distances (s : State) (team : Nat) (f : FmtSlot) (query index base stride size0 size1 metric : Nat) :
    List Nat → State × List Nat × Option (FCode × Nat × Nat)
  | [] => (s, [], none)
  | j :: rest =>
    let t := s.team team
    let r := t.ab.readLE (index + 4 * j) 4
    let w := f.fmt.width
    let q := (List.range size0).map fun e => elemAt t.ab query (e * w) w
    let go (s : State) (d : Nat) : State × List Nat × Option (FCode × Nat × Nat) :=
      let (s, l, f) := s.distances team f query index base stride size0 size1 metric rest
      (s, d :: l, f)
    if size1 ≤ r then go s 0x7f800000
    else match s.readSectors team (base + 16 * stride * r) ((size0 * w + 127) / 128) with
      | (s, .error e) => (s, [], some e)
      | (s, .ok x) => go s (distance f metric q ((List.range size0).map fun e => bits x (e * w) w))

/-- The head operation of a core's search engine is gone; `tm` falls. -/
def State.searchDone (s : State) (core : Nat) (o : SearchOp) : State :=
  ((s.modCore core fun c => { c with searches := c.searches.tail }).modGang o.gid fun g => { g with tm := g.tm - 1 }).heard
    ⟨2 ^ 32, 7, core⟩

/-- The distances of a `vdist` with where they go. -/
def State.vdistRun (s : State) (o : SearchOp) : State × List Nat × Option (FCode × Nat × Nat) :=
  match o.kind with
  | .vdist fw query _ index base stride size0 size1 n metric =>
    match FmtSlot.ofBits fw with
    | some f => s.distances (gidTeam o.gid) f query index base stride size0 size1 metric (List.range n)
    | none => (s, [], none)
  | _ => (s, [], none)

def putDistances (m : Memory) (out : Nat) (l : List Nat) : Memory :=
  (l.zip (List.range l.length)).foldl (fun m (d, i) => m.writeLE (out + 4 * i) 4 d) m

/-- The oldest search operation of a core finishes, its results written as a unit (R233). -/
def State.searchComplete (s : State) (core : Nat) : State :=
  match (s.core core).searches with
  | [] => s
  | o :: _ =>
    let team := gidTeam o.gid
    -- an acquire of its gang holds its reads back (R222, R231)
    if s.engineHeld o.gid o.gseq then s
    else match o.kind with
    | .vdist _ _ out _ _ _ _ _ _ _ =>
      match s.vdistRun o with
      | (s, l, none) => (s.modTeam team fun t => { t with ab := putDistances t.ab out l }).searchDone core o
      | (_, _, some _) => s
    | .topk src out base n k =>
      (s.modTeam team fun t =>
        let l := (List.range n).map fun j => (t.ab.readLE (src + 4 * j) 4, (base + j) % 2 ^ 32)
        { t with ab := putPairs t.ab out (leastK k l) }).searchDone core o
    | .topkm a b out k =>
      (s.modTeam team fun t => { t with ab := putPairs t.ab out (leastK k (pairsAt t.ab a k ++ pairsAt t.ab b k)) }).searchDone core o
    | .topkr src run k =>
      (s.modTeam team fun t =>
        { t with scratch := putPairs t.scratch run (leastK k (pairsAt t.scratch run k ++ pairsAt t.ab src k)) }).searchDone core o

def execSearchOpComplete (core : Nat) (s : State) : Res := .next (s.attempting ⟨2 ^ 32, 7, core⟩ fun s => s.searchComplete core)

/-- A `vdist` ends at a row whose read faults: the results before it are written, and their count is the detail (R235). -/
def State.searchFault (s : State) (core : Nat) : State :=
  match (s.core core).searches with
  | [] => s
  | o :: _ =>
    if s.engineHeld o.gid o.gseq then s
    else match o.kind, s.vdistRun o with
      | .vdist _ _ out _ _ _ _ _ _ _, (s, l, some (c, _, a)) =>
        let s := (s.modTeam (gidTeam o.gid) fun t => { t with ab := putDistances t.ab out l }).searchDone core o
        s.engineFault o.gid o.sup o.pc o.word { code := c, detail := l.length, addr := a }
      | _, (s, _, _) => s

def execSearchOpFault (core : Nat) (s : State) : Res := .next (s.attempting ⟨2 ^ 32, 7, core⟩ fun s => s.searchFault core)

end Sys2Proof.Machine
end

