-- ==== Sys2Proof/Machine/VectorInt.lean ====
section
/-! DEFINITION. Vector integer instructions (spec/08 R175 to R181): every active lane reads its sources as the packet found
them and writes its destination; inactive lanes keep their old values (R176). -/

namespace Sys2Proof.Machine

/-- The second source of a VX word: imm6 sign-extended, or the low 32 bits of a scalar (R175). -/
def State.src2 (s : State) : Src2 → W32
  | .imm i => i.signExtend 32
  | .reg r => (s.srcS r).setWidth 32

/-- `v[vd][i] := f v[va][i] v[vb][i]` (R176, R177). -/
def vecVV (s : State) (d a b : VReg) (f : W32 → W32 → W32) : State :=
  s.writeV d fun i => f (s.srcV a i) (s.srcV b i)
/-- `v[vd][i] := f v[va][i] b` (R175 to R177). -/
def vecVX (s : State) (d a : VReg) (x : Src2) (f : W32 → W32 → W32) : State :=
  s.writeV d fun i => f (s.srcV a i) (s.src2 x)
/-- The forms whose `vd` is also a source: `v[vd][i] := f v[vd][i] v[va][i] b` (R177, R178). -/
def vecVV3 (s : State) (d a b : VReg) (f : W32 → W32 → W32 → W32) : State :=
  s.writeV d fun i => f (s.srcV d i) (s.srcV a i) (s.srcV b i)
def vecVX3 (s : State) (d a : VReg) (x : Src2) (f : W32 → W32 → W32 → W32) : State :=
  s.writeV d fun i => f (s.srcV d i) (s.srcV a i) (s.src2 x)
/-- `v[vd][i] := f v[va][i]` (R179). -/
def vec1 (s : State) (d a : VReg) (f : W32 → W32) : State := s.writeV d fun i => f (s.srcV a i)

/-- An exact integer clamped to the signed or the unsigned 32-bit range (R177). -/
def clampS (x : Int) : W32 :=
  if x < -2147483648 then 0x80000000#32 else if 2147483647 < x then 0x7fffffff#32 else BitVec.ofInt 32 x
def clampU (x : Int) : W32 :=
  if x < 0 then 0 else if 4294967295 < x then 0xffffffff#32 else BitVec.ofInt 32 x
def saddS (a b : W32) : W32 := clampS (a.toInt + b.toInt)
def ssubS (a b : W32) : W32 := clampS (a.toInt - b.toInt)
def saddU (a b : W32) : W32 := clampU ((a.toNat : Int) + b.toNat)
def ssubU (a b : W32) : W32 := clampU ((a.toNat : Int) - b.toNat)
/-- The low 32 bits of a*b + old (R177). -/
def mulAdd (old a b : W32) : W32 := a * b + old

/-- pos and w of a vector bit-field operand (R178). -/
def posOf32 (b : W32) : Nat := bits b.toNat 0 5
def widthOf32 (b : W32) : Nat := bits b.toNat 8 6
def vbfxS (a b : W32) : W32 := bfxS 32 a (posOf32 b) (widthOf32 b)
def vbfxU (a b : W32) : W32 := bfxU 32 a (posOf32 b) (widthOf32 b)
def vbfi (old a b : W32) : W32 := bfi 32 old a (posOf32 b) (widthOf32 b)

def execVaddVv (d a b : VReg) (s : State) : Res := guard (.vaddVv d a b) s fun s => vecVV s d a b (· + ·)
def execVaddVx (d a : VReg) (x : Src2) (s : State) : Res := guard (.vaddVx d a x) s fun s => vecVX s d a x (· + ·)
def execVsubVv (d a b : VReg) (s : State) : Res := guard (.vsubVv d a b) s fun s => vecVV s d a b (· - ·)
def execVsubVx (d a : VReg) (x : Src2) (s : State) : Res := guard (.vsubVx d a x) s fun s => vecVX s d a x (· - ·)
def execVmulVv (d a b : VReg) (s : State) : Res := guard (.vmulVv d a b) s fun s => vecVV s d a b (· * ·)
def execVmulVx (d a : VReg) (x : Src2) (s : State) : Res := guard (.vmulVx d a x) s fun s => vecVX s d a x (· * ·)
def execVmulhI32Vv (d a b : VReg) (s : State) : Res := guard (.vmulhI32Vv d a b) s fun s => vecVV s d a b (mulHighS 32)
def execVmulhI32Vx (d a : VReg) (x : Src2) (s : State) : Res := guard (.vmulhI32Vx d a x) s fun s => vecVX s d a x (mulHighS 32)
def execVmulhN32Vv (d a b : VReg) (s : State) : Res := guard (.vmulhN32Vv d a b) s fun s => vecVV s d a b (mulHighU 32)
def execVmulhN32Vx (d a : VReg) (x : Src2) (s : State) : Res := guard (.vmulhN32Vx d a x) s fun s => vecVX s d a x (mulHighU 32)
def execVmadVv (d a b : VReg) (s : State) : Res := guard (.vmadVv d a b) s fun s => vecVV3 s d a b mulAdd
def execVmadVx (d a : VReg) (x : Src2) (s : State) : Res := guard (.vmadVx d a x) s fun s => vecVX3 s d a x mulAdd
def execVsaddI32Vv (d a b : VReg) (s : State) : Res := guard (.vsaddI32Vv d a b) s fun s => vecVV s d a b saddS
def execVsaddI32Vx (d a : VReg) (x : Src2) (s : State) : Res := guard (.vsaddI32Vx d a x) s fun s => vecVX s d a x saddS
def execVsaddN32Vv (d a b : VReg) (s : State) : Res := guard (.vsaddN32Vv d a b) s fun s => vecVV s d a b saddU
def execVsaddN32Vx (d a : VReg) (x : Src2) (s : State) : Res := guard (.vsaddN32Vx d a x) s fun s => vecVX s d a x saddU
def execVssubI32Vv (d a b : VReg) (s : State) : Res := guard (.vssubI32Vv d a b) s fun s => vecVV s d a b ssubS
def execVssubI32Vx (d a : VReg) (x : Src2) (s : State) : Res := guard (.vssubI32Vx d a x) s fun s => vecVX s d a x ssubS
def execVssubN32Vv (d a b : VReg) (s : State) : Res := guard (.vssubN32Vv d a b) s fun s => vecVV s d a b ssubU
def execVssubN32Vx (d a : VReg) (x : Src2) (s : State) : Res := guard (.vssubN32Vx d a x) s fun s => vecVX s d a x ssubU
def execVminVv (d a b : VReg) (s : State) : Res := guard (.vminVv d a b) s fun s => vecVV s d a b minS
def execVminVx (d a : VReg) (x : Src2) (s : State) : Res := guard (.vminVx d a x) s fun s => vecVX s d a x minS
def execVmaxVv (d a b : VReg) (s : State) : Res := guard (.vmaxVv d a b) s fun s => vecVV s d a b maxS
def execVmaxVx (d a : VReg) (x : Src2) (s : State) : Res := guard (.vmaxVx d a x) s fun s => vecVX s d a x maxS
def execVminnVv (d a b : VReg) (s : State) : Res := guard (.vminnVv d a b) s fun s => vecVV s d a b minU
def execVminnVx (d a : VReg) (x : Src2) (s : State) : Res := guard (.vminnVx d a x) s fun s => vecVX s d a x minU
def execVmaxnVv (d a b : VReg) (s : State) : Res := guard (.vmaxnVv d a b) s fun s => vecVV s d a b maxU
def execVmaxnVx (d a : VReg) (x : Src2) (s : State) : Res := guard (.vmaxnVx d a x) s fun s => vecVX s d a x maxU
def execVandVv (d a b : VReg) (s : State) : Res := guard (.vandVv d a b) s fun s => vecVV s d a b (· &&& ·)
def execVandVx (d a : VReg) (x : Src2) (s : State) : Res := guard (.vandVx d a x) s fun s => vecVX s d a x (· &&& ·)
def execVorVv (d a b : VReg) (s : State) : Res := guard (.vorVv d a b) s fun s => vecVV s d a b (· ||| ·)
def execVorVx (d a : VReg) (x : Src2) (s : State) : Res := guard (.vorVx d a x) s fun s => vecVX s d a x (· ||| ·)
def execVxorVv (d a b : VReg) (s : State) : Res := guard (.vxorVv d a b) s fun s => vecVV s d a b (· ^^^ ·)
def execVxorVx (d a : VReg) (x : Src2) (s : State) : Res := guard (.vxorVx d a x) s fun s => vecVX s d a x (· ^^^ ·)
def execVshlVv (d a b : VReg) (s : State) : Res := guard (.vshlVv d a b) s fun s => vecVV s d a b shl
def execVshlVx (d a : VReg) (x : Src2) (s : State) : Res := guard (.vshlVx d a x) s fun s => vecVX s d a x shl
def execVshrVv (d a b : VReg) (s : State) : Res := guard (.vshrVv d a b) s fun s => vecVV s d a b shr
def execVshrVx (d a : VReg) (x : Src2) (s : State) : Res := guard (.vshrVx d a x) s fun s => vecVX s d a x shr
def execVsraVv (d a b : VReg) (s : State) : Res := guard (.vsraVv d a b) s fun s => vecVV s d a b sra
def execVsraVx (d a : VReg) (x : Src2) (s : State) : Res := guard (.vsraVx d a x) s fun s => vecVX s d a x sra
def execVbfxI32Vv (d a b : VReg) (s : State) : Res := guard (.vbfxI32Vv d a b) s fun s => vecVV s d a b vbfxS
def execVbfxI32Vx (d a : VReg) (x : Src2) (s : State) : Res := guard (.vbfxI32Vx d a x) s fun s => vecVX s d a x vbfxS
def execVbfxN32Vv (d a b : VReg) (s : State) : Res := guard (.vbfxN32Vv d a b) s fun s => vecVV s d a b vbfxU
def execVbfxN32Vx (d a : VReg) (x : Src2) (s : State) : Res := guard (.vbfxN32Vx d a x) s fun s => vecVX s d a x vbfxU
def execVbfiVv (d a b : VReg) (s : State) : Res := guard (.vbfiVv d a b) s fun s => vecVV3 s d a b vbfi
def execVbfiVx (d a : VReg) (x : Src2) (s : State) : Res := guard (.vbfiVx d a x) s fun s => vecVX3 s d a x vbfi
/-- va[i] where the lane's bit of `pk` is 1, vb[i] elsewhere (R180). -/
def execVsel (p : PReg) (d a b : VReg) (s : State) : Res :=
  guard (.vsel p d a b) s fun s => s.writeV d fun i => if bit (s.srcP p) i then s.srcV a i else s.srcV b i
def execVnot (d a : VReg) (s : State) : Res := guard (.vnot d a) s fun s => vec1 s d a (~~~ ·)
def execVabs (d a : VReg) (s : State) : Res := guard (.vabs d a) s fun s => vec1 s d a fun x => if x.msb then -x else x
def execVneg (d a : VReg) (s : State) : Res := guard (.vneg d a) s fun s => vec1 s d a (- ·)
def execVclz (d a : VReg) (s : State) : Res :=
  guard (.vclz d a) s fun s => vec1 s d a fun x => BitVec.ofNat 32 (leadingZeros x)
def execVpopc (d a : VReg) (s : State) : Res :=
  guard (.vpopc d a) s fun s => vec1 s d a fun x => BitVec.ofNat 32 (popCount x)
def execVmov (d a : VReg) (s : State) : Res := guard (.vmov d a) s fun s => vec1 s d a id
def execVli (d : VReg) (x : Src2) (s : State) : Res := guard (.vli d x) s fun s => s.writeV d fun _ => s.src2 x
/-- Bit i of `pd` says whether va[i] cc b holds (R181). -/
def execVcmpVv (c : Cond) (p : PReg) (a b : VReg) (s : State) : Res :=
  guard (.vcmpVv c p a b) s fun s => s.writeP p fun i => condHolds c (s.srcV a i) (s.srcV b i)
def execVcmpVx (c : Cond) (p : PReg) (a : VReg) (x : Src2) (s : State) : Res :=
  guard (.vcmpVx c p a x) s fun s => s.writeP p fun i => condHolds c (s.srcV a i) (s.src2 x)

end Sys2Proof.Machine
end

