-- ==== Sys2Proof/Machine/VectorFloat.lean ====
section
/-! DEFINITION. Vector float instructions and conversions (spec/09 R201 to R210). -/

namespace Sys2Proof.Machine

/-- The shape of an element of a float type (R188, R201). -/
def ftypeShape : FType → FloatShape
  | .f32 => shapeF32
  | .f16x2 => shapeF16
  | .b16x2 => shapeB16
/-- The elements of a lane, element 0 first (R188). -/
def ftypeElems (t : FType) (w : W32) : List Nat :=
  match t with
  | .f32 => [w.toNat]
  | _ => [w.toNat % 2 ^ 16, w.toNat / 2 ^ 16]
/-- A lane from its elements. -/
def ftypePack (t : FType) (l : List Nat) : W32 :=
  match t with
  | .f32 => BitVec.ofNat 32 (l.headD 0)
  | _ => BitVec.ofNat 32 (l.headD 0 % 2 ^ 16 + (l.getD 1 0) * 2 ^ 16)

/-- A packed type computes its elements independently (R201). -/
def fmap1 (t : FType) (f : FloatShape → Nat → Nat) (a : W32) : W32 := ftypePack t ((ftypeElems t a).map (f (ftypeShape t)))
def fmap2 (t : FType) (f : FloatShape → Nat → Nat → Nat) (a b : W32) : W32 :=
  ftypePack t (List.zipWith (f (ftypeShape t)) (ftypeElems t a) (ftypeElems t b))
def fmap3 (t : FType) (f : FloatShape → Nat → Nat → Nat → Nat) (o a b : W32) : W32 :=
  ftypePack t (List.zipWith (fun x (y, z) => f (ftypeShape t) x y z) (ftypeElems t o) ((ftypeElems t a).zip (ftypeElems t b)))

/-- One rounded result, nearest-even (R201). -/
def fop1 (g : Num → Num) (s : FloatShape) (a : Nat) : Nat := s.rne (g (s.value a))
def fop2 (g : Num → Num → Num) (s : FloatShape) (a b : Nat) : Nat := s.rne (g (s.value a) (s.value b))
/-- a·b + old, formed exactly and rounded once (R202). -/
def fma3 (s : FloatShape) (o a b : Nat) : Nat := s.rne (((s.value a).mul (s.value b)).add (s.value o))

/-- The sign bit of a pattern. -/
def FloatShape.negative (s : FloatShape) (a : Nat) : Bool := bit a (s.ebits + s.mbits)
/-- Whether pattern `a` is the lesser, with -0 below +0 (R202). -/
def FloatShape.lesser (s : FloatShape) (a b : Nat) : Bool :=
  match (s.value a).compare (s.value b) with
  | some .lt => true
  | some .eq => s.negative a && !s.negative b
  | _ => false
/-- The lesser or the greater operand's bits unchanged; a NaN gives way to a number (R202). -/
def fminBits (s : FloatShape) (a b : Nat) : Nat :=
  match s.value a, s.value b with
  | .nan, .nan => s.canonicalNaN
  | .nan, _ => b
  | _, .nan => a
  | _, _ => if s.lesser b a then b else a
def fmaxBits (s : FloatShape) (a b : Nat) : Nat :=
  match s.value a, s.value b with
  | .nan, .nan => s.canonicalNaN
  | .nan, _ => b
  | _, .nan => a
  | _, _ => if s.lesser a b then b else a
/-- `fabs` and `fneg` touch the sign bit alone (R203). -/
def fabsBits (s : FloatShape) (a : Nat) : Nat := setBits a (s.ebits + s.mbits) 1 0
def fnegBits (s : FloatShape) (a : Nat) : Nat := setBits a (s.ebits + s.mbits) 1 (!s.negative a).toNat

/-- 1/a with the special cases of R203. -/
def Num.recip (x : Num) : Num := Num.div (.fin false 1 0) x
/-- The nearest integral value of the same type (R204). -/
def froundBits (r : RoundMode) (s : FloatShape) (a : Nat) : Nat := s.rne ((s.value a).roundIntegral r)

def fvec1 (s : State) (t : FType) (d a : VReg) (f : FloatShape → Nat → Nat) : State := vec1 s d a (fmap1 t f)
def fvec2 (s : State) (t : FType) (d a b : VReg) (f : FloatShape → Nat → Nat → Nat) : State :=
  vecVV s d a b (fmap2 t f)

def execFadd (t : FType) (d a b : VReg) (s : State) : Res :=
  guard (.fadd t d a b) s fun s => fvec2 s t d a b (fop2 Num.add)
/-- a − b is a + (−b), so a zero is −0 only for −0 − +0 (R202). -/
def execFsub (t : FType) (d a b : VReg) (s : State) : Res :=
  guard (.fsub t d a b) s fun s => fvec2 s t d a b (fop2 fun x y => x.add y.neg)
def execFmul (t : FType) (d a b : VReg) (s : State) : Res :=
  guard (.fmul t d a b) s fun s => fvec2 s t d a b (fop2 Num.mul)
def execFfma (t : FType) (d a b : VReg) (s : State) : Res :=
  guard (.ffma t d a b) s fun s => vecVV3 s d a b (fmap3 t fma3)
def execFmin (t : FType) (d a b : VReg) (s : State) : Res :=
  guard (.fmin t d a b) s fun s => fvec2 s t d a b fminBits
def execFmax (t : FType) (d a b : VReg) (s : State) : Res :=
  guard (.fmax t d a b) s fun s => fvec2 s t d a b fmaxBits
def execFabs (t : FType) (d a : VReg) (s : State) : Res := guard (.fabs t d a) s fun s => fvec1 s t d a fabsBits
def execFneg (t : FType) (d a : VReg) (s : State) : Res := guard (.fneg t d a) s fun s => fvec1 s t d a fnegBits
def execFrcp (t : FType) (d a : VReg) (s : State) : Res := guard (.frcp t d a) s fun s => fvec1 s t d a (fop1 Num.recip)
def execFrsq (t : FType) (d a : VReg) (s : State) : Res := guard (.frsq t d a) s fun s => fvec1 s t d a (fop1 Num.rsqrt)
def execFsqrt (t : FType) (d a : VReg) (s : State) : Res := guard (.fsqrt t d a) s fun s => fvec1 s t d a (fop1 Num.sqrt)
def execFexp2 (t : FType) (d a : VReg) (s : State) : Res := guard (.fexp2 t d a) s fun s => fvec1 s t d a (fop1 Num.exp2)
def execFlog2 (t : FType) (d a : VReg) (s : State) : Res := guard (.flog2 t d a) s fun s => fvec1 s t d a (fop1 Num.log2)
def execFround (t : FType) (d a : VReg) (r : RoundMode) (s : State) : Res :=
  guard (.fround t d a r) s fun s => fvec1 s t d a (froundBits r)
/-- Both elements of a packed type must satisfy the condition (R205). -/
def execFcmp (c : FCond) (t : FType) (p : PReg) (a b : VReg) (s : State) : Res :=
  guard (.fcmp c t p a b) s fun s => s.writeP p fun i =>
    (List.zipWith (fun x y => fcondHolds c (((ftypeShape t).value x).compare ((ftypeShape t).value y)))
      (ftypeElems t (s.srcV a i)) (ftypeElems t (s.srcV b i))).all id

/-! ### Conversions (R207 to R210) -/

/-- The value a non-slot source reads from a lane (R208). -/
def cvtRead (t : CvtType) (w : W32) : Num :=
  match t with
  | .f16 => shapeF16.value (w.toNat % 2 ^ 16)
  | .b16 => shapeB16.value (w.toNat % 2 ^ 16)
  | .i32 => .fin w.msb w.toInt.natAbs 0
  | .n32 => .fin false w.toNat 0
  | _ => shapeF32.value w.toNat

/-- The lane a non-slot destination writes under a rounding, SAT = 0 unless a slot governs (R208, R209). Integers
saturate and take 0 for NaN. -/
def cvtWrite (t : CvtType) (r : RoundMode) (sat : Bool) (x : Num) : W32 :=
  match t with
  | .f16 => BitVec.ofNat 32 (shapeF16.round r sat x)
  | .b16 => BitVec.ofNat 32 (shapeB16.round r sat x)
  | .i32 => BitVec.ofInt 32 (roundInt r (-2147483648) 2147483647 x)
  | .n32 => BitVec.ofInt 32 (roundInt r 0 4294967295 x)
  | _ => BitVec.ofNat 32 (shapeF32.round r sat x)

/-- The rounding of a conversion without a slot: toward zero from a float to an integer, nearest-even otherwise (R208). -/
def cvtRound (dst : CvtType) : RoundMode :=
  match dst with
  | .i32 | .n32 => .towardZero
  | _ => .nearestEven

/-- One lane of `cvt` (R207 to R209); `f` is the named slot. -/
def cvtLane (dst src : CvtType) (f : FmtSlot) (w : W32) : W32 :=
  match dst, src with
  | .slot, _ => BitVec.ofNat 32 (f.write (cvtRead src w))
  | _, .slot => cvtWrite dst f.round f.sat (f.read w.toNat)
  | _, _ => cvtWrite dst (cvtRound dst) false (cvtRead src w)

/-- A slot's contents, or a plain f32 slot where the number names an unused one (never used: R121). -/
def State.slot (s : State) (f : FSlot) : FmtSlot :=
  (FmtSlot.ofBits (s.slotBits f)).getD
    { fmt := .f32, smode := 0, exp := 0, round := .nearestEven, sat := false, flush := false, scaleh := 0 }

def execCvt (y : CvtType) (d a : VReg) (x : CvtType) (f : FSlot) (s : State) : Res :=
  guard (.cvt y d a x f) s fun s => vec1 s d a (cvtLane y x (s.slot f))

/-- Two elements enter from the top; the old ones move down (R210). -/
def cvtpLane (f : FmtSlot) (old a b : W32) : W32 :=
  let w := f.fmt.width
  let x := f.write (shapeF32.value a.toNat)
  let y := f.write (shapeF32.value b.toNat)
  BitVec.ofNat 32 (old.toNat / 2 ^ (2 * w) ||| x * 2 ^ (32 - 2 * w) ||| y * 2 ^ (32 - w))

def execCvtp (f : FSlot) (d a b : VReg) (s : State) : Res :=
  guard (.cvtp f d a b) s fun s => vecVV3 s d a b (cvtpLane (s.slot f))

end Sys2Proof.Machine
end

