-- ==== Sys2Proof/Machine/Collect.lean ====
section
/-! DEFINITION. Collectives (spec/16 R326 to R328): `cred`, `cbc`, `cgat`, the matching of issues and the canonical tree. -/

namespace Sys2Proof.Machine

def ill14 : FInfo := { code := .illegal, detail := 14 }

/-- Members attached to a window: the participants, by rank (R326). -/
def Window.attached (w : Window) : List Nat := (List.range w.entries.length).filter fun m => (w.entries.getD m {}).state == 0

/-- The contributions a team holds for its `k`-th collective of a tag, by rank. -/
def Team.collData (t : Team) (tag k : Nat) : Tab (List Nat) :=
  t.early.filterMap fun b => match b with
    | .coll _ rank tg kk xs _ => if tg = tag ∧ kk = k then some (rank, xs) else none
    | _ => none

/-- Whether the root has acknowledged a team's contribution. -/
def Team.collAcked (t : Team) (me tag k : Nat) : Bool :=
  t.early.any fun b => match b with
    | .collAck _ rank tg kk => rank == me && tg == tag && kk == k
    | _ => false

def State.dropColl (s : State) (team tag k : Nat) : State :=
  s.modTeam team fun t => { t with early := t.early.filter fun b => match b with
    | .coll _ _ tg kk _ _ => !(tg == tag && kk == k)
    | .collAck _ _ tg kk => !(tg == tag && kk == k)
    | _ => true }

/-- Collective data reaches the members of this part that `ms` names; a `cgat` contribution is acknowledged (R327). -/
def State.collDeliver (s : State) (key : Nat) (ms : List Nat) (b : CellBody) : State :=
  ((s.windowTeams key).filter fun x => match (s.team x).member with
    | some m => ms.contains m
    | none => false).foldl (fun s x => s.keepEarly x b) s

/-- Collective data goes to the members `ms` of a team's window: here at once; to other parts in a COLL cell each, or, where it is
multicast, in one MCAST cell for all that share a context number (R315, R327, log 39). -/
def State.collSend (s : State) (team : Nat) (multicast : Bool) (ms : List Nat) (b : CellBody) : State :=
  match (s.team team).window with
  | none => s
  | some w =>
    let c := (s.team team).ctx
    let s := s.collDeliver w.key ms b
    let far := ((ms.filter fun m => (w.entries.getD m {}).part != s.part).map fun m => (w.entries.getD m {}).part).eraseDups
    if !multicast then far.foldl (fun s p => s.sendColl c 0x08 0 p b) s
    else (far.map (s.partnerTag c)).eraseDups.foldl (fun s tag =>
      let group := Config.mcastGroup w.key tag % 512
      s.sendCell { type := 0x0c, dst := group, src := s.part, flow := s.flowOf c .coll, sp := 2, ctag := tag, plane := group % 32
                   body := b }) s

/-- The checks and start of a collective: op 0 to 2 `cred`, 3 `cbc`, 4 `cgat` (R326, R327). -/
def State.collective (s : State) (op : Nat) (f : FSlot) (a b c : SReg) : State :=
  let sa := (s.srcS a).toNat
  let sb := (s.srcS b).toNat
  let sc := (s.srcS c).toNat
  let src := bits sa 0 32
  let dst := bits sa 32 32
  let n := bits sb 0 16
  let root := bits sb 16 8
  let tag := bits sc 0 16
  let fw := s.slotBits f
  let t := s.curTeam
  match t.window, t.member, FmtSlot.ofBits fw with
  | some w, some me, some slot =>
    let ranks := w.attached
    let width := slot.fmt.width
    let area := (n * width + 7) / 8
    let fmtBad := decide (op < 3) && !(slot.fmt == .f32 || slot.fmt == .f16 || slot.fmt == .b16)
    let reads := decide (op ≠ 3) || me == root
    let writes := decide (op ≠ 4) || me == root
    let out := if op = 4 then (w.entries.length * n * width + 7) / 8 else area
    match firstBad [
        (fmtBad || n == 0 || decide (32768 < n) || sb / 2 ^ 24 != 0 || sc / 2 ^ 16 != 0 || !ranks.contains root || !ranks.contains me, ill14),
        (src % 16 != 0 || dst % 16 != 0, alignFault),
        ((reads && !t.inShare .ab src area) || (writes && !t.inShare .ab dst out), protect6),
        (s.isTwin t.ctx && ranks.any fun m => (w.entries.getD m {}).part != s.part, { code := .twinIsolated })] with
    | some f => s.fault f
    | none =>
      let k := t.collCount.get 0 tag
      let o : CollOp := { gid := s.iss.gid, pc := s.iss.pc, word := s.iss.word, op := op, slot := fw, dst := dst, n := n,
                          root := root, tag := tag, k := k, ranks := ranks, sup := s.iss.sup, gseq := s.cur.seq }
      let xs := (List.range n).map fun j => elemAt t.ab src (j * width) width
      let body : CellBody := .coll w.key me tag k xs (if op = 4 then some root else none)
      let s := s.modTeam s.teamKey fun t =>
        { t with colls := t.colls ++ [o], collCount := t.collCount.set tag ((k + 1) % 2 ^ 16) }
      let s := s.modCur fun g => { g with tm := g.tm + 1 }
      if op = 3 then (if me = root then s.collSend s.teamKey true ranks body else s)
      else if op = 4 then
        let s := s.collSend s.teamKey false [root] body
        -- a root on this part has acknowledged at once
        if (w.entries.getD root {}).part = s.part then s.keepEarly s.teamKey (.collAck w.key me tag k) else s
      else s.collSend s.teamKey false ranks body
  | _, _, _ => s.fault ill14

def execCred (x : FSlot) (a b c : SReg) (o : RedOp) (s : State) : Res :=
  guard (.cred x a b c o) s fun s => if s.lanes.isEmpty then s else s.collective o.code x a b c
def execCbc (x : FSlot) (a b c : SReg) (s : State) : Res :=
  guard (.cbc x a b c) s fun s => if s.lanes.isEmpty then s else s.collective 3 x a b c
def execCgat (x : FSlot) (a b c : SReg) (s : State) : Res :=
  guard (.cgat x a b c) s fun s => if s.lanes.isEmpty then s else s.collective 4 x a b c

/-! ### The canonical tree (R327) -/

/-- The least power of two that is not below half of `n`, for `n` from 2: 2^(ceil(log2 n) - 1). -/
def treeSplit (n : Nat) : Nat := 2 ^ ((n - 1).log2)

/-- `red` over a list of f32 patterns; `fuel` bounds the depth. -/
def treeReduce (op : Nat) : Nat → List Nat → Nat
  | 0, l => l.headD 0
  | fuel + 1, l =>
    match l with
    | [] => 0
    | [x] => x
    | l =>
      let k := treeSplit l.length
      let x := treeReduce op fuel (l.take k)
      let y := treeReduce op fuel (l.drop k)
      if op = 0 then shapeF32.rne ((shapeF32.value x).add (shapeF32.value y))
      else if op = 1 then fminBits shapeF32 x y
      else fmaxBits shapeF32 x y

/-- One element of a reduction, as stored bits. -/
def reduceElem (slot : FmtSlot) (op : Nat) (xs : List Nat) : Nat :=
  slot.write (shapeF32.value (treeReduce op 9 (xs.map fun x => shapeF32.rne (slot.fmt.value x))))

/-! ### Completion (R327, R328) -/

/-- A collective leaves its team; `tm` falls. -/
def State.collDone (s : State) (team : Nat) (o : CollOp) : State :=
  ((s.modTeam team fun t => { t with colls := t.colls.erase o }).dropColl team o.tag o.k).modGang o.gid fun g => { g with tm := g.tm - 1 }

/-- The destination of a finished collective, written into AB. -/
def collOut (ab : Memory) (slot : FmtSlot) (o : CollOp) (got : Tab (List Nat)) : Memory :=
  let w := slot.fmt.width
  let put (m : Memory) (i x : Nat) : Memory := putElem m o.dst (i * w) w x
  let idx := List.range o.n
  if o.op < 3 then
    idx.foldl (fun m j => put m j (reduceElem slot o.op (o.ranks.map fun r => (got.get [] r).getD j 0))) ab
  else if o.op = 3 then
    let xs := got.get [] o.root
    idx.foldl (fun m j => put m j (xs.getD j 0)) ab
  else
    o.ranks.foldl (fun m r =>
      let xs := got.get [] r
      idx.foldl (fun m j => put m (r * o.n + j) (xs.getD j 0)) m) ab

/-- A collective of a team finishes when what it needs has come, or ends with WINDOW_DEPARTED (R327, R328). -/
def State.collComplete (s : State) (team tag k : Nat) : State :=
  let t := s.team team
  match t.colls.find? fun o => o.tag == tag && o.k == k, t.window, t.member with
  | some o, some w, some me =>
    let got := t.collData tag k
    let has (r : Nat) : Bool := got.any fun x => x.1 == r
    let gone := o.ranks.any fun r => (w.entries.getD r {}).state == 3
    if gone then (s.collDone team o).engineFault o.gid o.sup o.pc o.word { code := .windowDeparted }
    else if o.op = 4 ∧ me ≠ o.root then (if t.collAcked me tag k then s.collDone team o else s)
    else if !(if o.op = 3 then has o.root else o.ranks.all has) then s
    else match FmtSlot.ofBits o.slot with
      | none => s
      | some slot => (s.modTeam team fun t => { t with ab := collOut t.ab slot o got }).collDone team o
  | _, _, _ => s

def execCollectiveComplete (team tag k : Nat) (s : State) : Res := .next (s.collComplete team tag k)

/-! ### Cells -/

/-- Data for members of a window on this part, from another part; `cgat` contributions are acknowledged. -/
def State.collArrive (s : State) (r : Rx) : State :=
  match r.cell.body with
  | .coll key rank tag k _ dest =>
    match dest with
    | none => s.collDeliver key ((s.windowTeams key).filterMap fun t => (s.team t).member) r.cell.body
    | some m => (s.collDeliver key [m] r.cell.body).sendColl r.cell.ctag 0x08 1 r.cell.src (.collAck key rank tag k)
  | .collAck key rank _ _ =>
    ((s.windowTeams key).filter fun t => (s.team t).member == some rank).foldl (fun s t => s.keepEarly t r.cell.body) s
  | _ => s

def execCollReceive (r : Rx) (s : State) : Res :=
  .next (match s.accept r with
    | (s, true) => s.collArrive r
    | (s, false) => s)

def execMcastReceive (r : Rx) (s : State) : Res :=
  .next (match s.accept r with
    | (s, true) => s.collArrive r
    | (s, false) => s)

end Sys2Proof.Machine
end

