-- ==== Sys2Proof/Machine/CrossLane.lean ====
section
/-! DEFINITION. Cross-lane instructions (spec/08 R182 to R186). -/

namespace Sys2Proof.Machine

/-- Lanes an index can name (R182, R184). -/
def laneBound : Nat := 32

/-- Whether a source lane supplies a value: it exists and has not exited (R182); an active lane of the packet has not, though
an `exit` of the same packet ends it (R105). -/
def State.laneValid (s : State) (j : Int) : Bool :=
  decide (0 ≤ j) && decide (j < laneBound) && (bit s.cur.notExited j.toNat || s.active j.toNat)

/-- The value of `va` in lane j for a reader, 0 where the lane is not valid (R182). -/
def State.laneValue (s : State) (a : VReg) (j : Int) : W32 := if s.laneValid j then s.srcV a j.toNat else 0

/-- A shuffle or broadcast whose source lane is `j i` (R184). -/
def shuffle (s : State) (d a : VReg) (j : Nat → Int) : State := s.writeV d fun i => s.laneValue a (j i)
/-- Its `.chk` variant also leaves the validity in `p7` (R184). -/
def shuffleChk (s : State) (d a : VReg) (j : Nat → Int) : State :=
  (shuffle s d a j).writeP 7 fun i => s.laneValid (j i)

/-- The source lanes of R184, `v` the reader's index or delta. -/
def laneIdx (v : W32) : Int := v.toNat
def laneUp (v : W32) (i : Nat) : Int := (i : Int) - v.toInt
def laneDn (v : W32) (i : Nat) : Int := (i : Int) + v.toInt
def laneXor (v : W32) (i : Nat) : Int := ((i ^^^ v.toNat % 32 : Nat) : Int)

def execVshflIdx (d a b : VReg) (s : State) : Res :=
  guard (.vshflIdx d a b) s fun s => shuffle s d a fun i => laneIdx (s.srcV b i)
def execVshflUp (d a : VReg) (x : Src2) (s : State) : Res :=
  guard (.vshflUp d a x) s fun s => shuffle s d a fun i => laneUp (s.src2 x) i
def execVshflDn (d a : VReg) (x : Src2) (s : State) : Res :=
  guard (.vshflDn d a x) s fun s => shuffle s d a fun i => laneDn (s.src2 x) i
def execVshflXor (d a : VReg) (x : Src2) (s : State) : Res :=
  guard (.vshflXor d a x) s fun s => shuffle s d a fun i => laneXor (s.src2 x) i
def execVbcast (d a : VReg) (x : Src2) (s : State) : Res :=
  guard (.vbcast d a x) s fun s => shuffle s d a fun _ => laneIdx (s.src2 x)
def execVshflIdxChk (d a b : VReg) (s : State) : Res :=
  guard (.vshflIdxChk d a b) s fun s => shuffleChk s d a fun i => laneIdx (s.srcV b i)
def execVshflUpChk (d a : VReg) (x : Src2) (s : State) : Res :=
  guard (.vshflUpChk d a x) s fun s => shuffleChk s d a fun i => laneUp (s.src2 x) i
def execVshflDnChk (d a : VReg) (x : Src2) (s : State) : Res :=
  guard (.vshflDnChk d a x) s fun s => shuffleChk s d a fun i => laneDn (s.src2 x) i
def execVshflXorChk (d a : VReg) (x : Src2) (s : State) : Res :=
  guard (.vshflXorChk d a x) s fun s => shuffleChk s d a fun i => laneXor (s.src2 x) i
def execVbcastChk (d a : VReg) (x : Src2) (s : State) : Res :=
  guard (.vbcastChk d a x) s fun s => shuffleChk s d a fun _ => laneIdx (s.src2 x)

/-- The sum over lanes, modulo 2^32 (R185). -/
def laneSum (s : State) (a : VReg) (ls : List Nat) : W32 := ls.foldl (fun t j => t + s.srcV a j) 0
/-- The fold of a choice over the participants (R185). -/
def laneFold (s : State) (a : VReg) (f : W32 → W32 → W32) : W32 :=
  match s.lanes with
  | [] => 0
  | j :: t => t.foldl (fun x k => f x (s.srcV a k)) (s.srcV a j)

def execVredAdd (d a : VReg) (s : State) : Res :=
  guard (.vredAdd d a) s fun s => s.writeV d fun _ => laneSum s a s.lanes
def execVredMin (d a : VReg) (s : State) : Res := guard (.vredMin d a) s fun s => s.writeV d fun _ => laneFold s a minS
def execVredMax (d a : VReg) (s : State) : Res := guard (.vredMax d a) s fun s => s.writeV d fun _ => laneFold s a maxS
/-- The inclusive scan (R185). -/
def execVscanAdd (d a : VReg) (s : State) : Res :=
  guard (.vscanAdd d a) s fun s => s.writeV d fun i => laneSum s a (s.lanes.filter fun j => decide (j ≤ i))
def execVballot (d : VReg) (p : PReg) (s : State) : Res :=
  guard (.vballot d p) s fun s =>
    s.writeV d fun _ => BitVec.ofNat 32 (maskOf (s.lanes.filter fun j => bit (s.srcP p) j))
def execVvoteAny (d p : PReg) (s : State) : Res :=
  guard (.vvoteAny d p) s fun s => s.writeP d fun _ => s.lanes.any fun j => bit (s.srcP p) j
def execVvoteAll (d p : PReg) (s : State) : Res :=
  guard (.vvoteAll d p) s fun s => s.writeP d fun _ => s.lanes.all fun j => bit (s.srcP p) j

end Sys2Proof.Machine
end

