-- ==== Sys2Proof/Machine/Digest.lean ====
section
/-! DEFINITION. SHAKE256 with 64 bytes of output, which R416 and R418 name: the function of FIPS 202 (PRESUMED: log 109). A lane is a
number below 2^64; lane x + 5y of the 25 is the one at (x, y). -/

namespace Sys2Proof.Machine

/-- A lane turned left. -/
def laneTurned (a n : Nat) : Nat := (a * 2 ^ n + a / 2 ^ (64 - n)) % 2 ^ 64

/-- How far the step rho turns each lane. -/
def rhoTurns : List Nat := [0, 1, 62, 28, 27, 36, 44, 6, 55, 20, 3, 10, 43, 25, 39, 41, 45, 15, 21, 8, 18, 2, 61, 56, 14]

/-- The constants of the 24 rounds. -/
def roundConstants : List Nat :=
  [0x0000000000000001, 0x0000000000008082, 0x800000000000808a, 0x8000000080008000, 0x000000000000808b, 0x0000000080000001,
   0x8000000080008081, 0x8000000000008009, 0x000000000000008a, 0x0000000000000088, 0x0000000080008009, 0x000000008000000a,
   0x000000008000808b, 0x800000000000008b, 0x8000000000008089, 0x8000000000008003, 0x8000000000008002, 0x8000000000000080,
   0x000000000000800a, 0x800000008000000a, 0x8000000080008081, 0x8000000000008080, 0x0000000080000001, 0x8000000080008008]

/-- One round of Keccak-f[1600]: theta, rho and pi, chi, iota. -/
def keccakRound (a : List Nat) (rc : Nat) : List Nat :=
  let col := (List.range 5).map fun x =>
    a.getD x 0 ^^^ a.getD (x + 5) 0 ^^^ a.getD (x + 10) 0 ^^^ a.getD (x + 15) 0 ^^^ a.getD (x + 20) 0
  let d := (List.range 5).map fun x => col.getD ((x + 4) % 5) 0 ^^^ laneTurned (col.getD ((x + 1) % 5) 0) 1
  let turned := (List.range 25).map fun i => laneTurned (a.getD i 0 ^^^ d.getD (i % 5) 0) (rhoTurns.getD i 0)
  -- the lane that pi brings to (x, y) stood at (x + 3y, x)
  let b := (List.range 25).map fun i => turned.getD ((i % 5 + 3 * (i / 5)) % 5 + 5 * (i % 5)) 0
  let chi := (List.range 25).map fun i =>
    let at_ (k : Nat) : Nat := b.getD ((i % 5 + k) % 5 + 5 * (i / 5)) 0
    at_ 0 ^^^ ((2 ^ 64 - 1 - at_ 1) &&& at_ 2)
  (chi.getD 0 0 ^^^ rc) :: chi.drop 1

def keccakF (a : List Nat) : List Nat := roundConstants.foldl keccakRound a

/-- A message of `n` bytes, as a number whose low byte is the first, with the suffix and padding of SHAKE256: whole blocks of 136
bytes. -/
def shakePadded (m n : Nat) : Nat := m % 256 ^ n + 0x1f * 256 ^ n + 0x80 * 256 ^ (n / 136 * 136 + 135)

/-- The first 64 bytes of SHAKE256 of `n` bytes, low byte first. -/
def shake256 (m n : Nat) : Nat :=
  let p := shakePadded m n
  let a := (List.range (n / 136 + 1)).foldl (fun a k => keccakF ((List.range 25).map fun i =>
    a.getD i 0 ^^^ (if i < 17 then p / 2 ^ (1088 * k + 64 * i) % 2 ^ 64 else 0))) (List.replicate 25 0)
  ((List.range 8).map fun i => a.getD i 0 * 2 ^ (64 * i)).sum

end Sys2Proof.Machine
end

