-- ==== Sys2Proof/Machine/System.lean ====
section
/-! DEFINITION. The system instructions (spec/07 R160 to R164, spec/19 R356 to R374): system registers, service calls, the
supervisor's instructions, parked splits that go on, and the events of gangs, teams and frames. -/

namespace Sys2Proof.Machine

def ill16 : FInfo := { code := .illegal, detail := 16 }

/-! ### `sysrd` (R163, R367, R368) -/

/-- The counters as CNT shows them (R163). -/
def Gang.cnt (g : Gang) : Nat :=
  g.ld % 2048 + g.st % 2048 * 2 ^ 11 + g.cp % 2048 * 2 ^ 22 + g.tm % 2048 * 2 ^ 33

/-- A system register's value for the issuing split. -/
def State.sysReg (s : State) (n : Nat) : Nat :=
  let g := s.cur
  let t := s.curTeam
  let lr := s.curGrid.lr
  let h := g.handler
  if n = 0x000 then 0x0102
  else if n = 0x001 then gidGang s.iss.gid + g.role * 2 ^ 4 + g.nslices * 2 ^ 8
  else if n = 0x002 then t.number
  else if n = 0x003 then
    t.number % max 1 (lrGx lr) + t.number / max 1 (lrGx lr) % max 1 (lrGy lr) * 2 ^ 16 +
      t.number / max 1 (lrGx lr * lrGy lr) * 2 ^ 32
  else if n = 0x004 then bits (lrWord lr 0x10) 0 48
  else if n = 0x005 then s.coreKey + s.part * 2 ^ 16 + t.tenant * 2 ^ 32
  else if n = 0x006 then (match t.member with
    | some m => m
    | none => 2 ^ 15)
  else if n = 0x007 then s.curGrid.depth
  else if n = 0x008 then s.cycle.toNat
  else if n = 0x009 then g.regs.sxf.toNat
  else if n = 0x00a then g.cnt
  else if n = 0x00b then s.iss.sup.toNat
  else if 0x010 ≤ n ∧ n ≤ 0x01f then (Tab.get 0 t.tregs (n - 0x010)).toNat
  else if n = 0x100 then (match h with
    | some h => h.pc
    | none => 0)
  else if n = 0x101 then (match h with
    | some h => h.mask
    | none => 0)
  -- CX.PT as the context record writes it (R439)
  else if n = 0x102 then 2 ^ 56 + (s.ctx t.ctx).pt
  else if n = 0x103 then (s.core s.coreKey).specmiss
  else if n = 0x140 then (s.core s.coreKey).svcRing
  else if n = 0x142 then (s.core s.coreKey).svcProd
  else if n = 0x143 then (s.core s.coreKey).svcCtx
  else 0

/-- SPECMISS is cleared by reading it (R368). -/
def execSysrd (a : SReg) (r : Fin 2048) (s : State) : Res :=
  guard (.sysrd a r) s fun s =>
    let v := BitVec.ofNat 64 (s.sysReg r.val)
    let s := if r.val = 0x103 then s.modCore s.coreKey fun c => { c with specmiss := 0 } else s
    s.writeS a v

/-! ### Team registers and `syswr` (R160, R231, R367, R373) -/

/-- Whether a commit may take effect: two cycles have passed, and what a release fence holds back has left the store
queue (R160, R231). -/
def State.mayCommit (s : State) (c : TCommit) : Bool :=
  decide (c.due < s.cycle.toNat) && (match c.after with
    | some n => !(s.gang c.gid).sq.any fun e => decide (e.seq < n)
    | none => true)

/-- Commits of one team that take effect now, the clock having stood at `before`: they commit in the order of their cycles,
and of those that commit in one cycle to one register the lowest active-set position stands (R160). A write that a release
fence held back commits in the cycle in which it is let go. -/
def State.commitTeam (s : State) (before team : Nat) : State :=
  let t := s.team team
  let now := t.commits.filter s.mayCommit
  if now.isEmpty then s
  else
    let at_ (c : TCommit) : Nat := max c.due before
    let lost (c : TCommit) : Bool := now.any fun d => d.reg == c.reg && at_ d == at_ c && d.gid != c.gid && decide (d.pos < c.pos)
    let ok := sortBy (now.filter fun c => !lost c) fun a b => decide (at_ a ≤ at_ b)
    s.setTeam team { t with tregs := ok.foldl (fun r c => Tab.set r c.reg c.val) t.tregs
                            commits := t.commits.filter fun c => !s.mayCommit c }

/-- Every team's commits that are due. -/
def State.commitAll (s : State) (before : Nat) : State := s.teams.foldl (fun s (k, _) => s.commitTeam before k) s

/-- SVC.DONE: a batch slot is named; its batch is delivered by SVC_DONE (R373). A slot with no batch is ignored. -/
def Core.endSlot (c : Core) (n : Nat) : Core :=
  if (c.svcSlots.find n).isSome ∧ !c.svcEnding.contains n then { c with svcEnding := c.svcEnding ++ [n] } else c

def execSyswr (a : SReg) (r : Fin 2048) (s : State) : Res :=
  guard (.syswr a r) s fun s =>
    let v := s.srcS a
    let n := r.val
    if n = 0x009 then s.modCur fun g => { g with regs := { g.regs with sxf := BitVec.ofNat 2 v.toNat } }
    else if 0x010 ≤ n ∧ n ≤ 0x01f then
      let c : TCommit := { due := s.cycle.toNat + 2, reg := n - 0x010, val := v, gid := s.iss.gid,
                           pos := s.cur.active.getD 8, after := s.cur.relSeq }
      s.modTeam s.teamKey fun t => { t with commits := t.commits ++ [c] }
    else if n = 0x140 then
      s.modCore s.coreKey fun c => { c with svcRing := bits v.toNat 14 43 * 2 ^ 14 + bits v.toNat 0 4 }
    else if n = 0x141 then s.modCore s.coreKey fun c => c.endSlot (bits v.toNat 0 10)
    else if n = 0x143 then s.modCore s.coreKey fun c => { c with svcCtx := bits v.toNat 0 6 }
    else s

/-- Whether everything a gang issued before `seq` has been performed: its loads have returned and its stores have been acknowledged
(R223). -/
def State.released (s : State) (gid seq : Nat) : Bool := !(s.gang gid).loadsBefore seq && !s.storesBefore gid seq

/-! ### Service calls (R369 to R373) -/

/-- The service core of a core's die. -/
def svcCoreOf (core : Nat) : Nat := 384 + core / 96
def ringBase (r : Nat) : Nat := r / 2 ^ 14 * 2 ^ 14
def ringLog (r : Nat) : Nat := r % 16

/-- The context whose tables reach a service core's batch ring: the service grid's own (log 29). -/
def State.ringCtx (s : State) (core : Nat) : Option Nat :=
  (s.teams.find? fun (k, t) => k / 16 == core && t.valid && t.service).map fun x => x.2.ctx

/-- The call word of a lane and its arguments (R369). -/
def callLen (w : Nat) : Nat := bits w 19 8 + 1

/-- A lane's pointer: none when the entry is closed with SVC_ARG (R370). -/
def State.svcPtr (s : State) (gid w arg : Nat) : State × Option SvcPtr :=
  let team := gidTeam gid
  let sp := bits w 16 3
  let n := callLen w
  let byval := bit w 15
  let buf (b : BufSpace) : Option SvcPtr :=
    if (s.team team).extent b < arg + n then none else some (.at (.buf team b arg) arg)
  if bits w 27 5 ≠ 0 ∨ (bit w 14 ∧ (sp = 0 ∨ sp = 6 ∨ !byval)) ∨ (byval ∧ !bit w 14) then (s, none)
  else if !byval then (s, some .none)
  else if sp = 1 then (s, buf .l)
  else if sp = 2 then
    match s.resolveWindow team arg n with
    | .ok l => (s, some (.at l arg))
    | .error _ => (s, none)
  else if sp = 3 then (s, buf .wb)
  else if sp = 4 then (s, buf .ab)
  else if sp = 5 then (s, buf .cb)
  else
    let g := s.gang gid
    if 2 ^ 21 ≤ arg ∨ bits arg 17 4 ≠ gidGang gid ∨ 128 * g.vregs + 1024 < bits arg 0 17 + n then (s, none)
    else (s, some (.k (bits arg 0 17)))

/-- A lane of a call as it stands: its number, call word, four arguments, and its pointer unless it is closed. -/
structure SvcCall where
  lane : Nat
  word : Nat
  args : List Nat
  ptr : Option SvcPtr
  deriving DecidableEq, Repr

/-- The calls of a split's active lanes (R369, R370). -/
def State.svcCalls (s : State) (gid vb : Nat) : List Nat → State × List SvcCall
  | [] => (s, [])
  | i :: rest =>
    let v (k : Nat) : Nat := (Tab.get 0 (Tab.get [] (s.gang gid).regs.v (vb + k)) i).toNat
    let w := v 0
    let args := [v 1, v 2, v 3, v 4]
    let (s, p) := s.svcPtr gid w (args.getD (bits w 12 2) 0)
    let (s, l) := s.svcCalls gid vb rest
    (s, ⟨i, w, args, p⟩ :: l)

/-- One byte that a pointer names: what it holds, or none while it has yet to come from another part. -/
def State.svcByte (s : State) (gid lane : Nat) (p : SvcPtr) (k : Nat) : Option Nat :=
  match p with
  | .none => some 0
  | .k off => some ((s.gang gid).regs.kRead (s.gang gid).vregs (s.gang gid).nslices (off + k))
  | .at l _ => if l.isRemote then (s.gang gid).svcHeld.find (256 * lane + k) else some (s.readLoc (l.plus k) 1)

/-- The bytes of a lane that have yet to come are asked of the other part, once each (R370, R319). -/
def State.svcAsk (s : State) (gid : Nat) (c : SvcCall) : State :=
  match c.ptr with
  | some (.at l a) =>
    if !l.isRemote then s
    else (List.range (callLen c.word)).foldl (fun s k =>
      let what := RemoteFor.svcRead gid c.lane k
      if (s.svcByte gid c.lane (.at l a) k).isSome ∨ s.isSent what then s
      else s.sendLane gid ⟨c.lane, l.plus k, a + k, 1, 0, 0, false, 0⟩ 1 0 what) s
  | _ => s

/-- A lane's status and result written (R370). -/
def Gang.svcResult (g : Gang) (vb lane status result : Nat) : Gang :=
  (g.writeV vb [lane] fun _ => BitVec.ofNat 32 status).writeV (vb + 1) [lane] fun _ => BitVec.ofNat 32 result

/-- SVC_ARG of the closed lanes of a batch, written as the call completes (R370). -/
def Gang.svcClosed (g : Gang) (vb : Nat) (l : List (Nat × Nat)) : Gang :=
  l.foldl (fun g x => g.svcResult vb x.1 0x13 (Config.closedResult x.2).toNat) g

/-- Statuses of the lanes that no batch carries: SVC_ARG for closed ones, and for the others what a die without service
answers (R370, R374). -/
def State.svcClose (s : State) (gid vb : Nat) (cs : List SvcCall) : State :=
  s.modGang gid fun g => cs.foldl (fun g c => match c.ptr with
    | none => g.svcResult vb c.lane 0x13 (Config.closedResult c.word).toNat
    | some _ => g.svcResult vb c.lane 0xffffffff 0) g

/-- Values written at a context's addresses, one after another; the first fault of a translation stops them. -/
def State.storeAll (s : State) (core c : Nat) : List (Nat × Nat × Nat) → State × Bool
  | [] => (s, true)
  | (va, n, v) :: rest =>
    match s.storeVa core c va n v with
    | (s, none) => s.storeAll core c rest
    | (s, some _) => (s, false)

/-- The words of a batch: header, entries, buffers (R372). -/
def State.batchWords (s : State) (gid slot : Nat) (cs : List SvcCall) : List (Nat × Nat × Nat) :=
  let open_ := maskOf ((cs.filter fun c => c.ptr.isSome).map (·.lane))
  let team := s.team (gidTeam gid)
  let bh := open_ % 2 ^ 32 + gidCore gid % 512 * 2 ^ 32 + gidSlot gid * 2 ^ 41 + gidGang gid * 2 ^ 45 + team.ctx % 64 * 2 ^ 49
  let entry (c : SvcCall) : List (Nat × Nat × Nat) :=
    let words := c.word :: c.args ++ [if c.ptr.isNone then 0x13 else 0, 0, 0]
    let body := (words.zip (List.range 8)).map fun (w, k) => (slot + 0x40 + 32 * c.lane + 4 * k, 4, w)
    let bytes := match c.ptr with
      | some .none => []
      | some p => (List.range (callLen c.word)).map fun k =>
          (slot + 0x440 + 256 * c.lane + k, 1, (s.svcByte gid c.lane p k).getD 0)
      | none => []
    body ++ bytes
  (slot, 8, bh) :: (List.range 7).map (fun k => (slot + 8 + 8 * k, 8, 0)) ++ cs.flatMap entry

/-- What a delivered lane does (R370, R373). -/
def SvcCall.open? (c : SvcCall) : Option SvcLane :=
  c.ptr.map fun p =>
    { lane := c.lane, ptr := p, len := callLen c.word
      back := match p with
        | .none => false
        | .at (.buf _ .wb _) _ => false
        | _ => true }

/-- A service call whose release is complete forms its batch, and its split waits for the answer; with no entry open, or
no service on the die, it completes at once; it stays where it is while bytes or a free slot are lacking (R370, R372,
R374). -/
def State.svcForm (s : State) (gid : Nat) (ks : List Nat) (vb : Nat) : State :=
  let g := s.gang gid
  let core := svcCoreOf (gidCore gid)
  let lanes := maskBits (g.laneMask ks fun x => x.mask &&& x.live) 64
  let (s, cs) := s.svcCalls gid vb lanes
  let ring := (s.core core).svcRing
  let s := if ring = 0 then s else cs.foldl (fun s c => s.svcAsk gid c) s
  let lacking := cs.any fun c => match c.ptr with
    | some .none => false
    | some p => (List.range (callLen c.word)).any fun k => (s.svcByte gid c.lane p k).isNone
    | none => false
  let n := (s.core core).svcProd
  let slot := n % 2 ^ ringLog ring
  if ring ≠ 0 ∧ lacking then s
  else
    let s := s.modGang gid fun g => { g with svcHeld := [] }
    if cs.all (fun c => c.ptr.isNone) ∨ ring = 0 then
      (((s.keepSeen gid ks).svcClose gid vb cs).goOn gid ks).invalidateL1 (gidCore gid)
    else match s.ringCtx core with
      | none => s
      | some c =>
        if ((s.core core).svcSlots.find slot).isSome then s
        else match s.storeAll core c (s.batchWords gid (ringBase ring + 16384 * slot) cs) with
          -- a page of the host half waits for its answer (R348)
          | (t, false) => { s with hostNeed := t.hostNeed }
          | (s, true) =>
            let b : SvcBatch := { gid := gid, ctx := (s.team (gidTeam gid)).ctx, slice := ks.headD 0, vb := vb,
                                  lanes := cs.filterMap SvcCall.open?
                                  closed := (cs.filter fun c => c.ptr.isNone).map fun c => (c.lane, c.word) }
            let s := s.modCore core fun c => { c with svcProd := (n + 1) % 2 ^ 64, svcSlots := c.svcSlots.set slot b }
            s.modGang gid fun g => g.modSlices ks fun _ x => { x with park := .service vb slot }

/-- `svc` releases at `.die`, parks, and forms its batch when it may; the gang leaves the active set (R127, R370). -/
def execSvc (v : VReg) (s : State) : Res :=
  guard (.svc v) s fun s =>
    if s.iss.sup then s.fault ill16
    else if s.lanes.isEmpty then s
    else
      let gid := s.iss.gid
      let s := s.drainAll gid
      let seq := s.cur.seq
      let s := (s.addStore .marker [] false).parkSplit (.serviceSend v.val seq)
      let s := if s.released gid seq then s.svcForm gid s.iss.slices v.val else s
      if (s.cur.slice (s.iss.slices.headD 0)).park = .none then s else s.leaveActive gid (.parked (s.iss.slices.headD 0))

/-! ### SVC_DONE (R373) -/

/-- The name of a gang, or team, while it is saved: its old key, moved out of the range of keys in use. -/
def liftGid (gid : Nat) : Nat := gid + 2 ^ 32
def liftTeam (k : Nat) : Nat := k + 2 ^ 28
def isLifted (gid : Nat) : Bool := decide (2 ^ 32 ≤ gid)

/-- The saved team with an old key, of a context. -/
def Ctx.savedIdx (x : Ctx) (team : Nat) : Option Nat := x.saved.findIdx? fun t => t.core * 16 + t.tslot == team

/-- An open lane's status, result and copied-back bytes, as the slot holds them. -/
def State.slotLane (s : State) (core c base : Nat) (l : SvcLane) : State × Nat × Nat × List Nat :=
  let rd (s : State) (va n : Nat) : State × Nat := match s.readVa core c va n with
    | (s, .ok m) => (s, m.readLE 0 n)
    | (s, .error _) => (s, 0)
  let (s, st) := rd s (base + 0x40 + 32 * l.lane + 20) 4
  let (s, r) := rd s (base + 0x40 + 32 * l.lane + 24) 4
  let (s, x) := rd s (base + 0x440 + 256 * l.lane) 256
  (s, st, r, (List.range l.len).map fun k => byteOf x k)

/-- Bytes copied back where an open lane points: into the gang's window, the team's buffers, another member's scratch, or
over the fabric (R370); a rival changes no other part (R391). -/
def State.copyBack (s : State) (b : SvcBatch) (l : SvcLane) (bs : List Nat) : State :=
  if !l.back then s
  else match l.ptr with
    | .none => s
    | .k off => s.modGang b.gid fun g =>
        { g with regs := (bs.zip (List.range bs.length)).foldl (fun r (x, k) => r.kWrite g.vregs g.nslices (off + k) x) g.regs }
    | .at p a =>
      (bs.zip (List.range bs.length)).foldl (fun s (x, k) =>
        if p.isRemote then
          (if s.isTwin b.ctx then s else s.sendLane b.gid ⟨l.lane, p.plus k, a + k, 1, x, 0, false, 0⟩ 2 0 (.svcBack b.gid l.lane k))
        else s.writeLoc (p.plus k) 1 x) s

/-- One gang of a saved team changed. -/
def SavedTeam.modGang (t : SavedTeam) (k : Nat) (f : Gang → Gang) : SavedTeam :=
  { t with gangs := t.gangs.map fun (j, g) => if j = k then (j, f g) else (j, g) }

/-- One saved team of a context changed, by its old key. -/
def State.modSaved (s : State) (c team : Nat) (f : SavedTeam → SavedTeam) : State :=
  s.modCtx c fun x => match x.savedIdx team with
    | some i => { x with saved := x.saved.modify i f }
    | none => x

/-- The same for a split that is saved: into the saved windows and buffers of its context's teams (R370). -/
def State.copyBackSaved (s : State) (b : SvcBatch) (l : SvcLane) (bs : List Nat) : State :=
  let gid := b.gid % 2 ^ 32
  let each := bs.zip (List.range bs.length)
  if !l.back then s
  else match l.ptr with
    | .k off => s.modSaved b.ctx (gidTeam gid) fun t => t.modGang (gidGang gid) fun g =>
        { g with regs := each.foldl (fun r (x, j) => r.kWrite g.vregs g.nslices (off + j) x) g.regs }
    | .at (.buf k sp off) _ =>
      if k < 2 ^ 28 then s
      else s.modSaved b.ctx (k % 2 ^ 28) fun t =>
        { t with team := each.foldl (fun t (x, j) => t.setBuf sp ((t.buf sp).writeLE (off + j) 1 x)) t.team }
    | _ => s

/-- A batch's answer delivered to the split that waits for it, live or saved, and its slot freed (R370, R373). -/
def State.svcDeliver (s : State) (core slot : Nat) : State :=
  match (s.core core).svcSlots.find slot, s.ringCtx core with
  | some b, some c =>
    let base := ringBase (s.core core).svcRing + 16384 * slot
    let s := s.modCore core fun k =>
      { k with svcSlots := k.svcSlots.erase slot, svcEnding := k.svcEnding.filter (· != slot) }
    if isLifted b.gid then
      let gid := b.gid % 2 ^ 32
      let s := b.lanes.foldl (fun s l =>
        let (s, st, r, bs) := s.slotLane core c base l
        (s.copyBackSaved b l bs).modSaved b.ctx (gidTeam gid) fun t =>
          t.modGang (gidGang gid) fun g => g.svcResult b.vb l.lane st r)
        (s.modSaved b.ctx (gidTeam gid) fun t => t.modGang (gidGang gid) fun g =>
          g.modSlices g.sliceKeys fun _ z =>
            if z.park = .service b.vb slot ∧ z.others.isSome then { z with seen := some (g.regs, g.bank) } else z)
      s.modSaved b.ctx (gidTeam gid) fun t => t.modGang (gidGang gid) fun g =>
        (g.svcClosed b.vb b.closed).modSlices g.sliceKeys fun _ z => if z.park = .service b.vb slot then
          { z with park := .none, pc := if z.others.isSome then z.pc else pcSucc z.pc, did := z.others.toList, others := none } else z
    else
      let waiting := (s.gang b.gid).sliceKeys.filter fun k => ((s.gang b.gid).slice k).park == .service b.vb slot
      if waiting.isEmpty then s
      else
        let s := b.lanes.foldl (fun s l =>
          let (s, st, r, bs) := s.slotLane core c base l
          (s.copyBack b l bs).modGang b.gid fun g => g.svcResult b.vb l.lane st r) (s.keepSeen b.gid waiting)
        let s := s.modGang b.gid fun g => g.svcClosed b.vb b.closed
        (s.goOn b.gid waiting).invalidateL1 (gidCore b.gid)
  | _, _ => s

def execSvcDone (core slot : Nat) (s : State) : Res :=
  .next (let waits : Bool := match (s.core core).svcSlots.find slot with
      | some b => !isLifted b.gid && s.cutPauses (gidTeam b.gid)
      | none => false
    if (s.core core).svcEnding.contains slot ∧ !waits then s.accessing ⟨2 ^ 32, 8, core * 1024 + slot⟩ fun s => s.svcDeliver core slot else s)

/-! ### Swapping in a service wait (R371) -/

/-- Whether a gang may be swapped out. -/
def Gang.maySwap (g : Gang) : Bool :=
  let live := g.slices.filter fun (_, x) => !x.idle
  let waits (p : Park) : Bool := match p with
    | .service _ _ => true
    | .serviceSend _ _ => true
    | _ => false
  g.resident && !g.ended && !g.swapped && g.ld == 0 && !live.isEmpty && live.all (fun (_, x) => x.park != .none) &&
  live.any fun (_, x) => waits x.park

/-- Whether a team's scratch goes out too. -/
def State.scratchMayGo (s : State) (team : Nat) : Bool :=
  !(s.liveGangs team).isEmpty && (s.liveGangs team).all (fun k => (s.gang k).swapped) && (s.team team).window.isNone &&
  !(s.core (team / 16)).copies.any fun (_, r) => r.state == .running && r.tslot == team % 16

/-- Teams all of whose gangs are swapped out lose their scratch's place in the store once no copy of theirs runs (R371). -/
def State.swapScratch (s : State) : State :=
  s.teams.foldl (fun s (k, t) => if t.valid ∧ !t.scratchOut ∧ s.scratchMayGo k then
    s.modTeam k fun t => { t with scratchOut := true } else s) s

/-- Gangs that hold a slot of a core's gang table. -/
def State.gangsOn (s : State) (core : Nat) : Nat :=
  (s.gangs.filter fun (k, g) => gidCore k == core && g.resident && !g.ended && !g.swapped).length

/-- Whether a swapped-out gang waits for room on its core: its service wait has ended (R371). -/
def Gang.wantsBack (g : Gang) : Bool :=
  g.swapped && !g.slices.any fun (_, x) => !x.ended && (match x.park with
    | .service _ _ => true
    | .serviceSend _ _ => true
    | _ => false)

/-! ### The supervisor's instructions (R360 to R363) -/

/-- Whether every slice that entered the handler has come to an `hret` (R360). -/
def Gang.allAtHret (g : Gang) (h : Handler) : Bool :=
  h.slices.all fun k =>
    let x := g.slice k
    x.idle || (match x.park with
      | .hret _ => true
      | .handlerHold => true
      | _ => false)

def execHret (a : SReg) (s : State) : Res :=
  guard (.hret a) s fun s =>
    let v := (s.srcS a).toNat
    let s := s.parkSplit (.hret v)
    match s.cur.handler with
    | none => s
    | some h => if s.cur.allAtHret h then s.hretDone v else s

/-- The HOME of a device-half page's range hint (R351, R352): 2 where no record covers it. -/
def Ctx.home (x : Ctx) (va : Nat) : Nat :=
  match x.hints.find? fun (b, n, _) => decide (b ≤ va) && decide (va < b + n) with
  | some (_, _, r) => r % 4
  | none => 2

/-- A frame for a table level, its first 4 KB zeroed; or one for a leaf, zeroed whole (R361). -/
def State.zeroFrame (s : State) (c n : Nat) : State × Option Nat :=
  match s.takeFrame c with
  | (s, some f) => ({ s with dmem := s.dmem.paste f n [] }, some f)
  | (s, none) => (s, none)

/-- The table entry's address at the next level, made when it is missing (R361); an error is a status, or none for a
malformed entry. -/
def State.nextTable (s : State) (c entry : Nat) : State × Except (Option Nat) Nat :=
  let e := s.devRead entry 8
  if bit e 0 then
    match pteNext e with
    | some t => (s, .ok t)
    | none => (s, .error none)
  else match s.zeroFrame c 4096 with
    | (s, some f) => (s.devWrite entry 8 (f + 1), .ok f)
    | (s, none) => (s, .error (some 2))

/-- `pgmap` of one page in a context's own tables: the status, or none for a malformed table entry (R361). -/
def State.mapPage (s : State) (c va flags : Nat) : State × Option Nat :=
  let x := s.ctx c
  let fail (r : State × Option Nat) : State × Option Nat := r
  if x.home va = 1 then (s, some 3)
  else
    let v := va % 2 ^ 56
    match s.nextTable c (x.pt + 8 * bits v 43 13) with
    | (s, .error e) => fail (s, e)
    | (s, .ok t3) =>
      match s.nextTable c (t3 + 8 * bits v 34 9) with
      | (s, .error e) => fail (s, e)
      | (s, .ok t2) =>
        let a2 := t2 + 8 * bits v 25 9
        let e2 := s.devRead a2 8
        if bit e2 0 ∧ bit e2 1 then
          (s, match pteLeaf e2 (2 ^ 25) with
            | some _ => some 1
            | none => none)
        else match s.nextTable c a2 with
          | (s, .error e) => fail (s, e)
          | (s, .ok t1) =>
            let a1 := t1 + 8 * bits v 16 9
            let e1 := s.devRead a1 8
            if bit e1 0 ∧ (pteLeaf e1 (2 ^ 16)).isNone then (s, none)
            else if bit e1 0 ∧ !bit e1 7 then (s, some 1)
            else
              let (s, fr) := if bit flags 7 then (s, some x.zeroFrame) else s.zeroFrame c 65536
              match fr with
              | none => (s, some 2)
              | some f =>
                let s := s.devWrite a1 8 (f + (flags % 2 ^ 8 / 2 ^ 7) * 0x80 + bits flags 3 1 * 8 + bits flags 2 1 * 4 + 3)
                let page := va / 65536 * 65536
                ({ s with cores := s.cores.mapVals fun k =>
                    { k with tlb := k.tlb.filter fun e => !(e.ctx == c && e.vbase == page) } }, some 0)

/-- `pgmap` in a twin acts on its private map: a page that its view does not show, or shows with ZERO, is given the frame and
the permissions of R361 there (R390). -/
def State.mapPrivate (s : State) (c va flags : Nat) : State × Option Nat :=
  let x := s.ctx c
  let g := va / 65536
  let map (s : State) : State × Option Nat :=
    match (if bit flags 7 then (s, some x.zeroFrame) else s.zeroFrame c 65536) with
    | (s, some f) => (s.modCtx c fun x => { x with view := { x.view.take g (some f) with perms := x.view.perms.set g flags } }, some 0)
    | (s, none) => (s, some 2)
  if x.home va = 1 then (s, some 3)
  else match s.viewWalk c va 8 with
    | .ok e => if e.zero then map s else (s, some 1)
    | .error (.pageDev, _) => map s
    | .error _ => (s, none)

/-- `pgmap` performed for a gang: the status written, or the fault of a malformed table entry (R361, log 64). -/
def State.pgmapAct (s : State) (gid a va flags : Nat) (sup : Bool) : State × Option FInfo :=
  let c := (s.team (gidTeam gid)).ctx
  match (if s.isTwin c then s.mapPrivate c va flags else s.mapPage c va flags) with
  | (s, none) => (s, some { code := .protect, detail := 15, addr := va })
  | (s, some st) => (s.modGang gid fun g => g.writeS sup (a + 1) (BitVec.ofNat 64 st), none)

/-- The leaf is written as a release: the split parks while earlier accesses of its gang are outstanding (R361). -/
def execPgmap (a : SReg) (s : State) : Res :=
  guard (.pgmap a) s fun s =>
    let va := (s.srcS a).toNat
    let flags := (s.iss.readS (a.val + 1)).toNat
    let c := s.curTeam.ctx
    let zero := bit flags 7
    if 63 ≤ a.val ∨ va % 65536 ≠ 0 ∨ va / 2 ^ 56 ≠ 1 ∨ flags - bits flags 7 1 * 128 - bits flags 2 2 * 4 ≠ 0 ∨
       (zero ∧ (bit flags 2 ∨ (s.ctx c).zeroFrame = 0)) then s.fault ill16
    else if !s.released s.iss.gid s.cur.seq then s.parkSplit (.pgmap a.val va flags s.cur.seq)
    else match s.pgmapAct s.iss.gid a.val va flags s.iss.sup with
      | (s, some f) => s.fault f
      | (s, none) => s

/-- The device-half ranges whose translations a `pginv` drops (R362), as base and size: all of it, or the page, every cached
translation that covers it, and the leaf that maps it. -/
def State.dropped (s : State) (c va : Nat) : List (Nat × Nat) :=
  if va = 1 then [(2 ^ 56, 2 ^ 56)]
  else
    let covers (e : TlbEntry) : Bool := e.ctx == c && decide (e.vbase ≤ va) && decide (va < e.vbase + e.size)
    let leaf := match s.walk c (s.ctx c).pt va with
      | .leaf e => [(e.vbase, e.size)]
      | _ => []
    (va, 65536) :: leaf ++ s.cores.flatMap fun (_, k) => (k.tlb.filter covers).map fun e => (e.vbase, e.size)

/-- Whether an address lies in one of a list of ranges. -/
def inRanges (l : List (Nat × Nat)) (addr : Nat) : Bool := l.any fun (b, n) => decide (b ≤ addr) && decide (addr < b + n)

/-- Accesses of a context already translated through what is dropped: gang and sequence number (R362). -/
def State.translatedThrough (s : State) (c : Nat) (l : List (Nat × Nat)) : List (Nat × Nat) :=
  let dev (a : LaneAcc) : Bool := (match a.loc with
    | .dev _ => true
    | _ => false) && inRanges l a.addr
  (s.gangs.flatMap fun (gid, g) =>
      ((g.ops.filter fun o => o.actx == c && o.lanes.any dev).map fun o => (gid, o.seq)) ++
      ((g.sq.filter fun e => e.actx == c && e.lanes.any dev).map fun e => (gid, e.seq))) ++
  s.cores.flatMap fun (_, k) => (k.wp.filter fun e => e.actx == c && e.lanes.any dev).map fun e => (e.gid, e.seq)

/-- Whether none of a list of accesses is outstanding. -/
def State.allPerformed (s : State) (l : List (Nat × Nat)) : Bool :=
  l.all fun (gid, seq) => !(s.gang gid).ops.any (fun o => o.seq == seq) && !(s.gang gid).sq.any (fun e => e.seq == seq) &&
    !(s.core (gidCore gid)).wp.any fun e => e.gid == gid && e.seq == seq

def execPginv (a : SReg) (s : State) : Res :=
  guard (.pginv a) s fun s =>
    let va := (s.srcS a).toNat
    let c := s.curTeam.ctx
    if va ≠ 1 ∧ (va % 65536 ≠ 0 ∨ va / 2 ^ 56 ≠ 1) then s.fault ill16
    else
      let l := s.translatedThrough c (s.dropped c va)
      let s : State := { s with cores := s.cores.mapVals fun k =>
        { k with tlb := k.tlb.filter fun e => !(e.ctx == c && bit e.vbase 56 &&
            (va == 1 || (decide (e.vbase ≤ va) && decide (va < e.vbase + e.size)))) } }
      if l.isEmpty then s else s.parkSplit (.pginv l)

/-- `fltrd`: SUP reads 0 (R363). -/
def execFltrd (a : SReg) (w : Fin 4) (s : State) : Res :=
  guard (.fltrd a w) s fun s =>
    match s.cur.handler with
    | some h => s.writeS a (BitVec.ofNat 64 ({ h.record with sup := false }.words.getD w.val 0))
    | none => s.writeS a (Config.noRecord w.val)

/-! ### Parked splits (R126) -/

/-- The issue stage set to a parked split at its packet, as when the packet issued. -/
def State.atSplit (s : State) (gid k : Nat) : State :=
  let g := s.gang gid
  let x := g.slice k
  let ks := g.splitOf k
  { s with iss := { gid := gid, slices := ks, lanes := BitVec.ofNat 64 (g.laneMask ks fun y => y.mask &&& y.live),
                    pc := x.pc, word := x.others.getD 0, sup := x.sup, replay := false, src := g.regs, bank := g.bank } }

/-- The `wbar` of a parked split (R312): the team's arrival is told when it has come about, and the split goes on, as an
acquire, once the generation is complete. -/
def State.wbarTest (s : State) (gid gen : Nat) (ks : List Nat) : State :=
  let team := gidTeam gid
  match s.windowOf team with
  | none => s
  | some w =>
    let s := if w.gen = gen ∧ s.teamAtWbar team gen then s.arriveWbar team else s
    match s.windowOf team with
    | some w => if w.gen ≠ gen ∧ w.complete gen then (s.goOn gid ks).invalidateL1 (gidCore gid) else s
    | none => s

/-- Whether a gang's splits may issue or go on, as its context stands: it runs, or only steps this gang, which has not
taken its step yet (R379, R383, R389); service teams are never pre-empted or cut (R374). -/
def State.ctxRuns (s : State) (gid : Nat) : Bool :=
  let t := s.team (gidTeam gid)
  let x := s.ctx t.ctx
  t.service || (match x.state with
    | .running => true
    | .rival => true
    | .stepping => x.want == 0 && x.stepping == some gid && !x.stepped
    | _ => false)

/-- Whether the gang waits for the cut that its `brk` begins (R396). -/
def State.brkHolds (s : State) (gid : Nat) : Bool :=
  (s.ctx (s.team (gidTeam gid)).ctx).brkWaits.any fun b => b.gid == gid

/-- A gang of a stepping context has taken its step (R389). -/
def State.tookStep (s : State) (gid : Nat) : State :=
  s.modCtx (s.team (gidTeam gid)).ctx fun x => if x.state = .stepping then { x with stepped := true } else x

/-- The access of a split as it asks a host: kind 0 at its issue, 1 while it is parked. -/
def splitAsker (kind gid k : Nat) : Asker := ⟨gidTeam gid, kind, gid * 64 + k⟩

/-- A parked split's condition is tested, and it goes on when it holds (R126). -/
def State.unpark (s : State) (gid k : Nat) : State :=
  let g := s.gang gid
  let x := g.slice k
  let ks := g.splitOf k
  let team := gidTeam gid
  if !g.resident ∨ x.idle ∨ x.halted ∨ s.beforeCut gid ∨ s.brkHolds gid ∨ !s.ctxRuns gid then s
  else match x.park with
    | .none => s
    | .waitcnt l st c t => if g.countsOk l st c t then s.goOn gid ks else s
    | .bar id n => ((s.drainAll gid).arriveBar gid id n).completeBar team id
    | .regang m => if g.regangReady m x.pc then s.regangMerge gid m x.pc else s
    | .ljoin d =>
      if g.children.isEmpty then
        ((s.keepSeen gid ks).modGang gid fun g => (g.writeS x.sup d (BitVec.ofNat 64 g.joinWord)).clearJoin).goOn gid ks
      else s
    | .launch va =>
      if 16 ≤ g.children.length ∨ !s.listRoom then s
      else
        let s := s.atSplit gid k
        if s.loadHeld s.coreKey (s.accessCtx team) va 512 then s
        else match s.readLoad gid (s.accessCtx team) va 512 with
        | (s, .error (c, d, a)) =>
          (s.modGang gid fun g => g.modSlices ks fun _ x => { x with park := .none }).fault { code := c, detail := d, addr := a }
        | (s, .ok _) => (s.launchChild va).goOn gid ks
    | .pwreq cls => if (s.team team).holds cls then s.goOn gid ks else s
    | .cpyc id =>
      match s.copyById (gidCore gid) id with
      | some i => if (s.copyRec (gidCore gid) i).state = .faulted then s.goOn gid ks else s
      | none => s.goOn gid ks
    | .serviceSend vb seq => if s.released gid seq then s.svcForm gid ks vb else s
    | .service _ _ => s
    | .pginv l => if s.allPerformed l then s.goOn gid ks else s
    | .pgmap a va flags seq =>
      if !s.released gid seq then s
      else match (s.keepSeen gid ks).pgmapAct gid a va flags x.sup with
        | (s, none) => s.goOn gid ks
        | (s, some f) =>
          ((s.atSplit gid k).modGang gid fun g => g.modSlices ks fun _ x => { x with park := .none }).fault f
    | .phbwait off ph => if phbPasses (s.phbWord team off) ph then s.goOn gid ks else s
    | .handlerWait f w r jmp =>
      if g.handler.isSome then s
      else
        let s := s.atSplit gid k
        let s : State := { s with iss := { s.iss with word := w, pc := match r with
          | some r => r.pc
          | none => s.iss.pc } }
        let s := s.modGang gid fun g => g.modSlices ks fun _ x => { x with park := .none }
        (s.faultWith f r jmp).modGang gid fun g => g.regroup ks
    | .hret v =>
      match g.handler with
      | some h => if g.allAtHret h then (s.atSplit gid k).hretDone v else s
      | none => s
    | .wbar gen => s.wbarTest gid gen ks
    | .rsfence scope seq => if s.rsfenceDone team scope seq then s.goOn gid ks else s
    | .handlerHold => s
    | .wdetach =>
      if s.detached team then s.goOn gid ks
      else if s.ownMember team = 2 ∨ s.windowBusy team then s
      else match (s.team team).member with
        | some m =>
          let s := s.setMember team m 2
          if s.memberApplied team then s.goOn gid ks else s
        | none => s

def execSplitUnpark (gid k : Nat) (s : State) : Res :=
  .next (let t := s.attempting (splitAsker 1 gid k) fun s => s.unpark gid k
    if ((t.gang gid).slice k).park = ((s.gang gid).slice k).park then t else (t.tookStep gid).heard (splitAsker 1 gid k))

/-! ### The driver's hold on a gang (R356, R442) -/

/-- The gang a context's GS.SEL names, when it is a live gang of the context (R356). -/
def State.selected (s : State) (c : Nat) : Option Nat :=
  let x := (s.ctx c).gsSel
  let gid := gidOf (bits x 0 9) (bits x 9 4) (bits x 13 4)
  let g := s.gang gid
  if g.resident ∧ !g.ended ∧ (s.team (gidTeam gid)).ctx = c then some gid else none

/-- The lanes that one `jmp` halted go back to their slice (R442); of several such groups the older lie deeper on the stack, and
their entry's WHOLE takes in those that follow (log 98). -/
def Slice.rejoinOne (x : Slice) (later lanes : BitVec 4) (pc : Nat) : Slice :=
  if x.live = 0 then
    { x with mask := lanes, live := lanes, pc := pc, park := .none, halted := false, stack := [], j := none, others := none, did := []
             seen := none }
  else if stackFull x 1 then { x with hg := (lanes, pc) :: x.hg }
  else { x with live := x.live ||| lanes, stack := ⟨lanes, pc, x.mask ||| lanes ||| later, x.j⟩ :: x.stack }

/-- Groups of `jmp`-halted lanes, the oldest first, go back. -/
def Slice.rejoinAll : Slice → List (BitVec 4 × Nat) → Slice
  | x, [] => x
  | x, (lanes, pc) :: rest => (x.rejoinOne (rest.foldl (fun m e => m ||| e.1) 0) lanes pc).rejoinAll rest

/-- The `jmp`-halted lanes of a slice go back (R442). -/
def Slice.rejoin (x : Slice) : Slice := ({ x with hg := [] } : Slice).rejoinAll x.hg.reverse

/-- RESUME: an acquire at `.sys`; halted splits go on at their halting points, `jmp`-halted lanes return (R356, R442). -/
def State.resumeGang (s : State) (gid : Nat) : State :=
  let s := s.invalidateL1 (gidCore gid)
  s.modGang gid fun g =>
    let alone := g.sliceKeys.filter fun k => (g.slice k).live == 0 && (g.slice k).hgLanes != 0
    -- a split that is only to halt at its next issue still does (R443)
    let g := g.modSlices g.sliceKeys fun _ x => ({ x with halted := false, haltDue := x.haltDue && !x.halted } : Slice).rejoin
    alone.foldl (fun g k => g.modSlice k fun x => { x with split := k }) g

def execGangResume (ld c : Nat) (s : State) : Res :=
  .next (if !(s.ctx c).bound ∨ (s.ctx c).ld ≠ ld then s
    else match s.selected c with
      | some gid => s.resumeGang gid
      | none => s)

/-- END: every lane of the gang ends as by `exit` (R356). -/
def State.endGang (s : State) (gid : Nat) : State :=
  (s.modGang gid fun g =>
    { g.modSlices g.sliceKeys fun _ x =>
        { x with mask := 0, live := 0, hg := [], stack := [], park := .none, halted := false, haltDue := false, replays := [] }
      with handler := none, swapped := false }).endIfDone gid

def execGangEnd (ld c : Nat) (s : State) : Res :=
  .next (if !(s.ctx c).bound ∨ (s.ctx c).ld ≠ ld then s
    else match s.selected c with
      | some gid => s.endGang gid
      | none => s)

/-! ### A team's end (R309, R407) -/

/-- Whether a team's gangs have all ended and nothing it issued is in flight (R407; log 31 for loads and stores); a discarded twin's
waits for its stores and copies alone (R392). -/
def State.teamIdle (s : State) (team : Nat) : Bool :=
  let t := s.team team
  let core := s.core (team / 16)
  t.valid && (s.gangs.all fun (k, g) => gidTeam k != team || !g.resident || (g.ended && g.ops.isEmpty && g.sq.isEmpty)) &&
  !(core.wp.any fun e => gidTeam e.gid == team) &&
  ((s.ctx t.ctx).discarding || (t.tiles.isEmpty && t.streams.isEmpty && t.colls.isEmpty &&
    !(core.searches.any fun o => gidTeam o.gid == team))) &&
  !core.copies.any fun (_, r) => r.state == .running && r.tslot == team % 16

/-- Whether R308 and R309 release a team: it has detached, or none is attached any more; every core has applied its change, and
no access to it that was checked before is outstanding. A twin's members are those of this part (R391). -/
def State.windowLets (s : State) (team : Nat) : Bool :=
  match s.windowOf team, (s.team team).member with
  | some w, some m =>
    (s.ownMember team == 2 || s.ownMember team == 3 || w.entries.all fun e =>
      e.state != 0 || (s.isTwin (s.team team).ctx && e.part != s.part)) &&
    w.unapplied.isEmpty && w.unquiet.isEmpty && !s.usesMember w.key m
  | _, _ => true

/-- The teams whose slots are freed with a team's: the detaching teams of its window on this part (R309, log 84). -/
def State.freedWith (s : State) (team : Nat) : List Nat :=
  match s.windowOf team with
  | some w => if s.ownMember team = 1 then (s.windowTeams w.key).filter fun t => s.ownMember t == 1 else [team]
  | none => [team]

/-- A team's slot with all it holds is freed (R407); its grant returns to the pool (R98). -/
def State.dropTeam (s : State) (team : Nat) : State :=
  let core := team / 16
  let s : State := { s with gangs := s.gangs.filter fun x => gidTeam x.1 != team, teams := s.teams.erase team,
                            power := { s.power with fifo := s.power.fifo.filter fun x => x.1 != team }
                            hostWaits := s.hostWaits.filter fun x => x.1.team != team
                            hostDenied := s.hostDenied.filter fun x => x.1.team != team }
  (s.settleDeficits core).modCore core fun c =>
    { c with copies := c.copies.map fun (k, r) => if r.tslot = team % 16 ∧ r.state ≠ .gone then (k, { state := .gone, seq := r.seq }) else (k, r)
             searches := c.searches.filter fun o => gidTeam o.gid != team
             metadata := c.metadata.filter fun x => x.1 != team
             prefetches := c.prefetches.filter fun x => x.1 != team }

/-! ### Shared granules (R387) -/

/-- Whether a store or atomic to a granule of a context is outstanding. -/
def State.writeComing (s : State) (c g : Nat) : Bool :=
  let hits (l : List LaneAcc) : Bool := l.any fun a => a.addr / 65536 == g && (match a.loc with
    | .dev _ => true
    | _ => false)
  s.gangs.any (fun (_, k) => k.sq.any (fun e => e.actx == c && hits e.lanes) ||
    k.ops.any fun o => (match o.kind with
      | .atomic _ _ _ => true
      | _ => false) && o.actx == c && hits o.lanes) ||
  s.cores.any fun (_, k) => k.wp.any fun e => e.actx == c && hits e.lanes

/-- The first write to a shared granule is on its way: the granule is copied for the views that share it (R387). -/
def execCowCopy (c va : Nat) (s : State) : Res :=
  .next (if !s.writeComing c (va / 65536) ∨ s.isTwin c then s
    else match s.walk c (s.ctx c).pt va with
      | .leaf e => s.cow c (va / 65536) (e.pbase + (va - e.vbase) - va % 65536)
      | _ => s)

end Sys2Proof.Machine
end

