-- ==== Sys2Proof/Machine/Place.lean ====
section
/-! DEFINITION. Placement and retirement (spec/04 R83 to R101, spec/07 R153, spec/13 R268, R285, spec/23 R406 to R408): room
on a core, placing teams, sets and reels, the reserve-and-commit exchange, rejecting, freeing a team's slot, and the
retirement of a grid. -/

namespace Sys2Proof.Machine

/-! ### Room on a core (R36, R86, R268) -/

/-- What one team, resident or held for, takes of its core: tenant, gangs, bytes of store, its share in sixteenths. -/
structure Seat where
  tenant : Nat
  gangs : Nat
  occ : Nat
  mask : Nat
  deriving DecidableEq, Repr

/-- Share `k` of a buffer divided by `d`, as a mask of sixteenths; a team has the same share in all four buffers (R268). -/
def shareMask (d k : Nat) : Nat := (2 ^ (16 / d) - 1) * 2 ^ (16 / d * k)
/-- The lowest free share (R268). -/
def freeShare (used d : Nat) : Option Nat := (List.range d).find? fun k => used &&& shareMask d k == 0
def seatsMask (l : List Seat) : Nat := l.foldl (fun m x => m ||| x.mask) 0

/-- The seat of one more team with a launch record beside the seats taken, when R86 lets it be placed. -/
def State.seatFor (s : State) (lr : Memory) (tenant : Nat) (l : List Seat) : Option Seat :=
  let g := lrGangs lr
  let mine := ((l.filter fun x => x.tenant == tenant).map (·.gangs)).sum
  if 16 ≤ l.length ∨ 64 < (l.map (·.gangs)).sum + g ∨ gangLimit (s.tenants.get {} tenant) < mine + g ∨
     458752 < (l.map (·.occ)).sum + occupancy lr then none
  else (freeShare (seatsMask l) (divisor lr)).map fun k => ⟨tenant, g, occupancy lr, shareMask (divisor lr) k⟩

/-- The seats with `n` more teams of one record. -/
def State.seatN (s : State) (lr : Memory) (tenant : Nat) : Nat → List Seat → Option (List Seat)
  | 0, l => some l
  | n + 1, l =>
    match s.seatFor lr tenant l with
    | some x => s.seatN lr tenant n (l ++ [x])
    | none => none

/-- A resident team's seat; what is swapped out leaves room (R371). -/
def State.teamSeat (s : State) (k : Nat) (t : Team) : Seat :=
  let gs := (s.gangs.filter fun x => gidTeam x.1 == k && !x.2.swapped).map (·.2)
  { tenant := t.tenant, gangs := (gs.filter fun g => !g.ended).length
    occ := ((gs.filter Gang.holdsWindow).map fun g => 128 * g.vregs + 1024).sum + (if t.scratchOut then 0 else t.scratchSize)
    mask := shareMask t.divisor (t.shares.headD 0) }

/-- Whether a hold has room that its members have not taken yet (R91). -/
def Hold.holds (h : Hold) : Bool := h.granted && !h.committed

/-- The seats a hold takes on a core. -/
def State.holdSeats (s : State) (h : Hold) (core : Nat) : List Seat :=
  ((h.cores.zip h.shares).filter fun x => x.1 == core).map fun (_, k) =>
    ⟨(s.ctx h.ctx).tenant, lrGangs h.lr, occupancy h.lr, shareMask (divisor h.lr) k⟩

/-- The seats taken on a core: its teams, and room held for reels (R91). -/
def State.seats (s : State) (core : Nat) : List Seat :=
  ((s.teams.filter fun x => x.1 / 16 == core && x.2.valid).map fun x => s.teamSeat x.1 x.2) ++
  (s.holds.filter Hold.holds).flatMap fun h => s.holdSeats h core

/-- Whether a copy record of a core is free for a team to be restored with (R86). -/
def State.recordFree (s : State) (core i : Nat) : Bool := (s.copyRec core i).state == .gone && !s.recordHeld core i

/-- Whether a swapped-out gang is to come back to a core before anything new is placed there (R371). -/
def State.backFirst (s : State) (core : Nat) : Bool := s.gangs.any fun x => gidCore x.1 == core && x.2.wantsBack

/-- Whether `n` more teams of a record may be placed on a core (R86). -/
def State.fits (s : State) (core : Nat) (lr : Memory) (tenant n : Nat) : Bool :=
  !s.backFirst core && (s.seatN lr tenant n (s.seats core)).isSome

/-- The share the next team of a record takes on a core: the lowest free one (R268). -/
def State.shareFor (s : State) (core : Nat) (lr : Memory) : Option Nat := freeShare (seatsMask (s.seats core)) (divisor lr)

/-- Bytes of store free on a core. -/
def State.storeFree (s : State) (core : Nat) : Nat := 458752 - ((s.seats core).map (·.occ)).sum

/-! ### A gang that comes back (R371) -/

/-- A gang whose service wait has ended comes back to its own core, with a new age, when there is room beside what is
held for reels (R91, R371). -/
def execGangSwapIn (gid : Nat) (s : State) : Res :=
  .next (let g := s.gang gid
    let core := gidCore gid
    let t := s.team (gidTeam gid)
    let need := 128 * g.vregs + 1024 + (if t.scratchOut then t.scratchSize else 0)
    if !g.wantsBack ∨ 458752 < ((s.seats core).map (·.occ)).sum + need ∨ 64 ≤ ((s.seats core).map (·.gangs)).sum then s
    else
      let n := (s.core core).nextAge
      let s := s.modGang gid fun g => { g with swapped := false, age := n }
      let s := s.modCore core fun c => { c with nextAge := n + 1 }
      let s := s.modTeam (gidTeam gid) fun t => { t with scratchOut := false }
      s.modCore core fun c => { c with l1 := trimL1 (s.l1Room core) none c.l1 })

/-! ### Placing a team (R84, R85, R153, R268) -/

/-- A gang at its start (R18, R34, R130, R153). -/
def startGang (lr : Memory) (n age : Nat) (sup : Bool) : Gang :=
  let role := roleOf lr n
  let w := lrRole lr role
  let slice : Slice := { pc := (lrWord lr 8 + roleEntry w) % 2 ^ 64, arrival := true, mask := 15, live := 15, sup := sup }
  { resident := true, role := role, nslices := lrSlices lr, vregs := roleVregs w, age := age
    regs := { s := (List.range 8).map fun k => (k + 1, BitVec.ofNat 64 (lrWord lr (0x100 + 8 * k))) }
    slices := (List.range (lrSlices lr)).map fun k => (k, slice) }

/-- The lowest free team slot of a core. -/
def State.freeSlot (s : State) (core : Nat) : Nat :=
  ((List.range 16).find? fun n => !(s.team (core * 16 + n)).valid).getD 15

/-- A tenant's deficit counter on a core starts with its first gang (R125). -/
def Core.arrive (c : Core) (tenant : Nat) : Core :=
  if (c.deficit.find tenant).isSome then c else { c with deficit := c.deficit.set tenant 0 }

/-- The L1 of a core keeps what the partition left to it holds (R36, R218). -/
def State.fitL1 (s : State) (core : Nat) : State := s.modCore core fun c => { c with l1 := trimL1 (s.l1Room core) none c.l1 }

/-- Team `number` of grid `k` placed on a core, in its lowest slot and the share given; the team's key. -/
def State.placeTeam (s : State) (core share k number : Nat) (member : Option Nat) (started : Bool) : State × Nat :=
  let g := s.grid k
  let lr := g.lr
  let key := core * 16 + s.freeSlot core
  let sup := lrService lr
  let t : Team :=
    { valid := true, grid := k, ctx := g.ctx, tenant := g.tenant, number := number, member := member, gangs := lrGangs lr
      scratchSize := 1024 * lrScratch lr, divisor := divisor lr, shares := [share, share, share, share]
      started := started, service := sup }
  let age := (s.core core).nextAge
  let s := (List.range (lrGangs lr)).foldl (fun s n => s.setGang (key * 16 + n) (startGang lr n (age + n) sup)) (s.setTeam key t)
  let s := s.modCore core fun c => { c with nextAge := age + lrGangs lr, fetched := [] }
  let s := if sup then s else s.modCore core fun c => c.arrive g.tenant
  (s.fitL1 core, key)

/-- A grid's next team has been placed; with the last it leaves the list (R88). -/
def State.placedUpTo (s : State) (k n : Nat) : State :=
  let s := s.modGrid k fun g => { g with nextTeam := n }
  if n < (s.grid k).teams then s else { s with pending := s.pending.filter (· != k) }

/-! ### Sets (R41, R89, R90, R94) -/

/-- The first origin of a W by H rectangle of a die whose cores all qualify, rows first; `ok` is asked of a core and of its
place in the rectangle. -/
def rectangle (w h : Nat) (ok : Nat → Nat → Nat → Bool) : Option (Nat × Nat) :=
  ((List.range (9 - h)).flatMap fun y => (List.range (13 - w)).map fun x => (x, y)).find? fun (x, y) =>
    (List.range h).all fun j => (List.range w).all fun i => ok (x + i) (y + j) (j * w + i)

/-- The cores of a rectangle, row by row (R41, R84). -/
def rectCores (die w h : Nat) (o : Nat × Nat) : List Nat :=
  (List.range h).flatMap fun j => (List.range w).map fun i => 96 * die + 12 * (o.2 + j) + o.1 + i

/-- The cores the search of R89 finds on a die for a set of a record. -/
def State.setCores (s : State) (die : Nat) (lr : Memory) (tenant : Nat) : Option (List Nat) :=
  (rectangle (lrW lr) (lrH lr) fun x y _ => s.fits (96 * die + 12 * y + x) lr tenant (lrT lr)).map
    (rectCores die (lrW lr) (lrH lr))

/-- A window's name when it belongs to a set: apart from every reel's key. -/
def setKey (n : Nat) : Nat := 2 ^ 64 + n

/-- The window table of a set's members, loaded into each of them (R94). -/
def State.openWindow (s : State) (key : Nat) (reel : Bool) (size : Nat) (es : List WEntry) (teams : List Nat) : State :=
  teams.foldl (fun s t => s.modTeam t fun x =>
    { x with window := some (match x.window with
        | some w => { w with reel := reel, key := key, entries := es, size := size, unapplied := [], unquiet := [], owes := [] }
        | none => { reel := reel, key := key, entries := es, size := size }) }) s

/-- A set of a grid placed whole on a rectangle (R90). -/
def State.placeSet (s : State) (k : Nat) (cores : List Nat) : State :=
  let g := s.grid k
  let n := cores.length * lrT g.lr
  let (s, keys) := (List.range n).foldl (fun (s, l) m =>
    let core := cores.getD (m / max 1 (lrT g.lr)) 0
    match s.shareFor core g.lr with
    | some share =>
      let (s, key) := s.placeTeam core share k (g.nextTeam + m) (some m) true
      (s, l ++ [key])
    -- the search has found a share for every member (R86)
    | none => (s, l)) (s, ([] : List Nat))
  let (s, f) := s.freshKey
  let es := keys.map fun key => WEntry.mk 0 s.part (key / 16) (key % 16)
  (s.openWindow (setKey f) false (1024 * lrScratch g.lr) es keys).placedUpTo k (g.nextTeam + n)

/-! ### Rejecting a launch (R45, R59, R66) -/

/-- A rejected launch: its reason in Q.STAT, and its timeline raised as at retirement. -/
def State.rejectLaunch (s : State) (q index tl : Nat) (v : W64) (r : Nat) : State :=
  let s := s.modQueue q fun x => { x with reject := r, nrej := min 255 (x.nrej + 1) }
  s.raise tl v (.launch q index r)

/-- A grid that is not placed leaves the list, rejected. -/
def State.rejectGrid (s : State) (k r : Nat) : State :=
  let g := s.grid k
  let s : State := { s with pending := s.pending.filter (· != k), grids := s.grids.erase k,
                            reels := s.reels.filter fun h => h.grid != some k }
  match g.queue with
  | some q => s.rejectLaunch q g.packet g.timeline g.value r
  | none => s

/-! ### Reels: the exchange of placement cells (R91, R92) -/

/-- A placement cell to a part. -/
def State.sendPlace (s : State) (c type dst : Nat) (xs : List Nat) : State := s.sendControl c type 0 dst (.control xs)

/-- A reel's key: microseconds since the part's reset, and its fabric address (R92). -/
def State.reelKey (s : State) : Nat := s.cycle.toNat / 700 % 2 ^ 55 * 2 ^ 9 + s.part % 2 ^ 9

/-- RESERVE to every part of the place list (R91): key, teams to hold, place in the list, whether saved members are
placed again, the record, the stream map and the place list. -/
def State.sendReserves (s : State) (h : ReelHold) : State :=
  let n := lrMembers h.lr / max 1 h.parts.length
  let lr := h.lr.readLE 0 512
  let smap := h.smap.readLE 0 (if h.smap.isEmpty then 0 else smapBytes (h.smap.readLE 0 8))
  (h.parts.zip (List.range h.parts.length)).foldl (fun s (p, i) =>
    s.sendPlace h.ctx 0x10 p ([h.key, n, i, h.resume.toNat, lr, smap] ++ h.places)) s

def State.reel (s : State) (key : Nat) : Option ReelHold := s.reels.find? fun h => h.key == key
def State.modReel (s : State) (key : Nat) (f : ReelHold → ReelHold) : State :=
  { s with reels := s.reels.map fun h => if h.key = key then f h else h }

/-- An attempt begins: every part is asked. -/
def State.startReel (s : State) (h : ReelHold) : State :=
  let h := { h with asked := h.parts, granted := [], placed := [], entries := [], retrying := false, committed := false }
  ({ s with reels := s.reels.filter (fun (x : ReelHold) => x.key != h.key) ++ [h] }).sendReserves h

/-- An attempt has failed: the parts that granted are released, and the reel waits to try again (R92). -/
def State.failReel (s : State) (key : Nat) : State :=
  match s.reel key with
  | none => s
  | some h =>
    let s := h.granted.foldl (fun s p => s.sendPlace h.ctx 0x18 p [key]) s
    s.modReel key fun h => { h with asked := [], granted := [], placed := [], committed := false, retrying := true }

/-- The launch of a reel is rejected (R92); members that were saved stay saved and try again. -/
def State.endReel (s : State) (key r : Nat) : State :=
  match s.reel key with
  | none => s
  | some h =>
    let s := s.failReel key
    match h.grid with
    | some k => s.rejectGrid k r
    | none => s

/-- What a part's answer to a RESERVE or COMMIT changes in its coordinator: it is no longer silent. -/
def ReelHold.heard (h : ReelHold) (p : Nat) : ReelHold :=
  { h with asked := h.asked.filter (· != p), silent := h.silent.set p 0 }

/-! #### The member part -/

/-- Saved teams in the order in which they are placed again: ascending number (R285). -/
def byNumber (l : List SavedTeam) : List SavedTeam := sortBy l fun a b => decide (a.team.number ≤ b.team.number)

/-- Saved teams of a reel in a context, ascending (R285, R406). -/
def State.savedReel (s : State) (c key : Nat) : List SavedTeam :=
  byNumber ((s.ctx c).saved.filter fun t => (s.grid t.team.grid).reel == some key)

/-- Records a saved team needs at their own indices (R86, R385). -/
def SavedTeam.needs (t : SavedTeam) : List Nat := (t.copies.filter fun x => x.2.state != .gone).map (·.1)

/-- The cores for teams of a record, each with the copy records it needs: most free store first, lowest core on a tie (R87);
`used` counts those chosen before on a core, `taken` their records, as 1024·core + index. -/
def State.chooseCores (s : State) (lr : Memory) (tenant : Nat) : List (List Nat) → Tab Nat → List Nat → Option (List Nat)
  | [], _, _ => some []
  | need :: rest, used, taken =>
    let ok := (List.range 384).filter fun c =>
      need.all (fun i => s.recordFree c i && !taken.contains (1024 * c + i)) && s.fits c lr tenant (used.get 0 c + 1)
    let room (c : Nat) : Nat := s.storeFree c - used.get 0 c * occupancy lr
    let best := ok.foldl (fun (b : Option Nat) c => match b with
      | some d => if room d < room c then some c else b
      | none => some c) none
    match best with
    | none => none
    | some c =>
      match s.chooseCores lr tenant rest (used.set c (used.get 0 c + 1)) (taken ++ need.map (1024 * c + ·)) with
      | some l => some (c :: l)
      | none => none

/-- The shares of teams of a record that go on the listed cores, one after another (R268). -/
def State.chooseShares (s : State) (lr : Memory) (cores : List Nat) : List Nat :=
  (cores.foldl (fun (l : List (Nat × Nat)) c =>
    let held := ((l.filter fun x => x.1 == c).map fun x => shareMask (divisor lr) x.2).foldl (· ||| ·) (seatsMask (s.seats c))
    match freeShare held (divisor lr) with
    | some k => l ++ [(c, k)]
    | none => l) []).map (·.2)

/-- Whether a child of a tenant waits to be placed on this part, before which no host-launched grid of the tenant is (R95). -/
def State.childWaits (s : State) (tenant : Nat) : Bool :=
  s.pending.any fun j =>
    let h := s.grid j
    let x := (s.ctx h.ctx).state
    h.tenant == tenant && h.parent.isSome && (x == .running || x == .rival)

/-- What the saved members of a hold need, or nothing for each member of a new one. -/
def State.holdNeeds (s : State) (h : Hold) : List (List Nat) :=
  if h.resume then (s.savedReel h.ctx h.key).map SavedTeam.needs else List.replicate h.teams []

/-- The cores a RESERVE can be granted now, if it can (R91, R92); a tenant that is not enabled gets none (R96), nor one a
child of which waits (R95), and members to be placed again wait for their context's RESUME (R406). -/
def State.grantCores (s : State) (h : Hold) : Option (List Nat) :=
  let x := s.ctx h.ctx
  if h.resume then
    if x.want = 0 then none
    else s.chooseCores h.lr x.tenant (s.holdNeeds h) [] []
  else if !(s.tenants.get {} x.tenant).enabled ∨ x.state ≠ .running ∨ s.fw.state ≠ 2 ∨ x.cut.isSome ∨ s.childWaits x.tenant then none
  else s.chooseCores h.lr x.tenant (s.holdNeeds h) [] []

/-- Room held, and GRANT. -/
def State.grant (s : State) (h : Hold) (cores : List Nat) : State :=
  let h := { h with granted := true, cores := cores, shares := s.chooseShares h.lr cores, needs := s.holdNeeds h }
  let s : State := { s with holds := s.holds.filter (fun (x : Hold) => x.key != h.key) ++ [h],
                            reserveQ := s.reserveQ.filter fun x => x.key != h.key }
  s.sendPlace h.ctx 0x11 h.coord [h.key]

/-- Reels wait in key order. -/
def insertHold (h : Hold) : List Hold → List Hold
  | [] => [h]
  | x :: t => if h.key < x.key then h :: x :: t else x :: insertHold h t

/-- The state without the holds of some keys. -/
def State.without (s : State) (gone : List Hold) : State :=
  { s with holds := s.holds.filter fun (x : Hold) => !gone.any fun y => y.key == x.key }

/-- Younger uncommitted holds without which a RESERVE can be granted, youngest first (R92). -/
def State.revokeSome (s : State) (h : Hold) : List Hold → List Hold → Option (List Hold)
  | [], _ => none
  | y :: rest, gone =>
    if ((s.without (y :: gone)).grantCores h).isSome then some (y :: gone) else s.revokeSome h rest (y :: gone)

/-- Those of the holds whose room the RESERVE does lack: one that can stay beside the grant stays, the oldest first (R92, log
70). -/
def State.keepUnneeded (s : State) (h : Hold) : List Hold → List Hold → List Hold
  | [], gone => gone
  | y :: rest, gone =>
    let less := gone.filter fun x => x.key != y.key
    if ((s.without less).grantCores h).isSome then s.keepUnneeded h rest less else s.keepUnneeded h rest gone

/-- The younger uncommitted holds to release so that a RESERVE can be granted, and the cores (R92). -/
def State.revokeFor (s : State) (h : Hold) (younger : List Hold) : Option (List Hold × List Nat) :=
  match s.revokeSome h younger [] with
  | none => none
  | some gone =>
    let gone := s.keepUnneeded h gone gone
    ((s.without gone).grantCores h).map fun l => (gone, l)

/-- The reserve queue is served, oldest first, as far as the oldest can be granted (R92). -/
def State.grantQueue (s : State) : Nat → State
  | 0 => s
  | n + 1 =>
    match s.reserveQ with
    | [] => s
    | h :: _ =>
      match s.grantCores h with
      | some l => (s.grant h l).grantQueue n
      | none => s
def State.serveReserves (s : State) : State := s.grantQueue s.reserveQ.length

/-- A RESERVE at a part (R92). Where two logical parts of a place list name this part, the second RESERVE of the key takes the place of
the first, whose hold is let go: the model's choice (log 101). -/
def State.reserve (s : State) (h : Hold) : State :=
  let s : State := { s with holds := s.holds.filter (fun (x : Hold) => x.key != h.key || x.committed),
                            reserveQ := s.reserveQ.filter fun x => x.key != h.key }
  match s.grantCores h with
  | some l => s.grant h l
  | none =>
    let younger := sortBy (s.holds.filter fun x => x.holds && !x.due && decide (h.key < x.key)) fun a b => decide (b.key ≤ a.key)
    match s.revokeFor h younger with
    | some (gone, l) =>
      let s := s.without gone
      (gone.foldl (fun s y => s.sendPlace y.ctx 0x15 y.coord [y.key]) s).grant h l
    | none =>
      if s.reserveQ.length < 16 then { s with reserveQ := insertHold h s.reserveQ }
      else s.sendPlace h.ctx 0x16 h.coord [h.key]

/-! #### Saved teams (R85, R253, R285, R383, R406) -/

/-- A team with everything of it on its core, as plain data. -/
def State.capture (s : State) (k : Nat) : SavedTeam :=
  let c := s.core (k / 16)
  { core := k / 16, tslot := k % 16, team := s.team k
    gangs := (s.gangs.filter fun x => gidTeam x.1 == k).map fun (gid, g) => (gidGang gid, g)
    copies := c.copies.filter fun x => x.2.tslot == k % 16 && x.2.state != .gone
    metadata := (c.metadata.filter fun x => x.1 == k).map (·.2) }

/-- A team's slot with all it holds is freed, and the reserve queue served (R92, R407). -/
def State.vacate (s : State) (k : Nat) : State := ((s.passOwes k).dropTeam k).serveReserves

/-- What names the gangs and buffers of a team that moves: its children, and the batches of its service calls. -/
def State.renameTeam (s : State) (c old new : Nat) : State :=
  let gid (x : Nat) : Nat := if gidTeam x = old then new * 16 + gidGang x else x
  let lane (l : SvcLane) : SvcLane := match l.ptr with
    | .at (.buf k sp off) a => if k = old then { l with ptr := .at (.buf new sp off) a } else l
    | _ => l
  { s with
    grids := s.grids.mapVals fun g => if g.ctx = c then { g with parent := g.parent.map gid } else g
    cores := s.cores.mapVals fun k => { k with svcSlots := k.svcSlots.mapVals fun b =>
      if b.ctx = c then { b with gid := gid b.gid, lanes := b.lanes.map lane } else b } }

/-- A team leaves its core for its context's saved teams (R383). -/
def State.putAside (s : State) (k : Nat) : State :=
  let c := (s.team k).ctx
  let t := s.capture k
  let s := s.modCtx c fun x => { x with saved := x.saved ++ [t] }
  (s.dropTeam k).renameTeam c k (liftTeam k)

/-- A parked slice as it goes on after a save: its instruction has not taken effect and is evaluated again as if newly issued
(R151, R385), a word that waited for the handler as one set aside (R359). What had taken effect goes on: the copy of a
`cpyc`, a batch in its slot, and a `wbar`, whose generation is the window's own (R406). -/
def Slice.again (x : Slice) : Slice :=
  match x.park with
  | .none => x
  | .cpyc _ => x
  | .service _ _ => x
  | .wbar _ => x
  | .handlerHold => x
  | .handlerWait _ _ (some r) _ => { x with park := .none, others := none }.addReplay r
  | _ => { x with park := .none, others := none }

/-- A saved gang as it enters a core again: pending, with a new age (R383). -/
def Gang.reenter (g : Gang) (age : Nat) : Gang :=
  { g.modSlices g.sliceKeys fun _ x => x.again with
    resident := true, swapped := false, active := none, leaving := [], age := age, svcHeld := [] }

/-- The operations of a team's engines under its new gang keys. -/
def Team.rekey (t : Team) (key : Nat) : Team :=
  let gid (x : Nat) : Nat := key * 16 + gidGang x
  { t with tiles := t.tiles.map fun o => { o with gid := gid o.gid }
           streams := t.streams.map fun o => { o with gid := gid o.gid }
           colls := t.colls.map fun o => { o with gid := gid o.gid } }

/-- The last of the orders of a saved team's engine operations (R224, R281). -/
def SavedTeam.lastOrder (t : SavedTeam) : Nat :=
  (t.copies.map (·.2.order) ++ t.team.tiles.map (·.order) ++ t.team.streams.map (·.order)).foldl max 0

/-- A saved team of a context placed on a core (R85, R383): its lowest slot and the share given, its copy records at their
own indices, its severed copies issued again as by `cpyres` unless the context only steps (R253, R389), each in its old order among
the team's operations (R281), its power request made again (R98). The core has fetched nothing for it yet (R109), and its L1 holds
nothing older than what its gangs have read (R221). -/
def State.placeSaved (s : State) (c : Nat) (t : SavedTeam) (core share : Nat) (started : Bool) : State × Nat :=
  let key := core * 16 + s.freeSlot core
  let old := t.core * 16 + t.tslot
  let x := s.ctx c
  let again := x.want ≠ 3
  let ask := max (t.team.grant.getD 0) (t.team.request.getD 0)
  let team : Team := { t.team.rekey key with valid := true, shares := [share, share, share, share], bars := [], grant := none
                                             request := none, started := started, scratchOut := false }
  let s := s.setCtx c { x with saved := x.saved.filter fun y => y.core != t.core || y.tslot != t.tslot
                               stepping := x.stepping.map fun k => if k = liftGid (old * 16 + gidGang k) then key * 16 + gidGang k else k }
  let age := (s.core core).nextAge
  let s := s.setTeam key team
  let s := t.gangs.foldl (fun s (n, g) => s.setGang (key * 16 + n) (g.reenter (age + n))) s
  let s := s.modCore core fun k =>
    { k.arrive team.tenant with
      nextAge := age + 16
      fetched := []
      l1 := []
      copies := t.copies.foldl (fun l (i, r) =>
        Tab.set l i { r with tslot := key % 16, gid := key * 16 + gidGang r.gid }) k.copies
      metadata := k.metadata ++ t.metadata.map fun w => (key, w) }
  let s := s.renameTeam c (liftTeam old) key
  let s := if !again then s
    else t.copies.foldl (fun s (i, r) => if r.state = .severed then
        let r := { s.copyRec core i with state := .running }
        (((s.setCopy core i r).setFlt r false).takeCopyLines core r).readAgain core i
      else s) { s with copyOrder := max s.copyOrder t.lastOrder }
  let s := if ask = 0 then s else s.askPower key ask
  (s.fitL1 core, key)

/-- With the last saved team placed, the context goes on, and a restored trigger is raised; not while a RESTORE is still to bring
them (R383, R389, R390, R405). -/
def State.resumed (s : State) (c : Nat) : State :=
  let x := s.ctx c
  if x.want = 0 ∨ !x.saved.isEmpty ∨ x.snap.state = 4 then s
  else
    let st := if x.want = 3 then CtxState.stepping else if x.parent.isSome then .rival else .running
    let s := s.setCtx c { x with want := 0, state := st, snap := { x.snap with restored := none } }
    match x.snap.restored with
    | some (k, v) => if x.want = 1 then s.raise k (BitVec.ofNat 64 v) .none else s
    | none => s

/-! #### COMMIT, PLACED, START -/

/-- The window entry of a member in the form of R94. -/
def WEntry.word (e : WEntry) : Nat := e.core % 512 + e.tslot % 16 * 2 ^ 13 + e.part % 512 * 2 ^ 21 + e.state % 4 * 2 ^ 30
def WEntry.ofWord (w : Nat) : WEntry := { state := bits w 30 2, part := bits w 21 9, tslot := bits w 13 4, core := bits w 0 9 }

/-- The grid of a reel's members on this part: the launch's own where this part took it, a grid of their own elsewhere. -/
def State.shareGrid (s : State) (h : Hold) : State × Nat :=
  match (s.reel h.key).bind (·.grid) with
  | some k =>
    (s.modGrid k fun g => { g with teams := h.index * h.teams + h.teams, first := h.index * h.teams, nextTeam := h.index * h.teams }, k)
  | none =>
    let (s, k) := s.freshKey
    (s.setGrid k { valid := true, ctx := h.ctx, tenant := (s.ctx h.ctx).tenant, lr := h.lr, smap := h.smap, places := h.places
                   order := k, since := s.cycle.toNat, teams := h.index * h.teams + h.teams, first := h.index * h.teams
                   nextTeam := h.index * h.teams, reel := some h.key, owner := h.coord }, k)

/-- A change of the grid that retires for a reel's launch, if this part has it (R408). -/
def State.modOwnGrid (s : State) (key : Nat) (f : Grid → Grid) : State :=
  { s with grids := s.grids.mapVals fun g => if g.reel == some key && g.queue.isSome then f g else g }

/-- The members of a committed hold placed from the held room, each with its share, and PLACED tells where (R91), and how many cuts
this part has counted (R380). The reel
stays in its part's list until every part has answered (R88). -/
def State.commitHold (s : State) (h : Hold) : State :=
  let s : State := { s with holds := s.holds.map fun x => if x.key = h.key then { x with committed := true, due := false } else x }
  let entry (s : State) (key : Nat) : Nat × Nat :=
    let t := s.team key
    let m := t.member.getD 0
    let st := match t.window with
      | some w => (w.entries.getD m {}).state
      | none => 0
    (m, (WEntry.mk st s.part (key / 16) (key % 16)).word)
  let seats := h.cores.zip h.shares
  if h.resume then
    -- the grid that retires awaits the parts of the reloaded place table, until START says which of them hold members (R408)
    let s := s.modOwnGrid h.key fun g => { g with partsLeft := h.places.map fun p => (s.placeOf h.ctx p).getD 511 }
    let s : State := { s with grids := s.grids.mapVals fun g => if g.reel == some h.key then { g with coord := h.coord } else g }
    let (s, l) := ((s.savedReel h.ctx h.key).zip seats).foldl (fun (s, l) (t, core, share) =>
      let (s, key) := s.placeSaved h.ctx t core share false
      (s, l ++ [entry s key])) (s, ([] : List (Nat × Nat)))
    let owns := s.grids.any fun (_, g) => g.valid && g.reel == some h.key && g.queue.isSome
    (s.resumed h.ctx).sendPlace h.ctx 0x13 h.coord ([h.key, owns.toNat + 2 * (s.ctx h.ctx).cutNo] ++ l.flatMap fun (m, e) => [m, e])
  else
    let (s, k) := s.shareGrid h
    let (s, l) := ((List.range h.teams).zip seats).foldl (fun (s, l) (i, core, share) =>
      let m := h.index * h.teams + i
      let (s, key) := s.placeTeam core share k m (some m) false
      (s, l ++ [entry s key])) (s, ([] : List (Nat × Nat)))
    let s := s.modGrid k fun g => { g with nextTeam := g.teams, coord := h.coord }
    s.sendPlace h.ctx 0x13 h.coord ([h.key, (s.grid k).queue.isSome.toNat + 2 * (s.ctx h.ctx).cutNo] ++ l.flatMap fun (m, e) => [m, e])

/-- Pairs of a flat list. -/
def pairsOf : List Nat → List (Nat × Nat)
  | a :: b :: t => (a, b) :: pairsOf t
  | _ => []

/-- Teams of a reel on this part that have not been let go. -/
def State.waitingTeams (s : State) (key : Nat) : List Nat :=
  (s.teams.filter fun x => x.2.valid && !x.2.started && (s.grid x.2.grid).reel == some key).map (·.1)

/-- START: the window table is loaded, and the members may issue (R91, R94, R406); the grid that retires awaits the parts that hold
members (R408). -/
def State.startMembers (s : State) (key owner : Nat) (es : Tab Nat) : State :=
  let ks := s.waitingTeams key
  let s := ks.foldl (fun s k =>
    let t := s.team k
    let g := s.grid t.grid
    let old := match t.window with
      | some w => w.entries
      | none => []
    let table := (List.range (lrMembers g.lr)).map fun m => match es.find m with
      | some w => WEntry.ofWord w
      | none => old.getD m { state := 3 }
    (s.openWindow key true (1024 * lrScratch g.lr) table [k]).modTeam k fun t => { t with started := true }) s
  let s : State := { s with holds := s.holds.filter fun h => h.key != key }
  let parts := es.map fun x => (WEntry.ofWord x.2).part
  let s := s.modOwnGrid key fun g => { g with partsLeft := g.partsLeft.filter parts.contains }
  if 512 ≤ owner then s
  else { s with grids := s.grids.mapVals fun g => if g.reel = some key then { g with owner := owner } else g }

/-- RELEASE of a hold (R92): the room is free; members placed and not started go back to where they came from. -/
def State.releaseHold (s : State) (key : Nat) : State :=
  match s.holds.find? fun h => h.key == key with
  | none => { s with reserveQ := s.reserveQ.filter fun h => h.key != key }
  | some h =>
    let s : State := { s with holds := s.holds.filter fun x => x.key != key }
    let ks := s.waitingTeams key
    let s :=
      if !h.committed then s
      else if h.resume then
        (ks.foldl (fun s k => s.putAside k) s).modCtx h.ctx fun x => { x with state := .saved, want := max 1 x.want }
      else
        let s := ks.foldl (fun s k => s.dropTeam k) s
        { s with
          grids := s.grids.filterMap fun (k, g) =>
            if g.reel = some key then (if g.queue.isSome then some (k, { g with nextTeam := 0, first := 0, teams := 0 }) else none)
            else some (k, g) }
    s.serveReserves

/-! ### The decisions (R83, R87, R93, R95, R96) -/

/-- Whether grid `j` stands before a later grid of its queue: neither is a twin's, or both are of one twin, whose grids are
placed as the original's are (R87, R390). -/
def State.sameQueue (s : State) (j k : Nat) : Bool :=
  let a := s.grid j
  let b := s.grid k
  a.queue == b.queue && (a.ctx == b.ctx || (!s.isTwin a.ctx && !s.isTwin b.ctx))

/-- Whether the dispatcher may place teams of a grid now: firmware runs (R73), the tenant is enabled (R96), the context
runs and no cut of it is in progress (the model's choice, log 100: R379 stops issue alone), the queue's earlier grids are placed whole (R60, R87), and no child of the tenant
waits before a host-launched grid (R95). A service grid is apart from tenants (R374). -/
def State.mayPlace (s : State) (k : Nat) : Bool :=
  let g := s.grid k
  let x := s.ctx g.ctx
  let before := s.pending.takeWhile (· != k)
  s.pending.contains k && g.valid && s.fw.state == 2 && (x.state == .running || x.state == .rival) && x.cut.isNone &&
  (lrService g.lr || (s.tenants.get {} g.tenant).enabled) &&
  (g.queue.isNone || !before.any fun j => s.sameQueue j k) &&
  (lrService g.lr || g.parent.isSome || !s.childWaits g.tenant)

/-- Whether some decision would place teams of a grid, or begin a reel's exchange. -/
def State.couldPlace (s : State) (k : Nat) : Bool :=
  let g := s.grid k
  s.mayPlace k &&
  (if lrReel g.lr then !s.reels.any fun h => h.grid == some k
   else if lrSet g.lr then (List.range 4).any fun d => (s.setCores d g.lr g.tenant).isSome
   else (List.range 384).any fun c => s.fits c g.lr g.tenant 1)

/-- Whether R93 lets a decision go to a tenant: it has not had its w/Σw of the window of 256, the sum over the tenants with pending
grids, or enough decisions are left for what every other tenant with a grid that can be placed still has to get (log 71). -/
def State.weightLets (s : State) (tenant : Nat) : Bool :=
  let grids := s.pending.filter fun j => !lrService (s.grid j).lr
  let tenants (l : List Nat) : List Nat := rising (l.map fun j => (s.grid j).tenant)
  let w (t : Nat) : Nat := (s.tenants.get {} t).weight
  let total := ((tenants grids).map w).sum
  let lacks (t : Nat) : Nat := 256 * w t / max 1 total - Tab.get 0 s.decisions t
  let others := (tenants (grids.filter s.couldPlace)).filter (· != tenant)
  lacks tenant != 0 || decide ((others.map lacks).sum + s.decided + 1 ≤ 256)

/-- A decision for a tenant is counted; the window ends with its 256th. -/
def State.countDecision (s : State) (tenant : Nat) : State :=
  if s.decided < 255 then
    { s with decided := s.decided + 1, decisions := s.decisions.set tenant (Tab.get 0 s.decisions tenant + 1) }
  else { s with decided := 0, decisions := [] }

/-- One decision for a grid not wholly placed: its next team on core `choice`, its next set on die `choice`, a service team
on its die's service core, or the first attempt of a reel. -/
def State.placeNext (s : State) (k choice : Nat) : State :=
  let g := s.grid k
  let n := g.nextTeam
  if lrService g.lr then
    let core := 384 + n
    match (if n < 4 ∧ s.fits core g.lr g.tenant 1 then s.shareFor core g.lr else none) with
    | some share => (s.placeTeam core share k n none true).1.placedUpTo k (n + 1)
    | none => s
  else if lrReel g.lr then
    let key := s.reelKey
    -- the first attempt of a second reel in one microsecond waits for the next, so that keys differ (log 70)
    if (s.reels.any fun h => h.grid == some k) ∨ s.grids.any (fun x => x.2.reel == some key) then s
    else
      let parts := g.places.map fun p => (s.placeOf g.ctx p).getD 511
      let s := s.modGrid k fun g => { g with reel := some key, owner := s.part, partsLeft := parts }
      s.startReel { grid := some k, key := key, ctx := g.ctx, places := g.places, parts := parts, lr := g.lr, smap := g.smap
                    owner := s.part }
  else if lrSet g.lr then
    match (if choice < 4 then s.setCores choice g.lr g.tenant else none) with
    | some cores => s.placeSet k cores
    | none => s
  else match (if choice < 384 ∧ s.fits choice g.lr g.tenant 1 then s.shareFor choice g.lr else none) with
    | some share => (s.placeTeam choice share k n none true).1.placedUpTo k (n + 1)
    | none => s

/-- The entries of a window rebuilt here: members placed on this part take their new places (R94). -/
def State.newEntries (s : State) (ts : List SavedTeam) (l : List (Nat × Nat)) : List WEntry :=
  let old := match ts.head?.bind fun y => y.team.window with
    | some w => w.entries
    | none => []
  (List.range old.length).map fun m => match Tab.find l m with
    | some key => { old.getD m {} with part := s.part, core := key / 16, tslot := key % 16 }
    | none => old.getD m {}

/-- Saved teams placed together, each on its core, with a window of their own, built anew (R94). -/
def State.placeTogether (s : State) (c : Nat) (reel : Bool) (lr : Memory) (ts : List SavedTeam) (cores : List Nat) : State :=
  let (s, l) := ((ts.zip cores).zip (s.chooseShares lr cores)).foldl (fun (s, l) ((y, core), share) =>
    let (s, key) := s.placeSaved c y core share true
    (s, l ++ [(y.team.member.getD 0, key)])) (s, ([] : List (Nat × Nat)))
  let (s, f) := s.freshKey
  s.openWindow (setKey f) reel (1024 * lrScratch lr) (s.newEntries ts l) (l.map (·.2))

/-- A saved set of a context on the first rectangle of a die that takes it (R86, R89, R90, R383): its members on their
rectangle cores, ascending (R285). -/
def State.replaceSet (s : State) (c die : Nat) (ts : List SavedTeam) (g : Grid) : State :=
  let lr := g.lr
  let t := lrT lr
  let ts := byNumber ts
  let needs (i : Nat) : List Nat := (ts.filter fun y => y.team.member.getD 0 / max 1 t == i).flatMap SavedTeam.needs
  let found := rectangle (lrW lr) (lrH lr) fun x y i =>
    let core := 96 * die + 12 * y + x
    s.fits core lr g.tenant t && (needs i).all (s.recordFree core) && (needs i).eraseDups.length == (needs i).length
  match found.map (rectCores die (lrW lr) (lrH lr)) with
  | none => s
  | some cores => s.placeTogether c false lr ts (ts.map fun y => cores.getD (y.team.member.getD 0 / max 1 t) 0)

/-- A twin's members of a reel on this part, placed together, ascending (R285); the other members stay the original's (R390,
R391). -/
def State.replaceShare (s : State) (c : Nat) (ts : List SavedTeam) (g : Grid) : State :=
  let ts := byNumber ts
  match s.chooseCores g.lr g.tenant (ts.map SavedTeam.needs) [] [] with
  | none => s
  | some cores => s.placeTogether c true g.lr ts cores

/-- One decision for the saved teams of a context that is to go on (R285, R383, R406): saved team `i`, alone, with its set,
or with its reel, which the part of member 0 coordinates. -/
def State.placeNextSaved (s : State) (c i choice : Nat) : State :=
  let x := s.ctx c
  match x.saved[i]? with
  | none => s
  | some t =>
    let k := t.team.grid
    let g := s.grid k
    let lower (n : Nat) : Bool := x.saved.any fun y => y.team.grid == k && decide (y.team.number < n)
    if x.want = 0 ∨ x.snap.state = 4 then s
    else if lrReel g.lr ∧ s.isTwin c then (s.replaceShare c (x.saved.filter fun y => y.team.grid == k) g).resumed c
    else if lrReel g.lr ∧ g.reel.isSome then
      let key := g.reel.getD 0
      if g.first ≠ 0 ∨ (s.reel key).isSome then s
      else
        let parts := g.places.map fun p => (s.placeOf c p).getD 511
        s.startReel { grid := none, key := key, ctx := c, places := g.places, parts := parts, lr := g.lr, smap := g.smap, resume := true }
    else if lrSet g.lr then
      let n := max 1 (lrW g.lr * lrH g.lr * lrT g.lr)
      let first := t.team.number / n * n
      let ts := x.saved.filter fun y => y.team.grid == k && y.team.number / n == t.team.number / n
      if lower first ∨ 4 ≤ choice then s else (s.replaceSet c choice ts g).resumed c
    else if lower t.team.number ∨ 384 ≤ choice ∨ !s.fits choice g.lr g.tenant 1 ∨ !t.needs.all (s.recordFree choice) then s
    else match s.shareFor choice g.lr with
      | some share => (s.placeSaved c t choice share true).1.resumed c
      | none => s

/-- A placement decision: of grid `k`, or of saved team `i` of context `k`; `choice` is what the firmware chooses among
the candidates, a core or a die (R70, R87, R89). A choice that does not qualify, or that R93 does not let the tenant have,
places nothing and is no decision. -/
def execPlacementDecision (saved : Bool) (k i choice : Nat) (s : State) : Res :=
  .next (if saved then s.placeNextSaved k i choice
    else
      let g := s.grid k
      if !s.mayPlace k ∨ !(lrService g.lr || s.weightLets g.tenant) then s
      else
        let t := s.placeNext k choice
        let placed := (t.grid k).nextTeam != g.nextTeam || t.reels.length != s.reels.length
        if placed ∧ !lrService g.lr then t.countDecision g.tenant else t)

/-! ### Placement cells (R91, R92) -/

/-- What a placement cell carries, once it is accepted; a cell of another type is left where it is. -/
def State.onPlace (s : State) (r : Rx) (type : Nat) (f : State → List Nat → State) : Res :=
  .next (if r.cell.type ≠ type then s
    else match s.accept r with
      | (s, true) =>
        match r.cell.body with
        | .control xs => f s xs
        | _ => s
      | (s, false) => s)

/-- RESERVE (R91, R92): a part without a partner context for the coordinator's answers REFUSE-FINAL. -/
def execReserve (r : Rx) (s : State) : Res :=
  s.onPlace r 0x10 fun s xs =>
    match xs with
    | key :: n :: i :: resume :: lr :: smap :: places =>
      let c := r.cell.ctag
      if (s.ctx c).state = .unbound ∨ !s.accepts c r.cell.src then s.sendPlace c 0x17 r.cell.src [key]
      else s.reserve { key := key, coord := r.cell.src, ctx := c, teams := n, index := i, places := places, resume := resume == 1
                       lr := Memory.writeLE [] 0 512 lr
                       smap := if smap = 0 then [] else Memory.writeLE [] 0 (smapBytes (smap % 2 ^ 64)) smap }
    | _ => s

/-- GRANT: with the last one, COMMIT to every part; one that comes too late is released. -/
def execGrant (r : Rx) (s : State) : Res :=
  s.onPlace r 0x11 fun s xs =>
    let key := xs.headD 0
    let p := r.cell.src
    match s.reel key with
    | none => s.sendPlace r.cell.ctag 0x18 p [key]
    | some h =>
      if h.retrying ∨ h.committed ∨ !h.parts.contains p then s.sendPlace h.ctx 0x18 p [key]
      else
        let h := { h.heard p with granted := if h.granted.contains p then h.granted else h.granted ++ [p] }
        let s := s.modReel key fun _ => h
        if h.parts.all h.granted.contains then
          -- a grid that retires on a part outside the place list hears of the parts from here (R408)
          let s := match (if h.resume then s.grids.find? fun x => x.2.valid && x.2.reel == some key && x.2.queue.isNone else none) with
            | some (_, g) =>
              if h.parts.contains g.owner ∨ 512 ≤ g.owner then s else s.sendPlace h.ctx 0x18 g.owner ([key, 2] ++ h.parts)
            | none => s
          h.parts.foldl (fun s q => s.sendPlace h.ctx 0x12 q [key]) (s.modReel key fun h => { h with committed := true })
        else s

/-- Whether the members of a hold whose COMMIT has come may be placed: no new team is while the firmware core is stopped
(R73) or a cut of the context is in progress (R379), nor while a child of the tenant can be placed before it (R95). -/
def State.mayCommitHold (s : State) (h : Hold) : Bool :=
  h.resume || (s.fw.state == 2 && (s.ctx h.ctx).cut.isNone && (s.ctx h.ctx).state == .running &&
    !s.pending.any fun j => (s.grid j).tenant == (s.ctx h.ctx).tenant && (s.grid j).parent.isSome && s.couldPlace j)

/-- Holds whose COMMIT has come are filled as soon as they may be. -/
def State.serveCommits (s : State) : State :=
  (s.holds.filter (·.due)).foldl (fun s h => if s.mayCommitHold h then s.commitHold h else s) s

/-- COMMIT at a part that holds the room. -/
def execCommit (r : Rx) (s : State) : Res :=
  s.onPlace r 0x12 fun s xs =>
    let s : State := { s with holds := s.holds.map fun h => if h.key = xs.headD 0 ∧ h.holds then { h with due := true } else h }
    s.serveCommits

/-- PLACED: with the last one, START to every part, with the window's entries. -/
def execPlaced (r : Rx) (s : State) : Res :=
  s.onPlace r 0x13 fun s xs =>
    match xs with
    | key :: owns :: rest =>
      match s.reel key with
      | none => s
      | some h =>
        if !h.committed then s
        else
          let h := { h with placed := if h.placed.contains r.cell.src then h.placed else h.placed ++ [r.cell.src]
                            entries := (pairsOf rest).foldl (fun t (m, e) => Tab.set t m e) h.entries
                            owner := if bit owns 0 then r.cell.src else h.owner, cuts := max h.cuts (owns / 2) }
          if h.parts.all h.placed.contains then
            let s : State := { s with reels := s.reels.filter fun x => x.key != key }
            -- the launch's own part has no team of it when the place list leaves it out
            let s := match h.grid with
              | some k => { s with pending := s.pending.filter (· != k) }
              | none => s
            h.parts.foldl (fun s q =>
              s.sendPlace h.ctx 0x14 q ([key, h.owner + 1024 * h.cuts] ++ h.entries.flatMap fun (m, e) => [m, e])) s
          else s.modReel key fun _ => h
    | _ => s

/-- The members' parts count a context's cuts alike from START on (R380). -/
def State.countCuts (s : State) (c n : Nat) : State :=
  s.modCtx c fun x => { x with cutNo := if x.cut.isNone then max x.cutNo n else x.cutNo }

/-- START. -/
def execStart (r : Rx) (s : State) : Res :=
  s.onPlace r 0x14 fun s xs =>
    match xs with
    | key :: owner :: rest => (s.countCuts r.cell.ctag (owner / 1024)).startMembers key (owner % 1024) (pairsOf rest)
    | _ => s

/-- REVOKE and REFUSE: the attempt has failed (R92). -/
def State.refused (s : State) (key p : Nat) : State := (s.modReel key fun h => h.heard p).failReel key
def execRevoke (r : Rx) (s : State) : Res := s.onPlace r 0x15 fun s xs => s.refused (xs.headD 0) r.cell.src
def execRefuse (r : Rx) (s : State) : Res := s.onPlace r 0x16 fun s xs => s.refused (xs.headD 0) r.cell.src
/-- REFUSE-FINAL: the launch is rejected with reason 0x0c (R92). -/
def execRefuseFinal (r : Rx) (s : State) : Res := s.onPlace r 0x17 fun s xs => s.endReel (xs.headD 0) 0x0c

/-- RELEASE: of a hold, a member part's word to the reel's owner that its members have all been freed, or the coordinator's word to it
of the parts that a resumption places members on (R408). -/
def execRelease (r : Rx) (s : State) : Res :=
  s.onPlace r 0x18 fun s xs =>
    let key := xs.headD 0
    if xs.getD 1 0 = 1 then
      { s with grids := s.grids.mapVals fun g =>
          if g.reel = some key then { g with partsLeft := g.partsLeft.filter (· != r.cell.src) } else g }
    else if xs.getD 1 0 = 2 then
      s.modOwnGrid key fun g => { g with partsLeft := xs.drop 2 }
    else s.releaseHold key

/-- A granted hold saw no COMMIT for 1 ms: it is released, and its coordinator told (R92). -/
def execReserveHoldTimeout (key : Nat) (s : State) : Res :=
  .next (match s.holds.find? fun h => h.key == key with
    | some h =>
      if h.committed ∨ h.due then s
      else (s.releaseHold key).sendPlace h.ctx 0x15 h.coord [key]
    | none => s)

/-- A part has not answered for 1 ms: it counts as having refused; eight times in a row reject the launch (R92). Where two parts are
silent on one attempt, the first one's time-out ends the attempt and is counted alone: the model's choice (log 102). -/
def execReserveAnswerTimeout (key part : Nat) (s : State) : Res :=
  .next (match s.reel key with
    | some h =>
      if !h.asked.contains part then s
      else
        let n := h.silent.get 0 part + 1
        let s := s.modReel key fun h => { h with silent := h.silent.set part n }
        if 8 ≤ n then s.endReel key 0x0b else s.failReel key
    | none => s)

/-- The reel is tried again, 100 µs after a failure (R92), unless a child of its tenant waits, which goes first (R95). -/
def execReserveRetry (key : Nat) (s : State) : Res :=
  .next (match s.reel key with
    | some h => if h.retrying ∧ (h.resume ∨ !s.childWaits (s.ctx h.ctx).tenant) then s.startReel h else s
    | none => s)

/-! ### The end of teams and grids (R407, R408) -/

/-- A team's slot is freed, with those of the detaching teams of its window here (R309, R407). -/
def execTeamSlotFree (team : Nat) (s : State) : Res :=
  .next (let ts := s.freedWith team
    if ts.all fun k => s.teamIdle k && s.windowLets k then
      ts.foldl (fun s k =>
        let g := (s.team k).grid
        (s.vacate k).modGrid g fun x => { x with freed := x.freed + 1 }) s
    else s)

/-- Whether a grid may retire: every team placed and freed, every child retired, and a reel's other parts done (R408). -/
def State.mayRetire (s : State) (k : Nat) : Bool :=
  let g := s.grid k
  g.valid && !s.pending.contains k && g.freed == g.teams - g.first && g.nextTeam == g.teams && g.kids == 0 &&
  !(s.reels.any fun h => h.grid == some k) && g.partsLeft.all fun p => p == s.part || s.down.contains p

/-- A grid retires (R408): a host-launched one raises its timeline, after which its completion entry is written; a child
counts for its parent gang; a rival's raises nothing (R390); a reel's share tells its owner. -/
def State.retire (s : State) (k : Nat) : State :=
  let g := s.grid k
  let s : State := { s with grids := s.grids.erase k }
  let s := match g.parent with
    | some p =>
      let join (x : Gang) : Gang :=
        if x.children.contains k then { x with children := x.children.filter (· != k), joined := x.joined + 1 } else x
      let s := if isLifted p then s.modSaved g.ctx (gidTeam (p % 2 ^ 32)) fun t => t.modGang (gidGang p) join else s.modGang p join
      if (s.grid g.parentGrid).valid then s.modGrid g.parentGrid fun x => { x with kids := x.kids - 1 } else s
    | none => s
  let s := match g.queue, g.reel with
    | some q, _ => if s.isTwin g.ctx then s else s.raise g.timeline g.value (.launch q g.packet 0)
    | none, some key => s.sendPlace g.ctx 0x18 g.owner [key, 1]
    | none, none => s
  if (s.ctx g.ctx).state == .rival && !(s.grids.any fun x => x.2.ctx == g.ctx) then
    s.modCtx g.ctx fun x => { x with state := .ended }
  else s

def execGridRetire (k : Nat) (s : State) : Res := .next (if s.mayRetire k then s.retire k else s)

end Sys2Proof.Machine
end

