-- ==== Sys2Proof/Machine/Queues.lean ====
section
/-! DEFINITION. Queues and the firmware core (spec/03 R57 to R82, R440, R441): taking and starting packets, the control-mode
instructions, head write-backs and completion entries, the queue registers, and binding a context (spec/02 R52 to R55,
R439; spec/19 R349, R351; spec/24 R413). -/

namespace Sys2Proof.Machine

/-! ### Taking a packet (R58 to R61, R64) -/

def State.haltQueue (s : State) (q reason : Nat) : State := s.modQueue q fun x => { x with state := 2, halt := reason }

/-- The logical device of a queue's timelines (R61, R441). -/
def State.queueLd (s : State) (q : Nat) : LogDev := s.ldev ((s.queueOwner q).getD 16)
def LogDev.ownsTl (d : LogDev) (k : Nat) : Bool := decide (d.tlfirst ≤ k) && decide (k < d.tlfirst + d.tlcount)

/-- Whether a field the table of R59 does not name is nonzero (R61). -/
def packetReserved (w : List Nat) : Bool :=
  let op := bits (w.getD 0 0) 0 8
  let zeroFrom (k : Nat) : Bool := (w.drop k).any fun x => x != 0
  bits (w.getD 0 0) 10 38 != 0 ||
  (if op = 1 ∨ op = 5 then zeroFrom 1
   else if op = 3 ∨ op = 4 then bits (w.getD 1 0) 12 52 != 0 || zeroFrom 3
   else if op = 6 then bits (w.getD 1 0) 0 3 != 0 || zeroFrom 3
   else zeroFrom 3)

/-- The least halt reason that holds for a packet, if any (R61; log 87 for several at once). -/
def State.packetBad (s : State) (q : Nat) (w : List Nat) : Option Nat :=
  let op := bits (w.getD 0 0) 0 8
  if op = 0 ∨ 6 < op then some 0x40
  else if packetReserved w then some 0x41
  else if (op = 3 ∨ op = 4) ∧ !(s.queueLd q).ownsTl (bits (w.getD 1 0) 0 12) then some 0x42
  else if op = 2 ∧ (s.queue q).ctx.isNone then some 0x43
  else if bit (w.getD 0 0) 9 ∧ !(s.queue q).compat then some 0x45
  else none

/-- The packet that waits to start, if the queue holds one (R60). -/
def Queue.held (x : Queue) : Option Packet := x.table.find? fun p => !p.started

/-- The eight words of the ring slot at the head, read through the queue's context (R64, R440); bits [63:57] of the address are
left out (log 90). -/
def State.readSlot (s : State) (q : Nat) : State × Option (List Nat) :=
  let x := s.queue q
  match x.ctx with
  | none => (s, none)
  | some c =>
    match s.readVa fwCore c ((x.base + 64 * (x.head.toNat % x.size)) % 2 ^ 57) 64 with
    | (s, .ok m) => (s, some ((List.range 8).map fun k => m.readLE (8 * k) 8))
    | (s, .error _) => (s, none)

/-- The head packet copied into the queue table, and the head advanced (R64). -/
def State.takePacket (s : State) (q : Nat) (w : List Nat) : State :=
  let (s, n) := s.freshKey
  s.modQueue q fun x => { x with head := x.head + 1, table := x.table ++ [{ words := w, index := n }], wbDue := x.headwb != 0 }

/-- The head packet looked at: its words, or a halt (R61); the head is not advanced. -/
def State.lookPacket (s : State) (q : Nat) : State × Option (List Nat) :=
  match s.readSlot q with
  | (s, none) => (s.haltQueue q 0x44, none)
  | (s, some w) =>
    match s.packetBad q w with
    | some r => (s.haltQueue q r, none)
    | none => (s, some w)

/-- Whether the firmware core may read a packet of a queue (R67, R72, R73). -/
def State.mayRead (s : State) (q : Nat) : Bool :=
  let x := s.queue q
  s.fw.state == 2 && x.state == 1 && x.tail != x.head && x.held.isNone

/-! ### Starting a packet (R59, R60) -/

/-- Whether every earlier packet of the queue has completed; a retirement whose raise a snapshot holds counts (R408). -/
def State.earlierDone (s : State) (q index : Nat) : Bool :=
  (s.queue q).table.all fun p => p.index == index || s.raises.any fun r =>
    s.raiseHeld r && (match r.who with
      | .launch k i _ => k == q && i == p.index
      | _ => false)

/-- Whether a packet may start, as far as its predecessors go. -/
def State.mayStart (s : State) (q : Nat) (p : Packet) : Bool :=
  let op := pktOp p
  !(pktSerial p || op == 4 || op == 5 || op == 6) || s.earlierDone q p.index

def State.markStarted (s : State) (q index : Nat) : State :=
  s.modQueue q fun x => { x with table := x.table.map fun p => if p.index = index then { p with started := true } else p }

def State.launchFrom (s : State) (q c : Nat) : LaunchFrom :=
  { ctx := c, tenant := (s.ctx c).tenant, child := false, mgmt := (s.queueOwner q) == some 0 }

/-- The launch of a packet handed over (R24, R45, R59, R88): the rejection reason, 0 when it has been handed over, or none
when the list is full and the packet stays. -/
def State.handOver (s : State) (q : Nat) (p : Packet) (va : Nat) : State × Option Nat :=
  let x := s.queue q
  if !s.listRoom then (s, none)
  else
    let c := x.ctx.getD 64
    let s := s.markStarted q p.index
    let v := BitVec.ofNat 64 (pktWord p 2)
    match s.readLaunch fwCore (s.launchFrom q c) va with
    | (s, .error r) => (s.rejectLaunch q p.index x.tl v r, some r)
    | (s, .ok h) =>
      ((s.addGrid { ctx := c, tenant := (s.ctx c).tenant, lr := h.lr, smap := h.smap, places := h.places, queue := some q
                    packet := p.index, timeline := x.tl, value := v, ce := pktCe p, tag := pktTag p }).1, some 0)

/-- What a packet does once it starts (R59); an address of W1 with bits [63:57] set is no address (log 90). -/
def State.startPacket (s : State) (q : Nat) (p : Packet) : State :=
  let op := pktOp p
  let tl := bits (pktWord p 1) 0 12
  if !s.mayStart q p then s
  else if op = 1 ∨ op = 5 then s.completePacket q p.index 0 none
  else if op = 2 then (s.handOver q p (pktWord p 1)).1
  else if op = 3 then
    if satisfied (Tab.get 0 s.timelines tl) (BitVec.ofNat 64 (pktWord p 2)) then s.completePacket q p.index 0 none else s
  else if op = 4 then (s.markStarted q p.index).raise tl (BitVec.ofNat 64 (pktWord p 2)) (.packet q p.index)
  else
    match (s.queue q).ctx with
    | none => s
    | some c =>
      let va := pktWord p 1
      match (if 2 ^ 57 ≤ va then (s, some (FCode.align, 0)) else s.storeVa fwCore c va 8 (pktWord p 2)) with
      | (s, none) => s.completePacket q p.index 0 none
      | (s, some _) => (s.modQueue q fun x => { x with table := x.table.filter fun y => y.index != p.index }).haltQueue q 0x46

/-! ### Visits (R68, R69) -/

/-- Whether a held packet would start now. -/
def State.canStart (s : State) (q : Nat) (p : Packet) : Bool :=
  s.mayStart q p && (pktOp p != 2 || s.listRoom) &&
  (pktOp p != 3 || satisfied (Tab.get 0 s.timelines (bits (pktWord p 1) 0 12)) (BitVec.ofNat 64 (pktWord p 2)))

/-- The type of the packet that a queue's lane would act on now: one that waits in the table and may start, or the next one of
the ring. -/
def State.laneOp (s : State) (q : Nat) : Option Nat :=
  match (s.queue q).held with
  | some p => if s.fw.state = 2 ∧ (s.queue q).state = 1 ∧ s.canStart q p then some (pktOp p) else none
  | none => if s.mayRead q then (s.lookPacket q).2.map fun w => bits (w.getD 0 0) 0 8 else none

/-- What the lanes of a group have to act on: type and lane, those left out that have taken a packet. -/
def State.groupWork (s : State) (g : Nat) (taken : List Nat) : List (Nat × Nat) :=
  (s.queues.filter fun (q, _) => q / 64 == g && !taken.contains (q % 64)).filterMap fun (q, _) => (s.laneOp q).map fun op => (op, q % 64)

/-- The lanes that have taken a packet in the visit in which a queue's lane would act: of the visit in progress, or of a new one,
once the groups on the way to it, in the order 0 to 15, have nothing to act on; none while one of them has (R68, log 85). -/
def State.visitOf (s : State) (q : Nat) : Option (List Nat) :=
  let g := q / 64 % 16
  let now := s.fw.group % 16
  if g = now ∧ !s.fw.taken.contains (q % 64) then some s.fw.taken
  else
    let between := (List.range (if g = now then 15 else (g + 15 - now) % 16)).map fun i => (now + 1 + i) % 16
    if (s.groupWork now s.fw.taken).isEmpty ∧ between.all (fun k => (s.groupWork k []).isEmpty) then some [] else none

/-- Whether a queue's lane can act only in a visit that comes after the one in progress (R68). -/
def State.newVisit (s : State) (q : Nat) : Bool := q / 64 % 16 != s.fw.group % 16 || s.fw.taken.contains (q % 64)

/-- The firmware core stops, and vector 0 of every bound logical device fires (R73, R417). -/
def State.stopFirmware (s : State) : State :=
  { s with fw := { s.fw with state := 3, stopping := false }
           msix := s.msix ++ (s.lds.filter fun x => x.2.bound).map fun x => (x.1, 0) }

/-- Whether a queue's lane is the next to act: in one visit the types act in ascending OP, and within a type the lanes in
ascending order (R69). -/
def State.laneTurn (s : State) (q op : Nat) : Option (List Nat) :=
  match s.visitOf q with
  | some taken =>
    if (s.groupWork (q / 64) taken).all fun (o, l) => decide (op < o) || (op == o && decide (q % 64 ≤ l)) then some taken else none
  | none => none

/-- The access of a queue's packet as it asks a host. -/
def packetAsker (q : Nat) : Asker := ⟨2 ^ 32, 9, q⟩

/-- A packet of type `op` at work in its lane's turn: the one that waits in the table, or the next one of the ring, which the
firmware core reads when it may; a queue whose next packet is of another type is left alone, and one whose next packet is wrong
halts (R61). Where it would begin another visit, a STOP takes effect instead (R417). -/
def State.servePacket (s : State) (q op : Nat) : State :=
  match s.laneOp q with
  | some o =>
    if o ≠ op then s
    else match s.laneTurn q op with
      | none => s
      | some taken =>
        if s.fw.stopping ∧ s.newVisit q then s.stopFirmware else
        let s : State := { s with fw := { s.fw with group := q / 64, taken := taken ++ [q % 64] } }
        State.heard (match (s.queue q).held with
          | some p => s.startPacket q p
          | none =>
            match s.lookPacket q with
            | (t, none) => t
            | (t, some w) =>
              let t := t.takePacket q w
              match (t.queue q).held with
              | some p => t.startPacket q p
              | none => t) (packetAsker q)
  | none => if s.mayRead q then (if s.fw.stopping ∧ s.newVisit q then s.stopFirmware else (s.lookPacket q).1.heard (packetAsker q)) else s

def execNopPacket (q : Nat) (s : State) : Res := .next (s.attempting (packetAsker q) fun s => s.servePacket q 1)
def execLaunchPacket (q : Nat) (s : State) : Res := .next (s.attempting (packetAsker q) fun s => s.servePacket q 2)
def execWaitPacket (q : Nat) (s : State) : Res := .next (s.attempting (packetAsker q) fun s => s.servePacket q 3)
def execSignalPacket (q : Nat) (s : State) : Res := .next (s.attempting (packetAsker q) fun s => s.servePacket q 4)
def execBarrierPacket (q : Nat) (s : State) : Res := .next (s.attempting (packetAsker q) fun s => s.servePacket q 5)
def execWritePacket (q : Nat) (s : State) : Res := .next (s.attempting (packetAsker q) fun s => s.servePacket q 6)

/-! ### Head write-backs and completion entries (R64, R80 to R82, R440) -/

/-- The new head stored at Q.HEADWB, bits [63:57] left out (log 90), also while the firmware core is stopped (log 86). -/
def execHeadWriteback (q : Nat) (s : State) : Res :=
  .next (s.attempting ⟨2 ^ 32, 10, q⟩ fun s => (let x := s.queue q
    match x.ctx with
    | some c =>
      if !x.wbDue then s
      else match (s.modQueue q fun x => { x with wbDue := false }).storeVa fwCore c (x.headwb % 2 ^ 57) 4 x.head.toNat with
        | (s, none) => s.heard ⟨2 ^ 32, 10, q⟩
        | (s, some _) => (s.haltQueue q 0x46).heard ⟨2 ^ 32, 10, q⟩
    | none => s))

def cqVec (x : Queue) : Nat := bits x.cqctl 37 11
def cqCount (x : Queue) : Nat := bits x.cqctl 19 8
def cqLog (x : Queue) : Nat := bits x.cqctl 12 5

/-- The completion vector of a queue fires, and its count and time start again (R82). -/
def State.fireCq (s : State) (q : Nat) : State :=
  let x := s.queue q
  let s := s.setQueue q { x with cqfresh := 0 }
  if cqVec x = 0 then s else { s with msix := s.msix ++ [((s.queueOwner q).getD 16, cqVec x)] }

/-- The oldest completion entry is written, unless the ring is full (R80, R82), at Q.CQBASE with bits [63:57] left out (log 90),
also while the firmware core is stopped (log 86). An entry whose store faults is never written again, and the index stays: the model's
choice (log 106). -/
def execCompletionEntryWrite (q : Nat) (s : State) : Res :=
  .next (s.attempting ⟨2 ^ 32, 11, q⟩ fun s => (let x := s.queue q
    match x.entries, x.ctx with
    | e :: rest, some c =>
      let n := cqLog x
      if (x.cqindex - x.cqhead).toNat = 2 ^ n then s
      else
        let phase := if x.cqindex.toNat / 2 ^ n % 2 = 0 then 2 ^ 127 else 0
        let s := s.setQueue q { x with entries := rest }
        State.heard (match s.storeVa fwCore c ((x.cqbase + 16 * (x.cqindex.toNat % 2 ^ n)) % 2 ^ 57) 16 (e + phase) with
        | (s, some _) => s.haltQueue q 0x46
        | (s, none) =>
          let s := s.modQueue q fun x => { x with cqindex := x.cqindex + 1, cqfresh := x.cqfresh + 1 }
          if cqCount x + 1 ≤ (s.queue q).cqfresh then s.fireCq q else s) ⟨2 ^ 32, 11, q⟩
    | _, _ => s))

def execCqCoalesceTimer (q : Nat) (s : State) : Res := .next (if (s.queue q).cqfresh = 0 then s else s.fireCq q)

/-! ### The firmware core (R68 to R75, R417) -/

/-- The queue of a lane in the group last fetched. -/
def State.laneQueue (s : State) (lane : Nat) : Nat := 64 * s.fw.fetched + lane

/-- The head packet of each lane's queue, when the queue may be read and the lane has taken none in this visit (R64, R68, R72). -/
def State.fetchLanes (s : State) : List Nat → State × List (Nat × List Nat)
  | [] => (s, [])
  | l :: rest =>
    let q := s.laneQueue l
    if !s.mayRead q ∨ s.fw.taken.contains l then s.fetchLanes rest
    else match s.lookPacket q with
      | (s, none) => s.fetchLanes rest
      | (s, some w) =>
        let s : State := { s with fw := { s.fw with taken := s.fw.taken ++ [l] } }
        let (s, out) := (s.takePacket q w).fetchLanes rest
        (s, (l, w) :: out)

/-- `qfetch` of the group being visited, or the beginning of a visit to another one; the order of visits is the image's (R68, R72,
log 85). A STOP takes effect where the visit ends (R417). -/
def execQfetch (a : SReg) (s : State) : Res :=
  guard (.qfetch a) s fun s =>
    let g := (s.srcS a).toNat
    if 16 ≤ g then s.fault { code := .protect }
    else
      if s.fw.stopping ∧ g ≠ s.fw.group then s.stopFirmware else
      let lanes := s.lanes
      let s : State := { s with fw := { s.fw with fetched := g, group := g, taken := if g = s.fw.group then s.fw.taken else [] } }
      let (s, got) := s.fetchLanes lanes
      let s := (List.range 16).foldl (fun s k => s.modCur fun r =>
        r.writeV (112 + k) (got.map (·.1)) fun l =>
          BitVec.ofNat 32 ((Tab.get [] got l).getD (k / 2) 0 / 2 ^ (32 * (k % 2)))) s
      s.modCur fun r => r.writeP s.iss.sup 7 lanes fun l => (Tab.find got l).isSome

/-- One lane of `qdisp`: the LAUNCH that waits in the lane's queue is handed over, or rejected; a lane with none waiting has its
record checked alone (R72, log 92), and for one that may not be handed over yet the value is open. -/
def State.dispLane (s : State) (lane : Nat) : State × W32 :=
  let q := s.laneQueue lane
  let va := (s.iss.readV 114 lane).toNat + (s.iss.readV 115 lane).toNat * 2 ^ 32
  let no : W32 := Config.declined (s.fresh + lane)
  let check : State × W32 := match s.readLaunch fwCore (s.launchFrom q ((s.queue q).ctx.getD 64)) va with
    | (s, .error r) => (s, BitVec.ofNat 32 r)
    | (s, .ok _) => (s, 0)
  match (s.queue q).held with
  | some p =>
    if pktOp p ≠ 2 ∨ (s.queue q).state ≠ 1 then check
    else if !s.mayStart q p then (s, no)
    else match s.handOver q p va with
      | (s, some r) => (s, BitVec.ofNat 32 r)
      | (s, none) => (s, no)
  | none => check

/-- Lanes in rising order (R69, R72). -/
def State.dispLanes (s : State) : List Nat → State × Tab W32
  | [] => (s, [])
  | l :: rest =>
    let (s, v) := s.dispLane l
    let (s, t) := s.dispLanes rest
    (s, (l, v) :: t)

def execQdisp (s : State) : Res :=
  guard .qdisp s fun s =>
    let lanes := s.lanes
    let (s, t) := s.dispLanes lanes
    s.modCur fun r => r.writeV 111 lanes fun l => Tab.get 0 t l

def execQcomp (s : State) : Res :=
  guard .qcomp s fun s =>
    s.lanes.foldl (fun s l =>
      s.raise (bits (s.iss.readV 110 l).toNat 0 12)
        (BitVec.ofNat 64 ((s.iss.readV 108 l).toNat + (s.iss.readV 109 l).toNat * 2 ^ 32)) .none) s

/-- A visit ends and the next group's begins; a STOP takes effect (R68, R417). -/
def execFwVisitTimeout (s : State) : Res :=
  .next (if s.fw.state ≠ 2 then s
    else
      let t : State := { s with fw := { s.fw with group := (s.fw.group + 1) % 16, taken := [] } }
      if s.fw.stopping then t.stopFirmware else t)

/-- An uncorrectable word of instruction memory stops the firmware core (R73, R74, R417). -/
def execFwImemUncorrectable (addr : Nat) (s : State) : Res :=
  .next (if s.fw.state ≠ 2 then s
    else
      State.stopFirmware
        { s with fw := if s.fw.errValid then s.fw else { s.fw with errValid := true, errAddr := addr % 2 ^ 18 } })

/-- An uncorrectable table entry poisons its queue; its launches keep what their grids hold (R75), those with no team placed among
them (log 89), a SIGNAL's raise that waits at its timeline's home is still applied (log 79), and a head write-back that is due is still
made (R64, R265). -/
def execQueueTableUncorrectable (q : Nat) (s : State) : Res :=
  .next (s.modQueue q fun x =>
    { x with state := 3, table := x.table.filter fun p => p.started && pktOp p == 2 })

/-! ### The queue registers (R62, R65 to R67, R82) -/

/-- A write to a queue's block does something only from the logical device that owns the queue (R441). -/
def State.onQueue (s : State) (ld q : Nat) (f : State → State) : State := if s.queueOwner q = some ld then f s else s

def execTailWrite (ld q width value : Nat) (s : State) : Res :=
  .next (s.onQueue ld q fun s => s.modQueue q fun x =>
    if width = 4 then x.tailWrite (BitVec.ofNat 32 value) else x.countStale)

/-- The reasons against a queue's ENABLE, least first (R67, R81, R419). -/
def State.enableBad (s : State) (q : Nat) : Option Nat :=
  let x := s.queue q
  let d := s.queueLd q
  let ring (n : Nat) : Bool := decide (4 ≤ n) && decide (n ≤ 16)
  if !ring x.logsize ∨ x.base % 4096 ≠ 0 ∨ x.headwb % 4 ≠ 0 ∨ (x.compat ∧ (x.cqbase % 256 ≠ 0 ∨ !ring (cqLog x))) then some 0x41
  else if !d.ownsTl x.tl then some 0x42
  else if x.ctx.isNone ∨ !d.featDone then some 0x43
  else none

/-- ENABLE is set: RUNNING with no halt reason, or HALTED (R61, R67); the table entry is rewritten (R75). -/
def State.enableQueue (s : State) (q : Nat) : State :=
  let s := s.modQueue q fun x => { x with enable := true, state := 1, halt := 0 }
  match s.enableBad q with
  | some r => s.haltQueue q r
  | none => s

/-- Grids of a queue with no team placed (R67): a reel has one when this part has placed its members, or another has answered PLACED. -/
def State.withdrawable (s : State) (q : Nat) : List Nat :=
  s.pending.filter fun k =>
    let g := s.grid k
    g.queue == some q && g.nextTeam == g.first && !s.reels.any fun h => h.grid == some k && !h.placed.isEmpty

/-- ENABLE is cleared (R67, R100); a packet that was read and has not started is dropped, and the entries since the last interrupt
stay counted (log 88). The model's choice: a head write-back that is still due is dropped (R64, log 105), and completion entries that are
not written yet are kept, and written from index 0 on (R67, log 107). -/
def State.disableQueue (s : State) (q : Nat) : State :=
  let s := s.modQueue q fun x =>
    { x with enable := false, state := 0, head := 0, tail := 0, cqhead := 0, cqindex := 0, wbDue := false
             table := x.table.filter (·.started) }
  (s.withdrawable q).foldl (fun s k =>
    match (s.grid k).reel with
    | some key => if s.reels.any fun h => h.grid == some k then s.endReel key 0x0f else s.rejectGrid k 0x0f
    | none => s.rejectGrid k 0x0f) s

/-- A write of 32 bits to Q.CTL (R67): while ENABLE is 1 it acts on ENABLE alone. -/
def State.ctlWrite (s : State) (q v : Nat) : State :=
  let x := s.queue q
  let compat := bit v 30 && bit (s.queueLd q).featOn 1
  if x.enable then
    let s := if compat != x.compat || bits v 16 5 != x.logsize || bits v 0 12 != x.tl then s.modQueue q Queue.countStale else s
    if bit v 31 then s else s.disableQueue q
  else
    let s := s.setQueue q { x with compat := compat, logsize := bits v 16 5, tl := bits v 0 12 }
    if bit v 31 then s.enableQueue q else s

/-- A write of Q.CTL that sets ENABLE, and one that clears it; either is what the value says (R67). -/
def execQueueEnable (ld q v : Nat) (s : State) : Res := .next (s.onQueue ld q fun s => s.ctlWrite q v)
def execQueueDisable (ld q v : Nat) (s : State) : Res := .next (s.onQueue ld q fun s => s.ctlWrite q v)

/-- Q.CQHEAD (R82). -/
def execCqheadWrite (ld q v : Nat) (s : State) : Res :=
  .next (s.onQueue ld q fun s => s.modQueue q fun x =>
    let new : W32 := BitVec.ofNat 32 v
    let left := (x.cqindex - new).toNat
    if 2 ^ cqLog x < left then x.countStale else { x with cqhead := new })

/-! ### Contexts (R52 to R55, R349, R351, R413, R439) -/

/-- A device-physical address of the first form of R439 with its low bits zero. -/
def physOk (a low : Nat) : Bool := bits a 52 12 == 0x10 && a % low == 0
def physAddr (a : Nat) : Nat := a % 2 ^ 52

/-- The range hint records of a block, when they are well formed (R351). -/
def State.readHints (s : State) (at_ : Nat) : Nat → Nat → Option (List (Nat × Nat × Nat))
  | 0, _ => some []
  | n + 1, floor =>
    let b := s.devRead at_ 8
    let len := s.devRead (at_ + 8) 8
    let r := s.devRead (at_ + 16) 8
    if b % 65536 ≠ 0 ∨ len % 65536 ≠ 0 ∨ len = 0 ∨ b < floor ∨ r % 4 = 3 ∨ bits r 3 13 ≠ 0 ∨ bits r 33 31 ≠ 0 ∨
       s.devRead (at_ + 24) 8 ≠ 0 then none
    else (s.readHints (at_ + 32) n (b + len)).map fun l => (b, len, r) :: l

/-- A context with its hint block's fields, or none for a malformed block (R349). -/
def State.readHintBlock (s : State) (x : Ctx) (h : Nat) : Option Ctx :=
  let w (k : Nat) : Nat := s.devRead (h + 8 * k) 8
  let n := bits (w 0) 0 9
  let ring (v : Nat) : Bool := decide (4 ≤ v) && decide (v ≤ 16)
  if w 0 ≠ n ∨ 256 < n ∨ w 1 % 64 ≠ 0 ∨ 2 ^ 52 ≤ w 1 ∨ !ring (w 2) ∨ 2 ^ 52 ≤ w 3 ∨ w 5 % 64 ≠ 0 ∨ 2 ^ 52 ≤ w 5 ∨
     (w 5 ≠ 0 ∧ !ring (w 6)) then none
  else (s.readHints (h + 0x40) n 0).map fun l =>
    { x with hint := h, pool := w 1, poolLog := w 2, zeroFrame := w 3, ret := w 5, retLog := w 6, hints := l }

/-- The context record at a physical address read into a context of a logical device, with its place table, flows and
partners; none when it is malformed (R54, R55, R413, R439). -/
def State.readRecord (s : State) (x : Ctx) (ld c a : Nat) : Option Ctx :=
  let w (k : Nat) : Nat := s.devRead (a + 8 * k) 8
  let n := w 7
  let d := s.ldev ld
  if 16 ≤ w 0 ∨ !physOk (w 1) 65536 ∨ !physOk (w 2) 4096 ∨ 20 < w 3 ∨ (w 5 ≠ 0 ∧ !physOk (w 5) 64) ∨ !physOk (w 6) 32 ∨
     n < 15 ∨ 65535 < n ∨ n + 1 ≠ 2 ^ (n + 1).log2 ∨
     !physOk (w 8) 4096 ∨ !physOk (w 10) 2048 ∨ (List.range 5).any (fun k => w (11 + k) != 0) then none
  else
    let table := physAddr (w 10)
    let x : Ctx :=
      { x with
        ld := ld, recAddr := a, tenant := w 0, pt := physAddr (w 1), desc := physAddr (w 2), dsize := w 3
        handler := if bit d.featOn 6 then w 4 else 0
        hint := 0, pool := 0, poolLog := 0, zeroFrame := 0, ret := 0, retLog := 0, hints := []
        fq := physAddr (w 6), fqn := n, save := physAddr (w 8), saven := w 9
        places := ((List.range 512).map fun k => (k, s.devRead (table + 4 * k) 4)).filter fun e => e.2 != 0
        flows := d.regs.readLE (0x4000 + 8 * c) 8, partners := d.regs.slice (0x8000 + 512 * c) 512 }
    if w 5 = 0 then some x else s.readHintBlock x (physAddr (w 5))

/-- Whether a context has teams on the part, or saved. -/
def State.isResident (s : State) (c : Nat) : Bool :=
  !(s.ctx c).saved.isEmpty || s.teams.any fun x => x.2.valid && x.2.ctx == c

/-- The context a record address binds: the one the device already has for it, else the lowest free one (R55). -/
def State.ctxFor (s : State) (ld a : Nat) : Option Nat :=
  match s.ctxs.find? fun (_, x) => x.bound && x.ld == ld && x.recAddr == a && x.parent.isNone && !x.discarding with
  | some (c, _) => some c
  | none => (List.range 64).find? fun c => !(s.ctx c).bound

/-- A context is bound to a queue: its record is read, unless the context is resident, when a change waits for its next
resumption (R55); it is resident while it has a team placed or saved (log 91). -/
def State.bindContext (s : State) (ld q v : Nat) : State :=
  let a := physAddr v
  let fails (s : State) : State := s.modQueue q fun x => { x with cxb := v, ctx := none }
  match (if physOk v 128 then s.ctxFor ld a else none) with
  | none => fails s
  | some c =>
    match s.readRecord (s.ctx c) ld c a with
    | none => fails s
    | some x =>
      let s := if s.isResident c then s
        else s.setCtx c { x with bound := true, state := if x.state = .unbound then .running else x.state }
      s.modQueue q fun x => { x with cxb := v, ctx := some c }

/-- A write of Q.CXB (R55, R67). -/
def execContextBind (ld q v : Nat) (s : State) : Res :=
  .next (s.onQueue ld q fun s => if (s.queue q).enable then s.modQueue q Queue.countStale else s.bindContext ld q v)

/-! ### Reads that clear (R65, R66) -/

def execQStaleRead (ld q : Nat) (s : State) : Res :=
  .next (if s.queueOwner q ≠ some ld then { s with hostRead := 0 }
    else { s.modQueue q fun x => { x with stale := 0 } with hostRead := BitVec.ofNat 64 (s.queue q).stale })

/-- Q.STAT (R66). -/
def Queue.stat (x : Queue) : Nat := x.nrej + x.reject * 2 ^ 8 + x.halt * 2 ^ 16 + x.state * 2 ^ 30

def execNrejRead (ld q : Nat) (s : State) : Res :=
  .next (if s.queueOwner q ≠ some ld then { s with hostRead := 0 }
    else { s.modQueue q fun x => { x with nrej := 0 } with hostRead := BitVec.ofNat 64 (s.queue q).stat })

end Sys2Proof.Machine
end

