-- ==== Sys2Proof/Machine/SaveArea.lean ====
section
/-! DEFINITION. The save area (spec/21 R384, R385): its bytes for the teams of a context, its required size, and reading
it back, edits included (spec/21 R383, R388, spec/22 R397). The engine area holds a count of what is in flight, the number under which
State keeps those operations, the valid rows, and a check word (log 30). -/

namespace Sys2Proof.Machine

/-- Bytes at an offset of an area: `n` bytes cleared, then filled. -/
structure Chunk where
  off : Nat
  n : Nat
  data : Memory
  deriving DecidableEq, Repr

/-- Fields (offset, bytes, value) as memory. -/
def fieldsOf (l : List (Nat × Nat × Nat)) : Memory := l.foldl (fun m (a, n, v) => m.writeLE a n v) []

/-- A chunk written by physical address, which no view's copy on write sees (R387). -/
def State.putChunk (s : State) (base : Nat) (c : Chunk) : State := { s with dmem := s.dmem.paste (base + c.off) c.n c.data }

/-! ### A gang record -/

/-- The PC a slice's record shows: its packet, where a word of it is set aside (R214, R379). -/
def Slice.shownPc (x : Slice) : Nat := match x.replays.head? with
  | some r => r.pc
  | none => x.pc

def Slice.flags (x : Slice) : Nat :=
  x.mask.toNat + x.live.toNat * 2 ^ 4 + x.stack.length % 16 * 2 ^ 8 + x.j.isSome.toNat * 2 ^ 12 + x.halted.toNat * 2 ^ 13 +
    (x.park != .none).toNat * 2 ^ 14 + x.rdepth % 65536 * 2 ^ 16 + x.split % 8 * 2 ^ 32

def Slice.hgFlags (x : Slice) (k : Nat) : Nat :=
  x.hgLanes.toNat + (x.hgLanes != 0).toNat * 2 ^ 4 + (match x.replays.head? with
    | some r => 2 ^ 5 + r.word % 4 * 2 ^ 6 + (laneNibble r.lanes k).toNat * 2 ^ 8
    | none => 0)

/-- The fields of slice `k`'s record and slice entry (R385); stack and return entries oldest first. -/
def Slice.fields (x : Slice) (k : Nat) : List (Nat × Nat × Nat) :=
  let b := 384 * k
  let entry (e : MaskEntry) (i : Nat) : List (Nat × Nat × Nat) :=
    [(b + 0x20 + 24 * i, 8, e.pendpc), (b + 0x28 + 24 * i, 8, e.jp.getD (2 ^ 64 - 1)),
     (b + 0x30 + 24 * i, 8, e.pend.toNat + e.whole.toNat * 2 ^ 4)]
  let id := match x.park with
    | .cpyc id => id % 2 ^ 26 + 2 ^ 31
    | _ => 0
  [(b, 8, x.shownPc), (b + 8, 8, x.flags), (b + 16, 8, x.j.getD 0)] ++
  (x.stack.reverse.zip (List.range 8)).flatMap (fun (e, i) => entry e i) ++
  (x.rstack.reverse.zip (List.range 16)).map (fun (r, i) => (b + 0xe0 + 8 * i, 8, r)) ++
  [(0xd40 + 32 * k, 8, (x.hg.getLast?.map (·.2)).getD 0), (0xd48 + 32 * k, 8, x.hgFlags k), (0xd50 + 32 * k, 8, id)]

/-- The batch slot of a split in a service wait (R385). -/
def Gang.svcSlot (g : Gang) : Nat :=
  (g.slices.findSome? fun (_, x) => match x.park with
    | .service _ n => some n
    | _ => none).getD (2 ^ 64 - 1)

/-- The handler's part of a gang record (R385). -/
def Handler.fields (h : Handler) : List (Nat × Nat × Nat) :=
  let at_ (k : Nat) : Nat × Nat := h.depths.get (0, 0) k
  [(0xc20, 8, h.pc), (0xc28, 8, h.mask % 2 ^ 32 + h.slices.headD 0 % 8 * 2 ^ 32 + 2 ^ 35),
   (0xc30, 8, ((List.range 8).map fun k => (at_ k).1 % 16 * 16 ^ k).sum),
   (0xc38, 16, ((List.range 8).map fun k => (at_ k).2 % 65536 * 65536 ^ k).sum)] ++
  (h.record.words.zip (List.range 4)).map fun (w, i) => (0xc48 + 8 * i, 8, w)

/-- The supervisor bank (R385). -/
def Regs.bankFields (r : Regs) : List (Nat × Nat × Nat) :=
  (List.range 16).map (fun k => (0xc80 + 8 * k, 8, (r.s.get 0 (48 + k)).toNat)) ++
  (List.range 2).flatMap (fun k =>
    [(0xd00 + 16 * k, 8, (r.a.get {} (14 + k)).base.toNat), (0xd08 + 16 * k, 4, (r.a.get {} (14 + k)).stride.toNat)]) ++
  (List.range 2).map fun k => (0xd20 + 4 * k, 4, (r.p.get 0 (6 + k)).toNat)

/-- A gang's record of 4,096 bytes (R385). -/
def Gang.recordBytes (g : Gang) : Memory :=
  fieldsOf (g.slices.flatMap (fun (k, x) => x.fields k) ++
    [(0xc00, 8, g.turn % 8), (0xc08, 8, g.cnt), (0xc10, 8, g.lastCopy % 2 ^ 26 + g.children.length % 65536 * 2 ^ 32),
     (0xc18, 8, g.svcSlot)] ++
    (match g.handler with
      | some h => h.fields
      | none => []) ++ g.bank.bankFields)

def Gang.windowBytes (g : Gang) : Nat := 128 * g.vregs + 1024
def Gang.window (g : Gang) : Nat := g.regs.kReadN g.vregs g.nslices 0 g.windowBytes

/-! ### A team block -/

/-- What a team's engines have in flight, as the first word of its engine area counts it (R385, log 30). -/
def Team.inFlight (t : Team) : Nat := t.tiles.length + t.streams.length * 2 ^ 16 + t.colls.length * 2 ^ 32

/-- The engine area of a block but for its check word: what is in flight, the number that State keeps it under, the team's core and
slot, the valid rows, and each row's place in SB (log 30). -/
def SavedTeam.engineFields (t : SavedTeam) : List (Nat × Nat × Nat) :=
  [(0x500, 8, t.team.inFlight), (0x508, 8, t.token), (0x518, 8, t.core % 512 + t.tslot % 16 * 2 ^ 9),
   (0x580, 128, (t.team.rows.map fun x => 2 ^ x.1).sum)] ++ t.team.rows.map fun (k, r) => (0x600 + 2 * k, 2, r.off / 128)

/-- The sum of the words of the engine area at `a`, its check word left out; the check word is its complement. -/
def engineSum (m : Memory) (a : Nat) : Nat :=
  let e := m.slice a 2816
  ((List.range 352).map fun k => if k = 2 then 0 else e.readLE (8 * k) 8).sum % 2 ^ 64

/-- Word 2 of TB.HDR from a grid: NEXT, and what a host-launched one raises (R385). -/
def Grid.nextWord (g : Grid) : Nat :=
  (if g.nextTeam = g.teams then lrTeams g.lr else g.nextTeam) % 2 ^ 24 + (match g.queue with
    | some q => g.timeline % 4096 * 2 ^ 24 + 2 ^ 36 + g.ce.toNat * 2 ^ 37 + q % 1024 * 2 ^ 38 + g.tag % 65536 * 2 ^ 48
    | none => 0)
/-- Word 4: a child grid's parent. -/
def Grid.parentWord (g : Grid) : Nat := match g.parent with
  | none => 0
  | some p => g.parentGrid % 2 ^ 32 + g.parentTeam % 2 ^ 24 * 2 ^ 32 + gidGang p * 2 ^ 56 + 2 ^ 60

/-- TB.HDR of a saved team of a grid (R385). -/
def SavedTeam.blockHeader (t : SavedTeam) (g : Grid) : List (Nat × Nat × Nat) :=
  let member := t.team.member.getD 0
  [(0, 8, t.team.number % 2 ^ 24 + member * 2 ^ 24 + t.team.member.isSome.toNat * 2 ^ 33 + Nat.log2 t.team.divisor * 2 ^ 34),
   (8, 8, t.team.grid % 2 ^ 32), (16, 8, g.nextWord), (24, 8, if g.queue.isSome then g.value.toNat else 0), (32, 8, g.parentWord)]

/-- The first 4,096 bytes of a team block (R385). -/
def SavedTeam.blockFixed (t : SavedTeam) (g : Grid) : Memory :=
  let x := t.team
  let m := fieldsOf (t.blockHeader g ++ (List.range 16).map (fun k => (0x40 + 8 * k, 8, (x.tregs.get 0 k).toNat)) ++
    [(0xc0, 8, x.grant.getD 0 % 8 + x.request.getD 0 % 8 * 8), (0x100, 512, g.lr.readLE 0 512)] ++
    (t.metadata.zip (List.range 32)).map (fun (w, i) => (0x300 + 16 * i, 16, w)) ++ t.engineFields)
  m.writeLE 0x510 8 (2 ^ 64 - 1 - engineSum m 0x500)

/-- Offsets within a team block: the gangs' records and windows, then the team's buffers, copies and rows. -/
def SavedTeam.gangOff (t : SavedTeam) (n : Nat) : Nat :=
  0x1000 + ((t.gangs.filter fun x => decide (x.1 < n)).map fun x => 4096 + x.2.windowBytes).sum
def SavedTeam.scratchOff (t : SavedTeam) : Nat := t.gangOff 16
def SavedTeam.bufOff (t : SavedTeam) : BufSpace → Nat
  | .l => t.scratchOff
  | .wb => t.scratchOff + t.team.extent .l
  | .ab => t.scratchOff + t.team.extent .l + t.team.extent .wb
  | .cb => t.scratchOff + t.team.extent .l + t.team.extent .wb + t.team.extent .ab
def SavedTeam.copiesOff (t : SavedTeam) : Nat := t.bufOff .cb + t.team.extent .cb
def SavedTeam.rowsOff (t : SavedTeam) : Nat := t.copiesOff + 65536

/-- Where each valid row's image stands: row number, offset, row. -/
def placeRows (compact : Bool) : Tab Row → Nat → List (Nat × Nat × Row)
  | [], _ => []
  | (k, r) :: rest, off => (k, off, r) :: placeRows compact rest (off + imageBytes compact r.len)

/-- Bytes of a team block, rounded up to 4 KB (R385). -/
def SavedTeam.blockSize (t : SavedTeam) (compact : Bool) : Nat :=
  (t.rowsOff + (t.team.rows.map fun x => imageBytes compact x.2.len).sum + 4095) / 4096 * 4096

/-- The chunks of a team block that change while the team is saved: its gangs and its buffers (R370, R408). -/
def SavedTeam.liveChunks (t : SavedTeam) : List Chunk :=
  let x := t.team
  let buf (sp : BufSpace) : Chunk := ⟨t.bufOff sp, x.extent sp, (x.buf sp).slice 0 (x.extent sp)⟩
  t.gangs.flatMap (fun (k, g) =>
    [⟨t.gangOff k, 4096, g.recordBytes⟩,
     ⟨t.gangOff k + 4096, g.windowBytes, Memory.writeLE [] 0 g.windowBytes g.window⟩]) ++ [buf .l, buf .wb, buf .ab, buf .cb]

/-- A team block's chunks, from its first byte (R385, R386). -/
def SavedTeam.blockChunks (t : SavedTeam) (g : Grid) (compact : Bool) : List Chunk :=
  let x := t.team
  let n := t.copies.length
  ⟨0, 4096, t.blockFixed g⟩ :: t.liveChunks ++
  [⟨t.copiesOff, 64 * (if n < 1024 then n + 1 else n),
    fieldsOf ((t.copies.zip (List.range n)).map fun (c, i) => (64 * i, 64, c.2.image c.1))⟩] ++
  (placeRows compact x.rows t.rowsOff).map fun (_, off, r) =>
    ⟨off, imageBytes compact r.len, fieldsOf [(0, imageBytes compact r.len, numLE (rowImage compact r))]⟩

/-! ### An area -/

/-- Teams in the order of their blocks (R385). -/
def inOrder (ts : List SavedTeam) : List SavedTeam :=
  sortBy ts fun a b => decide (a.core * 16 + a.tslot ≤ b.core * 16 + b.tslot)

/-- Each team with the offset of its block. -/
def placeBlocks (compact : Bool) : List SavedTeam → Nat → List (Nat × SavedTeam)
  | [], _ => []
  | t :: rest, off => (off, t) :: placeBlocks compact rest (off + t.blockSize compact)

def areaBlocks (compact : Bool) (ts : List SavedTeam) : List (Nat × SavedTeam) := placeBlocks compact (inOrder ts) 4096
/-- Bytes from an area's start to the end of its last block. -/
def areaSpan (compact : Bool) (ts : List SavedTeam) : Nat := 4096 + (ts.map fun t => t.blockSize compact).sum

/-- The bytes that are written for a team (R386), and for an area: SA.USED (R384). -/
def SavedTeam.written (t : SavedTeam) (compact : Bool) : Nat :=
  4096 + (t.gangs.map fun x => 4096 + x.2.windowBytes).sum + t.team.extent .l + t.team.extent .wb + t.team.extent .ab +
    t.team.extent .cb + 64 * min 1024 (t.copies.length + 1) + (t.team.rows.map fun x => imageBytes compact x.2.len).sum
def areaUsed (compact : Bool) (ts : List SavedTeam) : Nat := 4096 + (ts.map fun t => t.written compact).sum

/-- What an area's header says beside its teams (R384). -/
structure AreaHeader where
  twin : Bool := false
  cut : Nat := 0
  parent : Nat := 0
  unknown : List Unknown := []
  unkMore : Nat := 0
  brks : List Break := []
  deriving DecidableEq, Repr

/-- An unknown-outcome entry's fields (R384). -/
def Unknown.fields (u : Unknown) (off : Nat) : List (Nat × Nat × Nat) :=
  [(off, 8, u.pc), (off + 8, 8, u.addr),
   (off + 16, 8, u.lanes % 2 ^ 32 + u.place % 512 * 2 ^ 32 + u.kind % 8 * 2 ^ 41 + u.gang % 16 * 2 ^ 48 + u.tslot % 16 * 2 ^ 52),
   (off + 24, 8, u.core % 512)]

/-- The 4 KB header (R384). -/
def AreaHeader.bytes (h : AreaHeader) (compact : Bool) (ts : List SavedTeam) : Memory :=
  fieldsOf ([(0, 8, 1 + h.twin.toNat * 2 ^ 8 + ts.length % 65536 * 2 ^ 16), (8, 8, h.cut), (16, 8, areaUsed compact ts),
    (24, 8, if h.twin then h.parent % 64 else 0), (32, 8, min 96 h.unknown.length + min 65535 h.unkMore * 2 ^ 16)] ++
   (h.brks.zip (List.range 8)).flatMap (fun (b, i) =>
     [(0x40 + 16 * i, 8, b.pc), (0x48 + 16 * i, 8,
       gidCore b.gid % 512 + gidSlot b.gid * 2 ^ 9 + gidGang b.gid * 2 ^ 13 + b.code % 2048 * 2 ^ 17 + 2 ^ 28)]) ++
   (h.unknown.zip (List.range 96)).flatMap fun (u, i) => u.fields (0xc0 + 32 * i))

/-- A team's block written at an address, under a number of its own in the engine area. -/
def State.writeBlock (s : State) (at_ : Nat) (compact : Bool) (t : SavedTeam) (g : Grid) : State × SavedTeam :=
  let (s, n) := s.freshKey
  let t := { t with place := at_, token := n }
  let s := (t.blockChunks g compact).foldl (fun s c => s.putChunk at_ c) s
  ({ s with engines := s.engines.set n ⟨t, g⟩ }, t)

/-- The header, and the blocks of the teams a core holds, written to an area (R383, R386); the teams as they stand there. -/
def State.writeArea (s : State) (base : Nat) (h : AreaHeader) (compact : Bool) (ts : List SavedTeam) (grid : Nat → Grid)
    (core : Nat → Bool) : State × List SavedTeam :=
  let s := s.putChunk base ⟨0, 4096, h.bytes compact ts⟩
  (areaBlocks compact ts).foldl (fun (s, l) (off, t) =>
    if core t.core then
      let (s, t) := s.writeBlock (base + off) compact t (grid t.team.grid)
      (s, l ++ [t])
    else (s, l ++ [t])) (s, [])

/-- The bytes one team can take at most: S of R385. -/
def SavedTeam.required (t : SavedTeam) : Nat :=
  (4096 + (t.gangs.map fun x => 5120 + 128 * x.2.vregs).sum + t.team.scratchSize + 2375680 / t.team.divisor + 65536 + 4095) /
    4096 * 4096
def requiredSize (ts : List SavedTeam) : Nat := 4096 + (ts.map SavedTeam.required).sum

/-! ### Reading an area back (R388, R397) -/

/-- Whether a PC that software chose has its LAND bit clear (R108); a block that cannot be read is left to the slice's
first issue. -/
def State.landClear (s : State) (core c pc : Nat) : Bool :=
  match s.translateIn core c (pc / 64 * 64) 3 with
  | (s, .ok l) =>
    let b := s.readLoc l 64
    !(trailerOk b && landBit b (pc % 64 / 12))
  | _ => false

/-- A mask stack as its record holds it. -/
def State.readStack (s : State) (at_ : Nat) : Nat → List MaskEntry → List MaskEntry
  | 0, l => l
  | n + 1, l =>
    let w := s.devRead (at_ + 16) 8
    let jp := s.devRead (at_ + 8) 8
    s.readStack (at_ + 24) n
      (⟨BitVec.ofNat 4 w, s.devRead at_ 8, BitVec.ofNat 4 (w / 16), if jp = 2 ^ 64 - 1 then none else some jp⟩ :: l)

/-- Whether the fields R385 calls zero are zero in a gang record. -/
def State.gangZeros (s : State) (a : Nat) (nslices : Nat) : Bool :=
  (List.range nslices).all (fun k =>
    s.devRead (a + 384 * k + 24) 8 == 0 && s.devRead (a + 384 * k + 0x160) 32 == 0 && s.devRead (a + 0xd58 + 32 * k) 8 == 0 &&
    bits (s.devRead (a + 384 * k + 8) 8) 36 28 == 0 && !bit (s.devRead (a + 384 * k + 8) 8) 15 &&
    bits (s.devRead (a + 0xd48 + 32 * k) 8) 12 52 == 0 && bits (s.devRead (a + 0xd50 + 32 * k) 8) 32 32 == 0) &&
  bits (s.devRead (a + 0xc00) 8) 3 61 == 0 && bits (s.devRead (a + 0xc10) 8) 26 6 == 0 && bits (s.devRead (a + 0xc10) 8) 48 16 == 0 &&
  bits (s.devRead (a + 0xc28) 8) 36 28 == 0 && bits (s.devRead (a + 0xc30) 8) 32 32 == 0 && s.devRead (a + 0xc68) 24 == 0 &&
  s.devRead (a + 0xd0c) 4 == 0 && s.devRead (a + 0xd1c) 4 == 0 && s.devRead (a + 0xd28) 24 == 0 && (s.dmem.slice (a + 0xe40) 448).readLE 0 448 == 0

/-- Whether the bytes R152 reserves are zero in a saved register window: of the affine registers, of SXF, and after it (R14). -/
def State.windowZeros (s : State) (a vregs : Nat) : Bool :=
  let c := a + 128 * vregs
  (List.range 16).all (fun k => s.devRead (c + 0x20c + 16 * k) 4 == 0) && s.devRead (c + 0x360) 8 / 4 == 0 &&
    s.devRead (c + 0x368) 152 == 0

/-- A slice's parked state with the continuation copy its entry names (R248, R385). -/
def Slice.withContinuation (x : Slice) (e : Nat) : Slice :=
  match x.park with
  | .none => x
  | .cpyc id =>
    if !bit e 31 then { x with park := .none } else if id % 2 ^ 26 = e % 2 ^ 26 then x else { x with park := .cpyc (e % 2 ^ 26) }
  | _ => if bit e 31 then { x with park := .cpyc (e % 2 ^ 26) } else x

/-- The lanes that a `jmp` halted, as a slice entry gives them: of several groups it shows the lanes of all and the PC of the oldest, and
what differs from that takes the place of all (R139, R385, log 98). -/
def Slice.readHg (x : Slice) (lanes : BitVec 4) (pc : Nat) : List (BitVec 4 × Nat) :=
  if lanes = x.hgLanes ∧ pc = (x.hg.getLast?.map (·.2)).getD 0 then x.hg else if lanes = 0 then [] else [(lanes, pc)]

/-- A slice with its record's edits, or none when the record is malformed (R388). A PC the driver chose goes through the
LAND check (R108), and leaves nothing of what the slice was doing at its old one. -/
def State.readSlice (s : State) (core c a k : Nat) (running : Bool) (x : Slice) : Option Slice :=
  let w (n : Nat) : Nat := s.devRead (a + 384 * k + 8 * n) 8
  let pc := w 0
  let fl := w 1
  let depth := bits fl 8 4
  let e := s.devRead (a + 0xd48 + 32 * k) 8
  let set := bit fl 35
  if !validPc pc ∨ 8 < depth ∨ (set ∧ !running ∧ s.landClear core c pc) then none
  else
    let rd := bits fl 16 16
    let n := if rd = x.rdepth then x.rstack.length else min 16 rd
    let moved := set || pc != x.shownPc
    let lanes := (x.replays.head?.map (·.lanes)).getD 0
    let rp : List Replay :=
      if moved then []
      else if !bit e 5 then x.replays.drop 1
      else ⟨pc, bits e 6 2, lanes - (laneNibble lanes k).toNat * 16 ^ k + bits e 8 4 * 16 ^ k⟩ :: x.replays.drop 1
    some (Slice.withContinuation
      { x with
        pc := if moved then pc else x.pc, arrival := if moved then set else x.arrival, mask := BitVec.ofNat 4 fl
        live := BitVec.ofNat 4 (fl / 16), j := if bit fl 12 then some (w 2) else none
        stack := s.readStack (a + 384 * k + 0x20) depth [], rdepth := rd
        rstack := ((List.range n).map fun i => s.devRead (a + 384 * k + 0xe0 + 8 * i) 8).reverse
        halted := bit fl 13, park := if moved ∨ !bit fl 14 then .none else x.park, split := bits fl 32 3
        replays := rp, others := if moved then none else x.others, did := if moved then [] else x.did
        seen := if moved then none else x.seen
        hg := x.readHg (BitVec.ofNat 4 e) (s.devRead (a + 0xd40 + 32 * k) 8) }
      (s.devRead (a + 0xd50 + 32 * k) 8))

/-- Every slice of a gang read back, or none. -/
def State.readSlices (s : State) (core c a : Nat) (running : Bool) : Tab Slice → Option (Tab Slice)
  | [] => some []
  | (k, x) :: rest =>
    match s.readSlice core c a k running x, s.readSlices core c a running rest with
    | some y, some l => some ((k, y) :: l)
    | _, _ => none

/-- A fault record from its four words, or none when a field called zero is not (R354). -/
def FaultRec.ofWords (a pc addr b : Nat) : Option FaultRec :=
  if bits a 34 2 ≠ 0 ∨ bits b 34 30 ≠ 0 then none
  else some
    { code := bits a 0 8, core := bits a 8 9, tslot := bits a 17 4, gang := bits a 21 4, sup := bit a 25, acc := bits a 26 2
      ctx := bits a 28 6, detail := bits a 36 28, pc := pc, addr := addr, lanes := bits b 0 32, word := bits b 32 2 }

/-- The handler state of the record at `a` for a gang with slices `l` that held `old`; none when a field is malformed, and `some
none` while no split is in the handler (R385, R388). A saved PC or mask that the driver wrote takes the place of all that was
saved with the old one. -/
def State.readHandler (s : State) (a : Nat) (old : Option Handler) (l : Tab Slice) : Option (Option Handler) :=
  let w (n : Nat) : Nat := s.devRead (a + n) 8
  let fl := w 0xc28
  if !bit fl 35 then some none
  else
    let h := old.getD { slices := (l.filter fun y => y.2.split == bits fl 32 3).map (·.1) }
    let pc := w 0xc20
    let mask := bits fl 0 32
    let depth (k : Nat) : Nat := bits (w 0xc30) (4 * k) 4
    if !validPc pc ∨ bits (w 0xc30) 32 32 ≠ 0 ∨ h.slices.any (fun k => decide (8 < depth k)) then none
    else (FaultRec.ofWords (w 0xc48) (w 0xc50) (w 0xc58) (w 0xc60)).map fun r =>
      let same := decide (pc = h.pc)
      some
        { h with
          pc := pc, mask := mask, savedPc := if same then h.savedPc else [], savedRest := if same then h.savedRest else []
          savedSeen := if same then h.savedSeen else []
          replay := if same then h.replay else none
          savedMask := if mask = h.mask then h.savedMask else h.slices.map fun k => (k, (laneNibble mask k).toNat)
          depths := h.slices.map fun k => (k, (depth k, bits (s.devRead (a + 0xc38) 16) (16 * k) 16))
          record := if r.words = h.record.words then h.record else r }

/-- A parked service call with the batch slot that the record names: with none it is made again (R151, R385). -/
def Slice.withBatch (x : Slice) (w : Nat) : Slice :=
  match x.park with
  | .service vb _ => { x with park := if w = 2 ^ 64 - 1 then .none else .service vb w }
  | .serviceSend vb _ => if w = 2 ^ 64 - 1 then x else { x with park := .service vb w }
  | _ => x

/-- A gang's children as its record counts them: the oldest so many of those outstanding; beyond them, children that no grid of the
part is (R385). -/
def readChildren (l : List Nat) (n : Nat) : List Nat := l.take n ++ List.replicate (n - l.length) 0

/-- A gang with the edits of its record and window, or none (R385, R388). -/
def State.readGang (s : State) (core c a : Nat) (running : Bool) (g : Gang) : Option Gang :=
  if !s.gangZeros a g.nslices ∨ !s.windowZeros (a + 4096) g.vregs then none
  else (s.readSlices core c a running g.slices).bind fun l => (s.readHandler a g.handler l).map fun h =>
    let l := if h.isSome = g.handler.isSome then l else l.map fun (k, x) => (k, { x with sup := h.any fun h => h.slices.contains k })
    let n := s.devRead (a + 0xc08) 8
    let slot := s.devRead (a + 0xc18) 8
    let l := if slot = g.svcSlot then l else l.map fun (k, x) => (k, x.withBatch slot)
    let win := (s.dmem.slice (a + 4096) g.windowBytes).readLE 0 g.windowBytes
    let reg (k : Nat) : AffReg := ⟨BitVec.ofNat 64 (s.devRead (a + 0xd00 + 16 * k) 8), BitVec.ofNat 32 (s.devRead (a + 0xd08 + 16 * k) 4)⟩
    let bank : Regs :=
      { g.bank with
        s := (List.range 16).foldl (fun t k => Tab.set t (48 + k) (BitVec.ofNat 64 (s.devRead (a + 0xc80 + 8 * k) 8))) g.bank.s
        a := (List.range 2).foldl (fun t k => Tab.set t (14 + k) (reg k)) g.bank.a
        p := (List.range 2).foldl (fun t k => Tab.set t (6 + k) (BitVec.ofNat 64 (s.devRead (a + 0xd20 + 4 * k) 4))) g.bank.p }
    let edited : Bool := decide (win ≠ g.window) || decide (bank.bankFields ≠ g.bank.bankFields)
    -- what a packet's words are still to read follows an edit of the registers (R105)
    let l := if edited then l.map fun (k, x) => (k, { x with seen := none }) else l
    { g with
      children := readChildren g.children (bits (s.devRead (a + 0xc10) 8) 32 16)
      slices := l, turn := s.devRead (a + 0xc00) 8 % 8, lastCopy := bits (s.devRead (a + 0xc10) 8) 0 26
      ld := bits n 0 11, st := bits n 11 11, cp := bits n 22 11, tm := bits n 33 11, bank := bank, handler := h
      regs := if win = g.window then g.regs else g.regs.kWriteN g.vregs g.nslices 0 win g.windowBytes }

def State.readGangs (s : State) (core c a : Nat) (running : Bool) (t : SavedTeam) : Tab Gang → Option (Tab Gang)
  | [] => some []
  | (n, g) :: rest =>
    match s.readGang core c (a + t.gangOff n) running g, s.readGangs core c a running t rest with
    | some y, some l => some ((n, y) :: l)
    | _, _ => none

/-- A row as its compact image gives it back (R299). -/
def Row.recompacted (r : Row) : Row :=
  let ns := r.n.map fun n => rebuilt r.e (compactElem r.e n)
  { r with n := ns, q := sumSquares ns }

/-- A row read from its image at `a`, or none when R299's checks fail. -/
def State.readRow (s : State) (a : Nat) (compact : Bool) (r : Row) : Option Row :=
  let img := s.devRead a (imageBytes compact r.len)
  if img = numLE (rowImage compact r) then some (if compact then r.recompacted else r)
  else
    let h := bits img 0 128
    let e : Int := (BitVec.ofNat 8 (bits h 80 8)).toInt
    let ns : List Int := (List.range r.len).map fun j =>
      if compact then rebuilt e (bits img (128 + 16 * j) 16) else (BitVec.ofNat 32 (bits img (128 + 32 * j) 32)).toInt
    let q := sumSquares ns
    if bits h 112 8 ≠ (if compact then 2 else 1) ∨ e < -40 ∨ 8 < e ∨ bits h 120 8 ≠ 0 ∨ bits h 89 7 ≠ 0 ∨
       ns.contains (-2 ^ 31) ∨ (if compact then bits h 0 80 ≠ 0 else q ≠ bits h 0 80) then none
    else some { r with e := e, n := ns, q := q, sat := bit h 88 }

/-- A copy record with the edits of its image at `a`, or none when a reserved or zero field is not zero (R247, R388). -/
def State.readCopy (s : State) (a idx : Nat) (r : CopyRec) : Option CopyRec :=
  let img := s.devRead a 64
  if img = r.image idx then some r
  else
    let state : Option CopyState := match bits img 61 3 with
      | 0 => some .gone | 1 => some .running | 2 => some .faulted | 3 => some .severed | _ => none
    state.bind fun st =>
      if bits img 26 22 ≠ 0 ∨ bits img 224 32 ≠ 0 then none
      else
        let q := { r with
          state := st, seq := bits img 10 16, gid := r.gid / 16 * 16 + bits img 48 4, fcode := bits img 52 8, fside := bit img 60
          delivered := bits img 64 32, len := bits img 96 32, faddr := bits img 128 64
          pos := if r.dst = CopySide.metadata then r.pos else bits img 192 32, sectors := [], sent := [], gotPos := none, got := [] }
        some { q with sectors := if r.dst = CopySide.metadata then r.sectors else q.missing.filter fun k => !bit img (256 + k) }

/-- The copy records from `a` on, up to the image of zeros; one the driver made GONE is no more (R385, R388). Their sources and
destinations are the old ones'. -/
def State.readCopies (s : State) (a : Nat) (old : Tab CopyRec) : Nat → Option (Tab CopyRec)
  | 0 => some []
  | n + 1 =>
    let img := s.devRead a 64
    if img = 0 then some []
    else match (old.find (bits img 0 10)).bind (s.readCopy a (bits img 0 10)), s.readCopies (a + 64) old n with
      | some y, some l => some (if y.state = .gone then l else (bits img 0 10, y) :: l)
      | _, _ => none

/-- The rows that a block says are valid, from their images one after another at `a`, and the bytes they take; `place` is each row's
place in SB (R299, R385). -/
def State.readRows (s : State) (a : Nat) (compact : Bool) (old : Tab Row) (place : Nat → Nat) : List Nat → Option (Tab Row × Nat)
  | [] => some ([], 0)
  | k :: rest =>
    let len := 32 * s.devRead (a + 12) 2
    let n := imageBytes compact len
    let r := match old.find k with
      | some r => if r.len = len then r else { r with len := len, off := place k, n := [] }
      | none => { len := len, off := place k, e := 0, n := [], q := 0 }
    if len < 32 ∨ 16384 < len then none
    else match s.readRow a compact r, s.readRows (a + n) compact old place rest with
      | some y, some (l, m) => some ((k, y) :: l, n + m)
      | _, _ => none

/-- Whether the fields R385 calls zero are zero in a team block's header and power word. -/
def State.blockZeros (s : State) (a : Nat) : Bool :=
  bits (s.devRead a 8) 39 25 == 0 && bits (s.devRead (a + 8) 8) 32 32 == 0 &&
  (let p := s.devRead (a + 32) 8
   if bit p 60 then bits p 61 3 == 0 else p == 0) &&
  s.devRead (a + 40) 24 == 0 && s.devRead (a + 0xc0) 64 / 64 == 0

/-- A block as it is read: its place and size, its team, and its grid as it was written, where State keeps it. -/
structure Block where
  at_ : Nat
  size : Nat
  team : SavedTeam
  grid : Option Grid

/-- A team as its block's header and kept launch record shape it: which gangs it has, with how many slices and registers. -/
def SavedTeam.shaped (t : SavedTeam) (lr : Memory) (number divisor : Nat) (member : Option Nat) : SavedTeam :=
  let gang (n : Nat) : Gang :=
    let g := (t.gangs.find n).getD (startGang lr n 0 false)
    let role := roleOf lr n
    { g with role := role, vregs := roleVregs (lrRole lr role), nslices := lrSlices lr
             slices := (List.range (lrSlices lr)).map fun k => (k, g.slice k) }
  { t with
    team := { t.team with number := number, member := member, divisor := divisor, gangs := lrGangs lr, scratchSize := 1024 * lrScratch lr }
    gangs := (List.range (lrGangs lr)).map fun n => (n, gang n) }

/-- The team block at `a` read for a context, or none when it is malformed (R388). What is in flight is what State keeps under the
number in the engine area, as it stands now where the team is among the context's saved ones. -/
def State.readBlock (s : State) (c a : Nat) (running compact : Bool) : Option Block :=
  let head := s.devRead a 8
  let e := a + 0x500
  let token := s.devRead (e + 8) 8
  let pw := s.devRead (a + 0xc0) 8
  let lr := s.dmem.slice (a + 0x100) 512
  let kept := if token = 0 then none else s.engines.find token
  let old := ((s.ctx c).saved.find? fun t => token != 0 && t.token == token).or (kept.map (·.team))
  let t := old.getD { core := 0, tslot := 0, team := { valid := true, ctx := c, tenant := (s.ctx c).tenant } }
  if !s.blockZeros a ∨ 4 < bits head 34 5 ∨ engineSum s.dmem e + s.devRead (e + 16) 8 ≠ 2 ^ 64 - 1 ∨ t.team.inFlight ≠ s.devRead e 8 then none
  else
    let t := { t with core := s.devRead (e + 24) 8 % 512, tslot := bits (s.devRead (e + 24) 8) 9 4, place := a, token := token }
    let t := t.shaped lr (bits head 0 24) (2 ^ bits head 34 5) (if bit head 33 then some (bits head 24 9) else none)
    let x := t.team
    let rows := maskBits (s.devRead (e + 128) 128) 1024
    let place (k : Nat) : Nat := 128 * s.devRead (e + 256 + 2 * k) 2
    match s.readGangs t.core c a running t t.gangs, s.readCopies (a + t.copiesOff) t.copies 1024,
      s.readRows (a + t.rowsOff) compact x.rows place rows with
    | some gs, some cs, some (rs, n) =>
      let cls (n : Nat) : Option Nat := if n = 0 then none else some n
      let buf (sp : BufSpace) : Memory := s.dmem.slice (a + t.bufOff sp) (x.extent sp)
      let ws := (List.range 32).map fun k => s.devRead (a + 0x300 + 16 * k) 16
      let used := (List.range 33).foldl (fun m k => if ws.getD (k - 1) 0 ≠ 0 then k else m) t.metadata.length
      -- a gang of which State keeps nothing has ended when none of its lanes is left
      let gs := if old.isSome then gs else gs.map fun (k, g) =>
        (k, { g with ended := g.slices.all fun y => y.2.live == 0 && !y.2.halted })
      some
        { at_ := a, size := (t.rowsOff + n + 4095) / 4096 * 4096, grid := kept.map (·.grid)
          team := { t with
            gangs := gs, copies := cs, metadata := ws.take used
            team := { x with
              tregs := (List.range 16).foldl (fun r k =>
                let v := BitVec.ofNat 64 (s.devRead (a + 0x40 + 8 * k) 8)
                if Tab.get 0 r k = v then r else Tab.set r k v) x.tregs
              grant := cls (pw % 8), request := cls (pw / 8 % 8), rows := rs
              scratch := buf .l, wb := buf .wb, ab := buf .ab, cb := buf .cb } } }
    | _, _, _ => none

/-- `n` blocks from `a` on, one after another, each on its core and slot. -/
def State.readTeamBlocks (s : State) (c a : Nat) (running compact : Bool) : Nat → Option (List Block)
  | 0 => some []
  | n + 1 =>
    match s.readBlock c a running compact with
    | none => none
    | some b => match s.readTeamBlocks c (a + b.size) running compact n with
      | some l => if l.any fun y => y.team.core == b.team.core && y.team.tslot == b.team.tslot then none else some (b :: l)
      | none => none

/-! #### The grids that blocks name (R383, R385) -/

/-- A grid as the first of its blocks records it: its kept record, NEXT, what its retirement raises, and its parent, where the block
says otherwise than the grid does. `teams` are the teams of all blocks, `n` those of this grid. -/
def State.gridOf (s : State) (c : Nat) (teams : List SavedTeam) (b : Block) (n : Nat) (g : Grid) : Grid :=
  let w (k : Nat) : Nat := s.devRead (b.at_ + 8 * k) 8
  let lr := s.dmem.slice (b.at_ + 0x100) 512
  let g := if g.lr.readLE 0 512 = lr.readLE 0 512 then g else { g with lr := lr }
  let g := if w 2 = g.nextWord then g else
    let next := bits (w 2) 0 24
    { g with nextTeam := if next = lrTeams lr then g.teams else min next g.teams
             queue := if bit (w 2) 36 then some (bits (w 2) 38 10) else none
             timeline := bits (w 2) 24 12, ce := bit (w 2) 37, tag := bits (w 2) 48 16 }
  let g := if w 4 = g.parentWord then g else
    let gang := bits (w 4) 56 4
    let at_ := teams.find? fun t => t.team.grid % 2 ^ 32 == bits (w 4) 0 32 && t.team.number == bits (w 4) 32 24
    { g with parent := if !bit (w 4) 60 then none else some (liftGid ((match at_ with
               | some t => t.core * 16 + t.tslot
               | none => gidTeam (g.parent.getD 0 % 2 ^ 32)) * 16 + gang))
             parentGrid := bits (w 4) 0 32, parentTeam := bits (w 4) 32 24 }
  { g with valid := true, ctx := c, value := if g.queue.isSome then BitVec.ofNat 64 (w 3) else g.value
           freed := g.nextTeam - g.first - n }

/-- The grids of blocks by the identity that GRID gives, each as its first block records it; `base` is what is known of one. -/
def State.blockGrids (s : State) (c : Nat) (bs : List Block) (base : Nat → Option Grid) : Tab Grid :=
  let teams := bs.map (·.team)
  (bs.map fun b => s.devRead (b.at_ + 8) 4).eraseDups.filterMap fun id =>
    let mine := bs.filter fun b => s.devRead (b.at_ + 8) 4 == id
    mine.head?.map fun b =>
      let lr := s.dmem.slice (b.at_ + 0x100) 512
      let g := (base id).getD (b.grid.getD { teams := lrTeams lr, lr := lr, tenant := (s.ctx c).tenant, order := s.fresh + 1
                                             since := s.cycle.toNat, owner := s.part })
      (id, s.gridOf c teams b mine.length g)

/-- The dispatcher's list is in the order of the hand-overs (R60, R87): a grid enters it at its place. -/
def State.listGrid (s : State) (k : Nat) : State :=
  let n := (s.grid k).order
  let l := s.pending.filter (· != k)
  let before := l.takeWhile fun j => decide ((s.grid j).order ≤ n)
  { s with pending := before ++ k :: l.drop before.length }

/-- A grid has all its teams placed, or still waits for some, as its NEXT says. -/
def State.relist (s : State) (k : Nat) : State :=
  let g := s.grid k
  if g.nextTeam = g.teams then { s with pending := s.pending.filter (· != k) } else s.listGrid k

/-- Children that a grid still has: grids of its context that name it (R147, R408). -/
def State.countKids (s : State) (k : Nat) : State :=
  let g := s.grid k
  s.setGrid k { g with kids := (s.grids.filter fun y => y.2.valid && y.2.ctx == g.ctx && y.2.parent.isSome && y.2.parentGrid == k).length }

/-- The LAUNCH packet of a grid shows the CE and TAG that its block records (R385). -/
def State.tagPacket (s : State) (k : Nat) : State :=
  let g := s.grid k
  match g.queue with
  | none => s
  | some q => s.modQueue q fun x => { x with table := x.table.map fun p =>
      if p.index = g.packet ∧ (pktCe p ≠ g.ce ∨ pktTag p ≠ g.tag) then
        { p with words := p.words.set 0 (setBits (setBits (pktWord p 0) 9 1 g.ce.toNat) 48 16 g.tag) }
      else p }

/-- Grids put in place of a context's, each under the name that `names` gives; parents are renamed with them. -/
def State.putGrids (s : State) (c : Nat) (gs : Tab Grid) (names : List (Nat × Nat)) : State :=
  let name (k : Nat) : Nat := (Tab.find names k).getD k
  let s := gs.foldl (fun s (id, g) => s.setGrid (name id)
    { g with ctx := c, parentGrid := name g.parentGrid, parent := g.parent.map fun p => if isLifted p then p else liftGid p }) s
  gs.foldl (fun s (id, _) => ((s.relist (name id)).countKids (name id)).tagPacket (name id)) s

/-- Whether the fields R384 calls zero are zero in a save area's header. -/
def State.headerZeros (s : State) (a : Nat) : Bool :=
  let n := min 96 (bits (s.devRead (a + 32) 8) 0 16)
  bits (s.devRead a 8) 9 7 == 0 && bits (s.devRead a 8) 32 32 == 0 && s.devRead (a + 24) 8 / 64 == 0 &&
  bits (s.devRead (a + 32) 8) 32 32 == 0 && s.devRead (a + 0x28) 24 == 0 && (s.dmem.slice (a + 0xcc0) 832).readLE 0 832 == 0 &&
  (List.range n).all fun i =>
    let w := s.devRead (a + 0xc0 + 32 * i + 16) 8
    bits w 44 4 == 0 && bits w 56 8 == 0 && s.devRead (a + 0xc0 + 32 * i + 24) 8 / 512 == 0

/-- What has happened to a saved team since its block was written, a child that retired or a service call that ended, stands in its
block before that is read (R147, R370). -/
def State.syncSaved (s : State) (t : SavedTeam) : State :=
  match s.engines.find t.token with
  | none => s
  | some k =>
    if k.team.gangs = t.gangs ∧ k.team.team = t.team then s
    else (k.team.liveChunks.zip t.liveChunks).foldl (fun s (x, y) =>
      ((x.data.map (·.1) ++ y.data.map (·.1)).eraseDups.filter fun n => x.data.read n != y.data.read n).foldl (fun s n =>
        s.putChunk t.place ⟨y.off + n, 1, Memory.writeLE [] 0 1 (y.data.read n).toNat⟩) s) s

/-- The saved teams of a context read from its save area, and the grids that its blocks name made what they record; none when a field
is malformed (R383, R388, R394). -/
def State.readArea (s : State) (c : Nat) (running : Bool) : Option (State × List SavedTeam) :=
  let x := s.ctx c
  let s := x.saved.foldl State.syncSaved s
  let h := s.devRead x.save 8
  if h % 256 ≠ 1 ∨ !s.headerZeros x.save then none
  else (s.readTeamBlocks c (x.save + 4096) running false (bits h 16 16)).map fun bs =>
    let known (id : Nat) : Option Grid := (s.grids.find id).filter fun g => g.valid && g.ctx == c
    let gs := s.blockGrids c bs known
    -- a grid that the context does not have takes a name of its own
    let (s, names) := gs.foldl (fun (s, l) (id, _) =>
      if (known id).isSome then (s, l ++ [(id, id)])
      else
        let (s, n) := State.freshKey s
        (s, l ++ [(id, n)])) (s, ([] : List (Nat × Nat)))
    (s.putGrids c gs names, bs.map fun b =>
      { b.team with team := { b.team.team with ctx := c, grid := (Tab.find names (s.devRead (b.at_ + 8) 4)).getD 0 } })

/-! ### A gang in a service wait (R371) -/

/-- Where a gang's record goes when it is swapped out: the place R385 gives it among its context's resident teams, when that lies
within the save area (log 93). -/
def State.swapPlace (s : State) (gid : Nat) : Option Nat :=
  let team := gidTeam gid
  let c := (s.team team).ctx
  let ts := (s.teams.filter fun x => x.2.valid && x.2.ctx == c && !x.2.service).map fun x => s.capture x.1
  match (areaBlocks false ts).find? fun x => x.2.core * 16 + x.2.tslot == team with
  | some (off, t) =>
    let a := off + t.gangOff (gidGang gid)
    if a + 4096 + (s.gang gid).windowBytes ≤ (s.ctx c).saven then some ((s.ctx c).save + a) else none
  | none => none

/-- The context-save engine writes a waiting gang's window and control state to the save area, and the window and the gang's slot are
free; with a team's last gang its scratch may go too (R371). -/
def execGangSwapOut (gid : Nat) (s : State) : Res :=
  .next (let g := s.gang gid
    match (if g.maySwap then s.swapPlace gid else none) with
    | none => s
    | some a =>
      let s := s.putChunk a ⟨0, 4096, g.recordBytes⟩
      let s := s.putChunk a ⟨4096, g.windowBytes, Memory.writeLE [] 0 g.windowBytes g.window⟩
      ((s.modGang gid fun g => { g with swapped := true, active := none, leaving := [] }).settleDeficits (gidCore gid)).swapScratch)

end Sys2Proof.Machine
end

