-- ==== Sys2Proof/Machine/Cuts.lean ====
section
/-! DEFINITION. The cut and what is built on it (spec/21 R378 to R396): pre-emption and resumption, twins, stepping, rivals
and discarding, break mode, and the beginning of a snapshot (spec/23 R401 to R403). -/

namespace Sys2Proof.Machine

/-! ### What a cut covers (R378) -/

/-- The teams of a context on this part; a service grid's are apart. -/
def State.ctxTeams (s : State) (c : Nat) : List Nat :=
  (s.teams.filter fun x => x.2.valid && x.2.ctx == c && !x.2.service).map (·.1)

/-- The other parts on which a context's reels have members, departed ones and parts that are down left out. -/
def State.memberParts (s : State) (c : Nat) : List Nat :=
  let es := (s.ctxTeams c).flatMap fun k => match (s.team k).window with
    | some w => if w.reel then w.entries else []
    | none => []
  rising ((es.filter fun e => e.state != 3 && e.part != s.part && !s.down.contains e.part).map (·.part))

/-- Numbers to the other member parts, in the control slot. -/
def State.tellParts (s : State) (c type : Nat) (ps : List Nat) (xs : List Nat) : State :=
  ps.foldl (fun s p => s.sendControl c type 0 p (.control xs)) s

def CutKind.num : CutKind → Nat
  | .preempt => 0 | .twin => 1 | .snapshot => 2
def CutKind.ofNum (n : Nat) : CutKind := if n = 0 then .preempt else if n = 1 then .twin else .snapshot

/-- Markers on the 32 planes to every other member part (R380). -/
def State.sendMarkers (s : State) (c : Nat) (ps : List Nat) (n : Nat) (k : CutKind) : State :=
  ps.foldl (fun s p => (List.range 32).foldl (fun s plane =>
    s.sendCell { type := 0x20, dst := p, src := s.part, sp := 2, ctag := s.partnerTag c p, plane := plane
                 body := .control [0, n, k.num] }) s) s

/-- Whether the lanes for other parts of an entry are all on their way. -/
def State.remoteSent (s : State) (ls : List LaneAcc) (w : LaneAcc → RemoteFor) : Bool :=
  ls.all fun a => !a.loc.isRemote || s.isSent (w a)

/-- Whether what a context's teams issued for other parts has left this one: all of it was issued before the cut point (R304, R379,
R380). -/
def State.cutSent (s : State) (c : Nat) : Bool :=
  (s.ctxTeams c).all fun k => s.streamsSent k && s.gangs.all fun (gid, g) => gidTeam gid != k ||
    (g.sq.isEmpty && (g.ops.all fun o => s.remoteSent o.lanes fun a => .load gid o.seq a.lane) &&
      (s.core (k / 16)).wp.all fun e => e.gid != gid || s.remoteSent e.lanes fun a => .store gid e.seq a.lane)

/-- The markers of a cut in progress leave, once what was issued before it has (log 34). -/
def State.markCut (s : State) (c : Nat) : State :=
  match (s.ctx c).cut with
  | some k =>
    if k.marked ∨ !s.cutSent c then s
    else (s.modCtx c fun x => { x with cut := some { k with marked := true } }).sendMarkers c k.parts (s.ctx c).cutNo k.kind
  | none => s

/-- A cut begins: every gang of the context stands at its cut point from now on (R379). A PREEMPT whose answers are not all in is made
again after another cut (R378, R383). -/
def State.beginCut (s : State) (c : Nat) (k : CutKind) (twin : Option Nat) (brks : List Break) : State :=
  let cut : Cut := { kind := k, cores := rising ((s.ctxTeams c).map (· / 16)), parts := s.memberParts c, twin := twin
                     brks := brks.take 8, brkCount := brks.length }
  let s := s.modCtx c fun x =>
    { x with cutNo := x.cutNo + 1, cut := some cut, preempting := false, preemptAwait := [], preemptHeard := [], preemptSmall := false
             preemptAgain := decide (k ≠ .preempt) && (x.preempting || x.preemptAgain)
             state := if k = .preempt then .cutting else x.state }
  s.markCut c

/-! ### When a part's state may be taken (R379 to R382) -/

/-- Whether the lanes of an entry are all on their way to other parts. -/
def State.allSent (s : State) (ls : List LaneAcc) (w : LaneAcc → RemoteFor) : Bool :=
  ls.all fun a => a.loc.isRemote && s.isSent (w a)

/-- Whether what a gang issued has come about, as far as a cut waits for it: all of it before a save, all but lanes sent
to other parts otherwise (R379, R382). -/
def State.gangDrained (s : State) (gid : Nat) (save : Bool) : Bool :=
  let g := s.gang gid
  let wp := (s.core (gidCore gid)).wp.filter fun e => e.gid == gid
  g.sq.isEmpty &&
  (if save then g.ops.isEmpty && wp.isEmpty
   else (g.ops.all fun o => match o.kind with
      | .load _ _ _ => s.allSent o.lanes fun a => .load gid o.seq a.lane
      | .atomic _ _ _ => s.allSent o.lanes fun a => .load gid o.seq a.lane
      | .fence _ _ => true
      | _ => false) &&
    wp.all fun e => s.allSent e.lanes fun a => .store gid e.seq a.lane)

/-- The same for a team: its gangs, its register writes, search operations, and the tile and stream operations in progress that a
cut waits for, REMOTE pairs among them; a save also waits for the lines its copies have sent, and for the answers to a change of
state in its window (R253, R284, R304, R309, R379). -/
def State.teamDrained (s : State) (k : Nat) (save : Bool) : Bool :=
  let t := s.team k
  let core := s.core (k / 16)
  (s.gangs.all fun x => gidTeam x.1 != k || s.gangDrained x.1 save) && t.commits.isEmpty &&
  !(core.searches.any fun o => gidTeam o.gid == k) &&
  !s.tileInProgress k && !s.streamInProgress k &&
  (!save || match t.window with
    | some w => w.unapplied.isEmpty && w.unquiet.isEmpty && w.owes.isEmpty
    | none => true) &&
  (!save || core.copies.all fun x => x.2.state != .running || x.2.tslot != k % 16 || x.2.sent.isEmpty)

/-- Whether every marker has been sent and has come, and the context's operations have drained. -/
def State.cutReady (s : State) (c : Nat) (k : Cut) : Bool :=
  k.marked && ((k.parts.filter fun p => !s.down.contains p).all fun p => (List.range 32).all fun q => k.markers.contains (p * 32 + q)) &&
  (s.ctxTeams c).all fun t => s.teamDrained t (k.kind == .preempt)

/-! ### Unknown outcomes (R382, R384) -/

/-- The logical part id that a lane on its way named, or the member, and the kind; `op` is 0 load, 1 store, 2 atomic. -/
def outcomeOf (op : Nat) (a : LaneAcc) : Nat × Nat :=
  match a.loc with
  | .peer _ _ => (a.peer, op)
  | _ => (bits a.addr 24 8, 3 + op)

/-- The entries of one operation's lanes: one for each part or member. -/
def outcomes (gid pc op : Nat) (ls : List LaneAcc) : List Unknown :=
  let tagged := ls.map fun a => (outcomeOf op a, a)
  (tagged.foldl (fun l x => if l.contains x.1 then l else l ++ [x.1]) []).map fun p =>
    let mine := (tagged.filter fun x => x.1 == p).map (·.2)
    let low := mine.foldl (fun (b : LaneAcc) a => if a.lane < b.lane then a else b) (mine.headD ⟨0, .dev 0, 0, 1, 0, 0, false, 0⟩)
    { pc := pc, addr := low.addr, lanes := maskOf (mine.map (·.lane)), place := p.1, kind := p.2, gang := gidGang gid
      tslot := gidSlot gid, core := gidCore gid }

/-- An operation of a gang with lanes on their way to other parts: its number, cycle, PC and class, and those lanes. -/
structure OnItsWay where
  seq : Nat
  cycle : Nat
  pc : Nat
  op : Nat
  lanes : List LaneAcc

/-- Lanes of one operation taken together. -/
def OnItsWay.join (l : List OnItsWay) (x : OnItsWay) : List OnItsWay :=
  if l.any fun y => y.seq == x.seq then l.map fun y => if y.seq = x.seq then { y with lanes := y.lanes ++ x.lanes } else y
  else l ++ [x]

/-- The unknown outcomes of a gang in the order its instructions issued, each with the cycle of its issue; a lane whose reply was for
the original only is among them (R380, R382). -/
def State.gangOutcomes (s : State) (gid : Nat) (late : LateReplies) : List (Nat × Unknown) :=
  let ops : List OnItsWay := (s.gang gid).ops.map fun o => ⟨o.seq, o.cycle, o.pc, (match o.kind with
    | .atomic _ _ _ => 2
    | _ => 0), o.lanes⟩
  let sts : List OnItsWay := ((s.core (gidCore gid)).wp.filter fun e => e.gid == gid).map fun e => ⟨e.seq, e.cycle, e.pc, 1, e.lanes⟩
  let done : List OnItsWay := (late.lanes.filter fun x => x.1 == gid).map fun (_, seq, cycle, pc, op, a) => ⟨seq, cycle, pc, op, [a]⟩
  (sortBy ((done ++ ops ++ sts).foldl OnItsWay.join []) fun a b => decide (a.seq ≤ b.seq)).flatMap fun x =>
    (outcomes gid x.pc x.op x.lanes).map fun u => (x.cycle, u)

/-- Those of a context, in the order the lanes' instructions issued (R384); of one cycle, in gang order. -/
def State.ctxOutcomes (s : State) (c : Nat) (late : LateReplies) : List Unknown :=
  let all := (s.gangs.filter fun x => (s.ctxTeams c).contains (gidTeam x.1)).flatMap fun x => s.gangOutcomes x.1 late
  (sortBy all fun a b => decide (a.1 ≤ b.1)).map (·.2)

/-! ### The state that is taken (R379, R381, R382, R386) -/

/-- A copy as the other side of a cut has it, or as a save does: what it has read ahead is read again (R253, R381). -/
def CopyRec.sever (r : CopyRec) : CopyRec :=
  if r.state = .running then { r with state := .severed, sent := [], held := [], come := [], gotPos := none, got := [] } else r

/-- A team's engine operations marked as saved (R389). -/
def Team.markSaved (t : Team) : Team :=
  { t with tiles := t.tiles.map fun o => { o with saved := true }
           streams := t.streams.map fun o => { o with saved := true }
           colls := t.colls.map fun o => { o with saved := true } }

/-- A gang as a clone has it: nothing outstanding, and a service call to be made again (R151, R382). -/
def Gang.cloned (g : Gang) : Gang :=
  { g.modSlices g.sliceKeys fun _ x => match x.park with
      | .service vb _ => { x with park := .serviceSend vb 0 }
      | _ => x
    with ops := [], sq := [], ld := 0, st := 0, svcHeld := [] }

/-- A team's clone in context `c`, its grids and children renamed (R386). -/
def SavedTeam.cloned (t : SavedTeam) (c : Nat) (names : List (Nat × Nat)) : SavedTeam :=
  { t with
    team := { t.team.markSaved with ctx := c, grid := (Tab.find names t.team.grid).getD t.team.grid }
    gangs := t.gangs.map fun (n, g) => (n, { g.cloned with children := g.children.filterMap fun k => Tab.find names k })
    copies := t.copies.map fun (i, r) => (i, r.sever) }

/-- Grids of a context with a team placed, copied for a twin under names of their own; a child's parent is a saved gang of
the twin, and a grid not wholly placed goes on waiting (R383, R390). Such a copy enters the dispatcher's list without a test of its limit
of 2,048, of which R88 speaks for a launch: the model's choice (log 103). -/
def State.cloneGrids (s : State) (c t : Nat) : State × List (Nat × Nat) :=
  let old := s.grids.filter fun x => x.2.valid && x.2.ctx == c && decide (x.2.first < x.2.nextTeam)
  let (s, names) := old.foldl (fun (s, l) (k, _) =>
    let (s, n) := State.freshKey s
    (s, l ++ [(k, n)])) (s, ([] : List (Nat × Nat)))
  let name (k : Nat) : Nat := (Tab.find names k).getD 0
  let s := old.foldl (fun s (k, g) =>
    s.setGrid (name k)
      { g with ctx := t, reel := none, partsLeft := [], owner := s.part, parentGrid := name g.parentGrid
               parent := g.parent.map fun p => if isLifted p then p else liftGid p
               kids := (old.filter fun x => x.2.parent.isSome && x.2.parentGrid == k).length }) s
  ({ s with pending := s.pending ++ (old.filter fun x => s.pending.contains x.1).map fun x => name x.1 }, names)

/-- The registers as they were at the cut, where a reply for the original only has written them since (R382). -/
def State.withOlds (s : State) (l : List (Nat × Nat × Nat × W32)) : State :=
  l.foldl (fun s (gid, reg, lane, w) => s.modGang gid fun g => g.writeV reg [lane] fun _ => w) s

/-- The state of the context taken for a twin or a snapshot, in one instant; the original goes on with what it has, and meets the faults
that came for it alone (R382, R443). -/
def State.takeCut (s : State) (c : Nat) (k : Cut) : State :=
  let all := s.ctxOutcomes c k.late
  let ts := inOrder ((s.ctxTeams c).map (s.withOlds k.late.olds).capture)
  let s := k.late.faults.foldl (fun s (gid, sup, slices, pc, word, f) => s.lateFault gid sup slices pc word f) s
  let k := { k with captured := true, unknown := all.take 96, unkMore := all.length - 96, late := {} }
  match k.kind, k.twin with
  | .twin, some t =>
    let (s, names) := s.cloneGrids c t
    let s := s.modCtx t fun x => { x with saved := ts.map fun y => y.cloned t names }
    s.modCtx c fun x => { x with cut := some k }
  | .snapshot, _ =>
    let grids := s.grids.filter fun x => x.2.valid && x.2.ctx == c && decide (x.2.first < x.2.nextTeam)
    s.modCtx c fun x =>
      let sn := x.snap
      let img : SnapImage := { num := sn.begun, trigger := if sn.holding ∧ !sn.wanted then sn.trigger else none, grids := grids
                               teams := ts.map fun y => y.cloned c (grids.map fun g => (g.1, g.1)) }
      { x with cut := some k
               snap := if sn.state = 1 then { sn with taking := some img, unknown := k.unknown, unkMore := k.unkMore } else sn }
  | _, _ => s.modCtx c fun x => { x with cut := some k }

/-! ### The end of a twin (R392) -/

/-- What a discarded twin's own twins saw through it becomes theirs, or its original's (R387). -/
def State.leaveChildren (s : State) (c : Nat) : State :=
  let x := s.ctx c
  let kids := (s.ctxs.filter fun y => y.2.bound && y.2.parent == some c).map (·.1)
  kids.foldl (fun s t =>
    let s := x.view.priv.foldl (fun s (g, f) => s.ownCopy t g f) s
    s.modCtx t fun y => { y with parent := x.parent }) s

/-- Frames of a twin that go back: its private pages and shadow pages, in ascending order. -/
def Ctx.frames (x : Ctx) : List Nat :=
  sortBy ((x.view.priv.vals.filter fun f => f != x.zeroFrame) ++ x.view.shadowFrames) fun a b => decide (a ≤ b)

/-- Whether a context has twins. -/
def State.hasTwins (s : State) (c : Nat) : Bool := s.ctxs.any fun y => y.2.parent == some c

/-- A discarded context with nothing left on the part or to hand back is free (R392); with the last twin of a context that
its logical device's reset gives up, that context is free too (R415). -/
def State.freeCtx (s : State) (c : Nat) : State :=
  let may (s : State) (c : Nat) : Bool :=
    let x := s.ctx c
    x.discarding && x.state == .ended && x.returning.isEmpty && x.view == {} && (s.ctxTeams c).isEmpty && !s.hasTwins c
  if !may s c then s
  else
    let o := (s.ctx c).parent
    let s := s.setCtx c {}
    match o with
    | some o =>
      if may s o ∧ (s.ctx o).parent.isNone then
        { s.setCtx o {} with grids := s.grids.filter fun y => y.2.ctx != o }
      else s
    | none => s

/-- Once a discarded twin's teams have gone, its frames are to be handed back. -/
def State.endDiscard (s : State) (c : Nat) : State :=
  let x := s.ctx c
  if !x.discarding ∨ x.state ≠ .ended ∨ !(s.ctxTeams c).isEmpty ∨ (x.parent.isNone ∧ s.hasTwins c) then s
  else
    let s := s.leaveChildren c
    let s : State := { s with grids := s.grids.filter fun y => y.2.ctx != c }
    (s.modCtx c fun y => { y with returning := y.returning ++ x.frames, view := {} }).freeCtx c

/-- A twin is given up: every gang ends, nothing more of it is placed. -/
def State.startDiscard (s : State) (c : Nat) : State :=
  let gone : List Nat := (s.ctxTeams c).flatMap fun k => (s.gangs.filter fun x => gidTeam x.1 == k && x.2.resident && !x.2.ended).map (·.1)
  let s := gone.foldl (fun s g => s.endGang g) s
  let s : State := { s with pending := s.pending.filter fun k => (s.grid k).ctx != c }
  (s.modCtx c fun x => { x with saved := [], want := 0, stepping := none, brkWaits := [], state := .ended, discarding := true
                                err := 0 }).endDiscard c

/-! ### The end of a cut (R378, R379, R386) -/

/-- The cut is over once this part and every other member part that is not down has written its state. -/
def State.finishCut (s : State) (c : Nat) : State :=
  match (s.ctx c).cut with
  | some k =>
    if k.written ∧ k.parts.all (fun p => k.wrote.contains p || s.down.contains p) then s.modCtx c fun x => { x with cut := none }
    else s
  | none => s

/-- This part has written its state: the twin is frozen, and given up at once when that was asked for; or the snapshot's image is
written next (R386, R394, R403). -/
def State.wroteCut (s : State) (c : Nat) (k : Cut) : State :=
  let s := match k.kind, k.twin with
    | .twin, some t =>
      let s := s.modCtx t fun x => { x with state := .frozen, brks := min 255 k.brkCount }
      if (s.ctx t).discarding then s.startDiscard t else s
    | .snapshot, _ => s.modCtx c fun x =>
      { x with snap := if x.snap.state = 1 then { x.snap with state := 2 } else x.snap }
    | _, _ => s
  let s := s.modCtx c fun x => { x with cut := some { k with written := true, cores := [] } }
  (s.tellParts c 0x20 k.parts [2, (s.ctx c).cutNo]).finishCut c

/-- A core has written its teams of a twin, and its gangs go on; a snapshot's image is written later, from what was
taken (R386, R403). -/
def State.cutWrite (s : State) (c core : Nat) : State :=
  match (s.ctx c).cut with
  | none => s
  | some k =>
    let s := if k.kind = .preempt ∨ k.captured ∨ !s.cutReady c k then s else s.takeCut c k
    match (s.ctx c).cut with
    | none => s
    | some k =>
      if k.kind = .preempt ∨ !k.captured ∨ k.written then s
      else
        let s := match k.twin with
          | some t =>
            let (s, ts) := s.writeArea (s.ctx t).save { twin := true, cut := (s.ctx c).cutNo, parent := c, unknown := k.unknown
                                                        unkMore := k.unkMore, brks := k.brks } false (s.ctx t).saved s.grid (· == core)
            s.modCtx t fun x => { x with saved := ts }
          | none => s
        let k := { k with cores := k.cores.filter (· != core) }
        if k.cores.isEmpty then s.wroteCut c k else s.modCtx c fun x => { x with cut := some k }

def execTwinWriteComplete (c core : Nat) (s : State) : Res := .next (s.cutWrite c core)

/-! ### Memory views (R387) -/

/-- Granules the tables at a root map, by granule number. -/
def State.presentGranules (s : State) (root : Nat) : List Nat :=
  let next (a : Nat) : Option Nat :=
    let e := s.devRead a 8
    if bit e 0 then pteNext e else none
  (List.range 8192).flatMap fun i4 => match next (root + 8 * i4) with
    | none => []
    | some t3 => (List.range 512).flatMap fun i3 => match next (t3 + 8 * i3) with
      | none => []
      | some t2 => (List.range 512).flatMap fun i2 =>
        let e := s.devRead (t2 + 8 * i2) 8
        let at_ := 2 ^ 40 + i4 * 2 ^ 27 + i3 * 2 ^ 18 + i2 * 2 ^ 9
        if !bit e 0 then []
        else if bit e 1 then (if (pteLeaf e (2 ^ 25)).isSome then (List.range 512).map (at_ + ·) else [])
        else match pteNext e with
          | none => []
          | some t1 => ((List.range 512).filter fun i =>
              let l := s.devRead (t1 + 8 * i) 8
              bit l 0 && bit l 1 && (pteLeaf l (2 ^ 16)).isSome).map (at_ + ·)

/-- The granules a context sees. -/
def State.visible (s : State) (c : Nat) : List Nat :=
  let x := s.ctx c
  if x.parent.isNone then s.presentGranules x.pt else rising (x.view.shared ++ x.view.priv.keys)

/-! ### Forming a twin (R386) -/

/-- The original a chain of twins goes back to. -/
def State.rootOf (s : State) (c : Nat) : Nat → Nat
  | 0 => c
  | n + 1 => match (s.ctx c).parent with
    | some p => s.rootOf p n
    | none => c
def State.original (s : State) (c : Nat) : Nat := s.rootOf c 64

/-- Live twins of an original (R386, R394). -/
def State.liveTwins (s : State) (c : Nat) : List Nat :=
  (s.ctxs.filter fun x => x.2.bound && x.2.parent.isSome && s.original x.1 == c).map (·.1)

/-- The four fields of a twin slot's record, when it is well formed. -/
def State.twinRecord (s : State) (c slot : Nat) : Option (Nat × Nat × Nat × Nat) :=
  let at_ := (s.ctx (s.original c)).twrec
  let w (k : Nat) : Nat := s.devRead (physAddr at_ + 128 * slot + 8 * k) 8
  let n := w 7
  if !physOk at_ 128 ∨ w 0 ≠ (s.ctx c).tenant ∨ !physOk (w 6) 32 ∨
     n < 15 ∨ 65535 < n ∨ n + 1 ≠ 2 ^ (n + 1).log2 ∨ !physOk (w 8) 4096 ∨
     w 9 < requiredSize ((s.ctxTeams c).map s.capture) then none
  else some (physAddr (w 8), w 9, physAddr (w 6), n)

/-- A new twin's context, or the ERR code that refuses it. -/
def State.formTwin (s : State) (c : Nat) : Except Nat (State × Nat) :=
  let x := s.ctx c
  let live := s.liveTwins (s.original c)
  if x.cut.isSome then .error 5
  else match (List.range 64).find? fun t => !(s.ctx t).bound with
    | none => .error 2
    | some t =>
      match (List.range 4).find? fun n => !live.any fun l => (s.ctx l).twinSlot == n with
      | none => .error 3
      | some slot =>
        match s.twinRecord c slot with
        | none => .error 4
        | some (save, saven, fq, fqn) =>
          if x.ret = 0 then .error 4
          else
            let y : Ctx :=
              { bound := true, ld := x.ld, recAddr := x.recAddr, tenant := x.tenant, pt := x.pt, desc := x.desc, dsize := x.dsize
                handler := x.handler, hint := x.hint, fq := fq, fqn := fqn, save := save, saven := saven, places := x.places
                flows := x.flows, partners := x.partners, pool := x.pool, poolLog := x.poolLog, zeroFrame := x.zeroFrame
                ret := x.ret, retLog := x.retLog, hints := x.hints, parent := some c, twinSlot := slot, cutNo := x.cutNo + 1
                view := { shared := s.visible c, lost := x.view.lost, lostHost := x.view.lostHost } }
            let s := s.setCtx t y
            .ok (x.view.shadows.foldl (fun s (page, pa) => (s.shadowOf t page (.dev pa)).1) s, t)

/-! ### Operations of CC.CTL (R393, R394) -/

def State.ccErr (s : State) (c e : Nat) : State := s.modCtx c fun x => { x with err := e }

/-- A write to a context's control block does something only from its logical device. -/
def State.onCtx (s : State) (ld c : Nat) (f : Ctx → State) : Res :=
  .next (if (s.ctx c).bound ∧ (s.ctx c).ld = ld then f (s.ctx c) else s)

def Ctx.runs (x : Ctx) : Bool := x.state == .running || x.state == .rival

/-- CC.CTL.BRKMODE is written with the operation; it stays 0 while twins are not negotiated (R419). -/
def State.setBrk (s : State) (c : Nat) (brk : Bool) : State := s.modCtx c fun x => { x with brkmode := brk && s.feature c 3 }

/-! #### PREEMPT (R383) -/

/-- Whether the save area of a context is too small for its teams. -/
def State.areaSmall (s : State) (c : Nat) : Bool := decide ((s.ctx c).saven < requiredSize ((s.ctxTeams c).map s.capture))

/-- A PREEMPT whose answers are all in: the cut is taken, or refused on every part. -/
def State.preemptDecide (s : State) (c : Nat) : State :=
  let x := s.ctx c
  if !x.preempting ∨ x.preemptAwait.any (fun p => !s.down.contains p) then s
  else if x.preemptSmall then
    s.modCtx c fun x => { x with preempting := false, preemptAwait := [], preemptHeard := [], preemptSmall := false, err := 7 }
  else s.beginCut c .preempt none []

/-- A PREEMPT begins here: this part's answer goes to the other member parts. -/
def State.preemptStart (s : State) (c : Nat) : State :=
  let ps := s.memberParts c
  let small := s.areaSmall c
  let s := s.modCtx c fun x =>
    { x with preempting := true, preemptAgain := false, preemptAwait := ps.filter fun p => !x.preemptHeard.contains p, err := 0
             preemptSmall := x.preemptSmall || small }
  (s.tellParts c 0x20 ps [1, (s.ctx c).cutNo + 1, (!small).toNat]).preemptDecide c

def execPreempt (ld c : Nat) (brk : Bool) (s : State) : Res :=
  s.onCtx ld c fun x =>
    let s := s.setBrk c brk
    if !x.runs then s.ccErr c 1
    else if x.cut.isSome ∨ x.preempting ∨ x.preemptAgain then s.ccErr c 5
    else if (s.memberParts c).isEmpty ∧ s.areaSmall c then s.ccErr c 7
    else s.preemptStart c

/-- A cell of a cut, of one of the kinds named; another is left where it is. -/
def State.onCut (s : State) (r : Rx) (tags : List Nat) (f : State → Nat → List Nat → State) : Res :=
  .next (match r.cell.body with
    | .control (tag :: xs) =>
      if r.cell.type ≠ 0x20 ∨ !tags.contains tag then s
      else match s.accept r with
        | (s, true) => f s tag xs
        | (s, false) => s
    | _ => s)

/-- Word of cut `n` from another part says that every part has written its state of the one before: where this part has, that cut is over
here too (R378). -/
def State.passCut (s : State) (c n : Nat) : State :=
  s.modCtx c fun x => { x with cut := if x.cutNo < n then x.cut.filter fun k => !k.written else x.cut }

/-- Another member part's answer (R383). The first one a part hears makes it answer too. -/
def execPreemptAnswerReceive (r : Rx) (s : State) : Res :=
  s.onCut r [1] fun s _ xs =>
    let c := r.cell.ctag
    let s := s.passCut c (xs.headD 0)
    let x := s.ctx c
    if !x.runs ∨ x.cut.isSome ∨ xs.headD 0 ≠ x.cutNo + 1 then s
    else
      let s := s.modCtx c fun x =>
        { x with preemptAwait := x.preemptAwait.filter (· != r.cell.src), preemptHeard := x.preemptHeard ++ [r.cell.src]
                 preemptSmall := x.preemptSmall || xs.getD 1 0 == 0 }
      if x.preempting then s.preemptDecide c else s.preemptStart c

/-- Teams that leave their cores: copies stop at a sector boundary, and what was asked for them is forgotten (R253). -/
def State.stopTeams (s : State) (ks : List Nat) : State :=
  ks.foldl (fun s k =>
    let core := k / 16
    let ids := ((s.core core).copies.filter fun x => x.2.state == .running && x.2.tslot == k % 16).map fun x => x.2.id x.1
    let s := s.modCore core fun q => { q with copies := q.copies.map fun (i, r) => (i, if r.tslot = k % 16 then r.sever else r) }
    let s : State := { s with
      nvme := s.nvme.filter fun n => !(n.core == core && ids.contains n.id)
      remotes := s.remotes.filter fun r => match r.what with
        | .copyRead q i _ => !(q == core && ids.contains i)
        | _ => true }
    s.modTeam k Team.markSaved) s

/-- The save is complete: the context's teams are in its save area, and their slots, shares and grants free (R383). -/
def State.saveCtx (s : State) (c : Nat) (h : AreaHeader) : State :=
  let ks := s.ctxTeams c
  let s := s.stopTeams ks
  let (s, ts) := s.writeArea (s.ctx c).save h false (ks.map s.capture) s.grid fun _ => true
  ((ks.foldl (fun s k => s.putAside k) s).modCtx c fun x => { x with saved := ts }).serveReserves

def execPreemptSaveComplete (c : Nat) (s : State) : Res :=
  .next (match (s.ctx c).cut with
    | some k =>
      if k.kind ≠ .preempt ∨ k.written ∨ !s.cutReady c k then s
      else
        let s := s.saveCtx c { cut := (s.ctx c).cutNo }
        let s := s.modCtx c fun x => { x with state := .saved }
        s.wroteCut c k
    | none => s)

/-! #### RESUME (R383, R55) -/

/-- A saved context's record read again, with the place table; a twin keeps the fields of its own slot (R53, R55, R386). -/
def State.rereadRecord (s : State) (c : Nat) : Option Ctx :=
  let x := s.ctx c
  (s.readRecord x x.ld c x.recAddr).map fun y =>
    if x.parent.isSome then { y with save := x.save, saven := x.saven, fq := x.fq, fqn := x.fqn } else y

/-- The grids and saved teams of a context take a tenant that its record has changed to (R55). -/
def State.changeTenant (s : State) (c tenant : Nat) : State :=
  let s := s.modCtx c fun x => { x with saved := x.saved.map fun t => { t with team := { t.team with tenant := tenant } } }
  { s with grids := s.grids.mapVals fun g => if g.valid ∧ g.ctx = c then { g with tenant := tenant } else g }

/-- RESUME: the saved teams are read at the CX.SAVE they were saved at, also when the record has changed it; the next save goes to the
new one: the model's choice (R55, log 104). While a RESTORE is loading, the teams are those that it brings (R405). -/
def execContextResume (ld c : Nat) (brk : Bool) (s : State) : Res :=
  s.onCtx ld c fun x =>
    let s := s.setBrk c brk
    if x.state ≠ .saved then s.ccErr c 1
    else if x.want ≠ 0 then s.ccErr c 0
    else match s.rereadRecord c with
      | none => s.ccErr c 0x0a
      | some y =>
        match (if x.snap.state = 4 then some (s, x.saved) else s.readArea c true) with
        | none => s.ccErr c 8
        | some (s, ts) => ((s.setCtx c { y with saved := ts, want := 1, err := 0 }).changeTenant c y.tenant).resumed c

/-! #### TWIN (R386) -/

def execTwin (ld c : Nat) (brk : Bool) (s : State) : Res :=
  s.onCtx ld c fun x =>
    let s := s.setBrk c brk
    if !x.runs ∨ !s.feature c 3 then s.ccErr c 1
    else match s.formTwin c with
      | .error e => s.ccErr c e
      | .ok (s, t) => (s.ccErr c 0).beginCut c .twin (some t) []

/-! #### STEP and RIVAL (R388 to R391) -/

/-- The saved gang GS.SEL names (R356, R389). -/
def Ctx.selectedSaved (x : Ctx) : Option Nat :=
  let k := bits x.gsSel 0 9 * 16 + bits x.gsSel 9 4
  match x.saved.find? fun t => t.core * 16 + t.tslot == k with
  | some t =>
    if t.gangs.any fun y => y.1 == bits x.gsSel 13 4 && !y.2.ended then some (liftGid (k * 16 + bits x.gsSel 13 4)) else none
  | none => none

/-- Teams that a RIVAL has placed already, and that have not run, leave their cores again: the twin is read anew from its save area. -/
def State.takeBack (s : State) (c : Nat) (ts : List SavedTeam) : State :=
  ((s.ctxTeams c).foldl (fun s k =>
    let t := s.team k
    let old := (ts.find? fun y => y.team.grid == t.grid && y.team.number == t.number).map fun y => y.core * 16 + y.tslot
    (s.dropTeam k).renameTeam c k (liftTeam (old.getD k))) s).serveReserves

/-- STEP; also of a twin that a RIVAL is still placing, which reads FROZEN (R390, R394). -/
def execStep (ld c : Nat) (brk : Bool) (s : State) : Res :=
  s.onCtx ld c fun x =>
    let s := s.setBrk c brk
    if x.state ≠ .frozen then s.ccErr c 1
    else match s.readArea c false with
      | none => s.ccErr c 8
      | some (t, ts) =>
        match Ctx.selectedSaved { x with saved := ts } with
        | none => s.ccErr c 1
        | some g => (t.takeBack c ts).modCtx c fun x =>
          { x with saved := ts, want := 3, stepping := some g, stepped := false, state := .stepping, err := 0
                   stepHead := t.dmem.slice x.save 4096 }

def execRival (ld c : Nat) (brk : Bool) (s : State) : Res :=
  s.onCtx ld c fun x =>
    let s := s.setBrk c brk
    if x.state ≠ .frozen then s.ccErr c 1
    else if x.lost ≠ 0 then s.ccErr c 6
    else match s.readArea c false with
      | none => s.ccErr c 8
      | some (s, ts) => ((s.takeBack c ts).modCtx c fun x => { x with saved := ts, want := 2, err := 0 }).resumed c

/-! #### DISCARD (R392, R394) -/

/-- DISCARD, in any state of a twin but CUTTING. While the twin is being formed or stepped, or a cut of its own is in progress, it is
given up once that has ended (R392, R394). -/
def execDiscard (ld c : Nat) (brk : Bool) (s : State) : Res :=
  s.onCtx ld c fun x =>
    let s := s.setBrk c brk
    if x.parent.isNone ∨ x.state = .cutting then s.ccErr c 1
    else if x.state = .unbound ∨ x.state = .stepping ∨ x.cut.isSome then s.modCtx c fun x => { x with discarding := true, err := 0 }
    else s.startDiscard c

/-- The next freed frame of a context goes to its return ring, when the ring has room (R350); a twin being discarded is
free after its last one (R392). -/
def execFrameReturn (c : Nat) (s : State) : Res :=
  .next (let s := s.endDiscard c
    let x := s.ctx c
    match x.returning with
    | [] => s.freeCtx c
    | f :: rest =>
      let prod := s.devRead (x.hint + 0x38) 4
      let cons := s.devRead (x.hint + 0x3c) 4
      if x.hint = 0 ∨ x.ret = 0 ∨ 2 ^ x.retLog ≤ diff32 prod cons then s
      else
        let s := s.devWrite (x.ret + 8 * (prod % 2 ^ x.retLog)) 8 f
        ((s.devWrite (x.hint + 0x38) 4 ((prod + 1) % 2 ^ 32)).setCtx c { x with returning := rest }).freeCtx c)

/-! #### The end of a step (R389) -/

/-- Whether every operation the stepped gang's packet started has completed or stopped; what was saved stays as it is. -/
def State.stepDone (s : State) (c : Nat) : Bool :=
  let x := s.ctx c
  match x.stepping with
  | none => true
  | some gid =>
    let t := s.team (gidTeam gid)
    let core := s.core (gidCore gid)
    let g := s.gang gid
    (x.stepped || !g.runnable) && g.ops.isEmpty && g.sq.isEmpty && !(core.wp.any fun e => e.gid == gid) && t.commits.isEmpty &&
    !(core.searches.any fun o => o.gid == gid) && !(core.copies.any fun r => r.2.state == .running && r.2.tslot == gidSlot gid) &&
    t.tiles.all (·.saved) && t.streams.all (·.saved) && t.colls.all (·.saved)

/-- The twin is written back to its save area, under the header that STEP read there but for its count of blocks and SA.USED, and its
cores are free (R389, R397). -/
def execStepComplete (c : Nat) (s : State) : Res :=
  .next (let x := s.ctx c
    if x.state ≠ .stepping ∨ x.want ≠ 0 ∨ !s.stepDone c then s
    else
      let s := s.saveCtx c {}
      let ts := (s.ctx c).saved
      let s := s.putChunk x.save ⟨0, 4096, x.stepHead⟩
      let s := (s.devWrite (x.save + 2) 2 ts.length).devWrite (x.save + 16) 8 (areaUsed false ts)
      let s := s.modCtx c fun x => { x with state := .frozen, stepping := none, stepped := false, stepHead := [] }
      if x.discarding then s.startDiscard c else s)

/-! ### CC.MEMA and CC.MEMD (R393)

An access to a page of the host whose translation the bound host has not answered asks for it and has no effect yet; it is
made again with the answer (log 6). -/

def execCcMemaWrite (ld c v : Nat) (s : State) : Res :=
  s.onCtx ld c fun x =>
    if v % 8 ≠ 0 then s.ccErr c 0x0b
    else if x.state ≠ .frozen then s.ccErr c 1
    else s.modCtx c fun x => { x with mema := v % 2 ^ 64 }

/-- Where 8 bytes of a twin's view lie: a place, none for lost memory, or nothing mapped; a page of the host whose answer is
lacking needs one (`hostNeed`). -/
def State.viewPlace (s : State) (c va : Nat) : State × Except Unit (Option Loc) :=
  if 2 ^ 57 ≤ va then (s, .error ())
  else if bit va 56 then
    match s.viewWalk c va 64 with
    | .ok e => (s, .ok (some (.dev (e.pbase + (va - e.vbase)))))
    | .error (.poison, _) => (s, .ok none)
    | .error _ => (s, .error ())
  else match s.translateShadow c va 0 with
    | (t, .ok l) => (t, .ok (some l))
    | (t, .error (.poison, _)) => (t, .ok none)
    | (t, .error _) => (t, .error ())

def State.stepMema (s : State) (c : Nat) : State := s.modCtx c fun x => { x with mema := (x.mema + 8) % 2 ^ 64 }

def execCcMemdRead (ld c : Nat) (s : State) : Res :=
  s.onCtx ld c fun x =>
    let zero (s : State) : State := { s with hostRead := 0 }
    if x.state ≠ .frozen then (zero s).ccErr c 1
    else s.accessing ⟨2 ^ 32, 12, c⟩ fun s =>
      match s.viewPlace c x.mema with
      | (t, .error _) => ((zero t).ccErr c 9).stepMema c
      | (_, .ok none) => (zero s).stepMema c
      | (_, .ok (some l)) => State.stepMema { s.waitLine l with hostRead := BitVec.ofNat 64 (s.readLoc l 8) } c

/-- A private page that shows the shared zero frame takes a frame of its own (R361, R387). -/
def State.ownZero (s : State) (t g f : Nat) : State :=
  let fl := (s.ctx t).view.perms.get 0 g
  if !bit fl 7 then s
  else
    let (s, fr) := s.copyFor t f
    (s.takeCopy t g f fr).modCtx t fun x => { x with view := { x.view with perms := x.view.perms.set g (setBits fl 7 1 0) } }

/-- A write makes the page private first, whatever the page's permissions (R388). -/
def execCcMemdWrite (ld c v : Nat) (s : State) : Res :=
  s.onCtx ld c fun x =>
    let va := x.mema
    if x.state ≠ .frozen then s.ccErr c 1
    else s.accessing ⟨2 ^ 32, 12, c⟩ fun s => match s.viewPlace c va with
      | (t, .error _) => (t.ccErr c 9).stepMema c
      | (_, .ok none) => s.stepMema c
      | (_, .ok (some l)) =>
        let s := s.stepMema c
        match l with
        | .dev pa =>
          if bit va 56 then
            let s := (s.ownCopy c (va / 65536) (pa - va % 65536)).ownZero c (va / 65536) (pa - va % 65536)
            match (s.ctx c).view.priv.find (va / 65536) with
            | some f => s.writeVa c va false (.dev (f + va % 65536)) 8 v
            | none => s
          else s.writeLoc l 8 v
        | l =>
          match (s.waitLine l).shadowOf c (va / 4096) l with
          | (s, .ok (.dev pa)) => s.devWrite (pa + va % 4096) 8 v
          | (s, _) => s

/-! ### CC.STAT (R393) -/

def State.ccStat (s : State) (c : Nat) : Nat :=
  let x := s.ctx c
  x.state.num + min 4 (s.liveTwins c).length * 2 ^ 4 + x.parent.isSome.toNat * 2 ^ 7 + x.brks % 256 * 2 ^ 8 +
    x.lost % 256 * 2 ^ 16 + x.err % 256 * 2 ^ 24 + x.parent.getD 0 % 64 * 2 ^ 42 + x.notwin % 65536 * 2 ^ 48

def execNotwinRead (ld c : Nat) (s : State) : Res :=
  .next (if (s.ctx c).bound ∧ (s.ctx c).ld = ld then
      { s.modCtx c fun x => { x with notwin := 0 } with hostRead := BitVec.ofNat 64 (s.ccStat c) }
    else { s with hostRead := 0 })

/-! ### `brk` (R395, R396) -/

/-- A break that forms no twin: it is counted and recorded, and no split halts. -/
def State.noTwin (s : State) (c : Nat) (b : Break) : State :=
  let s := s.modCtx c fun x => { x with notwin := min 65535 (x.notwin + 1) }
  s.report b.gid b.sup b.pc b.word { code := .brk, detail := b.code + 0x10000, lanes := b.lanes }

/-- Breaks that form no twin, none of them waiting any more. -/
def State.noTwins (s : State) (c : Nat) (bs : List Break) : State :=
  (bs.foldl (fun s b => s.noTwin c b) s).modCtx c fun x => { x with brkWaits := [] }

/-- Breaks begin a cut and form a twin, when R386 lets them. -/
def State.breakCut (s : State) (c : Nat) (bs : List Break) : State :=
  match s.formTwin c with
  | .ok (s, t) => (s.modCtx c fun x => { x with brkWaits := [] }).beginCut c .twin (some t) bs
  | .error _ => s.noTwins c bs

/-- A `brk` joins no cut in progress here, since every cut point is fixed when the cut begins: it begins the next one,
and its gang waits for it (R396). -/
def execBrk (n : Fin 2048) (s : State) : Res :=
  guard (.brk n) s fun s =>
    let c := s.curTeam.ctx
    let b : Break := { pc := s.iss.pc, gid := s.iss.gid, code := n.val, word := s.iss.word, lanes := s.iss.lanes.toNat, sup := s.iss.sup }
    if s.lanes.isEmpty then s
    else if !(s.ctx c).brkmode then s.fault { code := .brk, detail := n.val }
    else if (s.ctx c).cut.isSome then s.modCtx c fun x => { x with brkWaits := x.brkWaits ++ [b] }
    else s.breakCut c [b]

/-! ### The beginning of a snapshot (R401 to R403) -/

/-- The entries of a declared-range list, or none when one breaks R402. -/
def State.readRangeList (s : State) (at_ : Nat) : Nat → Option (List (Nat × Nat × Nat))
  | 0 => some []
  | n + 1 =>
    let b := s.devRead at_ 8
    let len := s.devRead (at_ + 8) 8
    let form := s.devRead (at_ + 16) 8
    if b % 65536 ≠ 0 ∨ b / 2 ^ 56 ≠ 1 ∨ len = 0 ∨ len % 65536 ≠ 0 ∨ 2 ^ 57 < b + len ∨ 1 < form ∨ s.devRead (at_ + 24) 8 ≠ 0 then none
    else match s.readRangeList (at_ + 32) n with
      | some l => if l.any fun r => decide (b < r.1 + r.2.1) && decide (r.1 < b + len) then none else some ((b, len, form) :: l)
      | none => none

/-- The declared ranges of a context (R400, R402): none when the list is malformed; no list declares nothing. -/
def State.declared (s : State) (c : Nat) : Option (List (Nat × Nat × Nat)) :=
  let a := (s.ctx c).snap.ranges
  let n := s.devRead (physAddr a) 16
  if a = 0 then some []
  else if !physOk a 1 ∨ n < 1 ∨ 64 < n then none
  else s.readRangeList (physAddr a + 16) n

/-- Whether a context's snapshot registers cannot serve (R350, R400, R439). -/
def State.snapBad (s : State) (c : Nat) : Bool :=
  let x := s.ctx c
  !physOk x.snap.area 65536 || (x.snap.recv != 0 && !physOk x.snap.recv 1) || x.snap.size % 65536 != 0 || x.ret == 0 ||
    (s.declared c).isNone

/-- The buffer of SN.AREA that does not hold snapshot DONE (R403). -/
def Snap.freeBuf (x : Snap) : Nat := physAddr x.area + x.size * (1 - x.buf)

/-- A buffer holds no image any more: its number reads 0, which is no snapshot's (R403, log 57). -/
def State.spoil (s : State) (x : Snap) : State := s.putChunk x.freeBuf ⟨0, 8, []⟩

/-- The snapshot begun last fails (R403): its buffer is invalid and DONE is what it was, also where this part had it complete; what it
holds is let go. One that waits behind it waits on. -/
def State.snapFail (s : State) (c e : Nat) : State :=
  let x := (s.ctx c).snap
  let back := x.state == 0 && x.begun == x.done && x.begun != 0
  let x := if back then { x with done := x.done - 1, buf := 1 - x.buf } else x
  let s := if back ∨ x.state = 2 ∨ x.state = 3 then s.spoil x else s
  s.modCtx c fun y =>
    { y with
      returning := y.returning ++ sortBy x.view.priv.vals (fun a b => decide (a ≤ b))
      snap := { x with state := 0, err := e, holding := x.holding && x.wanted, trigger := if x.wanted then x.trigger else none
                       taking := none, view := {}, list := [], begun := x.done
                       reported := x.reported.mapVals fun n => min n x.done, written := false, copied := false } }

/-- A snapshot fails on every member part (R403). -/
def State.snapFailAll (s : State) (c e : Nat) : State :=
  let x := (s.ctx c).snap
  (s.tellParts c 0x21 (s.memberParts c) [3, x.begun, e, x.cutNo]).snapFail c e

/-- Another member part has failed the snapshot of cut `n`: this part's fails too, or will when that cut comes here (R403). -/
def State.snapFailed (s : State) (c num e n : Nat) : State :=
  let x := (s.ctx c).snap
  if x.cutNo < n then s.modCtx c fun y => { y with snap := { y.snap with failed := some (n, e) } }
  else if x.cutNo = n ∧ x.begun = num ∧ (x.state ≠ 0 ∨ x.done = num) then s.snapFail c e
  else s

/-- A snapshot begins on this part, before its cut: the declared pages are shared from now on (R403). -/
def State.snapOpen (s : State) (c : Nat) : State :=
  let l := (s.declared c).getD []
  let inside (g : Nat) : Bool := l.any fun r => decide (r.1 ≤ g * 65536) && decide (g * 65536 < r.1 + r.2.1)
  let shared := (s.visible c).filter inside
  let ps := s.memberParts c
  s.modCtx c fun x =>
    { x with snap := { x.snap with
        state := 1, begun := x.snap.done + 1, members := ps, written := false, copied := false, cutNo := x.cutNo + 1
        list := l, view := { shared := shared } } }

/-- Whether the members of a context's reels on this part were placed by another, whose block schedules their snapshots (R91, R401,
R406). -/
def State.ledElsewhere (s : State) (c : Nat) : Bool :=
  let gs := s.grids.filter fun y => y.2.valid && y.2.ctx == c && y.2.reel.isSome
  !gs.isEmpty && gs.all fun y => y.2.coord != s.part

/-- Whether a snapshot may begin: none is in progress, and every member part has reported the last one (R404). -/
def State.snapMay (s : State) (c : Nat) : Bool :=
  let x := s.ctx c
  x.cut.isNone && !x.preempting && x.runs && x.snap.state == 0 && x.snap.begun == x.snap.done &&
  (x.snap.begun == 0 || x.snap.members.all fun p => x.snap.reported.get 0 p == x.snap.begun || s.down.contains p)

/-- The snapshot that waits longest begins, or fails: the one that holds a raise first; a part whose members another coordinates
schedules none (R401, R402). -/
def State.snapStart (s : State) (c : Nat) : State :=
  let x := (s.ctx c).snap
  let s := s.modCtx c fun y => { y with snap := if x.wanted then { y.snap with wanted := false } else { y.snap with asked := false } }
  if s.snapBad c ∨ (x.wanted ∧ s.ledElsewhere c) then s.modCtx c fun y => { y with snap :=
    { y.snap with err := 6, holding := y.snap.holding && !x.wanted, trigger := if x.wanted then none else y.snap.trigger } }
  else (s.snapOpen c).beginCut c .snapshot none []

/-- What waits for the end of a cut begins: a DISCARD, then breaks, then a PREEMPT that the cut had overtaken, then a snapshot (R383,
R392, R396, R401). -/
def State.wake (s : State) (c : Nat) : State :=
  let s := s.markCut c
  let x := s.ctx c
  if x.cut.isSome ∨ !x.runs then s
  else if x.discarding then s.startDiscard c
  else if !x.brkWaits.isEmpty then s.breakCut c x.brkWaits
  else if x.preemptAgain then s.preemptStart c
  else if (x.snap.wanted ∧ s.ledElsewhere c) ∨ ((x.snap.wanted ∨ x.snap.asked) ∧ s.snapMay c) then s.snapStart c
  else s
/-- What goes on by itself as soon as it may: cuts that wait, scratch that is to be swapped out (R371), room given to reels (R91,
R92), and answers that windows owe (R309). -/
def State.wakeAll (s : State) : State :=
  let s := (s.ctxs.foldl (fun s x => s.wake x.1) s).swapScratch
  (s.cores.foldl (fun s x => s.retryPrefetches x.1) s).serveReserves.serveCommits.payWindows

/-! ### CUT (R380) -/

/-- A part takes the cut another began: it forms its own share of a twin when it can, for the breaks that wait here too, and a snapshot
of its own members, whose PERIOD must be 0 (R386, R396, R401). Breaks that wait when a pre-emption comes form no twin. -/
def State.joinCut (s : State) (c : Nat) (k : CutKind) : State :=
  let bs := (s.ctx c).brkWaits
  match k with
  | .preempt => (s.noTwins c bs).beginCut c .preempt none []
  | .twin =>
    match s.formTwin c with
    | .ok (s, t) => (s.modCtx c fun x => { x with brkWaits := [] }).beginCut c .twin (some t) bs
    | .error e => ((s.noTwins c bs).ccErr c e).beginCut c .twin none []
  | .snapshot =>
    let s := (s.snapOpen c).beginCut c .snapshot none []
    let x := (s.ctx c).snap
    if x.period ≠ 0 ∨ s.snapBad c then s.snapFailAll c 6
    else match x.failed with
      | some (n, e) => if n = x.cutNo then s.snapFail c e else s
      | none => s

/-- A marker of cut `n`, or word that a part has written its state. -/
def execCut (r : Rx) (s : State) : Res :=
  s.onCut r [0, 2] fun s tag xs =>
    let c := r.cell.ctag
    let n := xs.headD 0
    let s := if tag = 0 ∧ (s.ctx c).cutNo < n then
        ((s.passCut c n).modCtx c fun x => { x with cutNo := n - 1 }).joinCut c (CutKind.ofNum (xs.getD 1 0))
      else s
    if (s.ctx c).cutNo ≠ n then s
    else
      let s := s.modCtx c fun x => { x with cut := x.cut.map fun k =>
        if tag = 0 then { k with markers := k.markers ++ [r.cell.src * 32 + r.cell.plane] }
        else { k with wrote := k.wrote ++ [r.cell.src] } }
      s.finishCut c

end Sys2Proof.Machine
end

