-- ==== Sys2Proof/Machine/Snapshots.lean ====
section
/-! DEFINITION. Snapshots and recovery (spec/23 R400 to R406): the snapshot block, the image, streaming to a partner, and
RESTORE. -/

namespace Sys2Proof.Machine

/-! ### The snapshot block (R400) -/

/-- SN.CTL as its fields hold it; OP reads 0. -/
def Snap.ctl (x : Snap) : Nat :=
  x.enable.toNat * 2 ^ 8 + x.stream.toNat * 2 ^ 16 + x.partner % 512 * 2 ^ 17 + x.pull.toNat * 2 ^ 26 + x.source % 512 * 2 ^ 27 +
    x.tl % 4096 * 2 ^ 36 + x.period % 65536 * 2 ^ 48

def Snap.setCtl (x : Snap) (v : Nat) : Snap :=
  { x with enable := bit v 8, stream := bit v 16, partner := bits v 17 9, pull := bit v 26, source := bits v 27 9
           tl := bits v 36 12, period := bits v 48 16 }

def Snap.stat (x : Snap) : Nat := x.state % 8 + x.err % 256 * 2 ^ 24 + x.done % 2 ^ 32 * 2 ^ 32

/-- A register of the block by its offset: its value. -/
def Snap.reg (x : Snap) (off : Nat) : Nat :=
  if off = 0x00 then x.ctl else if off = 0x08 then x.area else if off = 0x10 then x.size else if off = 0x18 then x.ranges
  else if off = 0x20 then x.recv else if off = 0x28 then x.stat else if off = 0x30 then x.next else if off = 0x38 then x.target else 0

def Snap.setReg (x : Snap) (off v : Nat) : Snap :=
  if off = 0x00 then x.setCtl v else if off = 0x08 then { x with area := v } else if off = 0x10 then { x with size := v }
  else if off = 0x18 then { x with ranges := v } else if off = 0x20 then { x with recv := v }
  else if off = 0x30 then { x with next := v } else if off = 0x38 then { x with target := v } else x

/-- A register with `n` bytes of it, from byte `k` on, replaced. -/
def partWrite (old k n v : Nat) : Nat := setBits old (8 * k) (8 * n) v % 2 ^ 64

def State.modSnap (s : State) (c : Nat) (f : Snap → Snap) : State := s.modCtx c fun x => { x with snap := f x.snap }

/-- A write of a context's snapshot block does something only while STATE is 0; ENABLE stays 0 while snapshots are not
negotiated (R400, R419). -/
def State.snapWrite (s : State) (c : Nat) (f : Snap → Snap) : State :=
  if (s.ctx c).snap.state ≠ 0 then s.modSnap c fun x => { x with err := 4 }
  else s.modSnap c fun x => let y := f x; { y with enable := y.enable && s.feature c 4 }

def execSnapshotBlockWrite (ld c off n v : Nat) (s : State) : Res :=
  s.onCtx ld c fun x =>
    let r := off % 64 / 8 * 8
    s.snapWrite c fun y => y.setReg r (partWrite (x.snap.reg r) (off % 8) n v)

/-- SN.CTL with OP 1: a snapshot is wanted, with no trigger, as soon as one may begin (R400, R401). -/
def execSnap (ld c v : Nat) (s : State) : Res :=
  s.onCtx ld c fun x =>
    let t := s.snapWrite c fun y => y.setCtl v
    if x.snap.state ≠ 0 then t
    else if !x.runs ∨ !(t.ctx c).snap.enable then t.modSnap c fun y => { y with err := 4 }
    else (t.modSnap c fun y => { y with asked := true }).wake c

/-! ### The image (R403) -/

/-- Where the range section begins, and what the whole image takes. -/
def SnapImage.rsec (i : SnapImage) : Nat := (4096 + areaSpan true i.teams + 65535) / 65536 * 65536
def rangeBytes (l : List (Nat × Nat × Nat)) : Nat := (l.map fun r => if r.2.2 = 1 then r.2.1 / 2 else r.2.1).sum
def SnapImage.used (i : SnapImage) (l : List (Nat × Nat × Nat)) : Nat := i.rsec + rangeBytes l

/-- f32 words as `.b16`, rounded to nearest even without saturation, and back (R403, R405). -/
def toB16 (w : Nat) : Nat := shapeB16.rne (shapeF32.value w)
def narrowed (m : Memory) (n : Nat) : Memory :=
  Memory.writeLE [] 0 (n / 2) ((List.range (n / 4)).map fun k => toB16 (m.readLE (4 * k) 4) * 2 ^ (16 * k)).sum
def widened (m : Memory) (n : Nat) : Memory :=
  Memory.writeLE [] 0 n ((List.range (n / 4)).map fun k => m.readLE (2 * k) 2 * 2 ^ 16 * 2 ^ (32 * k)).sum

/-- A granule as the snapshot sees it: its private copy, or the page itself; zeros where nothing is mapped. -/
def State.snapGranule (s : State) (c g : Nat) : Memory :=
  match (s.ctx c).snap.view.priv.find g with
  | some f => s.dmem.slice f 65536
  | none => match s.viewWalk c (g * 65536) 64 with
    | .ok e => s.dmem.slice (e.pbase + (g * 65536 - e.vbase)) 65536
    | .error _ => []

/-- The range section written, granule by granule in list order. -/
def State.writeRanges (s : State) (c at_ : Nat) : List (Nat × Nat × Nat) → State
  | [] => s
  | (b, len, form) :: rest =>
    let n := if form = 1 then 32768 else 65536
    let s := (List.range (len / 65536)).foldl (fun s k =>
      let m := s.snapGranule c (b / 65536 + k)
      s.putChunk at_ ⟨n * k, n, if form = 1 then narrowed m 65536 else m⟩) s
    s.writeRanges c (at_ + n * (len / 65536)) rest

/-- The image written into the buffer that does not hold DONE. -/
def State.writeImage (s : State) (c : Nat) (i : SnapImage) : State :=
  let x := (s.ctx c).snap
  let base := x.freeBuf
  let trig : Nat := match i.trigger with
    | some (k, _) => k % 4096 + 4096
    | none => 0
  let tv : Nat := match i.trigger with
    | some (_, v) => v
    | none => 0
  let s := s.putChunk base ⟨0, 4096, fieldsOf [(0, 8, i.num), (8, 8, trig), (16, 8, tv), (24, 8, i.rsec), (32, 8, i.used x.list)]⟩
  let h : AreaHeader := { cut := x.cutNo, unknown := x.unknown, unkMore := x.unkMore }
  let s := (s.writeArea (base + 4096) h true i.teams (fun k => i.grids.get {} k) fun _ => true).1
  s.writeRanges c (base + i.rsec) x.list

/-! ### Streaming and DONE (R404) -/

/-- The snapshot is complete here, and the other member parts are told. -/
def State.snapDone (s : State) (c : Nat) : State :=
  let n := (s.ctx c).snap.begun
  let s := s.modSnap c fun x =>
    { x with done := n, buf := 1 - x.buf, state := 0, taking := none, list := [], written := false, copied := false }
  s.tellParts c 0x21 (s.memberParts c) [4, n]

/-- Pieces of 128 bytes of the image, each in a cell of its own, with the number of the snapshot's cut (R404). -/
def State.streamImage (s : State) (c dst : Nat) (i : SnapImage) : State :=
  let x := (s.ctx c).snap
  let base := x.freeBuf
  let used := i.used x.list
  (List.range ((used + 127) / 128)).foldl (fun s k =>
    s.sendCell { type := 0x21, dst := dst, src := s.part, flow := s.flowOf c .snap, sp := 2, ctag := s.partnerTag c dst
                 plane := k % 32, body := .control [0, i.num, used, 128 * k, s.devRead (base + 128 * k) 128, x.cutNo] }) s

/-- The image is acknowledged at its home, and its frames are back: it goes to the partner, or is done (R350, R404). -/
def State.snapNext (s : State) (c : Nat) : State :=
  let x := s.ctx c
  if x.snap.state ≠ 2 ∨ !x.snap.written ∨ !x.returning.isEmpty then s
  else if !x.snap.stream then s.snapDone c
  else match x.snap.taking, s.placeOf c x.snap.partner with
    | some i, some p =>
      if s.down.contains p then s.snapFailAll c 3
      else (s.modSnap c fun y => { y with state := 3 }).streamImage c p i
    | _, _ => s.snapFailAll c 3

/-- A snapshot's image is written, and its private copies go to the return ring; or it fails, too large or with a granule
lost (R350, R403). A second time, once the ring has taken them, the snapshot goes on. -/
def execSnapshotWriteComplete (c : Nat) (s : State) : Res :=
  .next (let x := s.ctx c
    match x.snap.taking with
    | none => s
    | some i =>
      if x.snap.state ≠ 2 then s
      else if x.snap.written then s.snapNext c
      else if x.snap.size < i.used x.snap.list then s.snapFailAll c 1
      else if !x.snap.view.lost.isEmpty then s.snapFailAll c 2
      else
        let s := s.writeImage c i
        let s := s.modCtx c fun x =>
          { x with returning := x.returning ++ sortBy x.snap.view.priv.vals (fun a b => decide (a ≤ b))
                   snap := { x.snap with written := true, view := {} } }
        s.snapNext c)

/-- The held raise is applied once the cut has been taken on every member part: each has sent its markers by then
(R401). -/
def execSnapshotRaiseRelease (c : Nat) (s : State) : Res :=
  .next (let x := s.ctx c
    let taken : Bool := match x.cut with
      | some k => k.kind != .snapshot || k.captured
      | none => true
    match x.snap.trigger with
    | some (k, _) =>
      if !x.snap.holding ∨ x.snap.wanted ∨ !taken then s
      else
        let s := s.modSnap c fun y => { y with holding := false, trigger := none }
        -- a host that holds the line answers first (R343)
        match s.raises.find? fun r => r.tl == k with
        | some r => if lifts (Tab.get 0 s.timelines k) (BitVec.ofNat 64 r.value) ∧ s.tlShared.contains k then s else s.raiseWrite k
        | none => s
    | none => s)

/-- A cell of type 0x21 of one of the kinds named; another is left where it is. -/
def State.onSnap (s : State) (r : Rx) (tags : List Nat) (f : State → Nat → List Nat → State) : Res :=
  .next (match r.cell.body with
    | .control (tag :: xs) =>
      if r.cell.type ≠ 0x21 ∨ !tags.contains tag then s
      else match s.accept r with
        | (s, true) => f s tag xs
        | (s, false) => s
    | _ => s)

/-- A copy begins to come in, of a later cut of its sender: one of a number that is complete here already takes that one's place, since
the sender's snapshot of that number has failed (R403, R404). -/
def Snap.startCopy (y : Snap) (num cut : Nat) : Snap :=
  { y with recvBuf := if y.recvNum = num ∧ y.recvGot = 0 then 1 - y.recvBuf else y.recvBuf, recvNum := num, recvGot := 0, recvCut := cut }

/-- A piece of a partner copy goes into the buffer that does not hold the sender's last complete copy (R404). -/
def State.takePiece (s : State) (c src num used off x cut : Nat) : State :=
  let y := (s.ctx c).snap
  if y.recv = 0 ∨ !physOk y.recv 1 ∨ y.size < used ∨ used ≤ off then s
  else
    let y := if y.recvNum = num ∧ y.recvCut = cut then y else y.startCopy num cut
    let n := min 128 (used - off)
    let s := s.putChunk (physAddr y.recv + y.size * (1 - y.recvBuf)) ⟨off, n, fieldsOf [(0, n, x)]⟩
    if y.recvGot + n < used then s.modSnap c fun _ => { y with recvGot := y.recvGot + n }
    else (s.modSnap c fun _ => { y with recvGot := 0, recvBuf := 1 - y.recvBuf }).tellParts c 0x21 [src] [2, num, cut]

/-- A piece of a partner copy (0), a member part's failure (3), or a member part's DONE (4) (R403, R404). -/
def execSnapReceive (r : Rx) (s : State) : Res :=
  s.onSnap r [0, 3, 4] fun s tag xs =>
    let c := r.cell.ctag
    let num := xs.headD 0
    if tag = 0 then s.takePiece c r.cell.src num (xs.getD 1 0) (xs.getD 2 0) (xs.getD 3 0) (xs.getD 4 0)
    else if tag = 3 then s.snapFailed c num (xs.getD 1 0) (xs.getD 2 0)
    else s.modSnap c fun y => { y with reported := y.reported.set r.cell.src num }

/-- The partner has the whole copy (R404). -/
def execSnapshotCopyAck (r : Rx) (s : State) : Res :=
  s.onSnap r [2] fun s _ xs =>
    let x := (s.ctx r.cell.ctag).snap
    if x.state = 3 ∧ x.begun = xs.headD 0 ∧ x.cutNo = xs.getD 1 0 then s.snapDone r.cell.ctag else s

def execSnapshotPartnerTimeout (c : Nat) (s : State) : Res :=
  .next (if (s.ctx c).snap.state = 3 then s.snapFailAll c 3 else s)

/-! ### RESTORE (R405) -/

/-- The image at `base`, as its bytes and the team blocks of its save area give it; none when it is not snapshot `num`, or malformed
(R299, R385, R388, R403). -/
def State.imageAt (s : State) (c num base : Nat) : Option SnapImage :=
  let w (k : Nat) : Nat := s.devRead (base + 8 * k) 8
  let h := s.devRead (base + 4096) 8
  if num = 0 ∨ w 0 ≠ num ∨ h % 512 ≠ 1 ∨ !s.headerZeros (base + 4096) then none
  else (s.readTeamBlocks c (base + 8192) true true (bits h 16 16)).map fun bs =>
    { num := num, trigger := if bit (w 1) 12 then some (w 1 % 4096, w 2) else none
      data := s.dmem.slice (base + w 3) (w 4 - w 3), grids := s.blockGrids c bs fun _ => none
      teams := bs.map fun b => { b.team with team := { b.team.team with grid := s.devRead (b.at_ + 8) 4 } } }

/-- The image of a number in one of the buffers of SN.AREA. -/
def State.ownImage (s : State) (c num : Nat) : Option SnapImage :=
  let x := (s.ctx c).snap
  [0, 1].findSome? fun b => s.imageAt c num (physAddr x.area + x.size * b)

/-- SN.CTL with OP 2; `image` is what FROM's receive buffers hold for SN.TARGET, when it is pulled. The context may be SAVED with a
RESUME under way: the teams are then placed when the restore has brought them. -/
def execRestore (ld c v : Nat) (image : Option SnapImage) (s : State) : Res :=
  s.onCtx ld c fun x =>
    let t := s.snapWrite c fun y => y.setCtl v
    let y := (t.ctx c).snap
    let fails (e : Nat) : State := t.modSnap c fun z => { z with err := e }
    let idle := x.state = .saved ∨
      (x.state = .running ∧ (s.ctxTeams c).isEmpty ∧ !(s.pending.any fun k => (s.grid k).ctx == c))
    let pulled := (image.filter fun i => i.num == y.target).map fun i => { i with teams := i.teams.map fun t =>
      { t with team := { t.team with rows := t.team.rows.mapVals Row.recompacted } } }
    if x.snap.state ≠ 0 then t
    else if ¬idle then fails 4
    else if !y.pull ∧ !physOk y.area 65536 then fails 6
    else match (if y.pull then pulled else t.ownImage c y.target), t.declared c with
      | none, _ => fails 5
      | some _, none => fails 6
      | some i, some l =>
        if x.saven < requiredSize i.teams then fails 1
        else t.modSnap c fun z => { z with state := 4, err := 0, loading := some i, list := l }

/-- A granule written back where the context maps it; views that share it keep what they had (R387, R405). -/
def State.restoreGranule (s : State) (c g : Nat) (m : Memory) : State :=
  match s.viewWalk c (g * 65536) 64 with
  | .ok e =>
    let f := e.pbase + (g * 65536 - e.vbase)
    (s.cow c g f).putChunk f ⟨0, 65536, m⟩
  | .error _ => s

def State.restoreRanges (s : State) (c : Nat) (data : Memory) (at_ : Nat) : List (Nat × Nat × Nat) → State
  | [] => s
  | (b, len, form) :: rest =>
    let n := if form = 1 then 32768 else 65536
    let s := (List.range (len / 65536)).foldl (fun s k =>
      let m := data.slice (at_ + n * k) n
      s.restoreGranule c (b / 65536 + k) (if form = 1 then widened m 65536 else m)) s
    s.restoreRanges c data (at_ + n * (len / 65536)) rest

/-- The image's grids in place of the context's, under names of their own, and its teams as the context's saved teams. A grid with no
team placed goes on waiting in the dispatcher's list, at its place (R60, R383, R405). -/
def State.restoreTeams (s : State) (c : Nat) (i : SnapImage) : State :=
  let s := (s.ctxTeams c).foldl (fun s k => s.dropTeam k) s
  let (s, names) := i.grids.foldl (fun (s, l) (k, _) =>
    let (s, n) := State.freshKey s
    (s, l ++ [(k, n)])) (s, ([] : List (Nat × Nat)))
  let keep := s.grids.filter fun y => y.2.ctx != c || (s.pending.contains y.1 && y.2.nextTeam == y.2.first)
  let s : State := { s with grids := keep, pending := s.pending.filter fun k => keep.any fun y => y.1 == k }
  let s := s.putGrids c i.grids names
  let (s, ts) := s.writeArea (s.ctx c).save { cut := (s.ctx c).cutNo } false (i.teams.map fun t => t.cloned c names) s.grid fun _ => true
  ((s.modCtx c fun x => { x with saved := ts }).changeTenant c (s.ctx c).tenant).serveReserves

def execRestoreComplete (c : Nat) (s : State) : Res :=
  .next (let x := s.ctx c
    match x.snap.loading with
    | none => s
    | some i =>
      if x.snap.state ≠ 4 then s
      else
        let s := (s.restoreRanges c i.data 0 x.snap.list).restoreTeams c i
        let s := s.modCtx c fun x =>
          { x with state := .saved, snap := { x.snap with state := 0, loading := none, list := [], restored := i.trigger } }
        s.resumed c)

end Sys2Proof.Machine
end

