-- ==== Sys2Proof/Machine/Links.lean ====
section
/-! DEFINITION. The ports and what arrives on them (spec/16 R316 to R324): slots and reservations, line and small cells,
link acknowledgement and resending, and parts that are down. -/

namespace Sys2Proof.Machine

/-! ### Slots (R317) -/

/-- Control cells: window states and arrivals, placement, cut markers. -/
def isControlCell (c : Cell) : Bool :=
  c.type == 0x0a || c.type == 0x0b || (decide (0x10 ≤ c.type) && decide (c.type ≤ 0x20))

/-- The cell a port sends in a slot: the oldest control cell in slot 63, the oldest of the flow that reserved the slot,
else the oldest of all. -/
def Port.pick (p : Port) (slot : Nat) : Option Cell :=
  let control := if slot = 63 then p.queue.find? isControlCell else none
  let e := p.table.get 0 slot
  let reserved := if slot ≠ 63 ∧ bit e 8 then p.queue.find? fun c => c.flow == bits e 0 8 else none
  (control.or reserved).or p.queue.head?

/-- A port's slot: a frame begins with the table as written; at most 256 cells wait for acknowledgement (R317, R320). -/
def execFabricSlot (port slot : Nat) (s : State) : Res :=
  .next (let p := s.port port
    let p := if slot = 0 then { p with table := p.written } else p
    match p.pick slot with
    | some c =>
      if !p.up ∨ 256 ≤ p.replay.length then s.setPort port p
      else s.setPort port { p with queue := p.queue.erase c, replay := p.replay ++ [(p.lseq, c)], lseq := (p.lseq + 1) % 256 }
    | none => s.setPort port p)

/-! ### Replies (R319, R324) -/

def FCode.all : List FCode :=
  [.illegal, .packet, .landing, .align, .pageDev, .pageHost, .protect, .handleStale, .windowDeparted, .windowRange,
   .spaceEngine, .streamRead, .atomicUnsupported, .peerDown, .twinIsolated, .place, .regRange, .nestDepth, .svcArg,
   .handlerDouble, .eccUncorr, .brk, .poison, .windowDetached]
def FCode.ofNum (n : Nat) : FCode := (FCode.all.find? fun c => c.num == n).getD .illegal

/-- Sectors of a copy that left are to be written again, when their cell was not answered. -/
def State.unsend (s : State) (core id : Nat) (sectors : List Nat) : State :=
  match s.copyById core id with
  | some i =>
    let r := s.copyRec core i
    (s.setCopy core i { r with sent := r.sent.filter fun k => !sectors.contains k }).settleStop core i
  | none => s

/-! #### Replies for the original only (R380, R382)

While the state of a cut is still to be taken for another side, a reply that belongs to the original only ends its lane as ever, and the
cut keeps what the other side needs: the lane, whose outcome it does not know, and what the registers held. -/

/-- Whether the state of a gang is still to be taken for another side of a cut. -/
def State.twoSided (s : State) (gid : Nat) : Bool :=
  let t := s.team (gidTeam gid)
  !t.service && match (s.ctx t.ctx).cut with
    | some k => k.kind != .preempt && !k.captured
    | none => false

/-- A change of what a cut keeps of late replies. -/
def State.modLate (s : State) (gid : Nat) (f : LateReplies → LateReplies) : State :=
  s.modCtx (s.team (gidTeam gid)).ctx fun x => { x with cut := x.cut.map fun k => { k with late := f k.late } }

/-- The class of an operation in SA.UNKLIST: 0 load, 2 atomic (R384). -/
def Op.outcomeClass (o : Op) : Nat := match o.kind with
  | .atomic _ _ _ => 2
  | _ => 0

/-- What the registers that a lane's reply writes held at the cut: what the cut keeps of them already, or what they hold now. -/
def State.oldsOf (s : State) (gid : Nat) (o : Op) (a : LaneAcc) : List (Nat × Nat × Nat × W32) :=
  let kept := match (s.ctx (s.team (gidTeam gid)).ctx).cut with
    | some k => k.late.olds
    | none => []
  let regs := match o.kind with
    | .load d _ _ => loadedRegs d a.size
    | .atomic d _ _ => loadedRegs d a.size
    | _ => []
  regs.map fun r => (kept.find? fun x => x.1 == gid && x.2.1 == r && x.2.2.1 == a.lane).getD
    (gid, r, a.lane, Tab.get 0 ((s.gang gid).regs.v.get [] r) a.lane)

/-- A lane's value comes for the original only. -/
def State.deliverLate (s : State) (gid : Nat) (o : Op) (a : LaneAcc) (x : Nat) : State :=
  let olds := s.oldsOf gid o a
  (s.deliver gid o a x).modLate gid fun l =>
    { l with lanes := l.lanes ++ [(gid, o.seq, o.cycle, o.pc, o.outcomeClass, a)], olds := l.olds ++ olds }

/-- A lane fails for the original only, which meets the fault once the state has been taken. -/
def State.failLate (s : State) (gid : Nat) (o : Op) (a : LaneAcc) (f : FInfo) : State :=
  (s.finishLanes gid o [a.lane]).modLate gid fun l =>
    { l with lanes := l.lanes ++ [(gid, o.seq, o.cycle, o.pc, o.outcomeClass, a)]
             faults := l.faults ++ [(gid, o.sup, o.slices, o.pc, o.word, { f with lanes := 2 ^ a.lane })] }

/-- A store lane's acknowledgement comes for the original only. -/
def State.ackLate (s : State) (gid : Nat) (e : SqEntry) (a : LaneAcc) (f : Option FInfo) : State :=
  (s.ackLane (gidCore gid) e a.lane).modLate gid fun l =>
    { l with lanes := l.lanes ++ [(gid, e.seq, e.cycle, e.pc, 1, a)]
             faults := l.faults ++ f.toList.map fun f => (gid, e.sup, e.slices, e.pc, e.word, f) }

/-- A remote entry ends with a fault: the lane faults late, or its copy stops; one that ends because a part is down
leaves its copy to the departed member's own fault (R246, R324). `late`: for the original only. -/
def State.failRemote (s : State) (x : Remote) (code : FCode) (late : Bool) : State :=
  let s : State := { s with remotes := s.remotes.erase x }
  match x.what with
  | .load gid seq lane =>
    match s.findOp gid seq lane with
    | some (o, a) =>
      let f : FInfo := { code := code, acc := o.outcomeClass, addr := a.addr }
      if late ∧ s.twoSided gid then s.failLate gid o a f else s.failLanes gid o [lane] f false
    | none => s
  | .store gid seq lane =>
    match s.findStore gid seq lane with
    | some (e, a) =>
      let f : FInfo := { code := code, acc := 1, addr := a.addr, lanes := 2 ^ lane }
      if late ∧ s.twoSided gid then s.ackLate gid e a (some f)
      else (s.lateFault gid e.sup e.slices e.pc e.word f).ackLane (gidCore gid) e lane
    | none => s
  | .copyRead core id ps =>
    match s.copyById core id with
    | some i =>
      if code = .peerDown ∨ (s.copyRec core i).state ≠ .running then s
      else s.stopCopy core i false code (((s.copyRec core i).src.byteAt (ps.headD 0)).getD 0) id
    | none => s
  | .copyWrite core id sectors _ =>
    match s.copyById core id with
    | some i =>
      if code = .peerDown ∨ (s.copyRec core i).state ≠ .running then s.unsend core id sectors
      else
        let a := (((s.copyRec core i).sectorBytes (sectors.headD 0)).map (·.2)).headD 0
        (s.unsend core id sectors).stopCopy core i true code a id
    | none => s
  | .svcRead gid lane k => s.modGang gid fun g => { g with svcHeld := g.svcHeld.set (256 * lane + k) 0 }
  | .svcBack _ _ _ => s
  | .flag => s
  | .streamWrite _ _ => s

/-- A remote entry answered with success; `late`: for the original only. -/
def State.answerRemote (s : State) (x : Remote) (data : Nat) (late : Bool) : State :=
  let s : State := { s with remotes := s.remotes.erase x }
  match x.what with
  | .load gid seq lane =>
    match s.findOp gid seq lane with
    | some (o, a) =>
      let v := data % 256 ^ a.size
      if late ∧ s.twoSided gid then s.deliverLate gid o a v else s.deliver gid o a v
    | none => s
  | .store gid seq lane =>
    match s.findStore gid seq lane with
    | some (e, a) => if late ∧ s.twoSided gid then s.ackLate gid e a none else s.ackLane (gidCore gid) e lane
    | none => s
  | .copyRead _ _ _ => s
  | .copyWrite core id sectors n => s.copyAcked core id sectors n
  | .svcRead gid lane k => s.modGang gid fun g => { g with svcHeld := g.svcHeld.set (256 * lane + k) (data % 256) }
  | .svcBack _ _ _ => s
  | .flag => s
  | .streamWrite _ _ => s

def State.remoteFor (s : State) (c : Cell) (e : RepEntry) : Option Remote :=
  s.remotes.find? fun x => x.part == c.src && x.plane == c.plane && x.seq == e.rseq && x.idx == e.idx

/-- Reply entries, in order. -/
def State.takeReply (s : State) (c : Cell) (e : RepEntry) : State :=
  match s.remoteFor c e with
  | some x =>
    if e.status = 0 then s.answerRemote x e.data (s.lateCell c) else s.failRemote x (FCode.ofNum e.status) (s.lateCell c)
  | none => s

/-! ### Requests (R316, R319, R322, R323) -/

/-- A member's scratch on this part, when the member is here in the cell's context. -/
def State.scratchOf (s : State) (c core tslot : Nat) : Option Nat :=
  let t := s.team (core * 16 + tslot)
  if t.valid ∧ t.ctx = c then some (core * 16 + tslot) else none

/-- Where a request entry's bytes lie here, or the code that refuses it. -/
def State.requestPlace (s : State) (c : Nat) (e : ReqEntry) : State × Except FCode (Nat × Loc) :=
  let acc := if e.eop = 3 then 2 else if e.eop = 2 then 1 else 0
  if e.win then
    let off := bits e.addr 0 22 * 4 + e.low
    match s.scratchOf c (bits e.addr 26 9) (bits e.addr 22 4) with
    | some t => if (s.team t).scratchSize < off + e.size then (s, .error .windowRange) else (s, .ok (off, .buf t .l off))
    | none => (s, .error .windowDeparted)
  else
    let va := 2 ^ 56 + bits e.addr 0 54 * 4 % 2 ^ 56 + e.low
    match s.translateIn 0 c va acc with
    | (s, .ok l) => (s, .ok (va, l))
    | (s, .error (k, _)) => (s, .error k)

/-- Where a byte of a LINE_WR lies here, or the code that refuses it: a member's scratch, or device-half memory (R316). -/
def State.linePlace (s : State) (c : Cell) (k : Nat) : State × Except FCode (Nat × Loc) :=
  if c.sp = 1 then
    let off := bits c.laddr 0 17 * 128 + k
    match s.scratchOf c.ctag (bits c.laddr 21 9) (bits c.laddr 17 4) with
    | some t => if (s.team t).scratchSize ≤ off then (s, .error .windowRange) else (s, .ok (0, .buf t .l off))
    | none => (s, .error .windowDeparted)
  else
    let va := c.laddr % 2 ^ 50 * 128 + k
    if !bit va 56 then (s, .error .protect)
    else match s.translateIn 0 c.ctag va 1 with
      | (s, .ok l) => (s, .ok (va, l))
      | (s, .error (f, _)) => (s, .error f)

/-- Whether an engine of this part owns the line of a place (R224). -/
def State.placeHeld (s : State) (c : Nat) : Except FCode (Nat × Loc) → Bool
  | .ok (_, l) => s.recalled c l (s.copyOrder + 1)
  | .error _ => false

/-- Whether a cut of a context is on, with its state still to be taken: a cell that comes now belongs before it (R380). -/
def State.cutOpen (s : State) (c : Nat) : Bool := match (s.ctx c).cut with
  | some k => !k.captured
  | none => false

/-- The new value a `cas` of 64 bits brings: DATA of the padding entry after it (log 75). -/
def nextData (es : List ReqEntry) : Nat := match es with
  | e :: _ => if e.eop = 0 then e.data else 0
  | [] => 0

/-- One request entry performed at its point of coherence, and its reply entry. -/
def State.serveRequest (s : State) (c rseq idx : Nat) (e : ReqEntry) (new : Nat) : State × RepEntry :=
  let bad (s : State) (k : FCode) : State × RepEntry := (s, ⟨0, rseq, k.num, idx, if e.eop = 2 then 5 else 4⟩)
  match s.requestPlace c e with
  | (s, .error k) => bad s k
  | (s, .ok (va, l)) =>
    let put (s : State) (v : Nat) : State := s.writeVa c (match l with
      | .buf _ _ _ => 0
      | _ => va) (s.cutOpen c) l e.size v
    let old := s.readLoc l e.size
    if e.eop = 1 then (s, ⟨old, rseq, 0, idx, 4⟩)
    else if e.eop = 2 then (put s (e.data % 256 ^ e.size), ⟨0, rseq, 0, idx, 5⟩)
    else
      match AtomOp.ofCode e.aop with
      | some op =>
        let narrow : Bool := op == .cas && e.size != 8
        (put s (atomNew op (8 * e.size) old (if narrow then e.data % 2 ^ 32 else e.data) (if narrow then e.data / 2 ^ 32 else new)),
          ⟨old, rseq, 0, idx, 4⟩)
      | none => bad s .illegal

/-- The request entries of a cell, in order, each as its 16 bytes spell it (R319). -/
def State.serveAll (s : State) (c : Cell) : Nat → List ReqEntry → State × List RepEntry
  | _, [] => (s, [])
  | i, e :: rest =>
    let e := unpackRequest (packRequest e)
    if e.eop ≠ 1 ∧ e.eop ≠ 2 ∧ e.eop ≠ 3 then s.serveAll c (i + 1) rest
    else
      let (s, r) := s.serveRequest c.ctag c.seq i e (nextData rest)
      let (s, l) := s.serveAll c (i + 1) rest
      (s, r :: l)

/-- A cell's requests performed and answered in one cell. -/
def State.serveCell (s : State) (c : Cell) (es : List ReqEntry) : State :=
  let (s, l) := s.serveAll c 0 es
  if l.isEmpty then s else s.reply c (cellClass c) l

/-- The cells before one whose lanes go on in it (R229). -/
def State.gathered (s : State) (c : Cell) : List Cell := s.gathering.filter fun d => d.src == c.src && d.plane == c.plane

/-- Whether a cell's lanes go on in the next of its source and plane (log 20). -/
def goesOn (c : Cell) : Bool := c.type == 0x04 && (match c.body with
  | .requests es => es.any fun e => e.eop == 0 && e.addr == 1
  | _ => false)

/-- Whether an access of a cell, or of those it completes, waits for an engine (R224). -/
def State.cellHeld (s : State) (c : Cell) : Bool :=
  let held (d : Cell) : Bool := match d.body with
    | .requests es => es.any fun e => e.eop != 0 && s.placeHeld d.ctag (s.requestPlace d.ctag (unpackRequest (packRequest e))).2
    | .line bytes _ => d.type == 0x01 && bytes.any fun x => s.placeHeld d.ctag (s.linePlace d x.1).2
    | _ => false
  !goesOn c && (c :: s.gathered c).any held

/-- A cell of one type, once it is accepted; one that must wait for an engine stands aside, and answers pass it. Another is left where
it is. -/
def State.onCell (s : State) (r : Rx) (type : Nat) (f : State → Cell → State) : Res :=
  .next (if r.cell.type ≠ type ∨ (r.port = 33 ∧ s.cellHeld r.cell) then s
    else match s.accept r with
      | (s, true) => if s.cellHeld r.cell then { s with deferred := s.deferred ++ [r.cell] } else f s r.cell
      | (s, false) => s)

/-- SMALL: requests are performed and answered, replies end what waits for them (R319, R324). -/
def execSmallReceive (r : Rx) (s : State) : Res :=
  s.onCell r 0x04 fun s c =>
    match c.body with
    | .requests es =>
      if goesOn c then { s with gathering := s.gathering ++ [c] }
      else
        let before := s.gathered c
        let s : State := { s with gathering := s.gathering.filter fun d => !before.contains d }
        let s := before.foldl (fun s d => match d.body with
          | .requests ds => s.serveCell d ds
          | _ => s) s
        s.serveCell c es
    | .replies es => es.foldl (fun s e => s.takeReply c e) s
    | _ => s

/-- The bytes of a LINE_WR, one after another; the first that cannot be written stops them. -/
def State.writeLine (s : State) (c : Cell) (place : Nat → State × Except FCode (Nat × Loc)) : List (Nat × Nat) → State × Option FCode
  | [] => (s, none)
  | (k, v) :: rest =>
    match place k with
    | (_, .error f) => (s, some f)
    | (_, .ok (va, l)) => (s.writeVa c.ctag va (s.cutOpen c.ctag) l 1 v).writeLine c place rest

/-- LINE_WR: its bytes go to a member's scratch, or to device-half memory, and count on the barrier of the copy; its
acknowledgement goes back (R243, R244, R316). -/
def execLineWrReceive (r : Rx) (s : State) : Res :=
  s.onCell r 0x01 fun s c =>
    match c.body with
    | .line given bar =>
      let bytes := given.filter fun (k, _) => bit c.arg (k / 16)
      let place (s : State) (k : Nat) : State × Except FCode (Nat × Loc) := s.linePlace c k
      -- every byte is checked before any is written
      match bytes.findSome? fun (k, _) => match place s k with
          | (_, .error f) => some f
          | _ => none with
      | some f => s.reply c .copy [⟨0, c.seq, f.num, 0, 5⟩]
      | none =>
        let s := (s.writeLine c (place s) bytes).1
        let s := match (if c.sp = 1 then s.scratchOf c.ctag (bits c.laddr 21 9) (bits c.laddr 17 4) else none) with
          | some t => if bar = 0 then s else s.modPhb t bar fun w => phbDeliver w bytes.length
          | none => s
        s.reply c .copy [⟨0, c.seq, 0, 0, 5⟩]
    | _ => s

/-- LINE_RQ: each line-read entry is answered with a LINE_DATA of the sectors it asks for, or with a reply that says why
not (R316, R319). -/
def execLineRqReceive (r : Rx) (s : State) : Res :=
  s.onCell r 0x02 fun s c =>
    match c.body with
    | .requests es => (es.zip (List.range es.length)).foldl (fun s (e, i) =>
        if e.eop ≠ 6 then s
        else
          let mask := bits e.data 56 8
          let secs := maskBits mask 8
          let laddr := bits e.addr 5 17 + bits e.addr 22 4 * 2 ^ 17 + bits e.addr 26 9 * 2 ^ 21
          match s.requestPlace c.ctag { e with eop := 1, low := 0, size := 1 } with
          | (s, .error f) => s.reply c .copy [⟨0, c.seq, f.num, i, 4⟩]
          | (s, .ok (va, l)) =>
            let bytes := secs.flatMap fun n => (List.range 16).map fun k => (16 * n + k, s.readLoc (l.plus (16 * n + k)) 1)
            s.sendCell { type := 0x03, dst := c.src, src := s.part, flow := s.flowOf c.ctag .copy, arg := mask, sp := c.sp
                         laddr := if e.win then laddr else va / 128, ctag := s.partnerTag c.ctag c.src, plane := c.plane
                         body := .line bytes 0 }) s
    | _ => s

/-- The window line a copy's read asked for. -/
def State.askedLine (s : State) (core id : Nat) (ps : List Nat) : Option Nat :=
  match s.copyById core id with
  | none => none
  | some i =>
    let r := s.copyRec core i
    match r.src.byteAt (ps.headD 0) with
    | none => none
    | some a => match s.sidePlace core (gidTeam r.gid) r.src 0 a with
      | (_, .ok (.remote _ rc rt off)) => some (off / 128 + rt * 2 ^ 17 + rc * 2 ^ 21)
      | _ => none

/-- LINE_DATA: the source bytes of the oldest copy that asked its part for that line have come (R316). -/
def execLineDataReceive (r : Rx) (s : State) : Res :=
  s.onCell r 0x03 fun s c =>
    let mine (x : Remote) : Bool := x.part == c.src && x.plane == c.plane && (match x.what with
      | .copyRead core id ps => s.askedLine core id ps == some c.laddr
      | _ => false)
    match c.body, s.remotes.find? mine with
    | .line bytes _, some x =>
      match x.what with
      | .copyRead core id ps =>
        let s : State := { s with remotes := s.remotes.erase x }
        match s.copyById core id with
        | none => s
        | some i =>
          let q := s.copyRec core i
          let got := ps.filterMap fun p => match q.src.byteAt p with
            | some a => (Tab.find bytes (a % 128)).map fun v => (p, v)
            | none => none
          s.setCopy core i { q with held := got.foldl (fun m (p, v) => Memory.write m p (BitVec.ofNat 8 v)) q.held
                                    come := q.come ++ got.map (·.1) }
      | _ => s
    | _, _ => s

/-! ### The link (R320, R321) -/

/-- A port that has gone down: its planes move, and its cells go the new way (R318, R320). -/
def State.portDown (s : State) (port : Nat) : State :=
  let p := s.port port
  let s := s.setPort port { p with up := false, queue := [], replay := [] }
  (p.replay.map (·.2) ++ p.queue).foldl (fun s c => s.modPort (s.portOf c.plane) fun q => { q with queue := q.queue ++ [c] }) s

/-- ACK: the cells up to that one leave the replay buffer. -/
def execLinkAck (port lseq : Nat) (s : State) : Res :=
  .next (let p := s.port port
    match p.replay.findIdx? fun x => x.1 == lseq with
    | some i => s.setPort port { p with replay := p.replay.drop (i + 1), resends := 0 }
    | none => s)

/-- A resend from a cell of the replay buffer onward: the eighth of one cell takes the port down. -/
def State.resendFrom (s : State) (port lseq : Nat) : State :=
  let p := s.port port
  if !(p.replay.any fun x => x.1 == lseq) then s
  else
    let n := if p.resentAt = lseq then p.resends + 1 else 1
    let s := s.setPort port { p with replays := min 65535 (p.replays + 1), resentAt := lseq, resends := n }
    if 8 ≤ n then s.portDown port else s

def execLinkNak (port lseq : Nat) (s : State) : Res := .next (s.resendFrom port lseq)

/-- No acknowledgement for 2 µs: the oldest cell is resent. -/
def execLinkReplayTimeout (port : Nat) (s : State) : Res :=
  .next (match (s.port port).replay with
    | x :: _ => s.resendFrom port x.1
    | [] => s)

/-- A cell whose header or body CRC fails is discarded and NAKed. -/
def execCellCrcFail (port : Nat) (header : Bool) (s : State) : Res :=
  .next (s.modPort port fun p =>
    if !p.up then p
    else if header then { p with hdrerr := min 65535 (p.hdrerr + 1), naking := true }
    else { p with bodyerr := min 65535 (p.bodyerr + 1), naking := true })

/-- A poisoned cell is discarded, acknowledged and counted (R321). -/
def execTailxReceive (port lseq : Nat) (s : State) : Res :=
  .next (s.modPort port fun p => if !p.up then p else p.poisoned lseq)

/-! ### Parts that are down (R308, R321, R324, R378) -/

/-- The members a part runs depart from every window copied here (R308, R312). -/
def State.departPart (s : State) (part : Nat) : State :=
  s.teams.foldl (fun s (k, _) =>
    match (s.team k).window with
    | some w =>
      if w.entries.any fun e => e.part == part && e.state != 3 then
        let s := s.modWindow k fun w => { w with entries := w.entries.map fun e => if e.part = part then e.become 3 else e }
        s.haltWbars k
      else s
    | none => s) s

/-- A part is declared down: its members depart, what it has not answered ends with PEER_DOWN, a cut or a pre-emption goes
on without it, and a snapshot that streams to it fails. -/
def State.partDown (s : State) (part : Nat) : State :=
  let s : State := { s with down := s.down ++ [part] }
  let s := (s.remotes.filter fun x => x.part == part).foldl (fun s x => s.failRemote x .peerDown true) s
  let s := s.departPart part
  -- it answers no change of state any more (R309)
  let s : State := { s with teams := s.teams.mapVals fun t => { t with window := t.window.map fun w =>
    { w with unapplied := w.unapplied.filter (· != part), unquiet := w.unquiet.filter (· != part)
             owes := w.owes.filter fun x => x.2 != part } } }
  s.ctxs.foldl (fun s (c, _) =>
    let s := (s.finishCut c).preemptDecide c
    let x := s.ctx c
    if x.snap.state = 3 ∧ s.placeOf c x.snap.partner = some part then s.snapFailAll c 3 else s) s

def execPeerDownTimeout (part : Nat) (s : State) : Res :=
  .next (if s.down.contains part ∨ part = s.part then s else s.partDown part)

/-- A remote lane has had no reply for 1 ms (R324). -/
def execRemoteReplyTimeout (part plane seq idx : Nat) (s : State) : Res :=
  .next (match s.remotes.find? fun x => x.part == part && x.plane == plane && x.seq == seq && x.idx == idx with
    | some x => s.failRemote x .peerDown true
    | none => s)

end Sys2Proof.Machine
end

