-- ==== Sys2Proof/Machine/HostSide.lean ====
section
/-! DEFINITION. What hosts and the fabric manager do to the part: fetching ahead (spec/05 R109), registers with no behaviour
of their own and reads that clear (spec/00 R13), host translations (R348), the timeline region (R343), links, binding,
resets, firmware download, attestation and the feature word (spec/24 R409 to R420). -/

namespace Sys2Proof.Machine

/-! ### Fetching ahead (R109, R357) -/

/-- A core reads a block ahead of its issue; a page that is not present or forbids it is counted, and sets no A; a host's answer is asked
for where there is none (R348). -/
def State.fetchAhead (s : State) (core c va : Nat) : State :=
  let base := va % 2 ^ 57 / 64 * 64
  if 388 ≤ core ∨ !(s.ctx c).bound then s
  else match State.translateIn { s with hostWho := none } core c base 3 with
    | (_, .ok l) => if s.atomicHeld l then s else s.modCore core fun k =>
        { k with fetched := k.fetched.filter (fun (x : Nat × Nat × Nat) => x.1 != c || x.2.1 != base) ++ [(c, base, s.readLoc l 64)] }
    | (t, .error _) => if t.hostNeed = s.hostNeed then s.specMiss core c else s.lookingAhead core c t.hostNeed

def execFetchBlock (core c va : Nat) (s : State) : Res := .next (s.fetchAhead core c va)

/-! ### Reads that clear (R13) -/

def State.answer (s : State) (v : Nat) : State := { s with hostRead := BitVec.ofNat 64 v }

/-- Whether a context's blocks stand in a logical device's space (R355). -/
def State.ownsCtx (s : State) (ld c : Nat) : Bool := (s.ctx c).bound && (s.ctx c).ld == ld

def execTlStaleRead (ld : Nat) (s : State) : Res :=
  .next ((s.modLdev ld fun d => { d with tlStale := 0 }).answer (s.ldev ld).tlStale)
def execFqLostRead (ld c : Nat) (s : State) : Res :=
  .next (if s.ownsCtx ld c then (s.modCtx c fun x => { x with fqLost := 0 }).answer (s.ctx c).fqLost else s.answer 0)
def execFqSpecRead (ld c : Nat) (s : State) : Res :=
  .next (if s.ownsCtx ld c then (s.modCtx c fun x => { x with fqSpec := 0 }).answer (s.ctx c).fqSpec else s.answer 0)

/-- HOST.ASTAT (R334). -/
def LogDev.astat (d : LogDev) : Nat := d.abort % 2 ^ 16 + d.unsup % 2 ^ 16 * 2 ^ 16 + d.fallback % 2 ^ 16 * 2 ^ 32 + d.ur % 2 ^ 16 * 2 ^ 48
def execHostAstatRead (ld : Nat) (s : State) : Res :=
  .next ((s.modLdev ld fun d => { d with ur := 0, fallback := 0, unsup := 0, abort := 0 }).answer (s.ldev ld).astat)

/-- The counters of a port (R320). -/
def Port.counters (p : Port) : Nat :=
  p.badcell % 2 ^ 8 + p.poison % 2 ^ 8 * 2 ^ 8 + p.replays % 2 ^ 16 * 2 ^ 16 + p.bodyerr % 2 ^ 16 * 2 ^ 32 + p.hdrerr % 2 ^ 16 * 2 ^ 48
def execPortCounterRead (port : Nat) (s : State) : Res :=
  .next (if 32 ≤ port then s.answer 0
    else (s.modPort port fun p => { p with hdrerr := 0, bodyerr := 0, replays := 0, poison := 0, badcell := 0 }).answer
      (s.port port).counters)

/-! ### Registers with no behaviour of their own (R13) -/

/-- A register of 64 bits with one 32-bit half changed. -/
def putHalf (old hi : Nat) (f : Nat → Nat) : Nat := setBits old (32 * hi) 32 (f (bits old (32 * hi) 32))

/-- The fields of Q.CQCTL that are written (R81). -/
def cqctlMask : Nat := (2 ^ 36 - 1) * 2 ^ 12 - 3 * 2 ^ 17

/-- 32 bits of a queue's block (R65, R66): kept as written, reserved fields of Q.CQCTL apart; while ENABLE is 1 the write is
counted as stale (R67), once for a write that covers both halves of a register (`more`: this is its second half). The
registers with a behaviour have events of their own. -/
def State.queueDword (s : State) (q off : Nat) (more : Bool) (f : Nat → Nat) : State :=
  let x := s.queue q
  let hi := off / 4 % 2
  let r := off / 8
  if off = 8 then s.ctlWrite q (f (x.tl + x.logsize * 2 ^ 16 + x.compat.toNat * 2 ^ 30 + x.enable.toNat * 2 ^ 31))
  else if r = 0 ∨ r = 4 ∨ r = 6 ∨ r = 7 then
    if x.enable then (if more then s else s.modQueue q Queue.countStale)
    else s.setQueue q
      (if r = 0 then { x with base := putHalf x.base hi f } else if r = 4 then { x with headwb := putHalf x.headwb hi f }
       else if r = 6 then { x with cqbase := putHalf x.cqbase hi f }
       else { x with cqctl := putHalf x.cqctl hi f &&& cqctlMask })
  else s

/-- A reservation entry as a register shows it; it is held as FLOW and, above it, VALID (R317). -/
def slotWord (e : Nat) : Nat := e % 256 + (bit e 8).toNat * 2 ^ 31

/-- 32 bits of the management space (R410): the reservation tables by the management driver and the firmware core (R317),
tenants by the firmware core (R96). -/
def State.mgmtDword (s : State) (fw : Bool) (off : Nat) (f : Nat → Nat) : State :=
  if 0x2000 ≤ off ∧ off < 0x2080 then
    let n := (off - 0x2000) / 8
    if !fw ∨ off % 8 ≠ 0 then s
    else
      let t := s.tenants.get {} n
      let v := f (t.weight + t.enabled.toNat * 2 ^ 8 + t.gangmax * 2 ^ 16)
      { s with tenants := s.tenants.set n { gangmax := bits v 16 7, enabled := bit v 8, weight := max 1 (bits v 0 8) } }
  else if 0x4000 ≤ off ∧ off < 0x6000 then
    let p := (off - 0x4000) / 256
    let slot := off % 256 / 4
    s.modPort p fun x =>
      let v := f (slotWord (x.written.get 0 slot))
      if slot = 63 ∧ bit v 31 then x
      else { x with written := x.written.set slot (v % 256 + (bit v 31).toNat * 2 ^ 8) }
  else s

/-- 32 bits of a context's blocks: FQ.CONS and FQ.VEC (R355), GS.SEL (R356), CC.CTL.BRKMODE and CC.TWREC (R393). -/
def State.ctxDword (s : State) (ld off : Nat) (f : Nat → Nat) : State :=
  let on (c : Nat) (g : Ctx → Ctx) : State := if s.ownsCtx ld c then s.modCtx c g else s
  if 0x1000 ≤ off ∧ off < 0x1800 then
    on ((off - 0x1000) / 32) fun x =>
      if off % 32 = 4 then { x with fqCons := f x.fqCons } else if off % 32 = 0xc then { x with fqVec := f x.fqVec % 2 ^ 11 } else x
  else if 0x1800 ≤ off ∧ off < 0x1c00 then
    on ((off - 0x1800) / 16) fun x => if off % 16 = 0 then { x with gsSel := f x.gsSel % 2 ^ 17 } else x
  else
    let c := (off - 0x3000) / 64
    on c fun x =>
      if off % 64 = 0 then { x with brkmode := bit (f (x.brkmode.toNat * 2 ^ 9)) 9 && s.feature c 3 }
      else if off % 64 / 8 = 2 then { x with twrec := putHalf x.twrec (off / 4 % 2) f } else x

/-- The bits of FLOWS, PARTNER and storage channels that are written; reserved ones read zero (R14, R413, R414). -/
def plainMask (off : Nat) : Nat :=
  if off < 0x4200 then (if off % 8 = 4 then 0 else 2 ^ 32 - 1)
  else if 0x8000 ≤ off then 0xbfbfbfbf
  else if off % 32 = 4 then 0xffff0003 else 2 ^ 32 - 1

/-- 32 bits written at an offset of a logical device's register space; `f` makes the new value from the old. Logical device
16 stands for the firmware core, which reaches the management space (R96, R317). `more`: the same write has changed the 32
bits before these. -/
def State.writeDword (s : State) (ld off : Nat) (more : Bool) (f : Nat → Nat) : State :=
  let hi := off / 4 % 2
  if 0x800000 ≤ off ∧ off < 0x900000 then
    if ld = 0 ∨ ld = 16 then s.mgmtDword (ld == 16) (off - 0x800000) f else s
  else if 16 ≤ ld then s
  else if 0x100000 ≤ off ∧ off < 0x500000 then
    let q := (off - 0x100000) / 4096
    if (off - 0x100000) % 4096 < 64 then s.onQueue ld q fun s => s.queueDword q (off % 4096) (more && off % 8 == 4) f else s
  else if (0x1000 ≤ off ∧ off < 0x1c00) ∨ (0x3000 ≤ off ∧ off < 0x4000) then s.ctxDword ld off f
  else if (0x4000 ≤ off ∧ off < 0x4200) ∨ (0x6000 ≤ off ∧ off < 0x10000) then
    s.modLdev ld fun d => { d with regs := d.regs.writeLE off 4 (f (d.regs.readLE off 4) &&& plainMask off) }
  else if 0x150 ≤ off ∧ off < 0x160 then
    s.modLdev ld fun d =>
      let k := (off - 0x150) / 4
      { d with featReq := setBits d.featReq (32 * k) 32 (f (bits d.featReq (32 * k) 32)) }
  else if off / 8 * 8 = 0x180 ∧ ld = 0 then { s with fw := { s.fw with addr := putHalf s.fw.addr hi f } }
  else if off / 8 * 8 = 0x1a0 then s.modLdev ld fun d => { d with atAddr := putHalf d.atAddr hi f }
  else s

/-- A write of `n` bytes, 32 bits at a time, low first. -/
def State.writeRegs (s : State) (ld off v : Nat) : Nat → State
  | 0 => s
  | n + 1 =>
    let k := off % 4
    let m := min (4 - k) (n + 1)
    let s := s.writeDword ld (off - k) false fun old => setBits old (8 * k) (8 * m) v % 2 ^ 32
    -- the rest starts at the next 32 bits
    if n + 1 ≤ m then s
    else
      let k2 := min 4 (n + 1 - m)
      let s := s.writeDword ld (off - k + 4) true fun old => setBits old 0 (8 * k2) (v / 2 ^ (8 * m)) % 2 ^ 32
      if n + 1 ≤ m + k2 then s
      else s.writeDword ld (off - k + 8) true fun old => setBits old 0 (8 * (n + 1 - m - k2)) (v / 2 ^ (8 * (m + k2))) % 2 ^ 32

/-- Registers that only hold what is written: their RW fields take it, read-only ones ignore it (R13); up to 8 bytes. -/
def execRegisterWrite (ld off n v : Nat) (s : State) : Res := .next (s.writeRegs ld off v (min n 8))

/-- FW.ERR.VALID is cleared by a 1 (R74). -/
def execFwErrClear (s : State) : Res := .next { s with fw := { s.fw with errValid := false } }

/-! ### What a register read shows (R13); a field that a read clears is only looked at here -/

/-- FW.ERR (R74) and FW.STAT (R417). -/
def Firmware.errWord (f : Firmware) : Nat := f.errAddr % 2 ^ 18 + f.errValid.toNat * 2 ^ 63
def Firmware.stat (f : Firmware) : Nat := f.state % 8 + f.err % 256 * 2 ^ 24 + f.version % 2 ^ 32 * 2 ^ 32
/-- PWR.STAT (R99). -/
def State.pwrStat (s : State) : Nat :=
  min 1023 s.power.fifo.length + s.power.throttle.toNat * 2 ^ 15 + s.power.pool % 2 ^ 12 * 2 ^ 16 + s.granted % 2 ^ 12 * 2 ^ 32
/-- DSP.WAIT (R101): microseconds at 700 cycles each. -/
def State.dspWait (s : State) (ld : Nat) : Nat :=
  let mine := s.pending.filter fun k => (s.ctx (s.grid k).ctx).ld == ld
  let waits := mine.map fun k => (s.cycle.toNat + 2 ^ 64 - (s.grid k).since) % 2 ^ 64 / 700
  min 65535 mine.length + min (2 ^ 32 - 1) (waits.foldl max 0) * 2 ^ 32
/-- TEN.CFG (R96), HOST.CFG (R333), LD.CFG (R412), LD.QCFG (R441), AT.CTL (R418), FEAT.CTL (R419). -/
def Tenant.word (t : Tenant) : Nat := t.weight % 256 + t.enabled.toNat * 2 ^ 8 + t.gangmax % 128 * 2 ^ 16
def LogDev.hostCfg (d : LogDev) : Nat := d.aroute % 4 + d.cache.toNat * 2 ^ 7
def LogDev.ldCfg (d : LogDev) (ld : Nat) : Nat :=
  ld + d.bound.toNat * 2 ^ 4 + d.link % 2 * 2 ^ 8 + (if d.bound then d.width % 32 * 2 ^ 12 else 0) + d.rate % 8 * 2 ^ 17 +
    d.tlfirst % 4096 * 2 ^ 20 + d.tlcount % 8192 * 2 ^ 32
def LogDev.qCfg (d : LogDev) : Nat := d.qfirst % 1024 + d.qcount % 2048 * 2 ^ 10
/-- GS.CTL of the gang a context's GS.SEL names (R356). -/
def State.gsCtl (s : State) (c : Nat) : Nat :=
  match s.selected c with
  | none => 0
  | some gid =>
    let g := s.gang gid
    let lanes := g.laneMask g.sliceKeys fun x => (if x.halted then x.live else 0) ||| x.hgLanes
    1 + g.swapped.toNat * 2 + (g.slices.any fun x => x.2.sup && !x.2.ended).toNat * 4 + (lanes != 0).toNat * 8 + lanes % 2 ^ 32 * 2 ^ 12
/-- FEAT.CAP: every feature of R419 (log 9). -/
def featCap : Nat := 0x7f

/-- 64 bits of a queue's block (R65). -/
def Queue.word (x : Queue) (off : Nat) : Nat :=
  if off = 0 then x.base
  else if off = 8 then x.tl + x.logsize * 2 ^ 16 + x.compat.toNat * 2 ^ 30 + x.enable.toNat * 2 ^ 31 + x.stat * 2 ^ 32
  else if off = 0x10 then x.tail.toNat + x.head.toNat * 2 ^ 32
  else if off = 0x18 then x.stale + x.cqhead.toNat * 2 ^ 32
  else if off = 0x20 then x.headwb else if off = 0x28 then x.cxb else if off = 0x30 then x.cqbase else if off = 0x38 then x.cqctl else 0

/-- 64 bits of the management space (R410). -/
def State.mgmtWord (s : State) (off : Nat) : Nat :=
  if 0x2000 ≤ off ∧ off < 0x2080 then (s.tenants.get {} ((off - 0x2000) / 8)).word
  else if 0x4000 ≤ off ∧ off < 0x6000 then
    let e (o : Nat) : Nat := slotWord ((s.port ((o - 0x4000) / 256)).written.get 0 (o % 256 / 4))
    e off + e (off + 4) * 2 ^ 32
  else 0

/-- 64 bits of a context's blocks (R355, R356, R393, R400). -/
def State.ctxWord (s : State) (ld off : Nat) : Nat :=
  let on (c : Nat) (f : Ctx → Nat) : Nat := if s.ownsCtx ld c then f (s.ctx c) else 0
  if off < 0x1800 then
    on ((off - 0x1000) / 32) fun x =>
      let r := off % 32
      if r = 0 then x.fqProd + x.fqCons * 2 ^ 32 else if r = 8 then x.fqLost + x.fqVec * 2 ^ 32 else if r = 0x10 then x.fqSpec else 0
  else if off < 0x2000 then
    on ((off - 0x1800) / 16) fun x => if off % 16 = 0 then x.gsSel else s.gsCtl ((off - 0x1800) / 16)
  else if off < 0x3000 then on ((off - 0x2000) / 64) fun x => x.snap.reg (off % 64)
  else
    on ((off - 0x3000) / 64) fun x =>
      let r := off % 64
      if r = 0 then x.brkmode.toNat * 2 ^ 9 else if r = 8 then s.ccStat ((off - 0x3000) / 64) else if r = 0x10 then x.twrec
      else if r = 0x18 then x.mema else 0

/-- The 64 bits at an 8-byte aligned offset of a logical device's register space. -/
def State.regWord (s : State) (ld off : Nat) : Nat :=
  let d := s.ldev ld
  if 0x800000 ≤ off ∧ off < 0x900000 then (if ld = 0 then s.mgmtWord (off - 0x800000) else 0)
  else if 0x100000 ≤ off ∧ off < 0x500000 then
    let q := (off - 0x100000) / 4096
    if s.queueOwner q = some ld then (s.queue q).word (off % 4096) else 0
  else if 0x1000 ≤ off ∧ off < 0x1c00 then s.ctxWord ld off
  else if 0x2000 ≤ off ∧ off < 0x4000 then s.ctxWord ld off
  else if (0x4000 ≤ off ∧ off < 0x4200) ∨ (0x6000 ≤ off ∧ off < 0x10000) then d.regs.readLE off 8
  else if 0x200 ≤ off ∧ off < 0x300 then (s.port ((off - 0x200) / 8)).counters
  else if off = 0x100 then s.fw.errWord
  else if off = 0x108 then (s.tenants.get {} ld).word
  else if off = 0x110 then s.pwrStat
  else if off = 0x118 then s.dspWait ld
  else if off = 0x120 then d.hostCfg
  else if off = 0x128 then d.astat
  else if off = 0x130 then d.ldCfg ld
  else if off = 0x140 then featCap
  else if off = 0x150 ∨ off = 0x158 then bits d.featReq (64 * (off / 8 % 2)) 64
  else if off = 0x160 ∨ off = 0x168 then bits d.featOn (64 * (off / 8 % 2)) 64
  else if off = 0x170 then d.featDone.toNat * 2
  else if off = 0x180 then (if ld = 0 then s.fw.addr else 0)
  else if off = 0x190 then (if ld = 0 then s.fw.stat else 0)
  else if off = 0x198 then (if ld = 0 then s.power.pool else 0)
  else if off = 0x1a0 then d.atAddr
  else if off = 0x1a8 then d.atDone.toNat * 2 ^ 8
  else if off = 0x1b0 then d.tlStale
  else if off = 0x1b8 then d.qCfg
  else 0

/-! ### Host translations (R348) -/

/-- A well-formed answer: one of the three page sizes, aligned, in the host half. -/
def HostMap.ok? (m : HostMap) : Bool :=
  (m.size == 2 ^ 12 || m.size == 2 ^ 21 || m.size == 2 ^ 30) && m.vbase % m.size == 0 && m.hbase % m.size == 0 &&
  decide (m.vbase + m.size ≤ 2 ^ 56)

/-- A host's answer to a translation request: it takes the place of what was cached for its page; one that grants nothing is a refusal,
or says that the page is not present, and is kept for the accesses that wait for it, not cached (R348, R376); a look-ahead that waits
is dropped and counted (R357). -/
def execHostTranslationAnswer (m : HostMap) (s : State) : Res :=
  .next (let mine (p : Nat × Nat) : Bool := p.1 == m.ld && decide (m.vbase ≤ p.2 * 4096) && decide (p.2 * 4096 < m.vbase + m.size)
    if !m.ok? then s
    else
      let waits := s.hostWaits.filter fun w => mine w.2
      let s : State := { s with hostAsked := s.hostAsked.filter fun p => !mine p, hostWaits := s.hostWaits.filter fun w => !mine w.2 }
      if !m.r && !m.w && !m.x then
        (waits.filter fun w => w.1.kind == 3).foldl (fun s w => s.specMiss (w.1.team - 2 ^ 32) w.1.n)
          { s with hostDenied := s.hostDenied ++ waits.filter fun w => w.1.kind != 3 }
      else { s with hostDenied := s.hostDenied.filter (fun w => !mine w.2), hostMaps := (s.hostMaps.filter fun x =>
        x.ld != m.ld || decide (x.vbase + x.size ≤ m.vbase) || decide (m.vbase + m.size ≤ x.vbase)) ++ [m] })

/-- Whether an access already translated to a page of the host has not been performed. -/
def State.hostPending (s : State) (m : HostMap) : Bool :=
  let hits (l : List LaneAcc) : Bool := l.any fun a => match a.loc with
    | .host ld ha => ld == m.ld && decide (m.hbase < ha + a.size) && decide (ha < m.hbase + m.size)
    | _ => false
  s.gangs.any (fun (_, g) => g.ops.any (fun o => hits o.lanes) || g.sq.any fun e => hits e.lanes) ||
  s.cores.any fun (_, k) => k.wp.any fun e => hits e.lanes

/-- The invalidation of the translation of an address: dropped, once every access translated through it has been
performed. -/
def execHostTranslationInvalidate (ld va : Nat) (s : State) : Res :=
  .next (match s.hostMaps.find? fun m => m.ld == ld && decide (m.vbase ≤ va) && decide (va < m.vbase + m.size) with
    | some m => if s.hostPending m then s else { s with hostMaps := s.hostMaps.erase m }
    | none => s)

/-! ### The timeline region (R76, R77, R343) -/

/-- The timeline whose line holds a byte of a logical device's region (R412). -/
def State.timelineAt (s : State) (ld off : Nat) : Option Nat :=
  let d := s.ldev ld
  if d.bound ∧ off < 64 * d.tlcount then some (d.tlfirst + off / 64) else none

/-- Eight bytes read at an aligned offset of the region: the line is answered in shared state. -/
def execTimelineHostRead (ld off : Nat) (s : State) : Res :=
  .next (match s.timelineAt ld off with
    | none => s
    | some k =>
      let s : State := { s with tlShared := if s.tlShared.contains k then s.tlShared else s.tlShared ++ [k] }
      s.answer (if off % 64 / 8 = 0 then (Tab.get 0 s.timelines k).toNat else 0))

/-- A store, or a request for ownership: nothing is written, and it is counted. -/
def execTimelineHostStore (ld off : Nat) (s : State) : Res :=
  .next (match s.timelineAt ld off with
    | none => s
    | some _ => s.modLdev ld fun d => { d with tlStale := min (d.tlStale + 1) (2 ^ 32 - 1) })

/-! ### Links and binding (R409, R411, R412) -/

/-- An AtomicOp that its link's failure has ended: its lanes fault POISON with detail 0xfe (R411). -/
def State.loseAtomicOp (s : State) (x : AtomicOp) : State :=
  let s : State := { s with atomics := s.atomics.filter (· != x) }
  match (s.gang x.gid).ops.find? fun o => o.seq == x.seq with
  | none => s
  | some o =>
    let addr := (((o.lanes.filter fun a => x.lanes.contains a.lane).map (·.addr)).head?).getD 0
    s.failLanes x.gid o x.lanes { code := .poison, detail := 0xfe, acc := 2, addr := addr } true

/-- A link's lanes and rate, as R412 bounds them. -/
def trainedOk (width rate : Nat) : Bool := decide (1 ≤ width) && decide (width ≤ 16) && decide (rate < 4)

/-- A PCI Express link goes down: its logical devices move to the other (R411), whose lanes and rate every device then shows (R412). -/
def execHostLinkDown (link : LinkDown) (s : State) : Res :=
  .next (if !trainedOk link.width link.rate then s
    else
      let on (ld : Nat) : Bool := (s.ldev ld).bound && (s.ldev ld).link == link.down.val
      let lost := s.atomics.filter fun x => on x.ld
      let s : State := { s with lds := s.lds.map fun (k, d) =>
        if d.bound then (k, { d with link := 1 - link.down.val, width := link.width, rate := link.rate }) else (k, d) }
      lost.foldl (fun s x => s.loseAtomicOp x) s)

/-- What a bind says (R409, R412, R441). -/
def State.bindOk (s : State) (ld host : Nat) (d : LogDev) : Bool :=
  let others := s.lds.filter fun x => x.2.bound
  let apart (a n b m : Nat) : Bool := n == 0 || m == 0 || decide (a + n ≤ b) || decide (b + m ≤ a)
  decide (ld < 16) && !(s.ldev ld).bound && !(others.any fun x => x.2.host == host) && (ld != 0 || others.isEmpty) &&
  decide (d.tlfirst + d.tlcount ≤ 4096) && decide (d.qfirst + d.qcount ≤ 1024) && trainedOk d.width d.rate &&
  others.all fun x => apart d.tlfirst d.tlcount x.2.tlfirst x.2.tlcount && apart d.qfirst d.qcount x.2.qfirst x.2.qcount

/-- The fabric manager binds a logical device: refused for a host that has one, or for device 0 after another (R409). -/
def execLdBind (ld host : Nat) (link : Fin 2) (width rate tlfirst tlcount qfirst qcount : Nat) (cache : Bool) (s : State) : Res :=
  .next (let d : LogDev := { s.ldev ld with bound := true, host := host, link := link.val, width := width, rate := rate
                                            tlfirst := tlfirst, tlcount := tlcount, qfirst := qfirst, qcount := qcount, cacheBound := cache }
    if s.bindOk ld host d then s.setLdev ld d else s)

/-! ### Resets (R415) -/

/-- Everything at its reset value; what is not the part's own stays: its fabric address and the hosts' memory. -/
def State.coldState (s : State) : State := { State.reset with part := s.part, hmem := s.hmem }
def execColdReset (s : State) : Res := .next s.coldState

/-- DEV.RESET [0], written by the management logical device: as cold, with the bindings kept. -/
def LogDev.afterReset (d : LogDev) : LogDev :=
  { bound := d.bound, host := d.host, cacheBound := d.cacheBound, link := d.link, width := d.width, rate := d.rate
    tlfirst := d.tlfirst, tlcount := d.tlcount, qfirst := d.qfirst, qcount := d.qcount }
def execWarmReset (ld v : Nat) (s : State) : Res :=
  .next (if ld = 0 ∧ bit v 0 then { s.coldState with lds := s.lds.mapVals LogDev.afterReset } else s)

/-- Zeroing ends; FW.STAT is HELD. -/
def execMemoryZeroDone (s : State) : Res := .next { s with fw := { s.fw with zeroing := false } }

/-- The members a context's teams are depart from their windows (R308, R415). -/
def State.departCtx (s : State) (c : Nat) : State :=
  (s.ctxTeams c).foldl (fun s t => match s.windowOf t, (s.team t).member with
    | some w, some m => if w.reel then s.setMember t m 3 else s
    | _, _ => s) s

/-- A context given up by its device's reset: nothing of it is placed any more, no grid of it raises, its gangs end, and it
is free once its issued stores and copies have completed. -/
def State.giveUp (s : State) (c : Nat) : State :=
  let s := s.departCtx c
  let s : State := { s with grids := s.grids.mapVals fun g => if g.ctx = c then { g with queue := none } else g
                            reels := s.reels.filter fun h => h.ctx != c
                            holds := s.holds.filter fun h => h.ctx != c || h.committed
                            reserveQ := s.reserveQ.filter fun h => h.ctx != c }
  (s.modCtx c fun x => { x with cut := none, snap := {}, fqProd := 0, fqCons := 0, fqLost := 0, fqVec := 0, fqSpec := 0, gsSel := 0
                                brkmode := false, twrec := 0, mema := 0, preempting := false }).startDiscard c

/-- What stands in the register space of the management logical device and belongs to the whole part: FW.ADDR, PWR.CAP and the
reservation tables return to reset values with it (R317, R415, R420); TEN.CFG, which the firmware core alone writes for all tenants, keeps
its values (R96, log 108). -/
def State.resetMgmt (s : State) : State :=
  { s with fw := { s.fw with addr := 0 }, power := { s.power with pool := 3520 }
           ports := s.ports.mapVals fun p => { p with written := [] } }

/-- Function-level reset of one logical device (R415). -/
def State.resetLd (s : State) (ld : Nat) : State :=
  let d := s.ldev ld
  let cs := (s.ctxs.filter fun x => x.2.bound && x.2.ld == ld).map (·.1)
  let qs := (s.queues.filter fun x => decide (d.qfirst ≤ x.1) && decide (x.1 < d.qfirst + d.qcount)).map (·.1)
  let s := qs.foldl (fun s q => if (s.queue q).enable then s.disableQueue q else s) s
  -- twins first, then their originals
  let s := (cs.filter fun c => s.isTwin c).foldl (fun s c => s.giveUp c) s
  let s := (cs.filter fun c => !s.isTwin c).foldl (fun s c => s.giveUp c) s
  let s := qs.foldl (fun s q => s.setQueue q {}) s
  let s : State := { s with timelines := s.timelines.filter fun x => !d.ownsTl x.1, raises := s.raises.filter fun r => !d.ownsTl r.tl }
  (if ld = 0 then s.resetMgmt else s).setLdev ld d.afterReset

def execLogicalDeviceReset (ld : Nat) (s : State) : Res := .next (if (s.ldev ld).bound then s.resetLd ld else s)

/-! ### Firmware (R416, R417) -/

/-- The firmware core as it starts: 64 lanes at address 0 (R68, R71, R417). -/
def fwGang : Gang :=
  { resident := true, nslices := 16, vregs := 128
    slices := (List.range 16).map fun k => (k, { mask := 15, live := 15 }) }

/-- `n` pages of a host's memory from a page-aligned virtual address on; none when one cannot be read, or has no answer yet (R348). -/
def State.hostPages (s : State) (ld va : Nat) : Nat → State × Option Memory
  | 0 => (s, some [])
  | n + 1 =>
    match s.hostPages ld va n with
    | (s, none) => (s, none)
    | (s, some m) =>
      match s.translateHost ld (va + 4096 * n) 0 with
      | (s, .ok (.host _ ha)) => (s, some (m.paste (4096 * n) 4096 (Memory.slice (s.hmem.get [] ld) ha 4096)))
      | (s, _) => (s, none)

/-- FW.CTL with OP 1: accepted in HELD, STOPPED and FAILED. -/
def State.fwErr (s : State) (e : Nat) : State := { s with fw := { s.fw with err := e } }
def execFirmwareLoad (ld : Nat) (s : State) : Res :=
  .next (if ld ≠ 0 then s
    else if s.fw.zeroing ∨ s.fw.state = 1 ∨ s.fw.state = 2 then s.fwErr 5
    else { s with fw := { s.fw with state := 1 } })

/-- FW.CTL with OP 2: accepted in RUNNING; the core stops at the end of its visit. -/
def execFirmwareStop (ld : Nat) (s : State) : Res :=
  .next (if ld ≠ 0 then s
    else if s.fw.state ≠ 2 then s.fwErr 5
    else { s with fw := { s.fw with stopping := true } })

/-- Bytes as one number that also tells how many they are. -/
def bytesKey (m : Memory) (a n : Nat) : Nat := m.readLE a n + 256 ^ n

/-- The header of an image, when it is good (R416): body bytes and signature bytes. -/
def imageHeader (m : Memory) : Option (Nat × Nat) :=
  let len := m.readLE 0x008 8
  let sig := m.readLE 0x018 8
  if m.readLE 0 4 ≠ 1 ∨ len % 64 ≠ 0 ∨ len < 64 ∨ 262144 < len ∨ sig < 1 ∨ 1280 < sig ∨
     (m.any fun x => decide (0x020 + sig ≤ x.1) && decide (x.1 < 0x600)) then none
  else some (len, sig)

/-- The digest of an image, over its first 32 bytes and its body (R416). -/
def imageDigest (m : Memory) (len : Nat) : Nat :=
  shake256 (Memory.readLE (Memory.paste (m.slice 0 0x20) 0x20 len (m.slice 0x600 len)) 0 (0x20 + len)) (0x20 + len)

/-- The error an image has, least first, or its body, digest and version (R417; log 35 for the order). -/
def State.imageBad (s : State) : State × Except Nat (Memory × Nat × Nat) :=
  match s.hostPages 0 s.fw.addr 1 with
  | (s, none) => (s, .error 4)
  | (s, some m) =>
    match imageHeader m with
    | none => (s, .error 1)
    | some (len, sig) =>
      match s.hostPages 0 s.fw.addr ((0x600 + len + 4095) / 4096) with
      | (s, none) => (s, .error 4)
      | (s, some m) =>
        let d := imageDigest m len
        (s, if !Config.signatureGood d (bytesKey m 0x020 sig) then .error 2
          else if m.readLE 0x010 8 < Config.svnFloor then .error 3
          else .ok (m.slice 0x600 len, d, m.readLE 4 4))

/-- Verification ends: RUNNING at address 0 with visit group 0, or FAILED with instruction memory zero. -/
def State.runImage (s : State) : State :=
  match s.imageBad with
  | (s, .error e) => { s with imem := [], fw := { s.fw with state := 4, err := e } }
  | (s, .ok (body, d, version)) =>
    { s.setGang fwGid fwGang with imem := body
                                  fw := { s.fw with state := 2, version := version, errValid := false, group := 0, taken := [], fetched := 0
                                                    stopping := false, digest := d } }

def execFirmwareLoadComplete (s : State) : Res := .next (if s.fw.state ≠ 1 then s else s.accessing ⟨2 ^ 32, 13, 0⟩ State.runImage)

/-! ### Attestation (R418) -/

/-- AT.CTL [0]: a report is begun, with the certificate when [1] is written too; ignored while one is in progress. -/
def execAttest (ld v : Nat) (s : State) : Res :=
  .next (if bit v 0 ∧ (s.ldev ld).atBusy.isNone ∧ (s.ldev ld).bound then
      s.modLdev ld fun d => { d with atBusy := some (bit v 1), atDone := false }
    else s)

/-- The report, up to its signature. -/
def State.reportHead (s : State) (ld : Nat) (nonce : Memory) : Memory :=
  let put (m : Memory) (off n v : Nat) : Memory := m.writeLE off n v
  let m := put [] 0 8 (1 + ld * 2 ^ 16)
  let m := m.paste 8 32 nonce
  let m := put m 0x28 64 (if s.fw.state = 2 then s.fw.digest else 0)
  let m := put m 0x68 16 Config.partIdentity
  let m := put m 0x78 8 Config.svnFloor
  put m 0x80 16 (s.ldev ld).featOn

/-- The whole report: 2,048 bytes, and the certificate after them when it was asked for. -/
def State.attestReport (s : State) (ld : Nat) (nonce : Memory) (cert : Bool) : Memory :=
  let m := s.reportHead ld nonce
  let d := shake256 (m.readLE 0 0x100) 0x100
  let n := Config.signBytes d % 1281
  let m := (m.writeLE 0x100 2 n).writeLE 0x102 n (Config.sign d)
  if cert then
    let k := Config.certificateBytes % 2561
    (m.writeLE 0x7fc 4 k).writeLE 0x800 k Config.certificate
  else m

/-- `n` bytes of a host's memory written from a page-aligned virtual address on, a page at a time. -/
def State.putHostPages (s : State) (ld va : Nat) (m : Memory) (n : Nat) : State :=
  (List.range ((n + 4095) / 4096)).foldl (fun s i =>
    match s.translateHost ld (va + 4096 * i) 1 with
    | (s, .ok (.host _ ha)) =>
      let k := min 4096 (n - 4096 * i)
      { s with hmem := s.hmem.set ld (Memory.paste (s.hmem.get [] ld) ha k (m.slice (4096 * i) k)) }
    | (s, _) => s) s

/-- The report in progress is signed and written; without a buffer it can read and write nothing is (log 35). -/
def execAttestReportDone (ld : Nat) (s : State) : Res :=
  .next (let d := s.ldev ld
    match d.atBusy with
    | none => s
    | some cert =>
      let va := d.atAddr / 4096 * 4096
      let n := 0x800 + (if cert then Config.certificateBytes % 2561 else 0)
      s.accessing ⟨2 ^ 32, 14, ld⟩ fun s => (match (s.modLdev ld fun d => { d with atBusy := none }).hostPages ld va 1 with
      | (s, some page) => (s.putHostPages ld va (s.attestReport ld (page.slice 8 32) cert) n).modLdev ld fun d => { d with atDone := true }
      | (s, none) => s))

/-! ### Features, power and routes (R333, R419, R420) -/

/-- FEAT.CTL [0]: the firmware is asked, once until the next logical-device reset. -/
def execFeatureRequest (ld v : Nat) (s : State) : Res :=
  .next (if bit v 0 ∧ (s.ldev ld).bound then s.modLdev ld fun d => { d with featAsked := true } else s)

/-- The running firmware answers: FEAT.ON is FEAT.CAP and FEAT.REQ. -/
def execFeatureNegotiationDone (ld : Nat) (s : State) : Res :=
  .next (let d := s.ldev ld
    if s.fw.state ≠ 2 ∨ !d.featAsked ∨ d.featDone then s
    else
      let on := featCap &&& d.featReq
      s.setLdev ld { d with featOn := on, featDone := true, cache := d.cacheBound && bit on 0 })

/-- PWR.CAP, by the management logical device, from 1,024 to 3,520. -/
def execPwrCapWrite (ld v : Nat) (s : State) : Res :=
  .next (if ld = 0 ∧ 1024 ≤ v ∧ v ≤ 3520 then { s with power := { s.power with pool := v } } else s)

/-- HOST.CFG.AROUTE: 3 is ignored, and 1 while CACHE is 0 (R333). -/
def execArouteWrite (ld v : Nat) (s : State) : Res :=
  .next (s.modLdev ld fun d =>
    let r := bits v 0 2
    if r = 3 ∨ (r = 1 ∧ !d.cache) then d else { d with aroute := r })

end Sys2Proof.Machine
end

