-- ==== Sys2Proof/Machine/Dispatch.lean ====
section
/-! DEFINITION. One arm for each constructor of `Instr`: its meaning. -/

namespace Sys2Proof.Machine

/-- What an instruction, or an event, does to the part. -/
def exec (i : Instr) (s : State) : Host.Outcome State Fault Refusal :=
  match i with
  | .sadd d a b => Sys2Proof.Machine.execSadd d a b s
  | .ssub d a b => Sys2Proof.Machine.execSsub d a b s
  | .smul d a b => Sys2Proof.Machine.execSmul d a b s
  | .smulhI64 d a b => Sys2Proof.Machine.execSmulhI64 d a b s
  | .smulhN64 d a b => Sys2Proof.Machine.execSmulhN64 d a b s
  | .sdivI64 d a b => Sys2Proof.Machine.execSdivI64 d a b s
  | .sdivN64 d a b => Sys2Proof.Machine.execSdivN64 d a b s
  | .sremI64 d a b => Sys2Proof.Machine.execSremI64 d a b s
  | .sremN64 d a b => Sys2Proof.Machine.execSremN64 d a b s
  | .sand d a b => Sys2Proof.Machine.execSand d a b s
  | .sor d a b => Sys2Proof.Machine.execSor d a b s
  | .sxor d a b => Sys2Proof.Machine.execSxor d a b s
  | .snot d a => Sys2Proof.Machine.execSnot d a s
  | .sshl d a b => Sys2Proof.Machine.execSshl d a b s
  | .sshr d a b => Sys2Proof.Machine.execSshr d a b s
  | .ssra d a b => Sys2Proof.Machine.execSsra d a b s
  | .smin d a b => Sys2Proof.Machine.execSmin d a b s
  | .smax d a b => Sys2Proof.Machine.execSmax d a b s
  | .sminn d a b => Sys2Proof.Machine.execSminn d a b s
  | .smaxn d a b => Sys2Proof.Machine.execSmaxn d a b s
  | .ssel d a b => Sys2Proof.Machine.execSsel d a b s
  | .smov d a => Sys2Proof.Machine.execSmov d a s
  | .sclz d a => Sys2Proof.Machine.execSclz d a s
  | .spopc d a => Sys2Proof.Machine.execSpopc d a s
  | .sbfxI64 d a b => Sys2Proof.Machine.execSbfxI64 d a b s
  | .sbfxN64 d a b => Sys2Proof.Machine.execSbfxN64 d a b s
  | .sbfi d a b => Sys2Proof.Machine.execSbfi d a b s
  | .scmp c d a b => Sys2Proof.Machine.execScmp c d a b s
  | .sli d im => Sys2Proof.Machine.execSli d im s
  | .slit d lit => Sys2Proof.Machine.execSlit d lit s
  | .slitN32 d lit => Sys2Proof.Machine.execSlitN32 d lit s
  | .aset d b im => Sys2Proof.Machine.execAset d b im s
  | .aadd d a b im => Sys2Proof.Machine.execAadd d a b im s
  | .astr d a b => Sys2Proof.Machine.execAstr d a b s
  | .amul d a b im => Sys2Proof.Machine.execAmul d a b im s
  | .aidx d a im => Sys2Proof.Machine.execAidx d a im s
  | .aget a v => Sys2Proof.Machine.execAget a v s
  | .pand d a b => Sys2Proof.Machine.execPand d a b s
  | .por d a b => Sys2Proof.Machine.execPor d a b s
  | .pxor d a b => Sys2Proof.Machine.execPxor d a b s
  | .pnot d a => Sys2Proof.Machine.execPnot d a s
  | .pmov d a => Sys2Proof.Machine.execPmov d a s
  | .pcnt a sa => Sys2Proof.Machine.execPcnt a sa s
  | .vaddVv d a b => Sys2Proof.Machine.execVaddVv d a b s
  | .vaddVx d a x => Sys2Proof.Machine.execVaddVx d a x s
  | .vsubVv d a b => Sys2Proof.Machine.execVsubVv d a b s
  | .vsubVx d a x => Sys2Proof.Machine.execVsubVx d a x s
  | .vmulVv d a b => Sys2Proof.Machine.execVmulVv d a b s
  | .vmulVx d a x => Sys2Proof.Machine.execVmulVx d a x s
  | .vmulhI32Vv d a b => Sys2Proof.Machine.execVmulhI32Vv d a b s
  | .vmulhI32Vx d a x => Sys2Proof.Machine.execVmulhI32Vx d a x s
  | .vmulhN32Vv d a b => Sys2Proof.Machine.execVmulhN32Vv d a b s
  | .vmulhN32Vx d a x => Sys2Proof.Machine.execVmulhN32Vx d a x s
  | .vmadVv d a b => Sys2Proof.Machine.execVmadVv d a b s
  | .vmadVx d a x => Sys2Proof.Machine.execVmadVx d a x s
  | .vsaddI32Vv d a b => Sys2Proof.Machine.execVsaddI32Vv d a b s
  | .vsaddI32Vx d a x => Sys2Proof.Machine.execVsaddI32Vx d a x s
  | .vsaddN32Vv d a b => Sys2Proof.Machine.execVsaddN32Vv d a b s
  | .vsaddN32Vx d a x => Sys2Proof.Machine.execVsaddN32Vx d a x s
  | .vssubI32Vv d a b => Sys2Proof.Machine.execVssubI32Vv d a b s
  | .vssubI32Vx d a x => Sys2Proof.Machine.execVssubI32Vx d a x s
  | .vssubN32Vv d a b => Sys2Proof.Machine.execVssubN32Vv d a b s
  | .vssubN32Vx d a x => Sys2Proof.Machine.execVssubN32Vx d a x s
  | .vminVv d a b => Sys2Proof.Machine.execVminVv d a b s
  | .vminVx d a x => Sys2Proof.Machine.execVminVx d a x s
  | .vmaxVv d a b => Sys2Proof.Machine.execVmaxVv d a b s
  | .vmaxVx d a x => Sys2Proof.Machine.execVmaxVx d a x s
  | .vminnVv d a b => Sys2Proof.Machine.execVminnVv d a b s
  | .vminnVx d a x => Sys2Proof.Machine.execVminnVx d a x s
  | .vmaxnVv d a b => Sys2Proof.Machine.execVmaxnVv d a b s
  | .vmaxnVx d a x => Sys2Proof.Machine.execVmaxnVx d a x s
  | .vandVv d a b => Sys2Proof.Machine.execVandVv d a b s
  | .vandVx d a x => Sys2Proof.Machine.execVandVx d a x s
  | .vorVv d a b => Sys2Proof.Machine.execVorVv d a b s
  | .vorVx d a x => Sys2Proof.Machine.execVorVx d a x s
  | .vxorVv d a b => Sys2Proof.Machine.execVxorVv d a b s
  | .vxorVx d a x => Sys2Proof.Machine.execVxorVx d a x s
  | .vshlVv d a b => Sys2Proof.Machine.execVshlVv d a b s
  | .vshlVx d a x => Sys2Proof.Machine.execVshlVx d a x s
  | .vshrVv d a b => Sys2Proof.Machine.execVshrVv d a b s
  | .vshrVx d a x => Sys2Proof.Machine.execVshrVx d a x s
  | .vsraVv d a b => Sys2Proof.Machine.execVsraVv d a b s
  | .vsraVx d a x => Sys2Proof.Machine.execVsraVx d a x s
  | .vbfxI32Vv d a b => Sys2Proof.Machine.execVbfxI32Vv d a b s
  | .vbfxI32Vx d a x => Sys2Proof.Machine.execVbfxI32Vx d a x s
  | .vbfxN32Vv d a b => Sys2Proof.Machine.execVbfxN32Vv d a b s
  | .vbfxN32Vx d a x => Sys2Proof.Machine.execVbfxN32Vx d a x s
  | .vbfiVv d a b => Sys2Proof.Machine.execVbfiVv d a b s
  | .vbfiVx d a x => Sys2Proof.Machine.execVbfiVx d a x s
  | .vsel p d a b => Sys2Proof.Machine.execVsel p d a b s
  | .vnot d a => Sys2Proof.Machine.execVnot d a s
  | .vabs d a => Sys2Proof.Machine.execVabs d a s
  | .vneg d a => Sys2Proof.Machine.execVneg d a s
  | .vclz d a => Sys2Proof.Machine.execVclz d a s
  | .vpopc d a => Sys2Proof.Machine.execVpopc d a s
  | .vmov d a => Sys2Proof.Machine.execVmov d a s
  | .vli d x => Sys2Proof.Machine.execVli d x s
  | .vcmpVv c p a b => Sys2Proof.Machine.execVcmpVv c p a b s
  | .vcmpVx c p a x => Sys2Proof.Machine.execVcmpVx c p a x s
  | .vshflIdx d a b => Sys2Proof.Machine.execVshflIdx d a b s
  | .vshflIdxChk d a b => Sys2Proof.Machine.execVshflIdxChk d a b s
  | .vredAdd d a => Sys2Proof.Machine.execVredAdd d a s
  | .vredMin d a => Sys2Proof.Machine.execVredMin d a s
  | .vredMax d a => Sys2Proof.Machine.execVredMax d a s
  | .vscanAdd d a => Sys2Proof.Machine.execVscanAdd d a s
  | .vballot d p => Sys2Proof.Machine.execVballot d p s
  | .vvoteAny d p => Sys2Proof.Machine.execVvoteAny d p s
  | .vvoteAll d p => Sys2Proof.Machine.execVvoteAll d p s
  | .vshflUp d a x => Sys2Proof.Machine.execVshflUp d a x s
  | .vshflUpChk d a x => Sys2Proof.Machine.execVshflUpChk d a x s
  | .vshflDn d a x => Sys2Proof.Machine.execVshflDn d a x s
  | .vshflDnChk d a x => Sys2Proof.Machine.execVshflDnChk d a x s
  | .vshflXor d a x => Sys2Proof.Machine.execVshflXor d a x s
  | .vshflXorChk d a x => Sys2Proof.Machine.execVshflXorChk d a x s
  | .vbcast d a x => Sys2Proof.Machine.execVbcast d a x s
  | .vbcastChk d a x => Sys2Proof.Machine.execVbcastChk d a x s
  | .fadd t d a b => Sys2Proof.Machine.execFadd t d a b s
  | .fsub t d a b => Sys2Proof.Machine.execFsub t d a b s
  | .fmul t d a b => Sys2Proof.Machine.execFmul t d a b s
  | .ffma t d a b => Sys2Proof.Machine.execFfma t d a b s
  | .fmin t d a b => Sys2Proof.Machine.execFmin t d a b s
  | .fmax t d a b => Sys2Proof.Machine.execFmax t d a b s
  | .fabs t d a => Sys2Proof.Machine.execFabs t d a s
  | .fneg t d a => Sys2Proof.Machine.execFneg t d a s
  | .frcp t d a => Sys2Proof.Machine.execFrcp t d a s
  | .frsq t d a => Sys2Proof.Machine.execFrsq t d a s
  | .fsqrt t d a => Sys2Proof.Machine.execFsqrt t d a s
  | .fexp2 t d a => Sys2Proof.Machine.execFexp2 t d a s
  | .flog2 t d a => Sys2Proof.Machine.execFlog2 t d a s
  | .fround t d a r => Sys2Proof.Machine.execFround t d a r s
  | .fcmp c t p a b => Sys2Proof.Machine.execFcmp c t p a b s
  | .cvt y d a x sa => Sys2Proof.Machine.execCvt y d a x sa s
  | .cvtp sa d a b => Sys2Proof.Machine.execCvtp sa d a b s
  | .ldGlobal z d a v c => Sys2Proof.Machine.execLdGlobal z d a v c s
  | .stGlobal z d a v c => Sys2Proof.Machine.execStGlobal z d a v c s
  | .pf a v => Sys2Proof.Machine.execPf a v s
  | .ldWindow z d a v c => Sys2Proof.Machine.execLdWindow z d a v c s
  | .stWindow z d a v c => Sys2Proof.Machine.execStWindow z d a v c s
  | .ldLocal z d a v p => Sys2Proof.Machine.execLdLocal z d a v p s
  | .stLocal z d a v p => Sys2Proof.Machine.execStLocal z d a v p s
  | .atomGlobal32 o d a v c => Sys2Proof.Machine.execAtomGlobal32 o d a v c s
  | .atomGlobal64 o d a v c => Sys2Proof.Machine.execAtomGlobal64 o d a v c s
  | .atomLocal32 o d a v c => Sys2Proof.Machine.execAtomLocal32 o d a v c s
  | .atomLocal64 o d a v c => Sys2Proof.Machine.execAtomLocal64 o d a v c s
  | .rld w d a p c => Sys2Proof.Machine.execRld w d a p c s
  | .rst w d a p c => Sys2Proof.Machine.execRst w d a p c s
  | .ratom o d a p c => Sys2Proof.Machine.execRatom o d a p c s
  | .cpy x a b c y => Sys2Proof.Machine.execCpy x a b c y s
  | .cpyc x a b c y => Sys2Proof.Machine.execCpyc x a b c y s
  | .cpyq a b => Sys2Proof.Machine.execCpyq a b s
  | .cpys y a b c => Sys2Proof.Machine.execCpys y a b c s
  | .cpyst a b => Sys2Proof.Machine.execCpyst a b s
  | .cpyres a => Sys2Proof.Machine.execCpyres a s
  | .cpycan a => Sys2Proof.Machine.execCpycan a s
  | .tmm x a b c => Sys2Proof.Machine.execTmm x a b c s
  | .tmms x a b c => Sys2Proof.Machine.execTmms x a b c s
  | .tzero a => Sys2Proof.Machine.execTzero a s
  | .tepi x a b c => Sys2Proof.Machine.execTepi x a b c s
  | .ttrn a b => Sys2Proof.Machine.execTtrn a b s
  | .rsinit a b c => Sys2Proof.Machine.execRsinit a b c s
  | .rsaddVector x a b c => Sys2Proof.Machine.execRsaddVector x a b c s
  | .rsaddAb x a b c => Sys2Proof.Machine.execRsaddAb x a b c s
  | .rsnorm x a b c => Sys2Proof.Machine.execRsnorm x a b c s
  | .rsnormReel x a b c => Sys2Proof.Machine.execRsnormReel x a b c s
  | .rsq a b => Sys2Proof.Machine.execRsq a b s
  | .rssave f a b => Sys2Proof.Machine.execRssave f a b s
  | .rsload f a b c => Sys2Proof.Machine.execRsload f a b c s
  | .rsfenceTeam => Sys2Proof.Machine.execRsfenceTeam s
  | .rsfenceSet => Sys2Proof.Machine.execRsfenceSet s
  | .rsfenceReel => Sys2Proof.Machine.execRsfenceReel s
  | .cred x a b c o => Sys2Proof.Machine.execCred x a b c o s
  | .cbc x a b c => Sys2Proof.Machine.execCbc x a b c s
  | .cgat x a b c => Sys2Proof.Machine.execCgat x a b c s
  | .vdist x a b c => Sys2Proof.Machine.execVdist x a b c s
  | .topk a b c => Sys2Proof.Machine.execTopk a b c s
  | .topkm a b c => Sys2Proof.Machine.execTopkm a b c s
  | .topkr a b c => Sys2Proof.Machine.execTopkr a b c s
  | .nop => Sys2Proof.Machine.execNop s
  | .exit => Sys2Proof.Machine.execExit s
  | .yield => Sys2Proof.Machine.execYield s
  | .brk c => Sys2Proof.Machine.execBrk c s
  | .join => Sys2Proof.Machine.execJoin s
  | .elect p => Sys2Proof.Machine.execElect p s
  | .regang m => Sys2Proof.Machine.execRegang m s
  | .regangWait m => Sys2Proof.Machine.execRegangWait m s
  | .ret => Sys2Proof.Machine.execRet s
  | .jmp v => Sys2Proof.Machine.execJmp v s
  | .launch sa => Sys2Proof.Machine.execLaunch sa s
  | .ljoin sa => Sys2Proof.Machine.execLjoin sa s
  | .wdetach => Sys2Proof.Machine.execWdetach s
  | .wmember sa => Sys2Proof.Machine.execWmember sa s
  | .pwreq c => Sys2Proof.Machine.execPwreq c s
  | .pwreqYield c => Sys2Proof.Machine.execPwreqYield c s
  | .pwrel => Sys2Proof.Machine.execPwrel s
  | .fence o c => Sys2Proof.Machine.execFence o c s
  | .waitcnt l sa c t y => Sys2Proof.Machine.execWaitcnt l sa c t y s
  | .br o => Sys2Proof.Machine.execBr o s
  | .brc p o => Sys2Proof.Machine.execBrc p o s
  | .call o => Sys2Proof.Machine.execCall o s
  | .jpt o => Sys2Proof.Machine.execJpt o s
  | .bar sa im => Sys2Proof.Machine.execBar sa im s
  | .phbinit a n => Sys2Proof.Machine.execPhbinit a n s
  | .phbarr a => Sys2Proof.Machine.execPhbarr a s
  | .phbexp sa a => Sys2Proof.Machine.execPhbexp sa a s
  | .phbtest a d h => Sys2Proof.Machine.execPhbtest a d h s
  | .phbwait a h => Sys2Proof.Machine.execPhbwait a h s
  | .wbar => Sys2Proof.Machine.execWbar s
  | .tlsig a b => Sys2Proof.Machine.execTlsig a b s
  | .tlwait a b => Sys2Proof.Machine.execTlwait a b s
  | .tlread d a => Sys2Proof.Machine.execTlread d a s
  | .qpost a b => Sys2Proof.Machine.execQpost a b s
  | .qtail a b => Sys2Proof.Machine.execQtail a b s
  | .sysrd sa r => Sys2Proof.Machine.execSysrd sa r s
  | .syswr sa r => Sys2Proof.Machine.execSyswr sa r s
  | .svc v => Sys2Proof.Machine.execSvc v s
  | .hret sa => Sys2Proof.Machine.execHret sa s
  | .pgmap sa => Sys2Proof.Machine.execPgmap sa s
  | .pginv sa => Sys2Proof.Machine.execPginv sa s
  | .fltrd sa w => Sys2Proof.Machine.execFltrd sa w s
  | .qfetch sa => Sys2Proof.Machine.execQfetch sa s
  | .qdisp => Sys2Proof.Machine.execQdisp s
  | .qcomp => Sys2Proof.Machine.execQcomp s
  | .fetchBlock core c va => Sys2Proof.Machine.execFetchBlock core c va s
  | .nopPacket q => Sys2Proof.Machine.execNopPacket q s
  | .launchPacket q => Sys2Proof.Machine.execLaunchPacket q s
  | .waitPacket q => Sys2Proof.Machine.execWaitPacket q s
  | .signalPacket q => Sys2Proof.Machine.execSignalPacket q s
  | .barrierPacket q => Sys2Proof.Machine.execBarrierPacket q s
  | .writePacket q => Sys2Proof.Machine.execWritePacket q s
  | .headWriteback q => Sys2Proof.Machine.execHeadWriteback q s
  | .completionEntryWrite q => Sys2Proof.Machine.execCompletionEntryWrite q s
  | .cqCoalesceTimer q => Sys2Proof.Machine.execCqCoalesceTimer q s
  | .fwVisitTimeout => Sys2Proof.Machine.execFwVisitTimeout s
  | .fwImemUncorrectable addr => Sys2Proof.Machine.execFwImemUncorrectable addr s
  | .queueTableUncorrectable q => Sys2Proof.Machine.execQueueTableUncorrectable q s
  | .tailWrite ld q width value => Sys2Proof.Machine.execTailWrite ld q width value s
  | .queueEnable ld q v => Sys2Proof.Machine.execQueueEnable ld q v s
  | .queueDisable ld q v => Sys2Proof.Machine.execQueueDisable ld q v s
  | .contextBind ld q v => Sys2Proof.Machine.execContextBind ld q v s
  | .cqheadWrite ld q v => Sys2Proof.Machine.execCqheadWrite ld q v s
  | .qStaleRead ld q => Sys2Proof.Machine.execQStaleRead ld q s
  | .nrejRead ld q => Sys2Proof.Machine.execNrejRead ld q s
  | .tlStaleRead ld => Sys2Proof.Machine.execTlStaleRead ld s
  | .fqLostRead ld c => Sys2Proof.Machine.execFqLostRead ld c s
  | .fqSpecRead ld c => Sys2Proof.Machine.execFqSpecRead ld c s
  | .hostAstatRead ld => Sys2Proof.Machine.execHostAstatRead ld s
  | .portCounterRead port => Sys2Proof.Machine.execPortCounterRead port s
  | .notwinRead ld c => Sys2Proof.Machine.execNotwinRead ld c s
  | .fwErrClear => Sys2Proof.Machine.execFwErrClear s
  | .registerWrite ld off n v => Sys2Proof.Machine.execRegisterWrite ld off n v s
  | .placementDecision saved k im choice => Sys2Proof.Machine.execPlacementDecision saved k im choice s
  | .reserve r => Sys2Proof.Machine.execReserve r s
  | .grant r => Sys2Proof.Machine.execGrant r s
  | .commit r => Sys2Proof.Machine.execCommit r s
  | .placed r => Sys2Proof.Machine.execPlaced r s
  | .start r => Sys2Proof.Machine.execStart r s
  | .revoke r => Sys2Proof.Machine.execRevoke r s
  | .refuse r => Sys2Proof.Machine.execRefuse r s
  | .refuseFinal r => Sys2Proof.Machine.execRefuseFinal r s
  | .release r => Sys2Proof.Machine.execRelease r s
  | .reserveHoldTimeout key => Sys2Proof.Machine.execReserveHoldTimeout key s
  | .reserveAnswerTimeout key part => Sys2Proof.Machine.execReserveAnswerTimeout key part s
  | .reserveRetry key => Sys2Proof.Machine.execReserveRetry key s
  | .deficitRefill => Sys2Proof.Machine.execDeficitRefill s
  | .activeSetIdleEvict gid => Sys2Proof.Machine.execActiveSetIdleEvict gid s
  | .activeQuantumExpire gid => Sys2Proof.Machine.execActiveQuantumExpire gid s
  | .gangSwapComplete gid => Sys2Proof.Machine.execGangSwapComplete gid s
  | .splitUnpark gid k => Sys2Proof.Machine.execSplitUnpark gid k s
  | .powerGrant => Sys2Proof.Machine.execPowerGrant s
  | .powerOverLimit => Sys2Proof.Machine.execPowerOverLimit s
  | .powerThrottleClear => Sys2Proof.Machine.execPowerThrottleClear s
  | .loadReturn gid seq lane evict => Sys2Proof.Machine.execLoadReturn gid seq lane evict s
  | .storeAck gid seq lane => Sys2Proof.Machine.execStoreAck gid seq lane s
  | .atomicReturn gid seq lane => Sys2Proof.Machine.execAtomicReturn gid seq lane s
  | .recallComplete gid seq lane store => Sys2Proof.Machine.execRecallComplete gid seq lane store s
  | .pageWalkComplete core c va => Sys2Proof.Machine.execPageWalkComplete core c va s
  | .copySectorWrite core idx sector => Sys2Proof.Machine.execCopySectorWrite core idx sector s
  | .copyComplete core idx => Sys2Proof.Machine.execCopyComplete core idx s
  | .copyFault core idx sector ecc => Sys2Proof.Machine.execCopyFault core idx sector ecc s
  | .nvmeCompletion core id pos status block data => Sys2Proof.Machine.execNvmeCompletion core id pos status block data s
  | .tileOpComplete team => Sys2Proof.Machine.execTileOpComplete team s
  | .tileOpFault team ecc => Sys2Proof.Machine.execTileOpFault team ecc s
  | .streamOpComplete team seq => Sys2Proof.Machine.execStreamOpComplete team seq s
  | .streamOpFault team seq ecc => Sys2Proof.Machine.execStreamOpFault team seq ecc s
  | .searchOpComplete core => Sys2Proof.Machine.execSearchOpComplete core s
  | .searchOpFault core => Sys2Proof.Machine.execSearchOpFault core s
  | .collectiveComplete team tag k => Sys2Proof.Machine.execCollectiveComplete team tag k s
  | .svcDone core slot => Sys2Proof.Machine.execSvcDone core slot s
  | .gangSwapOut gid => Sys2Proof.Machine.execGangSwapOut gid s
  | .gangSwapIn gid => Sys2Proof.Machine.execGangSwapIn gid s
  | .teamSlotFree team => Sys2Proof.Machine.execTeamSlotFree team s
  | .gridRetire k => Sys2Proof.Machine.execGridRetire k s
  | .gangResume ld c => Sys2Proof.Machine.execGangResume ld c s
  | .gangEnd ld c => Sys2Proof.Machine.execGangEnd ld c s
  | .preempt ld c brk => Sys2Proof.Machine.execPreempt ld c brk s
  | .preemptSaveComplete c => Sys2Proof.Machine.execPreemptSaveComplete c s
  | .contextResume ld c brk => Sys2Proof.Machine.execContextResume ld c brk s
  | .twin ld c brk => Sys2Proof.Machine.execTwin ld c brk s
  | .twinWriteComplete c core => Sys2Proof.Machine.execTwinWriteComplete c core s
  | .step ld c brk => Sys2Proof.Machine.execStep ld c brk s
  | .stepComplete c => Sys2Proof.Machine.execStepComplete c s
  | .rival ld c brk => Sys2Proof.Machine.execRival ld c brk s
  | .discard ld c brk => Sys2Proof.Machine.execDiscard ld c brk s
  | .ccMemaWrite ld c v => Sys2Proof.Machine.execCcMemaWrite ld c v s
  | .ccMemdRead ld c => Sys2Proof.Machine.execCcMemdRead ld c s
  | .ccMemdWrite ld c v => Sys2Proof.Machine.execCcMemdWrite ld c v s
  | .cut r => Sys2Proof.Machine.execCut r s
  | .cowCopy c va => Sys2Proof.Machine.execCowCopy c va s
  | .frameReturn c => Sys2Proof.Machine.execFrameReturn c s
  | .snap ld c v => Sys2Proof.Machine.execSnap ld c v s
  | .restore ld c v image => Sys2Proof.Machine.execRestore ld c v image s
  | .restoreComplete c => Sys2Proof.Machine.execRestoreComplete c s
  | .snapshotBlockWrite ld c off n v => Sys2Proof.Machine.execSnapshotBlockWrite ld c off n v s
  | .snapshotRaiseRelease c => Sys2Proof.Machine.execSnapshotRaiseRelease c s
  | .snapshotWriteComplete c => Sys2Proof.Machine.execSnapshotWriteComplete c s
  | .snapReceive r => Sys2Proof.Machine.execSnapReceive r s
  | .snapshotCopyAck r => Sys2Proof.Machine.execSnapshotCopyAck r s
  | .snapshotPartnerTimeout c => Sys2Proof.Machine.execSnapshotPartnerTimeout c s
  | .fabricSlot port slot => Sys2Proof.Machine.execFabricSlot port slot s
  | .lineWrReceive r => Sys2Proof.Machine.execLineWrReceive r s
  | .lineRqReceive r => Sys2Proof.Machine.execLineRqReceive r s
  | .lineDataReceive r => Sys2Proof.Machine.execLineDataReceive r s
  | .smallReceive r => Sys2Proof.Machine.execSmallReceive r s
  | .collReceive r => Sys2Proof.Machine.execCollReceive r s
  | .mcastReceive r => Sys2Proof.Machine.execMcastReceive r s
  | .streamReceive r => Sys2Proof.Machine.execStreamReceive r s
  | .wbarReceive r => Sys2Proof.Machine.execWbarReceive r s
  | .wstateReceive r => Sys2Proof.Machine.execWstateReceive r s
  | .linkAck port lseq => Sys2Proof.Machine.execLinkAck port lseq s
  | .linkNak port lseq => Sys2Proof.Machine.execLinkNak port lseq s
  | .linkReplayTimeout port => Sys2Proof.Machine.execLinkReplayTimeout port s
  | .cellCrcFail port header => Sys2Proof.Machine.execCellCrcFail port header s
  | .tailxReceive port lseq => Sys2Proof.Machine.execTailxReceive port lseq s
  | .peerDownTimeout part => Sys2Proof.Machine.execPeerDownTimeout part s
  | .remoteReplyTimeout part plane seq idx => Sys2Proof.Machine.execRemoteReplyTimeout part plane seq idx s
  | .hostSnoop ld ha n data => Sys2Proof.Machine.execHostSnoop ld ha n data s
  | .hostTranslationAnswer m => Sys2Proof.Machine.execHostTranslationAnswer m s
  | .hostTranslationInvalidate ld va => Sys2Proof.Machine.execHostTranslationInvalidate ld va s
  | .zeroLengthReadComplete ld page n => Sys2Proof.Machine.execZeroLengthReadComplete ld page n s
  | .atomicopCompletion ld ha ur status => Sys2Proof.Machine.execAtomicopCompletion ld ha ur status s
  | .atomicopTimeout ld ha => Sys2Proof.Machine.execAtomicopTimeout ld ha s
  | .timelineHostRead ld off => Sys2Proof.Machine.execTimelineHostRead ld off s
  | .timelineHostStore ld off => Sys2Proof.Machine.execTimelineHostStore ld off s
  | .timelineRaiseWrite k => Sys2Proof.Machine.execTimelineRaiseWrite k s
  | .hostLinkDown link => Sys2Proof.Machine.execHostLinkDown link s
  | .ldBind ld host link width rate tlfirst tlcount qfirst qcount cache => Sys2Proof.Machine.execLdBind ld host link width rate tlfirst tlcount qfirst qcount cache s
  | .coldReset => Sys2Proof.Machine.execColdReset s
  | .warmReset ld v => Sys2Proof.Machine.execWarmReset ld v s
  | .logicalDeviceReset ld => Sys2Proof.Machine.execLogicalDeviceReset ld s
  | .memoryZeroDone => Sys2Proof.Machine.execMemoryZeroDone s
  | .firmwareLoad ld => Sys2Proof.Machine.execFirmwareLoad ld s
  | .firmwareLoadComplete => Sys2Proof.Machine.execFirmwareLoadComplete s
  | .firmwareStop ld => Sys2Proof.Machine.execFirmwareStop ld s
  | .attest ld v => Sys2Proof.Machine.execAttest ld v s
  | .attestReportDone ld => Sys2Proof.Machine.execAttestReportDone ld s
  | .featureRequest ld v => Sys2Proof.Machine.execFeatureRequest ld v s
  | .pwrCapWrite ld v => Sys2Proof.Machine.execPwrCapWrite ld v s
  | .arouteWrite ld v => Sys2Proof.Machine.execArouteWrite ld v s
  | .featureNegotiationDone ld => Sys2Proof.Machine.execFeatureNegotiationDone ld s
  | .preemptAnswerReceive r => Sys2Proof.Machine.execPreemptAnswerReceive r s

end Sys2Proof.Machine
end

