-- ==== Sys2Proof/Machine/Issue.lean ====
section
/-! DEFINITION. Packets and their issue (spec/05 R102 to R109, R123; spec/06 R124 to R133), readiness (R126, R159, R160, R183,
R219, R242, R260), and what each move of the agenda does (log 2). -/

namespace Sys2Proof.Machine

/-! ### Packets (R102 to R104) -/

/-- A word of a packet: where it stands, its bits, and its instruction when it is one. -/
structure PWord where
  pos : Nat
  word : Nat
  instr : Option Instr
  deriving DecidableEq, Repr

/-- A word with the word after it, which only an SL word takes (R103). -/
def readWord (pos : Nat) (w lit : W32) : PWord :=
  ⟨pos, w.toNat, match decodeWord w.toNat lit with
    | .ok i => some i
    | .error _ => none⟩

/-- The chain bit (R102). -/
def chained (w : W32) : Bool := bit w.toNat 31

/-- The words of a packet whose slot holds these three, or none when they run past the slot (R103, R104). -/
def packetOf (w0 w1 w2 : W32) : Option (List PWord) :=
  let last (l : List PWord) : Option (List PWord) := if isSL w2 || chained w2 then none else some (l ++ [readWord 2 w2 0])
  if isSL w0 then (if chained w0 then last [readWord 0 w0 w1] else some [readWord 0 w0 w1])
  else if !chained w0 then some [readWord 0 w0 0]
  else if isSL w1 then (if chained w1 then none else some [readWord 0 w0 0, readWord 1 w1 w2])
  else if !chained w1 then some [readWord 0 w0 0, readWord 1 w1 0]
  else last [readWord 0 w0 0, readWord 1 w1 0]

/-- The pipe of a word, by its group (R102). -/
def PWord.pipe (w : PWord) : Pipe :=
  match bits w.word 28 3 with
  | 1 => .a
  | 2 | 3 => .v
  | 4 => .m
  | 5 => .x
  | _ => .s

/-- The registers a word names as destinations; that a word which is no instruction names none is the model's choice (log 99). -/
def PWord.dests (w : PWord) : List Dest := match w.instr with
  | some i => destsOf i
  | none => []

/-- Whether two words of a packet name one destination register. -/
def sharesDest : List PWord → Bool
  | [] => false
  | w :: rest => rest.any (fun x => w.dests.any x.dests.contains) || sharesDest rest

/-- Whether the words fit the pipes and name distinct destinations (R104). -/
def packetFits (ws : List PWord) : Bool :=
  let n (p : Pipe) : Nat := (ws.filter fun w => w.pipe == p).length
  decide (n .s ≤ 1) && decide (n .a ≤ 1) && decide (n .m ≤ 1) && decide (n .x ≤ 1) && decide (n .v ≤ 2) && !sharesDest ws

/-- The packet of slot `j` of a block, or none when R104 forbids it. -/
def packetAt (block j : Nat) : Option (List PWord) :=
  match packetOf (blockWord block j 0) (blockWord block j 1) (blockWord block j 2) with
  | some ws => if packetFits ws then some ws else none
  | none => none

/-! ### The issue of a packet (R105, R123, R131) -/

/-- The issue stage set to a split at its packet: the registers as the packet finds them (R105), the active lanes (R131). -/
def State.beginIssue (s : State) (gid k : Nat) : State :=
  let g := s.gang gid
  let x := g.slice k
  let ks := g.splitOf k
  let (r, b) := x.seen.getD (g.regs, g.bank)
  { s with iss := { gid := gid, slices := ks, lanes := BitVec.ofNat 64 (g.laneMask ks fun y => y.mask &&& y.live),
                    pc := x.pc, word := 0, sup := x.sup, replay := false, src := r, bank := b }
           hostWho := some (splitAsker 0 gid k) }

/-- A word performed at the issue stage. -/
def State.runWord (s : State) (w : PWord) : Res :=
  let s : State := { s with iss := { s.iss with word := w.pos } }
  match w.instr with
  | some i => exec i s
  | none => .next (s.fault ill)

/-- What a result goes on with. -/
def Res.andThen (r : Res) (f : State → Res) : Res :=
  match r with
  | .next s => f s
  | .fault x => .fault x
  | .refused x => .refused x

def State.runWords (s : State) : List PWord → Res
  | [] => .next s
  | w :: rest => Res.andThen (s.runWord w) fun s => s.runWords rest

/-- The fault a word would raise for its packet. -/
def State.wordRaises (s : State) (w : PWord) : Option FInfo :=
  match s.runWord w with
  | .next t => t.iss.fault
  | _ => none

/-- Words whose own rules put their operand checks after the whole of R123's list: copies (R241), `tmm`, `tmms`, `tzero` and `tepi`
(R272, R276, R277), and the stream words (R291). -/
def checksLast : Instr → Bool
  | .cpy _ _ _ _ _ | .cpyc _ _ _ _ _ | .cpyq _ _ | .cpys _ _ _ _ => true
  | .tmm _ _ _ _ | .tmms _ _ _ _ | .tzero _ | .tepi _ _ _ _ => true
  | .rsinit _ _ _ | .rsaddVector _ _ _ _ | .rsaddAb _ _ _ _ | .rsnorm _ _ _ _ | .rsnormReel _ _ _ _ => true
  | .rsq _ _ | .rssave _ _ _ | .rsload _ _ _ _ => true
  | _ => false

/-- Where a fault of a word stands in R123's order; the operand checks of some words come after that whole list, and so does a fault
that R123 does not list (log 36). -/
def PWord.rank (w : PWord) (f : FInfo) : Nat :=
  let own : Bool := f.detail != 0 && (match w.instr with
    | some i => checksLast i
    | none => false)
  if f.acc = 3 then 8
  else match f.code with
    | .illegal => if own then 9 else 5
    | .regRange => 6
    | .protect => if own then 9 else 7
    | .spaceEngine | .streamRead => 7
    | _ => 9

/-- The word whose fault is reported, when one of them faults (R123). -/
def State.faultingWord (s : State) (ws : List PWord) : Option PWord :=
  (sortBy (ws.filterMap fun w => (s.wordRaises w).map fun f => (w.rank f, w)) fun a b => decide (a.1 ≤ b.1)).head?.map (·.2)

/-- A word whose wait belongs to its packet: the other words of the packet take effect when it goes on (R151, log 21). -/
def PWord.first (w : PWord) : Bool := w.pipe == .s && (match w.instr with
  | some (.hret _) => false
  | _ => true)

/-- Whether the word is a `regang.wait`, with which the other words of its packet do not wait: they act for the split that
issues it, whose lanes are no others' (R131, R141, R185, log 21). -/
def PWord.waitsAlone (w : PWord) : Bool := match w.instr with
  | some (.regangWait _) => true
  | _ => false

/-- After the control word of a packet of several: the slices it has let past take the other words, for the lanes the packet
issued with; slices that wait take them later, those at a `regang.wait` now (log 21). The slices that answer for a fault of
those words are the whole split as it now stands. -/
def State.pastControl (s : State) (c : PWord) (rest : List PWord) : State × List Nat :=
  let g := s.cur
  let own := s.iss.slices.filter fun k => c.waitsAlone || ((g.slice k).park == .none && !(g.slice k).halted)
  let mates := g.sliceKeys.filter fun j =>
    let y := g.slice j
    !s.iss.slices.contains j && !y.idle && y.park == .none && own.any fun k => !(g.slice k).idle && (g.slice k).split == y.split
  let lost := g.laneMask own Slice.hgLanes
  let mine := own.foldl (fun m k => m + nibbleLanes (laneNibble s.iss.lanes.toNat k) k) 0
  let s := s.modCur fun g => g.modSlices own fun _ x =>
    if x.park != .none then { x with did := rest.map (·.pos), others := none }
    else { x with pc := if x.did = [c.pos] then pcSucc s.iss.pc else x.pc, did := [], others := none }
  ({ s with iss := { s.iss with slices := rising (own ++ mates), lanes := BitVec.ofNat 64 (mine &&& (2 ^ 64 - 1 - lost)) } }, own)

/-- The words of a packet that passes R123: all read their sources before any of them writes (R105). -/
def State.runPacket (s : State) (ws : List PWord) : Res :=
  match ws.filter PWord.first with
  | [c] =>
    let rest := ws.filter fun w => w.pos != c.pos
    if rest.isEmpty then s.runWord c
    else
      let s := s.modSlices fun _ x => { x with others := some c.pos }
      Res.andThen (s.runWord c) fun s =>
        let (s, own) := s.pastControl c rest
        if own.isEmpty then .next s else s.runWords rest
  | _ => s.runWords ws

/-- Whether a packet arranges its own splits (R141, R360). -/
def arranges (ws : List PWord) : Bool := ws.any fun w => match w.instr with
  | some (.regang _) => true
  | some (.regangWait _) => true
  | some (.hret _) => true
  | _ => false

/-- The packet's effect and the grouping of the split's slices by next PC (R132). -/
def State.issueWords (s : State) (ws : List PWord) : Res :=
  let gid := s.iss.gid
  let ks := s.iss.slices
  let lead := s.cur.slice (ks.headD 0)
  let ws := ws.filter fun w => !lead.did.contains w.pos
  let s := s.modSlices fun _ x => { x with pc := pcSucc s.iss.pc, arrival := false, did := [], seen := none }
  Res.andThen
    (match ws with
      | [w] => s.runWord w
      | _ => match s.faultingWord ws with
        | some w => s.runWord w
        | none => s.runPacket ws)
    fun s =>
      -- a split that parks again, or halts, at the packet keeps the words that have acted, and what the others read
      let s := if lead.did.isEmpty then s else s.modGang gid fun g => g.modSlices ks fun _ x =>
        if (x.park != .none || x.halted) ∧ x.pc = s.iss.pc then { x with did := lead.did, seen := lead.seen } else x
      .next (if arranges ws then s else s.modGang gid fun g => g.regroup ks)

/-- A packet fetched, checked in R123's order, and issued. -/
def State.issuePacket (s : State) : Res :=
  let pc := s.iss.pc
  let arrival := s.iss.slices.any fun k => (s.cur.slice k).arrival
  let stop (s : State) (f : FInfo) : Res :=
    .next ((s.fault f).modGang s.iss.gid fun g => g.regroup s.iss.slices)
  if 2 ^ 57 ≤ pc then stop s (fetchFault .align 0 0)
  else match s.fetch s.iss.gid pc with
    | (s, .error f) => stop s f
    | (s, .ok block) =>
      if !trailerOk block then stop s ill
      else if !validPc pc then stop s (fetchFault .align 0 0)
      else if arrival && !landBit block (pc % 64 / 12) then stop s (fetchFault .landing 0 0)
      else match packetAt block (pc % 64 / 12) with
        | none => stop s { code := .packet }
        | some ws => s.issueWords ws

/-- A word set aside is performed again for its lanes, by the whole split (R214, R342, R360). -/
def State.issueReplay (s : State) (r : Replay) : Res :=
  let g := s.cur
  let ks := s.iss.slices
  let same (q : Replay) : Bool := q.pc == r.pc && q.word == r.word
  let wanted := ks.foldl (fun m k => m + nibbleLanes (match (g.slice k).replays.find? same with
    | some q => laneNibble q.lanes k
    | none => 0) k) 0
  let lanes := g.laneMask ks fun x => x.live
  let s : State := { s with iss := { s.iss with lanes := BitVec.ofNat 64 (lanes &&& wanted), pc := r.pc, word := r.word, replay := true } }
  let s := s.modSlices fun _ x => { x with replays := x.replays.filter fun q => !same q }
  let again : Replay := { r with lanes := lanes &&& wanted }
  Res.andThen
    (match s.fetch s.iss.gid r.pc with
      | (s, .error f) => .next (s.faultWith { f with lanes := again.lanes } (some again) false)
      | (s, .ok block) =>
        match (packetAt block (r.pc % 64 / 12)).bind fun ws => ws.find? fun w => w.pos == r.word with
        | some w => s.runWord w
        | none => .next s)
    fun s => .next (s.modGang s.iss.gid fun g => g.regroup ks)

/-- What issuing a packet or a word set aside comes to: with an answer of a host lacking, or a line that an AtomicOp holds, nothing
of it happens (R340, R348). -/
def State.heldForHost (s : State) (r : Res) : Res :=
  Res.andThen r fun t =>
    .next (if t.hostNeed = s.hostNeed then { t with hostDenied := t.hostDenied.filter fun d => some d.1 != s.hostWho }
      else { (s.askHost t.hostNeed).modSlices fun _ x => { x with awaits := t.hostNeed } with hostNeed := [] })

/-- A packet costs its tenant 1 of the core's deficit counter (R125); service teams take no part in tenant weights (R374). -/
def State.charge (s : State) (gid : Nat) : State :=
  let core := gidCore gid
  let t := (s.team (gidTeam gid)).tenant
  if 384 ≤ core then s
  else s.modCore core fun c => if (c.deficit.find t).isSome then { c with deficit := c.deficit.set t (Tab.get 0 c.deficit t - 1) } else c

/-- A split issues: it halts for a late fault (R443), performs a word set aside, or issues its packet. -/
def State.issueSplit (s : State) (gid k : Nat) : Res :=
  let s := (s.tookStep gid).beginIssue gid k
  let ks := s.iss.slices
  let s := s.modSlices fun _ x => { x with awaits := [] }
  s.heldForHost <|
  if ks.any fun j => (s.cur.slice j).haltDue then
    .next (s.modSlices fun _ x => { x with halted := true, haltDue := false })
  else Res.andThen (match (ks.flatMap fun j => (s.cur.slice j).replays).head? with
    | some r => s.issueReplay r
    | none => s.issuePacket) fun s => .next (s.charge gid)

/-! ### Readiness (R126) -/

/-- Registers that outstanding operations of a gang still write. -/
def Op.dests (o : Op) : List Dest :=
  let v (d : Nat) : List Dest := if o.lanes.any fun a => a.size == 8 then [.v d, .v (d + 1)] else [.v d]
  match o.kind with
  | .load d _ _ => v d
  | .atomic d _ _ => v d
  | .tlread d _ _ => [.s d]
  | _ => []
def Gang.busy (g : Gang) : List Dest := g.ops.flatMap Op.dests

/-- Registers that a service call in progress still writes as its results (R183, R370). -/
def Gang.serviceBusy (g : Gang) : List Nat :=
  g.slices.flatMap fun (_, x) => match x.park with
    | .serviceSend vb _ => [vb, vb + 1]
    | .service vb _ => [vb, vb + 1]
    | _ => []

/-- Whether a service call in progress copies bytes back into `k:`, where any register may lie (R156, R183, R370). -/
def State.copiesToK (s : State) (gid : Nat) : Bool :=
  (s.gang gid).slices.any fun (k, x) => match x.park with
    | .serviceSend vb _ =>
      let (_, cs) := s.svcCalls gid vb (maskBits ((s.gang gid).laneMask [k] fun x => x.mask &&& x.live) 64)
      cs.any fun c => match c.ptr with
        | some (.k _) => true
        | _ => false
    | .service _ slot =>
      match (s.core (svcCoreOf (gidCore gid))).svcSlots.find slot with
      | some b => b.gid == gid && b.lanes.any fun l => match l.ptr with
          | .k _ => l.back
          | _ => false
      | none => false
    | _ => false

/-- Forms that read `va` from other lanes (R183). -/
def crossLaneReg : Instr → Option Nat
  | .vshflIdx _ a _ | .vshflIdxChk _ a _ => some a.val
  | .vshflUp _ a _ | .vshflUpChk _ a _ | .vshflDn _ a _ | .vshflDnChk _ a _ | .vshflXor _ a _ | .vshflXorChk _ a _ => some a.val
  | .vbcast _ a _ | .vbcastChk _ a _ => some a.val
  | .vredAdd _ a | .vredMin _ a | .vredMax _ a | .vscanAdd _ a => some a.val
  | _ => none

/-- Whether what a gang issues would raise one of its counters beyond 2,047, or its store queue beyond 16 entries, where neither
ever stands (R159, R219). -/
def State.overfills (s : State) (r : Res) : Bool :=
  match r with
  | .next t =>
    let g := s.cur
    let past (m a b : Nat) : Bool := decide (a < b) && decide (m < b)
    past 2047 g.ld t.cur.ld || past 2047 g.st t.cur.st || past 2047 g.cp t.cur.cp || past 2047 g.tm t.cur.tm ||
    past 16 g.sq.length t.cur.sq.length
  | _ => false

/-- Whether a packet may overfill anything: no word of it raises a counter by more than 64, once for each peer of a fabric access
(R323), or enters two entries. -/
def Gang.nearlyFull (g : Gang) : Bool := decide (1536 ≤ g.ld) || decide (1536 ≤ g.st) || decide (1536 ≤ g.cp) || decide (1536 ≤ g.tm) ||
  decide (11 ≤ g.sq.length)

/-- Words that a full store queue of 16 entries holds back: those that enter it, and atomics (R219). -/
def entersQueue : Instr → Bool
  | .stGlobal _ _ _ _ _ | .stWindow _ _ _ _ _ | .rst _ _ _ _ _ | .tlsig _ _ | .qtail _ _ | .qpost _ _ => true
  | .stLocal _ _ _ _ p => p != .k
  | .atomGlobal32 _ _ _ _ _ | .atomGlobal64 _ _ _ _ _ | .atomLocal32 _ _ _ _ _ | .atomLocal64 _ _ _ _ _ | .ratom _ _ _ _ _ => true
  | .cpyst _ _ => true
  | .fence _ _ | .svc _ | .wbar => true
  | _ => false

/-- Words that read the register window in memory form (R156, R370). -/
def readsWindow : Instr → Bool
  | .ldLocal _ _ _ _ p | .stLocal _ _ _ _ p => p == .k
  | .svc _ => true
  | _ => false

/-- Whether a word reads tensor descriptors at its issue (R50, R197, R236, R240). -/
def State.readsHandle (s : State) (i : Instr) : Bool :=
  match i with
  | .cpy _ _ _ c _ | .cpyc _ _ _ c _ => bit (s.srcS c).toNat 63
  | .vdist _ _ _ _ | .tepi _ _ _ _ => true
  | _ => false

/-- Whether the state of the part holds a word back: no free copy record (R242), an acquire before the read of a collective (R222,
R231, log 83), an unsatisfied timeline (R260), an own team-register write not committed (R160). -/
def State.wordWaits (s : State) (w : PWord) (i : Instr) : Bool :=
  -- a descriptor published before an acquire is read after it (R50, R51, R222)
  (s.readsHandle i && s.engineHeld s.iss.gid s.cur.seq) ||
  match i with
  | .cpy _ _ _ _ _ | .cpyc _ _ _ _ _ | .cpyq _ _ | .cpys _ _ _ _ => (s.freeCopy s.coreKey).isNone && (s.wordRaises w).isNone
  | .cred _ _ _ _ _ | .cbc _ _ _ _ | .cgat _ _ _ _ => s.engineHeld s.iss.gid s.cur.seq && (s.wordRaises w).isNone
  | .launch a => s.loadHeld s.coreKey (s.accessCtx s.teamKey) (s.srcS a).toNat 512 && (s.wordRaises w).isNone
  | .tlwait a b => match s.tlCheck a with
    | .ok k => !satisfied (Tab.get 0 s.timelines k) (s.srcS b)
    | .error _ => false
  | .phbarr a | .phbexp _ a => s.phbWaits a true
  | .phbinit a _ | .phbtest a _ _ | .phbwait a _ => s.phbWaits a false
  | .sysrd _ r => s.curTeam.commits.any fun c => c.gid == s.iss.gid && c.reg + 0x010 == r.val
  | _ => false

/-- Whether a word is ready at the issue stage. -/
def State.wordReady (s : State) (w : PWord) : Bool :=
  match w.instr with
  | none => true
  | some i =>
    let g := s.cur
    let b := g.busy
    !((vregsOf i).any fun n => b.contains (.v n)) && !((sregsOf i).any fun n => b.contains (.s n)) &&
    !(readsWindow i && (!b.isEmpty || !g.serviceBusy.isEmpty)) &&
    !(match crossLaneReg i with
      | some n => g.serviceBusy.contains n || s.copiesToK s.iss.gid
      | none => false) &&
    !(entersQueue i && decide (16 ≤ g.sq.length)) && !s.wordWaits w i

/-- Whether a split's packet is ready: a packet that faults at fetch, or by its form, is. -/
def State.packetReady (s : State) : Bool :=
  let pc := s.iss.pc
  if 2 ^ 57 ≤ pc ∨ !validPc pc then true
  else match s.fetch s.iss.gid pc with
    | (_, .error _) => true
    | (s, .ok block) =>
      !trailerOk block || (match packetAt block (pc % 64 / 12) with
        | none => true
        | some ws =>
          let did := (s.cur.slice (s.iss.slices.headD 0)).did
          let ws := ws.filter fun w => !did.contains w.pos
          ws.all s.wordReady && !(s.cur.nearlyFull && s.overfills (s.runWords ws)))

/-- Whether the split of slice `k`, its lowest, is ready. -/
def State.splitReady (s : State) (gid k : Nat) : Bool :=
  let g := s.gang gid
  let x := g.slice k
  !x.idle && !x.halted && x.park == .none && !x.awaits.any s.lacks && (g.splitOf k).head? == some k &&
  ((g.splitOf k).any (fun j => (g.slice j).haltDue) ||
    (match ((g.splitOf k).flatMap fun j => (g.slice j).replays).head? with
      | some r => let t := s.beginIssue gid k; !(g.nearlyFull && t.overfills (t.issueReplay r))
      | none => (s.beginIssue gid k).packetReady))

/-- The split of a gang that issues: the first ready one at or after the turn pointer (R133). -/
def State.readySplit (s : State) (gid : Nat) : Option Nat :=
  let g := s.gang gid
  let n := if gid = fwGid then 16 else 8
  ((List.range n).map fun i => (g.turn + i) % n).find? fun k => g.sliceKeys.contains k && s.splitReady gid k

/-- Whether a gang's packets may issue as its team and its context stand (R91, R379, R383, R389, R396). -/
def State.mayRun (s : State) (gid : Nat) : Bool :=
  let g := s.gang gid
  g.resident && !g.ended && !g.swapped && (s.team (gidTeam gid)).started && s.ctxRuns gid && !s.beforeCut gid && !s.brkHolds gid

/-- Whether a gang may issue: it may run, and it is in the active set with no swap under way (R127, R128). -/
def State.mayIssue (s : State) (gid : Nat) : Bool :=
  s.mayRun gid && (s.gang gid).active.isSome && !((s.core (gidCore gid)).swaps.any fun w => w.2 == gid)

def State.gangReady (s : State) (gid : Nat) : Bool := s.mayIssue gid && (s.readySplit gid).isSome

/-! ### The active set (R127, R128) -/

/-- The pending gangs of a core that are ready, oldest first. -/
def State.readyPending (s : State) (core : Nat) : List Nat :=
  (s.pendingGangs core).filter fun k => s.mayRun k && (s.readySplit k).isSome

/-- Whether an event that sends a gang out of the active set still holds: each is tested again in each cycle (R127; log 69). -/
def State.stillLeaves (s : State) (gid : Nat) (why : Leave) : Bool :=
  match why with
  | .idle => !s.gangReady gid
  | .parked k => ((s.gang gid).slice k).park != .none
  | .always => true

/-- A gang that is to leave gives its place in the active set to the oldest ready pending gang, if there is one; the swap is
under way until it completes (R127, R128). -/
def State.swapOne (s : State) (core gid : Nat) : State :=
  let still := (s.gang gid).leaving.filter (s.stillLeaves gid)
  match still, (s.gang gid).active, (s.readyPending core).head? with
  | _ :: _, some slot, some k =>
    let s := s.modGang gid fun g => { g with active := none, leaving := [] }
    let s := s.modGang k fun g => { g with active := some slot }
    s.modCore core fun c => { c with swaps := c.swaps ++ [(gid, k)] }
  | _, _, _ => s.modGang gid fun g => { g with leaving := still }

/-- The gangs of a core's active set that are to leave it do, where a pending gang is ready; empty slots, lowest first, go to
its ready pending gangs, oldest first (R127). -/
def State.settleActive (s : State) (core : Nat) : State :=
  let s := ((s.activeGangs core).filter fun k => !(s.gang k).leaving.isEmpty).foldl (fun s k => s.swapOne core k) s
  let held := (s.activeGangs core).map fun k => (s.gang k).active.getD 8
  let free := (List.range 8).filter fun n => !held.contains n
  (free.zip (s.readyPending core)).foldl (fun s (n, k) => s.modGang k fun g => { g with active := some n }) s

/-! ### The choice of a packet (R124, R125, R133) -/

/-- A split of a gang issues, and the turn pointer moves (R133). -/
def State.issueGang (s : State) (gid : Nat) : Res :=
  match s.readySplit gid with
  | none => .next s
  | some k =>
    let n := if gid = fwGid then 16 else 8
    (s.modGang gid fun g => { g with turn := (k + 1) % n }).issueSplit gid k

/-- Every tenant with a ready gang gains its weight when none of them has any credit (R125). -/
def State.topUp (s : State) (core : Nat) (ts : List Nat) : State :=
  let d := (s.core core).deficit
  if ts.any fun t => Tab.get 0 d t != 0 then s
  else s.modCore core fun c => { c with deficit := ts.foldl (fun d t =>
    let w := (s.tenants.get {} t).weight
    d.set t (min (4 * w) (Tab.get 0 d t + w))) c.deficit }

/-- The tenant with the largest counter, the lowest of equals (R125). -/
def State.pickTenant (s : State) (core : Nat) (ts : List Nat) : Nat :=
  let d (t : Nat) : Nat := Tab.get 0 (s.core core).deficit t
  (ts.find? fun t => ts.all fun u => decide (d u ≤ d t)).getD 0

/-- The oldest of a list of gangs. -/
def State.oldest (s : State) (gs : List Nat) : Option Nat :=
  gs.find? fun a => gs.all fun b => decide ((s.gang a).age ≤ (s.gang b).age)

/-- The gang of a core that issues the next packet: the oldest ready one of the active set, of the tenant with the most credit
(R124, R125); service teams take no part in tenant weights (R374). -/
def State.choose (s : State) (core : Nat) : State × Option Nat :=
  let s := s.settleActive core
  let gs := (s.activeGangs core).filter s.gangReady
  let tenant (gid : Nat) : Nat := (s.team (gidTeam gid)).tenant
  if gs.isEmpty then (s, none)
  else if 384 ≤ core then (s, s.oldest gs)
  else
    let ts := rising (gs.map tenant)
    let s := s.topUp core ts
    let t := s.pickTenant core ts
    (s, s.oldest (gs.filter fun g => tenant g == t))

/-- A core issues one packet, when a gang of its active set is ready (R124). -/
def State.issueCore (s : State) (core : Nat) : Res :=
  match s.choose core with
  | (s, some g) => Res.andThen (s.issueGang g) fun s => .next (s.settleActive core)
  | (s, none) => .next s

/-- The firmware core issues one packet while it runs (R68, R73). -/
def State.issueFirmware (s : State) : Res :=
  if s.fw.state = 2 then s.issueGang fwGid else .next s

/-! ### Moves -/

/-- The clock advances, and team-register writes that are due commit (R160). -/
def State.tick (s : State) (n : Nat) : State :=
  ({ s with cycle := s.cycle + BitVec.ofNat 64 n } : State).commitAll s.cycle.toNat

def State.issueCores (s : State) : List Nat → Res
  | [] => .next s
  | c :: rest => Res.andThen (s.issueCore c) fun s => s.issueCores rest

/-- One cycle of every core: what happens when the agenda says nothing (log 2). -/
def State.oneCycle (s : State) : Res :=
  let s := s.tick 1
  Res.andThen (s.issueCores (rising (s.gangs.filterMap fun (gid, g) => if g.resident ∧ gidCore gid < fwCore then some (gidCore gid) else none)))
    fun s => s.issueFirmware

/-- What a move does. -/
def State.move (s : State) (m : Move) : Res :=
  match m with
  | .tick n => .next (s.tick n)
  | .event i => if i.isWord then .next s else exec i s
  | .issue core => s.issueCore core
  | .issueFw => s.issueFirmware
  | .drain gid => .next (s.drainHead gid)
  | .granule team => .next (s.granule team)
  | .pair team seq => .next (s.streamPair team seq)

/-- The next move of the agenda, or a cycle of every core when it is empty; cuts and snapshots that wait begin once they
may (R396, R401), and no access is left in progress. -/
def State.advance (s : State) : Res :=
  Res.andThen
    (match s.agenda with
      | [] => s.oneCycle
      | m :: rest => ({ s with agenda := rest } : State).move m)
    fun s => .next { s.wakeAll with hostNeed := [], hostWho := none }

/-! ### Placing one instruction for the next step (log 5) -/

/-- A packet in slot 0 of a block with its landing bit set and FORMAT 1. -/
def blockOf (bits : Nat) : Nat := bits % 2 ^ 96 + 0x21 * 2 ^ 480

/-- The instruction memory holds the block at address 0, and the firmware core runs from there. -/
def State.withFirmwareWord (s : State) (w : Nat) : State :=
  { s.setGang fwGid { fwGang with active := some 0 } with
    imem := s.imem.writeLE 0 64 (blockOf w), fw := { s.fw with state := 2 }, agenda := [.issueFw] }

/-- The block stands at the start of the device half of context 0, mapped by one 32 MB page, and gang 0 of a team on core 0 is
about to issue it. -/
def State.withGangWord (s : State) (w : Nat) : State :=
  let d := s.dmem
  let d := d.writeLE 0x10000 8 0x20001
  let d := d.writeLE 0x20000 8 0x21001
  let d := d.writeLE 0x21000 8 0x200000f
  let d := d.writeLE 0x2000000 64 (blockOf w)
  let slice : Slice := { pc := 2 ^ 56, arrival := true, mask := 15, live := 15 }
  let g : Gang := { resident := true, nslices := 8, vregs := 128, active := some 0, slices := (List.range 8).map fun k => (k, slice) }
  let t : Team := { valid := true, grid := 0, ctx := 0, gangs := 1, scratchSize := 65536, divisor := 1, shares := [0, 0, 0, 0] }
  let c : Ctx := { bound := true, state := .running, pt := 0x10000 }
  let r : Grid := { valid := true, ctx := 0, teams := 1, nextTeam := 1 }
  { s with
    agenda := [.issue 0], dmem := d, gangs := s.gangs.set 0 g, teams := s.teams.set 0 t, ctxs := s.ctxs.set 0 c
    grids := s.grids.set 0 r }

end Sys2Proof.Machine
end

