-- ==== Sys2Proof/Machine/Step.lean ====
section
/-! DEFINITION. One step of the part, and an instruction placed for the next one. -/

namespace Sys2Proof.Machine

/-- One step: the next move of the agenda (log 2). -/
def step : State → Host.Outcome State Fault Refusal := fun s => s.advance

/-- The state with one instruction where the next step fetches: words of control mode in the firmware core's instruction
memory, every other in the code of a gang (log 5). -/
def State.withFetchWord (s : State) (nbits w : Nat) : State :=
  let w := w % 2 ^ nbits
  if bits w 25 6 = 0x3e then s.withFirmwareWord w else s.withGangWord w

end Sys2Proof.Machine
end

