-- ==== Sys2Proof/Safety.lean ====
section
/-! DEFINITION. The terms claims use: an instruction that completes and what the state then holds, which registers a write
changes and that it changes nothing else, the registers as the next packet of a split finds them, and the canonical form
every step keeps. -/

namespace Sys2Proof.Claims

open Sys2Proof.Machine

/-- The instruction, or event, answers a next state, and that state satisfies `P`. -/
def Completes (i : Instr) (s : State) (P : State → Prop) : Prop := ∃ t, exec i s = .next t ∧ P t

/-- No issue check of R121, R122 or R120 stops the word (what these are: Obligations.IssueChecks). -/
def Admits (i : Instr) (s : State) : Prop := wordFault i s = none

/-- What state `s` comes to in `t` needs no answer of a host that has not come (R348). -/
def Answered (s t : State) : Prop := t.hostNeed = s.hostNeed

/-- Every vector register the list names is below the role's VREGS (R122). -/
def InRange (s : State) (l : List VReg) : Prop := ∀ r ∈ l, r.val < s.cur.vregs

/-! ### The issuing gang's registers as its next packet finds them -/

/-- A scalar register: `s0` reads zero, and `s48` to `s63` are the bank's in supervisor mode (R157, R359). -/
def sreg (s : State) (n : SReg) : W64 :=
  if n.val = 0 then 0
  else if s.iss.sup = true ∧ 48 ≤ n.val then s.cur.bank.s.get 0 n.val else s.cur.regs.s.get 0 n.val

/-- An affine register: `a14` and `a15` are the bank's in supervisor mode (R359). -/
def areg (s : State) (n : AReg) : AffReg :=
  if s.iss.sup = true ∧ 14 ≤ n.val then s.cur.bank.a.get {} n.val else s.cur.regs.a.get {} n.val

/-- A predicate as a lane mask, `p1` to `p7`: `p6` and `p7` are the bank's in supervisor mode (R359). -/
def preg (s : State) (n : PReg) : W64 :=
  if s.iss.sup = true ∧ 6 ≤ n.val then s.cur.bank.p.get 0 n.val else s.cur.regs.p.get 0 n.val

/-- A lane of a vector register. -/
def vreg (s : State) (n lane : Nat) : W32 := Tab.get 0 (Tab.get [] s.cur.regs.v n) lane

/-! ### Writes with their frames: what changes, and that nothing else of the part does -/

/-- `t` is `s` with the issuing gang's scalar registers, of both banks, and no more of the part, changed. -/
def OnlyScalars (s t : State) : Prop :=
  t = s.modCur fun g => { g with regs := { g.regs with s := t.cur.regs.s }, bank := { g.bank with s := t.cur.bank.s } }

/-- Scalar register `d` takes `x`, `s0` takes nothing, and nothing else of the part changes. -/
def ScalarWrite (s t : State) (d : SReg) (x : W64) : Prop :=
  sreg t d = (if d.val = 0 then 0 else x) ∧ (∀ n, n ≠ d → sreg t n = sreg s n) ∧
  (∀ n, n ≠ d.val → t.cur.regs.s.get 0 n = s.cur.regs.s.get 0 n ∧ t.cur.bank.s.get 0 n = s.cur.bank.s.get 0 n) ∧
  (d.val = 0 → t.cur = s.cur) ∧ OnlyScalars s t ∧
  if s.iss.sup = true ∧ 48 ≤ d.val then t.cur.regs.s = s.cur.regs.s else t.cur.bank.s = s.cur.bank.s

/-- The same with the sticky flags of SXF at `f` (R164). -/
def ScalarWriteFlags (s t : State) (d : SReg) (x : W64) (f : BitVec 2) : Prop :=
  sreg t d = (if d.val = 0 then 0 else x) ∧ (∀ n, n ≠ d → sreg t n = sreg s n) ∧ t.cur.regs.sxf = f ∧
  (if s.iss.sup = true ∧ 48 ≤ d.val then t.cur.regs.s = s.cur.regs.s else t.cur.bank.s = s.cur.bank.s) ∧
  t = s.modCur fun g => { g with regs := { g.regs with s := t.cur.regs.s, sxf := f },
                                 bank := { g.bank with s := t.cur.bank.s } }

/-- Affine register `d` takes `x`, and nothing else of the part changes. -/
def AffineWrite (s t : State) (d : AReg) (x : AffReg) : Prop :=
  areg t d = x ∧ (∀ n, n ≠ d → areg t n = areg s n) ∧
  (∀ n, n ≠ d.val → t.cur.regs.a.get {} n = s.cur.regs.a.get {} n ∧ t.cur.bank.a.get {} n = s.cur.bank.a.get {} n) ∧
  (if s.iss.sup = true ∧ 14 ≤ d.val then t.cur.regs.a = s.cur.regs.a else t.cur.bank.a = s.cur.bank.a) ∧
  t = s.modCur fun g => { g with regs := { g.regs with a := t.cur.regs.a }, bank := { g.bank with a := t.cur.bank.a } }

/-- Predicate `d` takes `f` in the active lanes, `p0` takes nothing, and nothing else of the part changes. -/
def PredWrite (s t : State) (d : PReg) (f : Nat → Bool) : Prop :=
  (d.val = 0 → t.cur = s.cur) ∧
  (d.val ≠ 0 → ∀ i, i < 64 → bit (preg t d).toNat i = if s.active i then f i else bit (preg s d).toNat i) ∧
  (∀ n, n ≠ d → preg t n = preg s n) ∧
  (if s.iss.sup = true ∧ 6 ≤ d.val then t.cur.regs.p = s.cur.regs.p else t.cur.bank.p = s.cur.bank.p) ∧
  t = s.modCur fun g => { g with regs := { g.regs with p := t.cur.regs.p }, bank := { g.bank with p := t.cur.bank.p } }

/-- Vector register `d` takes `f` in the active lanes, and nothing else of the part changes. -/
def VectorWrite (s t : State) (d : Nat) (f : Nat → W32) : Prop :=
  (∀ i, i < 64 → vreg t d i = if s.active i then f i else vreg s d i) ∧
  (∀ n i, n ≠ d → vreg t n i = vreg s n i) ∧
  t = s.modCur fun g => { g with regs := { g.regs with v := t.cur.regs.v } }

/-- Vector register `d` and `p7` take `f` and `h` in the active lanes, and nothing else of the part changes. -/
def VectorChkWrite (s t : State) (d : Nat) (f : Nat → W32) (h : Nat → Bool) : Prop :=
  ∃ u, VectorWrite s u d f ∧ PredWrite u t 7 h

/-! ### The canonical form -/

/-- Device memory is in its one canonical form. -/
def Canonical (s : State) : Prop := s.dmem.wf = true

end Sys2Proof.Claims
end

