-- ==== Sys2Proof/Certificates/Slice0/Obligations.lean ====
section
/-! DEFINITION. The statements for the provers, family by family (OBLIGATIONS.json lists them with the rules they cite).
`Claims.Completes i s P` says that `exec i s` answers a next state of which `P` holds; the write predicates of Safety.lean
say which register takes which value and that nothing else of the part changes. -/

open Sys2Proof Sys2Proof.Machine Sys2Proof.Claims

/-! ### Encodings -/

/-- Words worked out in the spec decode to the instructions they stand for, one or more of every major family. -/
def Obligations.DecodeExamples : Prop :=
  decode [0x0069a518] = .ok (.sshl 13 10 12, []) ∧ decode [0x04020000, 0x00010101] = .ok (.slit 16 0x00010101, []) ∧
  decode [0x10666004] = .ok (.amul 3 3 0 4, []) ∧ decode [0x12a02280] = .ok (.pcnt 1 5, []) ∧
  decode [0x20a18205] = .ok (.vmadVv 6 4 5, []) ∧ decode [0x26e102c9] = .ok (.vbfxN32Vx 4 5 (.reg 9), []) ∧
  decode [0x25608001] = .ok (.vsel 3 2 0 1, []) ∧ decode [0x29014082] = .ok (.vcmpVv .gtn 5 1 2, []) ∧
  decode [0x2c23418e] = .ok (.vshflIdxChk 13 3 14, []) ∧ decode [0x2ea28181] = .ok (.vshflXorChk 10 3 (.imm 1), []) ∧
  decode [0x31a0c183] = .ok (.fround .f32 3 3 .down, []) ∧ decode [0x36428286] = .ok (.fcmp .lt .f16x2 2 5 6, []) ∧
  decode [0x380203a9] = .ok (.cvt .f32 8 7 .slot 1, []) ∧ decode [0x41808ff8] = .ok (.stGlobal .n32 2 3 none .gang, []) ∧
  decode [0x4e81cc10] = .ok (.ratom .add 7 3 2 .gang, []) ∧ decode [0x500004d4] = .ok (.cpy .g 0 1 13 .ab, []) ∧
  decode [0x54004110] = .ok (.tmm 0 0 16 17, []) ∧ decode [0x56140051] = .ok (.rsaddVector .f32 20 0 5, []) ∧
  decode [0x58c41460] = .ok (.cred 3 4 5 6 .add, []) ∧ decode [0x5a072091] = .ok (.topk 7 8 9, []) ∧
  decode [0x600c01ff] = .ok (.regangWait 0xff, []) ∧ decode [0x63f07fe0] = .ok (.waitcnt 63 0 31 63 false, []) ∧
  decode [0x64480003] = .ok (.brc 1 3, []) ∧ decode [0x66020281] = .ok (.phbinit 5 1, []) ∧
  decode [0x68180412] = .ok (.qpost 8 9, []) ∧ decode [0x700f8002] = .ok (.fltrd 48 2, []) ∧
  decode [0x7c022800] = .ok (.qfetch 5, [])

/-- Decoding the words of any well-formed instruction gives it back, with the words after it untouched. -/
def Obligations.DecodeEncode : Prop :=
  ∀ (i : Instr) (rest : List W32), i.Encodable → decode (encode i ++ rest) = .ok (i, rest)

/-- A word that decodes is a well-formed instruction, and encoding it gives the word back but for bit 31 (K): no bit of a
word is dropped, so a word with a reserved bit set, or a field with no assigned value, decodes to nothing. -/
def Sys2Proof.Claims.EncodeDecode : Prop :=
  ∀ (w l : W32) (i : Instr), decodeWord w.toNat l = .ok i →
    i.Encodable ∧ encode i = (w &&& 0x7fffffff#32) :: (if isSL w then [l] else [])

/-- What the excluded patterns and the unassigned major opcodes decode to (R112, R103). -/
def Sys2Proof.Claims.ReservedWordsRefused : Prop :=
  (∀ l, decodeWord 0 l = .error .allZero) ∧ (∀ l, decodeWord (2 ^ 31) l = .error .allZero) ∧
  (∀ (w : W32) l, fld w.toNat 25 6 = 0x3f → decodeWord w.toNat l = .error .unassignedMajor) ∧
  (∀ (w : W32) l, fld w.toNat 25 6 ∈ [3, 4, 5, 6, 7, 10, 11, 12, 13, 14, 15, 30, 31, 46, 47, 53, 54, 55, 57, 58, 59, 60, 61] →
    decodeWord w.toNat l = .error .unassignedMajor) ∧
  (∀ w : W32, isSL w = true → decode [w] = .error .missingLiteral)

/-- Reading a word and writing it again gives the word; reserved words are refused by name. -/
def Obligations.EncodingsRead : Prop := Claims.EncodeDecode ∧ Claims.ReservedWordsRefused

/-! ### Scalar instructions -/

/-- Every form of R166 that gives its result by a formula writes it to sd, modulo 2^64, and changes nothing else; the
all-zero `sadd` raises ILLEGAL. -/
def Sys2Proof.Claims.ScalarResults : Prop :=
  ∀ (s : State) (d a b : SReg) (c : Cond), let x := s.srcS a; let y := s.srcS b
    (¬(d.val = 0 ∧ a.val = 0 ∧ b.val = 0) → Completes (.sadd d a b) s (ScalarWrite s · d (x + y))) ∧
    exec (.sadd 0 0 0) s = .next (s.fault { code := .illegal }) ∧
    Completes (.ssub d a b) s (ScalarWrite s · d (x - y)) ∧
    Completes (.smul d a b) s (ScalarWrite s · d (x * y)) ∧
    Completes (.smulhI64 d a b) s (ScalarWrite s · d (BitVec.ofInt 64 (x.toInt * y.toInt / 2 ^ 64))) ∧
    Completes (.smulhN64 d a b) s (ScalarWrite s · d (BitVec.ofNat 64 (x.toNat * y.toNat / 2 ^ 64))) ∧
    Completes (.sand d a b) s (ScalarWrite s · d (x &&& y)) ∧
    Completes (.sor d a b) s (ScalarWrite s · d (x ||| y)) ∧
    Completes (.sxor d a b) s (ScalarWrite s · d (x ^^^ y)) ∧
    Completes (.snot d a) s (ScalarWrite s · d (~~~x)) ∧
    Completes (.smov d a) s (ScalarWrite s · d x) ∧
    Completes (.sshl d a b) s (ScalarWrite s · d (if 64 ≤ y.toNat then 0 else x <<< y.toNat)) ∧
    Completes (.sshr d a b) s (ScalarWrite s · d (if 64 ≤ y.toNat then 0 else x >>> y.toNat)) ∧
    Completes (.ssra d a b) s (ScalarWrite s · d
      (if 64 ≤ y.toNat then (if x.toInt < 0 then 0xffffffffffffffff#64 else 0) else x.sshiftRight y.toNat)) ∧
    Completes (.ssel d a b) s (ScalarWrite s · d (if s.srcS d = 0 then y else x)) ∧
    Completes (.scmp c d a b) s (ScalarWrite s · d (if condHolds c x y then 1 else 0))

/-- The minima and maxima of R166 are those of the numbers the operands stand for. -/
def Sys2Proof.Claims.ScalarMinMax : Prop :=
  ∀ (s : State) (d a b : SReg), let x := s.srcS a; let y := s.srcS b
    Completes (.smin d a b) s (fun t => ∃ r, ScalarWrite s t d r ∧ r.toInt = min x.toInt y.toInt) ∧
    Completes (.smax d a b) s (fun t => ∃ r, ScalarWrite s t d r ∧ r.toInt = max x.toInt y.toInt) ∧
    Completes (.sminn d a b) s (fun t => ∃ r, ScalarWrite s t d r ∧ r.toNat = min x.toNat y.toNat) ∧
    Completes (.smaxn d a b) s (fun t => ∃ r, ScalarWrite s t d r ∧ r.toNat = max x.toNat y.toNat)

/-- `sclz` counts the zeros above the highest set bit, and `spopc` the set bits (R166). -/
def Sys2Proof.Claims.ScalarCounts : Prop :=
  ∀ (s : State) (d a : SReg), let x := s.srcS a
    Completes (.sclz d a) s (fun t => ∃ n, n ≤ 64 ∧ ScalarWrite s t d (BitVec.ofNat 64 n) ∧
      (∀ i, i < 64 → 64 - n ≤ i → x.getLsbD i = false) ∧ (n < 64 → x.getLsbD (63 - n) = true)) ∧
    Completes (.spopc d a) s (fun t =>
      ScalarWrite s t d (BitVec.ofNat 64 ((List.range 64).filter fun i => x.getLsbD i).length))

/-- Scalar arithmetic, logic, shifts, minima, maxima and counts. -/
def Obligations.ScalarArithmetic : Prop := Claims.ScalarResults ∧ Claims.ScalarMinMax ∧ Claims.ScalarCounts

/-- R167: division truncates toward zero and the remainder has the dividend's sign; a zero divisor gives all ones, or the
dividend, and sets DZ; -2^63 by -1 gives -2^63, or 0, and sets DOV; no other flag changes. -/
def Obligations.ScalarDivision : Prop :=
  ∀ (s : State) (d a b : SReg), let x := s.srcS a; let y := s.srcS b; let f := s.cur.regs.sxf
    let ov : Bool := x == 0x8000000000000000#64 && y == 0xffffffffffffffff#64
    (y = 0 →
      Completes (.sdivI64 d a b) s (ScalarWriteFlags s · d 0xffffffffffffffff#64 (f ||| 1)) ∧
      Completes (.sdivN64 d a b) s (ScalarWriteFlags s · d 0xffffffffffffffff#64 (f ||| 1)) ∧
      Completes (.sremI64 d a b) s (ScalarWriteFlags s · d x (f ||| 1)) ∧
      Completes (.sremN64 d a b) s (ScalarWriteFlags s · d x (f ||| 1))) ∧
    (ov = true →
      Completes (.sdivI64 d a b) s (ScalarWriteFlags s · d 0x8000000000000000#64 (f ||| 2)) ∧
      Completes (.sremI64 d a b) s (ScalarWriteFlags s · d 0 (f ||| 2))) ∧
    (y ≠ 0 →
      Completes (.sdivN64 d a b) s (ScalarWrite s · d (BitVec.ofNat 64 (x.toNat / y.toNat))) ∧
      Completes (.sremN64 d a b) s (ScalarWrite s · d (BitVec.ofNat 64 (x.toNat % y.toNat))) ∧
      (ov = false →
        Completes (.sdivI64 d a b) s (ScalarWrite s · d (BitVec.ofInt 64 (x.toInt.tdiv y.toInt))) ∧
        Completes (.sremI64 d a b) s (ScalarWrite s · d (BitVec.ofInt 64 (x.toInt.tmod y.toInt)))))

/-- R168 bit by bit: the field starts at pos = b[5:0] and is w' = min(b[14:8], 64 - pos) bits wide; `sbfi` reads and keeps
the other bits of sd. -/
def Sys2Proof.Claims.ScalarBitFields : Prop :=
  ∀ (s : State) (d a b : SReg), let x := s.srcS a; let y := (s.srcS b).toNat
    let pos := y % 64; let w := min (y / 256 % 128) (64 - pos)
    Completes (.sbfxN64 d a b) s (fun t => ∃ r, ScalarWrite s t d r ∧
      ∀ i, i < 64 → r.getLsbD i = (decide (i < w) && x.getLsbD (pos + i))) ∧
    Completes (.sbfxI64 d a b) s (fun t => ∃ r, ScalarWrite s t d r ∧
      ∀ i, i < 64 → r.getLsbD i = (decide (0 < w) && x.getLsbD (pos + min i (w - 1)))) ∧
    Completes (.sbfi d a b) s (fun t => ∃ r, ScalarWrite s t d r ∧
      ∀ i, i < 64 → r.getLsbD i = if pos ≤ i ∧ i < pos + w then x.getLsbD (i - pos) else (s.srcS d).getLsbD i)

/-- R169: the immediate and the literal words, sign-extended or zero-extended. -/
def Sys2Proof.Claims.ScalarLiterals : Prop :=
  ∀ (s : State) (d : SReg) (i : BitVec 13) (l : W32),
    Completes (.sli d i) s (ScalarWrite s · d (BitVec.ofInt 64 i.toInt)) ∧
    Completes (.slit d l) s (ScalarWrite s · d (BitVec.ofInt 64 l.toInt)) ∧
    Completes (.slitN32 d l) s (ScalarWrite s · d (BitVec.ofNat 64 l.toNat))

/-- Bit fields of scalar registers, and literals. -/
def Obligations.ScalarFieldsAndLiterals : Prop := Claims.ScalarBitFields ∧ Claims.ScalarLiterals

/-! ### Affine and predicate instructions -/

/-- R171: the new base and stride of `ad`, bases modulo 2^64 and strides modulo 2^32; nothing else changes. -/
def Sys2Proof.Claims.AffineResults : Prop :=
  ∀ (s : State) (d a : AReg) (b : SReg) (i : BitVec 7), let A := s.srcA a; let m := s.srcS b
    let k : W64 := BitVec.ofInt 64 i.toInt
    Completes (.aset d b i) s (AffineWrite s · d ⟨m, BitVec.ofInt 32 i.toInt⟩) ∧
    Completes (.aadd d a b i) s (AffineWrite s · d ⟨A.base + m + k, A.stride⟩) ∧
    Completes (.astr d a b) s (AffineWrite s · d ⟨A.base, BitVec.ofNat 32 m.toNat⟩) ∧
    Completes (.amul d a b i) s (AffineWrite s · d
      ⟨A.base * (m + k), BitVec.ofNat 32 (BitVec.ofInt 64 A.stride.toInt * (m + k)).toNat⟩) ∧
    Completes (.aidx d a i) s (AffineWrite s · d ⟨A.base + k * BitVec.ofInt 64 A.stride.toInt, A.stride⟩)

/-- R172 with R158: `aget` writes the low 32 bits of base + i times the sign-extended stride to the active lanes of a
register in range, and raises REG_RANGE for one that is not. -/
def Sys2Proof.Claims.AffineGet : Prop :=
  ∀ (s : State) (a : AReg) (v : VReg64), let A := s.srcA a; let d : VReg := v.castLE (by decide)
    (v.val < s.cur.vregs → Completes (.aget a v) s (VectorWrite s · d fun i =>
      BitVec.ofNat 32 (A.base + BitVec.ofInt 64 (i * A.stride.toInt)).toNat)) ∧
    (s.cur.vregs ≤ v.val → exec (.aget a v) s = .next (s.fault { code := .regRange }))

/-- R174: the predicate forms act lane by lane on the active lanes, a write to `p0` is discarded, and `pcnt` counts. -/
def Sys2Proof.Claims.PredicateResults : Prop :=
  ∀ (s : State) (d a b : PReg) (q : SReg), let P := fun i => bit (s.srcP a) i; let Q := fun i => bit (s.srcP b) i
    Completes (.pand d a b) s (PredWrite s · d fun i => P i && Q i) ∧
    Completes (.por d a b) s (PredWrite s · d fun i => P i || Q i) ∧
    Completes (.pxor d a b) s (PredWrite s · d fun i => P i ^^ Q i) ∧
    Completes (.pnot d a) s (PredWrite s · d fun i => !P i) ∧
    Completes (.pmov d a) s (PredWrite s · d P) ∧
    Completes (.pcnt a q) s (ScalarWrite s · q
      (BitVec.ofNat 64 ((List.range 64).filter fun i => s.active i && P i).length))

/-- Affine registers and predicates. -/
def Obligations.AffineAndPredicates : Prop := Claims.AffineResults ∧ Claims.AffineGet ∧ Claims.PredicateResults

/-! ### Vector integer instructions -/

/-- What the two-source vector forms of R177 and R178 compute of a lane's a and b, with the value of vd before. -/
def Sys2Proof.Claims.lane2 (f : W32 → W32 → W32) (vv : Instr) (vx : Instr) (s : State) (d a b : VReg) (x : Src2) : Prop :=
  (InRange s [d, a, b] → Completes vv s (VectorWrite s · d fun i => f (s.srcV a i) (s.srcV b i))) ∧
  (InRange s [d, a] → Completes vx s (VectorWrite s · d fun i => f (s.srcV a i) (s.src2 x)))

/-- The same for forms that read vd too. -/
def Sys2Proof.Claims.lane3 (f : W32 → W32 → W32 → W32) (vv : Instr) (vx : Instr) (s : State) (d a b : VReg) (x : Src2) : Prop :=
  (InRange s [d, a, b] → Completes vv s (VectorWrite s · d fun i => f (s.srcV d i) (s.srcV a i) (s.srcV b i))) ∧
  (InRange s [d, a] → Completes vx s (VectorWrite s · d fun i => f (s.srcV d i) (s.srcV a i) (s.src2 x)))

/-- An exact integer clamped to a range. -/
def Sys2Proof.Claims.clamp (lo hi x : Int) : Int := max lo (min hi x)

/-- R177, register and immediate or scalar forms: each active lane takes the result, and nothing else changes. -/
def Obligations.VectorArithmetic : Prop :=
  ∀ (s : State) (d a b : VReg) (x : Src2),
    lane2 (fun p q => p + q) (.vaddVv d a b) (.vaddVx d a x) s d a b x ∧
    lane2 (fun p q => p - q) (.vsubVv d a b) (.vsubVx d a x) s d a b x ∧
    lane2 (fun p q => p * q) (.vmulVv d a b) (.vmulVx d a x) s d a b x ∧
    lane2 (fun p q => BitVec.ofInt 32 (p.toInt * q.toInt / 2 ^ 32)) (.vmulhI32Vv d a b) (.vmulhI32Vx d a x) s d a b x ∧
    lane2 (fun p q => BitVec.ofNat 32 (p.toNat * q.toNat / 2 ^ 32)) (.vmulhN32Vv d a b) (.vmulhN32Vx d a x) s d a b x ∧
    lane3 (fun o p q => p * q + o) (.vmadVv d a b) (.vmadVx d a x) s d a b x ∧
    lane2 (fun p q => BitVec.ofInt 32 (clamp (-2 ^ 31) (2 ^ 31 - 1) (p.toInt + q.toInt)))
      (.vsaddI32Vv d a b) (.vsaddI32Vx d a x) s d a b x ∧
    lane2 (fun p q => BitVec.ofInt 32 (clamp 0 (2 ^ 32 - 1) (p.toNat + q.toNat)))
      (.vsaddN32Vv d a b) (.vsaddN32Vx d a x) s d a b x ∧
    lane2 (fun p q => BitVec.ofInt 32 (clamp (-2 ^ 31) (2 ^ 31 - 1) (p.toInt - q.toInt)))
      (.vssubI32Vv d a b) (.vssubI32Vx d a x) s d a b x ∧
    lane2 (fun p q => BitVec.ofInt 32 (clamp 0 (2 ^ 32 - 1) (p.toNat - q.toNat)))
      (.vssubN32Vv d a b) (.vssubN32Vx d a x) s d a b x ∧
    lane2 (fun p q => BitVec.ofInt 32 (min p.toInt q.toInt)) (.vminVv d a b) (.vminVx d a x) s d a b x ∧
    lane2 (fun p q => BitVec.ofInt 32 (max p.toInt q.toInt)) (.vmaxVv d a b) (.vmaxVx d a x) s d a b x ∧
    lane2 (fun p q => BitVec.ofNat 32 (min p.toNat q.toNat)) (.vminnVv d a b) (.vminnVx d a x) s d a b x ∧
    lane2 (fun p q => BitVec.ofNat 32 (max p.toNat q.toNat)) (.vmaxnVv d a b) (.vmaxnVx d a x) s d a b x

/-- A 32-bit field of R178, bit by bit: bit `i` of `r`. -/
def Sys2Proof.Claims.fieldBits (b : W32) (f : Nat → Nat → Nat → Bool) (r : W32) : Prop :=
  let pos := b.toNat % 32; let w := min (b.toNat / 256 % 64) (32 - pos)
  ∀ i, i < 32 → r.getLsbD i = f pos w i

/-- R178: logic, shifts with counts read as unsigned, and bit fields given bit by bit. -/
def Obligations.VectorLogic : Prop :=
  ∀ (s : State) (d a b : VReg) (x : Src2),
    lane2 (fun p q => p &&& q) (.vandVv d a b) (.vandVx d a x) s d a b x ∧
    lane2 (fun p q => p ||| q) (.vorVv d a b) (.vorVx d a x) s d a b x ∧
    lane2 (fun p q => p ^^^ q) (.vxorVv d a b) (.vxorVx d a x) s d a b x ∧
    lane2 (fun p q => if 32 ≤ q.toNat then 0 else p <<< q.toNat) (.vshlVv d a b) (.vshlVx d a x) s d a b x ∧
    lane2 (fun p q => if 32 ≤ q.toNat then 0 else p >>> q.toNat) (.vshrVv d a b) (.vshrVx d a x) s d a b x ∧
    lane2 (fun p q => if 32 ≤ q.toNat then (if p.toInt < 0 then 0xffffffff#32 else 0) else p.sshiftRight q.toNat)
      (.vsraVv d a b) (.vsraVx d a x) s d a b x ∧
    (∃ f : W32 → W32 → W32, lane2 f (.vbfxN32Vv d a b) (.vbfxN32Vx d a x) s d a b x ∧
      ∀ p q, fieldBits q (fun pos w i => decide (i < w) && p.getLsbD (pos + i)) (f p q)) ∧
    (∃ f : W32 → W32 → W32, lane2 f (.vbfxI32Vv d a b) (.vbfxI32Vx d a x) s d a b x ∧
      ∀ p q, fieldBits q (fun pos w i => decide (0 < w) && p.getLsbD (pos + min i (w - 1))) (f p q)) ∧
    (∃ f : W32 → W32 → W32 → W32, lane3 f (.vbfiVv d a b) (.vbfiVx d a x) s d a b x ∧
      ∀ o p q, fieldBits q (fun pos w i => if pos ≤ i ∧ i < pos + w then p.getLsbD (i - pos) else o.getLsbD i) (f o p q))

/-- R179, R180 and R181: one-source forms, immediate and select, and the compares into a predicate. -/
def Obligations.VectorUnaryAndCompare : Prop :=
  ∀ (s : State) (d a b : VReg) (x : Src2) (p : PReg) (c : Cond),
    (InRange s [d, a] →
      Completes (.vnot d a) s (VectorWrite s · d fun i => ~~~(s.srcV a i)) ∧
      Completes (.vabs d a) s (VectorWrite s · d fun i => BitVec.ofNat 32 (s.srcV a i).toInt.natAbs) ∧
      Completes (.vneg d a) s (VectorWrite s · d fun i => 0 - s.srcV a i) ∧
      Completes (.vmov d a) s (VectorWrite s · d fun i => s.srcV a i) ∧
      Completes (.vpopc d a) s (VectorWrite s · d fun i =>
        BitVec.ofNat 32 ((List.range 32).filter fun k => (s.srcV a i).getLsbD k).length) ∧
      Completes (.vclz d a) s (fun t => ∃ f : Nat → Nat, VectorWrite s t d (fun i => BitVec.ofNat 32 (f i)) ∧
        ∀ i, f i ≤ 32 ∧ (∀ k, k < 32 → 32 - f i ≤ k → (s.srcV a i).getLsbD k = false) ∧
          (f i < 32 → (s.srcV a i).getLsbD (31 - f i) = true))) ∧
    (InRange s [d] → Completes (.vli d x) s (VectorWrite s · d fun _ => s.src2 x)) ∧
    (InRange s [d, a, b] → p.val ≠ 0 → Completes (.vsel p d a b) s
      (VectorWrite s · d fun i => if bit (s.srcP p) i then s.srcV a i else s.srcV b i)) ∧
    (InRange s [a, b] → Completes (.vcmpVv c p a b) s (PredWrite s · p fun i => condHolds c (s.srcV a i) (s.srcV b i))) ∧
    (InRange s [a] → Completes (.vcmpVx c p a x) s (PredWrite s · p fun i => condHolds c (s.srcV a i) (s.src2 x)))

/-- R176 with R122: a vector word that names a register at or above VREGS raises REG_RANGE and has no other effect. -/
def Sys2Proof.Claims.VectorRange : Prop :=
  ∀ (s : State) (d a b : VReg) (x : Src2),
    (¬InRange s [d, a, b] →
      ∀ i ∈ [Instr.vaddVv d a b, .vmadVv d a b, .vandVv d a b, .vbfiVv d a b, .vshflIdx d a b, .fadd .f32 d a b,
        .ffma .f16x2 d a b], exec i s = .next (s.fault { code := .regRange })) ∧
    (¬InRange s [d, a] →
      ∀ i ∈ [Instr.vaddVx d a x, .vmadVx d a x, .vandVx d a x, .vmov d a, .vshflUp d a x, .vredAdd d a, .frcp .b16x2 d a],
        exec i s = .next (s.fault { code := .regRange }))

/-! ### Cross-lane instructions -/

/-- R182: what reading lane j of `va` gives a reader, and whether it is valid: a lane the gang has, not exited when
the packet issued (an active lane counts, though an `exit` of the same packet ends it), with an index below 32. -/
def Sys2Proof.Claims.fromLane (s : State) (a : VReg) (j : Int) : W32 × Bool :=
  if 0 ≤ j ∧ j < 32 ∧ (bit s.cur.notExited j.toNat = true ∨ s.active j.toNat = true) then
    (s.srcV a j.toNat, true)
  else (0, false)

/-- R184: each form computes a source lane for every active lane and writes the value of R182 there; the `.chk` forms also
write the validity to `p7`, and the plain ones leave it. -/
def Obligations.Shuffles : Prop :=
  ∀ (s : State) (d a b : VReg) (x : Src2), let k := (s.src2 x).toInt
    let val := fun (j : Nat → Int) i => (fromLane s a (j i)).1; let ok := fun (j : Nat → Int) i => (fromLane s a (j i)).2
    let idx := fun i => ((s.srcV b i).toNat : Int); let up := fun (i : Nat) => (i : Int) - k; let dn := fun (i : Nat) => (i : Int) + k
    let xr := fun (i : Nat) => ((i ^^^ (s.src2 x).toNat % 32 : Nat) : Int); let bc := fun (_ : Nat) => ((s.src2 x).toNat : Int)
    (InRange s [d, a, b] →
      Completes (.vshflIdx d a b) s (VectorWrite s · d (val idx)) ∧
      Completes (.vshflIdxChk d a b) s (VectorChkWrite s · d (val idx) (ok idx))) ∧
    (InRange s [d, a] →
      Completes (.vshflUp d a x) s (VectorWrite s · d (val up)) ∧
      Completes (.vshflUpChk d a x) s (VectorChkWrite s · d (val up) (ok up)) ∧
      Completes (.vshflDn d a x) s (VectorWrite s · d (val dn)) ∧
      Completes (.vshflDnChk d a x) s (VectorChkWrite s · d (val dn) (ok dn)) ∧
      Completes (.vshflXor d a x) s (VectorWrite s · d (val xr)) ∧
      Completes (.vshflXorChk d a x) s (VectorChkWrite s · d (val xr) (ok xr)) ∧
      Completes (.vbcast d a x) s (VectorWrite s · d (val bc)) ∧
      Completes (.vbcastChk d a x) s (VectorChkWrite s · d (val bc) (ok bc)))

/-- R185: the participants are the active lanes of the issuing split; every active lane takes the combined value. -/
def Obligations.Reductions : Prop :=
  ∀ (s : State) (d a : VReg) (p q : PReg), let P := (List.range 64).filter s.active
    let sum := fun (l : List Nat) => BitVec.ofNat 32 (l.map fun j => (s.srcV a j).toNat).sum
    (InRange s [d, a] →
      Completes (.vredAdd d a) s (VectorWrite s · d fun _ => sum P) ∧
      Completes (.vscanAdd d a) s (VectorWrite s · d fun i => sum (P.filter (· ≤ i))) ∧
      (∃ m, Completes (.vredMin d a) s (VectorWrite s · d fun _ => m) ∧
        (P ≠ [] → (∃ j ∈ P, s.srcV a j = m) ∧ ∀ j ∈ P, m.toInt ≤ (s.srcV a j).toInt)) ∧
      (∃ m, Completes (.vredMax d a) s (VectorWrite s · d fun _ => m) ∧
        (P ≠ [] → (∃ j ∈ P, s.srcV a j = m) ∧ ∀ j ∈ P, (s.srcV a j).toInt ≤ m.toInt))) ∧
    (InRange s [d] → ∃ B, Completes (.vballot d p) s (VectorWrite s · d fun _ => B) ∧
      ∀ j, j < 32 → B.getLsbD j = (s.active j && bit (s.srcP p) j)) ∧
    Completes (.vvoteAny q p) s (PredWrite s · q fun _ => P.any fun j => bit (s.srcP p) j) ∧
    Completes (.vvoteAll q p) s (PredWrite s · q fun _ => P.all fun j => bit (s.srcP p) j)

/-! ### Vector float instructions -/

/-- A lane's elements, element 0 first: one, or two of 16 bits (R188, R201). -/
def Sys2Proof.Claims.elems (t : FType) (w : W32) : List Nat :=
  match t with
  | .f32 => [w.toNat]
  | _ => [w.toNat % 2 ^ 16, w.toNat / 2 ^ 16]

/-- R201 to R204: every element of every active lane takes the exact result rounded once to nearest-even in the type (the
chosen operand's bits for `fmin` and `fmax`, the sign bit alone for `fabs` and `fneg`), and nothing else changes. -/
def Obligations.FloatResults : Prop :=
  ∀ (s : State) (t : FType) (d a b : VReg) (r : RoundMode), let sh := ftypeShape t; let V := sh.value
    let one (i : Instr) (f : Nat → Nat) : Prop := Completes i s fun u => ∃ g : Nat → W32, VectorWrite s u d g ∧
      ∀ k, elems t (g k) = (elems t (s.srcV a k)).map f
    let two (i : Instr) (f : Nat → Nat → Nat) : Prop := Completes i s fun u => ∃ g : Nat → W32, VectorWrite s u d g ∧
      ∀ k, elems t (g k) = List.zipWith f (elems t (s.srcV a k)) (elems t (s.srcV b k))
    (InRange s [d, a, b] →
      two (.fadd t d a b) (fun x y => sh.rne ((V x).add (V y))) ∧
      two (.fsub t d a b) (fun x y => sh.rne ((V x).add (V y).neg)) ∧
      two (.fmul t d a b) (fun x y => sh.rne ((V x).mul (V y))) ∧
      two (.fmin t d a b) (fminBits sh) ∧ two (.fmax t d a b) (fmaxBits sh) ∧
      Completes (.ffma t d a b) s (fun u => ∃ g : Nat → W32, VectorWrite s u d g ∧ ∀ k, elems t (g k) =
        List.zipWith (fun x (p : Nat × Nat) => sh.rne (((V p.1).mul (V p.2)).add (V x))) (elems t (s.srcV d k))
          ((elems t (s.srcV a k)).zip (elems t (s.srcV b k))))) ∧
    (InRange s [d, a] →
      one (.fabs t d a) (fun x => x % 2 ^ (sh.ebits + sh.mbits)) ∧
      one (.fneg t d a) (fun x => (x + 2 ^ (sh.ebits + sh.mbits)) % 2 ^ (sh.ebits + sh.mbits + 1)) ∧
      one (.frcp t d a) (fun x => sh.rne (Machine.Num.div (.fin false 1 0) (V x))) ∧
      one (.frsq t d a) (fun x => sh.rne (V x).rsqrt) ∧
      one (.fsqrt t d a) (fun x => sh.rne (V x).sqrt) ∧
      one (.fexp2 t d a) (fun x => sh.rne (V x).exp2) ∧
      one (.flog2 t d a) (fun x => sh.rne (V x).log2) ∧
      one (.fround t d a r) (fun x => sh.rne ((V x).roundIntegral r)))

/-- R205: the bit of `pd` becomes 1 where the condition holds for every element; comparisons with NaN are false but for
`ne` and `unord`, and -0 equals +0; a write to `p0` is discarded. -/
def Sys2Proof.Claims.FloatCompare : Prop :=
  ∀ (s : State) (c : FCond) (t : FType) (p : PReg) (a b : VReg), InRange s [a, b] →
    Completes (.fcmp c t p a b) s (PredWrite s · p fun i =>
      (List.zipWith (fun x y =>
        match ((ftypeShape t).value x).compare ((ftypeShape t).value y) with
        | none => c == .ne || c == .unord
        | some .lt => c == .ne || c == .lt || c == .le
        | some .eq => c == .eq || c == .le || c == .ge
        | some .gt => c == .ne || c == .gt || c == .ge) (elems t (s.srcV a i)) (elems t (s.srcV b i))).all id)

/-- R207 to R210: `cvt` rounds by the slot where one side is `.slot`, else toward zero to integers and to nearest-even to
floats without saturating floats; `cvtp` shifts two converted elements in from the top; a slot that is unused, or too wide
for `cvtp`, raises ILLEGAL. -/
def Sys2Proof.Claims.Conversions : Prop :=
  ∀ (s : State) (y x : CvtType) (d a b : VReg) (f : FSlot), let S := s.slot f
    (Instr.wf (.cvt y d a x f) = true → (y = .slot ∨ x = .slot → s.slotUnused f = false) → InRange s [d, a] →
      Completes (.cvt y d a x f) s (VectorWrite s · d fun i => let w := s.srcV a i
        if y = .slot then BitVec.ofNat 32 (S.write (cvtRead x w))
        else if x = .slot then cvtWrite y S.round S.sat (S.read w.toNat)
        else cvtWrite y (if y = .i32 ∨ y = .n32 then .towardZero else .nearestEven) false (cvtRead x w))) ∧
    (s.slotUnused f = true → y = .slot ∨ x = .slot →
      exec (.cvt y d a x f) s = .next (s.fault { code := .illegal })) ∧
    (s.slotUnused f = false → FmtSlot.ofBits (s.slotBits f) = some S → S.fmt.width ≤ 16 → InRange s [d, a, b] →
      Completes (.cvtp f d a b) s (VectorWrite s · d fun i => let w := S.fmt.width
        BitVec.ofNat 32 ((s.srcV d i).toNat / 2 ^ (2 * w) ||| S.write (shapeF32.value (s.srcV a i).toNat) * 2 ^ (32 - 2 * w) |||
          S.write (shapeF32.value (s.srcV b i).toNat) * 2 ^ (32 - w)))) ∧
    (s.slotUnused f = true ∨ 16 < S.fmt.width →
      exec (.cvtp f d a b) s = .next (s.fault { code := .illegal }))

/-- Comparison of numbers and conversion between formats. -/
def Obligations.FloatComparesAndConversions : Prop := Claims.FloatCompare ∧ Claims.Conversions


/-! ### Memory words -/

/-- The lanes of a memory word resolved in a space: the state translation leaves, the lanes that pass with their places,
and the lanes that fail (R211 to R215). -/
def Sys2Proof.Claims.resolved (s : State) (sp : MSpace) (size acc : Nat) (a : AReg) (v : Option VReg) (data data2 : Nat → Nat) :
    State × List LaneAcc × List BadLane :=
  s.resolveLanes sp size acc s.lanes (fun i => (s.laneAddr a v i).toNat) data data2

/-- What issuing a memory word leaves alone: the gang's registers and slices, every team with its buffers, host memory and
the timelines; device memory is as translation left it (the A and D bits of R346 and copies of R387), and so are the places of what the
gang has outstanding, which follow a granule that translation has copied. -/
def Sys2Proof.Claims.memoryFrame (s r t : State) : Prop :=
  t.cur.regs = s.cur.regs ∧ t.cur.bank = s.cur.bank ∧ t.cur.slices = s.cur.slices ∧ t.teams = s.teams ∧ t.hmem = s.hmem ∧
  t.timelines = s.timelines ∧ t.dmem = r.dmem

/-- An access that no lane fails, and whose pages of the host half have their answers, enters the gang's operations in program order,
counted on `ld` (R220, R226, R228). -/
def Sys2Proof.Claims.entersOps (s : State) (kind : OpKind) (r : State × List LaneAcc × List BadLane) (t : State) : Prop :=
  r.2.2 = [] → Answered s r.1 → memoryFrame s r.1 t ∧
    (r.2.1 ≠ [] → t.cur.ld = s.cur.ld + 1 ∧ t.cur.st = s.cur.st ∧ ∃ o, t.cur.ops = r.1.cur.ops ++ [o] ∧ o.seq = s.cur.seq ∧
      o.kind = kind ∧ o.lanes = r.2.1 ∧ o.slices = s.iss.slices ∧ t.cur.seq = s.cur.seq + 1)

/-- What a memory word comes to when no lane passes: the lanes are set aside (R214), or, when one of them is on a page of the host half
that has no answer yet, the word waits at its packet and only asks the host (R348). -/
def Sys2Proof.Claims.otherwise (s : State) (acc : Nat) (r : State × List LaneAcc × List BadLane) (t : State) : Prop :=
  r.2.1 = [] → (Answered s (r.1.laneFault acc r.2.2) → t = r.1.laneFault acc r.2.2) ∧
    (¬Answered s (r.1.laneFault acc r.2.2) → t = s.awaitHost (r.1.laneFault acc r.2.2).hostNeed)

/-- Loads: `g:`, `w:` and the byte-addressed core-local spaces. A word that no lane fails becomes one outstanding load,
counted on `ld`; registers and memory are unchanged until it returns. Lanes that fail are set aside (R214). -/
def Obligations.LoadIssue : Prop :=
  ∀ (s : State) (z : LoadSize) (d : VReg) (a : AReg) (v : Option VReg) (c : Scope),
    let ok (i : Instr) (sp : MSpace) (sc : Scope) : Prop := Admits i s → Completes i s fun t =>
      let r := resolved s sp (loadBytes z) 0 a v (fun _ => 0) fun _ => 0
      entersOps s (.load d.val (loadSigned z) sc) r t ∧ otherwise s 0 r t
    ok (.ldGlobal z d a v c) .g c ∧ ok (.ldWindow z d a v c) .w c ∧
    ok (.ldLocal z d a v .l) (.buf .l) .gang ∧ ok (.ldLocal z d a v .wb) (.buf .wb) .gang ∧
    ok (.ldLocal z d a v .ab) (.buf .ab) .gang ∧ ok (.ldLocal z d a v .cb) (.buf .cb) .gang ∧
    ok (.ldLocal z d a v .cf) .cf .gang

/-- Stores: a word that no lane fails becomes one entry of the gang's store queue with each lane's address and data,
counted on `st`; no byte of memory changes until the entry is acknowledged (Obligations.StorePerformed). -/
def Obligations.StoreIssue : Prop :=
  ∀ (s : State) (z : StoreSize) (d : VReg) (a : AReg) (v : Option VReg) (c : Scope),
    let ok (i : Instr) (sp : MSpace) (sc : Scope) : Prop := Admits i s → Completes i s fun t =>
      let r := resolved s sp (storeBytes z) 1 a v (s.srcN d.val (storeBytes z)) fun _ => 0
      otherwise s 1 r t ∧
      (r.2.2 = [] → Answered s r.1 → memoryFrame s r.1 t ∧ t.cur.ops = r.1.cur.ops ∧ t.cur.ld = s.cur.ld ∧
        (r.2.1 ≠ [] → t.cur.st = s.cur.st + 1 ∧ ∃ e, t.cur.sq = r.1.cur.sq ++ [e] ∧ e.kind = .store sc ∧ e.lanes = r.2.1 ∧
          e.gid = s.iss.gid ∧ e.seq = s.cur.seq))
    ok (.stGlobal z d a v c) .g c ∧ ok (.stWindow z d a v c) .w c ∧ ok (.stLocal z d a v .l) (.buf .l) .gang ∧
    ok (.stLocal z d a v .ab) (.buf .ab) .gang ∧ ok (.stLocal z d a v .cb) (.buf .cb) .gang

/-- Atomics on `g:`, on a team's scratch and on windows: one outstanding operation; nothing is read or written yet. -/
def Obligations.AtomicIssue : Prop :=
  ∀ (s : State) (o : AtomOp) (d : VReg) (a : AReg) (v : Option VReg) (c : Scope) (p : AtomPlace),
    let ok (i : Instr) (sp : MSpace) (size : Nat) (sc : Scope) : Prop := Admits i s → Completes i s fun t =>
      let new := if size = 8 then d.val + 2 else d.val + 1
      let r := resolved s sp size 2 a v (s.srcN d.val size) fun i => if o = .cas then s.srcN new size i else 0
      entersOps s (.atomic d.val o sc) r t ∧ otherwise s 2 r t
    ok (.atomGlobal32 o d a v c) .g 4 c ∧ ok (.atomGlobal64 o d a v c) .g 8 c ∧
    ok (.atomLocal32 o d a v p) (placeSpace p).1 4 (placeSpace p).2 ∧
    ok (.atomLocal64 o d a v p) (placeSpace p).1 8 (placeSpace p).2

/-- R213: an address that is not a multiple of the size raises ALIGN before any check of its space. When every active
lane's address is misaligned the word only sets those lanes aside, and translates nothing. -/
def Sys2Proof.Claims.AlignmentFaults : Prop :=
  ∀ (s : State) (a : AReg) (v : Option VReg) (d : VReg) (c : Scope),
    let adr := fun i => (s.laneAddr a v i).toNat
    let bad (acc : Nat) := s.laneFault acc (s.lanes.map fun i => ⟨i, .align, 0, adr i⟩)
    (∀ z i, Admits i s → Answered s (bad 0) → (i = .ldGlobal z d a v c ∨ i = .ldWindow z d a v c ∨ i = .ldLocal z d a v .l) →
      (∀ k ∈ s.lanes, adr k % loadBytes z ≠ 0) → exec i s = .next (bad 0)) ∧
    (∀ z i, Admits i s → Answered s (bad 1) → (i = .stGlobal z d a v c ∨ i = .stWindow z d a v c ∨ i = .stLocal z d a v .ab) →
      (∀ k ∈ s.lanes, adr k % storeBytes z ≠ 0) → exec i s = .next (bad 1)) ∧
    (∀ o, Admits (.atomGlobal64 o d a v c) s → Answered s (bad 2) → (∀ k ∈ s.lanes, adr k % 8 ≠ 0) →
      exec (.atomGlobal64 o d a v c) s = .next (bad 2))

/-- R154 to R156: `k:` loads read the register window at once, as the packet found it; `k:` stores write it at once, in
lane order; neither is counted, and memory does not change. -/
def Sys2Proof.Claims.RegisterWindow : Prop :=
  ∀ (s : State) (z : LoadSize) (y : StoreSize) (d : VReg) (a : AReg) (v : Option VReg),
    let adr := fun i => (s.laneAddr a v i).toNat
    let x := fun i => s.iss.src.kReadN s.cur.vregs s.cur.nslices (adr i % 2 ^ 17) (loadBytes z)
    (Admits (.ldLocal z d a v .k) s → (∀ i ∈ s.lanes, s.kCheck (adr i) (loadBytes z) = none) →
      Completes (.ldLocal z d a v .k) s fun t =>
        if z = .n64 then ∃ u, VectorWrite s u d (fun i => BitVec.ofNat 32 (x i)) ∧
          VectorWrite u t (d.val + 1) fun i => BitVec.ofNat 32 (x i / 2 ^ 32)
        else VectorWrite s t d fun i => extendLoad (loadSigned z) (loadBytes z) (x i)) ∧
    (Admits (.stLocal y d a v .k) s → (∀ i ∈ s.lanes, s.kCheck (adr i) (storeBytes y) = none) →
      Completes (.stLocal y d a v .k) s fun t =>
        t.cur.regs = s.lanes.foldl (fun r i => r.kWriteN s.cur.vregs s.cur.nslices (adr i % 2 ^ 17) (s.srcN d.val (storeBytes y) i)
          (storeBytes y)) s.cur.regs ∧
        t = s.modCur fun g => { g with regs := t.cur.regs })

/-- R155: the slots of `s0` and `p0` read zero and the lanes that exist, reserved bytes read zero, and all three discard what is
written, so that 8 bytes written to a stride slot write the stride alone; a byte of a vector register reads back. -/
def Sys2Proof.Claims.RegisterWindowBytes : Prop :=
  ∀ (r : Regs) (vregs n off b a x : Nat), b < 256 → let C := 128 * vregs
    (off < C → (r.kWrite vregs n off b).kRead vregs n off = b ∧
      ∀ off', off' < C → off' ≠ off → (r.kWrite vregs n off b).kRead vregs n off' = r.kRead vregs n off') ∧
    (∀ k, k < 8 → r.kWrite vregs n (C + k) b = r ∧ r.kRead vregs n (C + k) = 0) ∧
    (∀ k, k < 4 → r.kWrite vregs n (C + 0x300 + k) b = r ∧
      ∀ i, i < 8 → (r.kRead vregs n (C + 0x300 + k)).testBit i = decide (8 * k + i < 4 * n)) ∧
    (∀ k, (k < 0x300 ∧ 0x200 ≤ k ∧ 12 ≤ k % 16) ∨ 0x361 ≤ k →
      r.kWrite vregs n (C + k) b = r ∧ r.kRead vregs n (C + k) = 0) ∧
    (a < 16 → let t := r.kWriteN vregs n (C + 0x200 + 16 * a + 8) x 8
      t.a.get {} a = { r.a.get {} a with stride := BitVec.ofNat 32 x } ∧ (∀ d, d ≠ a → t.a.get {} d = r.a.get {} d) ∧
        t = { r with a := t.a })

/-- The register window's words, and the bytes it shows. -/
def Obligations.RegisterWindowWords : Prop := Claims.RegisterWindow ∧ Claims.RegisterWindowBytes

/-- R230: a prefetch never faults, counts nothing and changes no register and no memory. -/
def Sys2Proof.Claims.Prefetch : Prop :=
  ∀ (s : State) (a : AReg) (v : Option VReg), (∀ r, v = some r → r.val < s.cur.vregs ∧ r.val ≠ 127) →
    Completes (.pf a v) s fun t => t.gangs = s.gangs ∧ t.teams = s.teams ∧ t.dmem = s.dmem ∧ t.hmem = s.hmem

/-- R323: a fabric access checks each lane's peer and address, then issues once for each distinct peer, counting each on
`ld` or `st`; a rival's store or atomic faults TWIN_ISOLATED instead (R325). -/
def Obligations.FabricIssue : Prop :=
  ∀ (s : State) (w : Bool) (o : AtomOp) (d p : VReg) (a : AReg) (c : Scope), let size := if w then 8 else 4
    (Admits (.rld w d a p c) s → let g := s.peerLanes size a p (fun _ => 0) fun _ => 0
      g.2 = [] → Completes (.rld w d a p c) s fun t => memoryFrame s s t ∧
        t.cur.ld = s.cur.ld + (peersOf g.1).length ∧ t.cur.st = s.cur.st) ∧
    (Admits (.rst w d a p c) s → let g := s.peerLanes size a p (s.srcN d.val size) fun _ => 0
      s.isTwin s.curTeam.ctx = false → g.2 = [] → Completes (.rst w d a p c) s fun t => memoryFrame s s t ∧
        t.cur.st = s.cur.st + (peersOf g.1).length ∧ t.cur.ld = s.cur.ld) ∧
    (Admits (.ratom o d a p c) s →
      let g := s.peerLanes 4 a p (s.srcN d.val 4) fun i => if o = .cas then s.srcN (d.val + 1) 4 i else 0
      s.isTwin s.curTeam.ctx = false → g.2 = [] → Completes (.ratom o d a p c) s fun t => memoryFrame s s t ∧
        t.cur.ld = s.cur.ld + (peersOf g.1).length ∧ t.cur.st = s.cur.st) ∧
    (s.isTwin s.curTeam.ctx = true →
      (Admits (.rst w d a p c) s → exec (.rst w d a p c) s = .next (s.fault
        { code := .twinIsolated, acc := 1, addr := (s.laneAddr a none (s.lanes.headD 0)).toNat })) ∧
      (Admits (.ratom o d a p c) s → exec (.ratom o d a p c) s = .next (s.fault
        { code := .twinIsolated, acc := 2, addr := (s.laneAddr a none (s.lanes.headD 0)).toNat })))

/-- The new value of an atomic, from the numbers its operands stand for (R228). -/
def Sys2Proof.Claims.AtomicValues : Prop :=
  ∀ (n old b b2 : Nat), (n = 32 ∨ n = 64) → old < 2 ^ n → b < 2 ^ n → b2 < 2 ^ n →
    let sx := fun (k : Nat) => if 2 ^ (n - 1) ≤ k then (k : Int) - 2 ^ n else k
    atomNew .add n old b b2 = (old + b) % 2 ^ n ∧
    sx (atomNew .min n old b b2) = min (sx old) (sx b) ∧ sx (atomNew .max n old b b2) = max (sx old) (sx b) ∧
    atomNew .minn n old b b2 = min old b ∧ atomNew .maxn n old b b2 = max old b ∧
    atomNew .and n old b b2 = old &&& b ∧ atomNew .or n old b b2 = old ||| b ∧ atomNew .xor n old b b2 = old ^^^ b ∧
    atomNew .xchg n old b b2 = b ∧ atomNew .cas n old b b2 = (if old = b then b2 else old) ∧
    atomNew .inc n old b b2 = if b ≤ old then 0 else old + 1

/-- A store's lane is performed at its acknowledgement, or as a recalled access once the engine has finished its line (R224): the `size` bytes from its place take the lane's data, little-endian,
every other byte of device memory and of every team's buffers reads as before, and no register changes. For a place in
device memory this is the case with no twin or snapshot sharing the granule (R387 copies it first otherwise). -/
def Obligations.StorePerformed : Prop :=
  ∀ (s : State) (gid seq lane : Nat) (e : SqEntry) (a : LaneAcc), s.findStore gid seq lane = some (e, a) →
    s.mayAck (gidCore gid) e a = true → (∀ p ∈ s.posted, p.what ≠ .store gid seq lane) → a.data < 256 ^ a.size →
    ∀ i, i = .storeAck gid seq lane ∨ i = .recallComplete gid seq lane true →
    (∀ pa, a.loc = .dev pa → let c := e.actx; let g := a.addr / 65536
      s.sharers c g = [] → (s.ctx c).snap.view.shared.contains g = false → s.beforeCut gid = false →
      Completes i s fun t => t.dmem.readLE pa a.size = a.data ∧
        (∀ x, x < pa ∨ pa + a.size ≤ x → t.dmem.read x = s.dmem.read x) ∧ t.teams = s.teams ∧ t.hmem = s.hmem ∧
        (t.gang gid).regs = (s.gang gid).regs) ∧
    (∀ k sp off, a.loc = .buf k sp off →
      Completes i s fun t => ((t.team k).buf sp).readLE off a.size = a.data ∧
        (∀ x, x < off ∨ off + a.size ≤ x → ((t.team k).buf sp).read x = ((s.team k).buf sp).read x) ∧
        (∀ j, j ≠ k → t.team j = s.team j) ∧ t.dmem = s.dmem ∧ t.hmem = s.hmem ∧ (t.gang gid).regs = (s.gang gid).regs)

/-- A load's lane returns when the order rules allow it and no engine owns its line, as LOAD_RETURN or as a recalled access: the
destination takes the value the lane is served, extended as R226 says, and no memory changes. An acquire at `.set` or wider is served
at the home, every other through the core's L1 (R218, R222); stores on their way come before both (R219). A lane of a granule that a
twin has lost faults instead (R387). -/
def Sys2Proof.Claims.LoadReturned : Prop :=
  ∀ (s : State) (gid seq lane d : Nat) (sg : Bool) (sc : Scope) (o : Op) (a : LaneAcc),
    s.findOp gid seq lane = some (o, a) → o.kind = .load d sg sc → s.mayDo gid o = true → a.loc.isRemote = false →
    s.recalled o.actx a.loc (s.copyOrder + 1) = false → s.laneLost o a = false →
    let own := (s.gang gid).sq.filter fun e => decide (e.seq < o.seq)
    let h := s.holdLine (gidCore gid) a.loc false
    let u := if wide sc then (h, s.readLoc a.loc a.size) else h.l1Read (gidCore gid) a
    let x := u.1.serveBytes own (s.path (gidCore gid)) a u.2 a.size
    ∀ i, i = .loadReturn gid seq lane false ∨ i = .recallComplete gid seq lane false → Completes i s fun t =>
      (t.gang gid).regs = ((s.gang gid).writeLoaded d sg a.size a.lane x).regs ∧
      t.dmem = s.dmem ∧ t.hmem = s.hmem ∧ t.teams = s.teams ∧ (∀ k, k ≠ gid → t.gang k = s.gang k)

/-- R218: a byte of a sector that the core's L1 holds is read there; a sector that it does not hold is filled first, with what the
core's write path and then the home hold for it. -/
def Sys2Proof.Claims.L1Served : Prop :=
  ∀ (s : State) (core pa w : Nat), let a : LaneAcc := { lane := 0, loc := .dev pa, addr := 0, size := 1 }
    (Tab.find (s.core core).l1 (2 * (pa / 16)) = some w → s.l1Read core a = (s, byteOf w (pa % 16))) ∧
    (Tab.find (s.core core).l1 (2 * (pa / 16)) = none → s.path core = [] → 1 ≤ s.l1Room core → (s.core core).l1 = [] →
      (s.l1Read core a).2 = s.dmem.readLE pa 1)

/-- R219: a load is served its own gang's newest store to the byte, else the newest in the core's write path, else
memory; and without such stores it reads memory. -/
def Sys2Proof.Claims.LoadServedByStores : Prop :=
  ∀ (s : State) (own wp : List SqEntry) (a : LaneAcc) (base n : Nat), base < 256 ^ n →
    ((∀ k, k < n → newestByte own (a.loc.plus k) = none ∧ newestByte wp (a.loc.plus k) = none) →
      s.serveBytes own wp a base n = base) ∧
    (∀ k, k < n → ∀ b, b < 256 → newestByte own (a.loc.plus k) = some b →
      (∀ j, j < n → ∀ c, newestByte own (a.loc.plus j) = some c → c < 256) →
      (∀ j, j < n → ∀ c, newestByte wp (a.loc.plus j) = some c → c < 256) →
      byteOf (s.serveBytes own wp a base n) k = b)

/-- A lane's atomic on a team's scratch, alone at its place, as ATOMIC_RETURN or as a recalled access: the place takes the new value,
the lane the old one (R224, R228, R229). -/
def Sys2Proof.Claims.AtomicReturned : Prop :=
  ∀ (s : State) (gid seq lane d k off : Nat) (op : AtomOp) (sc : Scope) (o : Op) (a : LaneAcc) (sp : BufSpace),
    s.findOp gid seq lane = some (o, a) → o.kind = .atomic d op sc → s.mayDo gid o = true → a.loc = .buf k sp off →
    s.recalled o.actx a.loc (s.copyOrder + 1) = false → o.together a = [a] →
    let old := ((s.team k).buf sp).readLE off a.size
    ∀ i, i = .atomicReturn gid seq lane ∨ i = .recallComplete gid seq lane false → Completes i s fun t =>
      t.team k = (s.team k).setBuf sp (((s.team k).buf sp).writeLE off a.size (atomNew op (8 * a.size) old a.data a.data2)) ∧
      (t.gang gid).regs = ((s.gang gid).writeLoaded d false a.size a.lane old).regs ∧
      (∀ j, j ≠ k → t.team j = s.team j) ∧ t.dmem = s.dmem ∧ t.hmem = s.hmem

/-- What a load is served, and what an atomic returns and leaves. -/
def Obligations.LoadsAndAtomicsReturn : Prop := Claims.LoadReturned ∧ Claims.LoadServedByStores ∧ Claims.L1Served ∧ Claims.AtomicReturned ∧ Claims.AtomicValues

/-- A fence of `.gang` has no effect; a wide `.rel` puts a marker into the store queue; no fence changes a register, the
counters or memory (R231). -/
def Sys2Proof.Claims.Fences : Prop :=
  ∀ (s : State) (o : Fin 4) (c : Scope), o.val ≠ 0 →
    Completes (.fence o c) s fun t => t.cur.regs = s.cur.regs ∧ t.cur.ld = s.cur.ld ∧ t.cur.st = s.cur.st ∧
      t.dmem = s.dmem ∧ t.hmem = s.hmem ∧ t.teams = s.teams ∧
      (c = .gang → t = s) ∧
      (c ≠ .gang → o.val ≠ 1 → t.cur.relSeq = some s.cur.seq) ∧
      (3 ≤ c.code → o.val ≠ 1 → ∃ e, t.cur.sq = s.cur.sq ++ [e] ∧ e.kind = .marker ∧ e.lanes = []) ∧
      (c.code < 3 ∨ o.val = 1 → t.cur.sq = s.cur.sq)

/-- Prefetches, and fences with what completes them. -/
def Obligations.PrefetchAndFences : Prop := Claims.Prefetch ∧ Claims.Fences

/-- The other events of the memory system: a recalled access proceeds as the event it waited for, a walk made ahead fills
the core's cache or is counted and changes no memory, but for the COW bit of a leaf that a live twin shares, and a host's snoop writes its bytes only when no AtomicOp is on its
way to the line (R224, R332, R345, R347, R357). -/
def Sys2Proof.Claims.MemoryEvents : Prop :=
  ∀ (s : State) (gid seq lane core c va ld ha n data : Nat),
    exec (.recallComplete gid seq lane true) s = exec (.storeAck gid seq lane) s ∧
    (∀ o a d sg sc, s.findOp gid seq lane = some (o, a) → o.kind = .load d sg sc →
      exec (.recallComplete gid seq lane false) s = exec (.loadReturn gid seq lane false) s) ∧
    (∀ o a d op sc, s.findOp gid seq lane = some (o, a) → o.kind = .atomic d op sc →
      exec (.recallComplete gid seq lane false) s = exec (.atomicReturn gid seq lane) s) ∧
    (Completes (.pageWalkComplete core c va) s fun t => t.gangs = s.gangs ∧ t.teams = s.teams ∧
      ((∀ x ∈ s.ctxs, x.2.parent ≠ some c) → t.dmem = s.dmem) ∧
      (s.isTwin c = false → s.cached core c va = none → ∀ e, s.walk c (s.ctx c).pt va = .leaf e →
        e ∈ (t.core core).tlb ∧ t.dmem = (s.setCow c e).dmem)) ∧
    ((∀ x ∈ s.atomics, ¬(x.ld = ld ∧ x.ha / 128 = ha / 128)) → Completes (.hostSnoop ld ha n data) s fun t =>
      t.hmem.get [] ld = Memory.writeLE (s.hmem.get [] ld) ha n data ∧ (∀ d, (d, ld, ha / 128) ∉ t.hostLines) ∧ t.dmem = s.dmem) ∧
    ((∃ x ∈ s.atomics, x.ld = ld ∧ x.ha / 128 = ha / 128) → exec (.hostSnoop ld ha n data) s = .next s)

/-- AtomicOps on CXL.io or PCI Express (R341): each answer takes the oldest AtomicOp to the address off the list; one that
succeeds gives its lane the old value, and the host's memory holds the new one, and so does one that is performed again through
CXL.cache after an Unsupported Request; one that fails leaves host memory unchanged; an answer
to no AtomicOp does nothing. A zero-length read takes the posted stores it
follows off theirs (R335). -/
def Sys2Proof.Claims.HostAtomicAnswers : Prop :=
  ∀ (s : State) (ld ha status page n : Nat),
    (s.atomics.find? (fun x => x.ld == ld && x.ha == ha) = none →
      (∀ ur, exec (.atomicopCompletion ld ha ur status) s = .next s) ∧ exec (.atomicopTimeout ld ha) s = .next s) ∧
    (∀ x, s.atomics.find? (fun x => x.ld == ld && x.ha == ha) = some x →
      (status ≠ 0 → Completes (.atomicopCompletion ld ha false status) s fun t =>
        t.atomics = s.atomics.filter (· != x) ∧ t.hmem = s.hmem) ∧
      (Completes (.atomicopTimeout ld ha) s fun t => t.atomics = s.atomics.filter (· != x) ∧ t.hmem = s.hmem) ∧
      (∀ o a d op sc h, (s.gang x.gid).ops.find? (fun o => o.seq == x.seq) = some o → o.kind = .atomic d op sc →
        (o.lanes.filter fun a => x.lanes.contains a.lane) = [a] → a.loc = .host ld h →
        let old := Memory.readLE (s.hmem.get [] ld) h a.size
        let done := fun (t : State) => t.atomics = s.atomics.filter (· != x) ∧
          t.hmem.get [] ld = Memory.writeLE (s.hmem.get [] ld) h a.size (atomNew op (8 * a.size) old a.data a.data2) ∧
          (t.gang x.gid).regs = ((s.gang x.gid).writeLoaded d false a.size a.lane old).regs ∧ t.dmem = s.dmem ∧ t.teams = s.teams
        Completes (.atomicopCompletion ld ha false 0) s done ∧
        (o.route = 0 → (s.ldev ld).cache = true → Completes (.atomicopCompletion ld ha true status) s fun t =>
          done t ∧ (t.ldev ld).fallback = min ((s.ldev ld).fallback + 1) 65535)) ∧
      (∀ o d op sc, (s.gang x.gid).ops.find? (fun o => o.seq == x.seq) = some o → o.kind = .atomic d op sc →
        o.route ≠ 0 ∨ (s.ldev ld).cache = false → Completes (.atomicopCompletion ld ha true status) s fun t =>
          t.atomics = s.atomics.filter (· != x) ∧ t.hmem = s.hmem ∧ (t.ldev ld).ur = min ((s.ldev ld).ur + 1) 65535)) ∧
    (Completes (.zeroLengthReadComplete ld page n) s fun t => t.hmem = s.hmem ∧
      t.posted = s.posted.filter fun p => !((s.posted.filter fun p => p.ld == ld && p.page == page).take n).contains p)

/-- The other events of memory and of hosts. -/
def Obligations.MemoryAndHostEvents : Prop := Claims.MemoryEvents ∧ Claims.HostAtomicAnswers

/-! ### Copies -/

/-- The checks R241 makes of a flat side: an address of `g:` below 2^57, a run inside a buffer's extent, a window place
that resolves (and lies on this part, for a rival). -/
def Sys2Proof.Claims.sideOk (s : State) (sp : CopySpace) (addr len : Nat) : Prop :=
  match sp with
  | .g => addr < 2 ^ 57
  | .l => addr + len ≤ s.curTeam.scratchSize
  | .wb => addr + len ≤ s.curTeam.extent .wb
  | .ab => addr + len ≤ s.curTeam.extent .ab
  | .cb => addr + len ≤ s.curTeam.extent .cb
  | .sb => False
  | .w => ∃ l, s.resolveWindow s.teamKey addr len = .ok l ∧ (l.isRemote = true → s.isTwin s.curTeam.ctx = false)

/-- A barrier offset: none, or an 8-byte word of the team's scratch (R239). -/
def Sys2Proof.Claims.barOk (s : State) (bar : Nat) : Prop := bar % 8 = 0 ∧ (bar = 0 ∨ bar + 8 ≤ s.curTeam.scratchSize)

/-- Record `k` of the issuing core runs from `src` to `dst`; `cp` is one higher, the gang's last copy is the record's ID,
the core's L1 has lost the sectors that hold a destination byte (R224), and no register, buffer or memory byte has changed. -/
def Sys2Proof.Claims.copyStarted (s t : State) (k : Nat) (src dst : CopySide) (len bar : Nat) : Prop :=
  let r := t.copyRec s.coreKey k
  r.state = .running ∧ r.src = src ∧ r.dst = dst ∧ r.len = len ∧ r.bar = bar ∧ r.gid = s.iss.gid ∧ r.delivered = 0 ∧
  r.seq = (s.copyRec s.coreKey k).seq + 1 ∧ t.cur.cp = s.cur.cp + 1 ∧ t.cur.lastCopy = r.id k ∧ t.cur.regs = s.cur.regs ∧
  (∀ x, x ∈ (t.core s.coreKey).l1 ↔ x ∈ (s.core s.coreKey).l1 ∧ s.copyOwns s.coreKey r (keyPlace x.1) = false) ∧
  t.teams = s.teams ∧ t.hmem = s.hmem

/-- A flat copy whose operand fields are in order takes the lowest free record and runs; `cpyc` also parks the split at its
packet (R239 to R242, R248). `cpyq` takes 1 to 64 entries of 16 bytes for the metadata queue (R249). -/
def Sys2Proof.Claims.CopyIssue : Prop :=
  ∀ (s : State) (x y : CopySpace) (a b c : SReg) (k : Nat), let o := (s.srcS c).toNat
    let dst := (s.srcS a).toNat; let src := (s.srcS b).toNat; let len := o % 2 ^ 32; let bar := o / 2 ^ 32 % 2 ^ 24
    s.lanes ≠ [] → s.freeCopy s.coreKey = some k →
    (o < 2 ^ 56 → len ≠ 0 → barOk s bar → sideOk s y dst len → sideOk s x src len →
      (Admits (.cpy x a b c y) s → Completes (.cpy x a b c y) s fun t =>
        copyStarted s t k (.flat x src) (.flat y dst) len bar ∧ t.cur.slices = s.cur.slices ∧ t.dmem = s.dmem) ∧
      (Admits (.cpyc x a b c y) s → s.checkTarget s.iss.gid (pcSucc s.iss.pc) = (s, none) →
        Completes (.cpyc x a b c y) s fun t => copyStarted s t k (.flat x src) (.flat y dst) len bar ∧
          (∀ j ∈ s.iss.slices, (t.cur.slice j).pc = s.iss.pc ∧
            (t.cur.slice j).park = .cpyc ((t.copyRec s.coreKey k).id k)) ∧ t.dmem = s.dmem)) ∧
    (Admits (.cpyq a b) s → dst < 2 ^ 57 → dst % 16 = 0 → 1 ≤ src → src ≤ 64 →
      Completes (.cpyq a b) s fun t => copyStarted s t k (.flat .g dst) .metadata (16 * src) 0 ∧ t.dmem = s.dmem)

/-- What stops a copy at issue (R241): ILLEGAL with detail 7 for a reserved bit, a zero length, or a count of metadata
entries outside 1 to 64; ALIGN; PROTECT with detail 6. A split with no active lane starts nothing. -/
def Sys2Proof.Claims.CopyChecks : Prop :=
  ∀ (s : State) (x y : CopySpace) (a b c : SReg), let o := (s.srcS c).toNat
    let dst := (s.srcS a).toNat; let src := (s.srcS b).toNat; let bad : FInfo := { code := .illegal, detail := 7 }
    (Admits (.cpy x a b c y) s →
      (s.lanes = [] → exec (.cpy x a b c y) s = .next s) ∧
      (s.lanes ≠ [] → o / 2 ^ 56 % 2 ^ 6 ≠ 0 ∨ (o < 2 ^ 63 ∧ o % 2 ^ 32 = 0) → exec (.cpy x a b c y) s = .next (s.fault bad)) ∧
      (s.lanes ≠ [] → o < 2 ^ 56 → o % 2 ^ 32 ≠ 0 → (o / 2 ^ 32) % 8 ≠ 0 → y ≠ .g ∨ dst < 2 ^ 57 → x ≠ .g ∨ src < 2 ^ 57 →
        exec (.cpy x a b c y) s = .next (s.fault { code := .align, addr := o / 2 ^ 32 % 2 ^ 24 })) ∧
      (s.lanes ≠ [] → o < 2 ^ 32 → o ≠ 0 → y = .l → s.curTeam.scratchSize < dst + o → x = .g → src < 2 ^ 57 →
        exec (.cpy x a b c y) s = .next (s.fault { code := .protect, detail := 6, addr := dst }))) ∧
    (Admits (.cpyq a b) s → s.lanes ≠ [] → (src = 0 ∨ 64 < src → exec (.cpyq a b) s = .next (s.fault bad)) ∧
      (1 ≤ src → src ≤ 64 → dst % 16 ≠ 0 → exec (.cpyq a b) s = .next (s.fault { code := .align, addr := dst })))

/-- A copy is accepted with its record, or its arguments fault. -/
def Obligations.CopyWords : Prop := Claims.CopyIssue ∧ Claims.CopyChecks

/-- A storage copy from a granted channel runs, and asks the drive for its bytes in reads of at most 128 KB, in order; with
no such channel it raises PROTECT with detail 8 (R249). -/
def Sys2Proof.Claims.StorageCopy : Prop :=
  ∀ (s : State) (y : CopySpace) (a b c : SReg) (k n : Nat), let o := (s.srcS c).toNat
    let w := (s.srcS b).toNat; let dst := (s.srcS a).toNat; let len := o % 2 ^ 32; let bar := o / 2 ^ 32
    let ch := w / 2 ^ 48; let blk := w % 2 ^ 48
    Admits (.cpys y a b c) s → s.lanes ≠ [] → y ≠ .w → o < 2 ^ 56 → w < 2 ^ 56 → len ≠ 0 → barOk s bar → sideOk s y dst len →
    (s.channelEntry s.curTeam.ctx ch = none → len % 512 = 0 →
      exec (.cpys y a b c) s = .next (s.fault { code := .protect, detail := 8 })) ∧
    (∀ e, s.freeCopy s.coreKey = some k → s.channelEntry s.curTeam.ctx ch = some e → n = (if bit e 33 then 4096 else 512) → len % n = 0 →
      Completes (.cpys y a b c) s fun t => copyStarted s t k (.storage ch blk e) (.flat y dst) len bar ∧ t.dmem = s.dmem ∧
        t.nvme = s.nvme ++ (List.range ((len + 131071) / 131072)).map fun i =>
          { core := s.coreKey, id := (t.copyRec s.coreKey k).id k, pos := 131072 * i, bytes := min 131072 (len - 131072 * i),
            channel := ch, block := blk + 131072 * i / n, entry := e })

/-- The words that name a record (R247, R250 to R252): `cpyst` stores the record's 64-byte image, or its ID alone when it is
gone, `cpyres` sets a faulted copy running with `cp` one higher, `cpycan` frees it; each does nothing when the record is
gone, and raises PROTECT with detail 7 for another team's record. -/
def Sys2Proof.Claims.CopyRecordWords : Prop :=
  ∀ (s : State) (a b : SReg) (id k : Nat), s.lanes ≠ [] → gidCore s.iss.gid ≠ 388 → let off := (s.srcS a).toNat; let r := s.copyRec s.coreKey k
    (s.namedCopy b = .ok (id, some k) → off % 64 = 0 → off + 64 ≤ s.curTeam.scratchSize → Completes (.cpyst a b) s fun t =>
      t.cur.st = s.cur.st + 1 ∧ t.cur.regs = s.cur.regs ∧ t.teams = s.teams ∧ ∃ e, t.cur.sq = s.cur.sq ++ [e] ∧
        e.lanes = [⟨0, .buf s.teamKey .l off, off, 64, r.image k, 0, false, 0⟩]) ∧
    (s.namedCopy b = .ok (id, none) → off % 64 = 0 → off + 64 ≤ s.curTeam.scratchSize → Completes (.cpyst a b) s fun t =>
      ∃ e, t.cur.sq = s.cur.sq ++ [e] ∧ e.lanes = [⟨0, .buf s.teamKey .l off, off, 64, id, 0, false, 0⟩]) ∧
    (s.namedCopy a = .ok (id, none) → exec (.cpyres a) s = .next s ∧ exec (.cpycan a) s = .next s) ∧
    (s.namedCopy a = .ok (id, some k) → r.state = .faulted →
      (r.missing ≠ [] → Completes (.cpyres a) s fun t => (t.copyRec s.coreKey k).state = .running ∧ (t.copyRec s.coreKey k).pos = r.pos ∧
        (t.copyRec s.coreKey k).sectors = r.sectors ∧ t.cur.cp = s.cur.cp + 1 ∧ t.cur.regs = s.cur.regs ∧ t.dmem = s.dmem) ∧
      (Completes (.cpycan a) s fun t => (t.copyRec s.coreKey k).state = .gone ∧ (t.gang r.gid).cp = (s.gang r.gid).cp ∧
        t.cur.regs = s.cur.regs ∧ t.dmem = s.dmem)) ∧
    (s.namedCopy a = .ok (id, some k) → r.state = .running → exec (.cpyres a) s = .next s ∧
      Completes (.cpycan a) s fun t => (t.copyRec s.coreKey k).state = .gone ∧ (t.gang r.gid).cp = (s.gang r.gid).cp - 1) ∧
    (s.recordName a = some id → s.copyById s.coreKey id = some k → r.tslot ≠ gidSlot s.iss.gid →
      exec (.cpycan a) s = .next (s.fault { code := .protect, detail := 7 }) ∧
      exec (.cpyres a) s = .next (s.fault { code := .protect, detail := 7 }))

/-- Copies from storage, and the words that read, cancel and wait on records. -/
def Obligations.StorageCopies : Prop := Claims.StorageCopy ∧ Claims.CopyRecordWords

/-- One sector of a running copy into AB reaches the buffer byte by byte, is delivered on the barrier and counted in the
record (R243 to R245); done copies free their record and lower `cp`; nothing else completes. -/
def Sys2Proof.Claims.CopyProgress : Prop :=
  ∀ (s : State) (core idx sector addr : Nat) (vs : List (Nat × Nat)), let r := s.copyRec core idx; let k := gidTeam r.gid
    let u := s.asking (s.copyAsker core idx)
    (idx < 1024 → r.state = .running → r.stop = none → s.copyPauses core r = false → s.engineHeld r.gid r.gseq = false → r.dst = .flat .ab addr →
      r.bar = 0 → r.sectorBytes sector ≠ [] → sector ∉ r.sectors → sector ∉ r.sent →
      (∀ x ∈ r.sectorBytes sector, s.copyHeld core r x.2 = false) → u.readPiece core r = (u, .ok r) →
      u.sectorSource core r sector = (u, .ok vs) →
      Completes (.copySectorWrite core idx sector) s fun t =>
        (t.team k).ab = vs.foldl (fun m x => m.write x.1 (BitVec.ofNat 8 x.2)) (s.team k).ab ∧
        (t.copyRec core idx).delivered = r.delivered + (r.sectorBytes sector).length ∧ t.gangs = s.gangs ∧ t.dmem = s.dmem ∧
        (∀ j, j ≠ k → t.team j = s.team j)) ∧
    (r.state = .running → r.finished = true → s.copyPauses core r = false → Completes (.copyComplete core idx) s fun t =>
      (t.copyRec core idx).state = .gone ∧ (t.gang r.gid).cp = (s.gang r.gid).cp - 1 ∧ t.dmem = s.dmem ∧ t.teams = s.teams) ∧
    (r.state ≠ .running ∨ r.finished = false → exec (.copyComplete core idx) s = .next s)

/-- A copy that meets an uncorrectable source read, or whose drive answers with an error, stops: the record is FAULTED with
the code, and `cp` falls (R246, R249); while sectors of it are on their way to another part or a host it only starts no other, and stops
then. A drive's data is held for its sectors. -/
def Sys2Proof.Claims.CopyStops : Prop :=
  ∀ (s : State) (core idx sector id pos status block data : Nat) (n : NvmeRead), let r := s.copyRec core idx
    (r.state = .running → r.stop = none → r.sent = [] → s.copyPauses core r = false → s.engineHeld r.gid r.gseq = false → r.dst ≠ .metadata →
      sector ∉ r.sectors → r.gotPos ≠ some r.pos →
      (∃ x ∈ r.sectorBytes sector, ∃ a, r.src.byteAt x.1 = some a) →
      Completes (.copyFault core idx sector true) s fun t => (t.copyRec core idx).state = .faulted ∧
        (t.copyRec core idx).fcode = 0x15 ∧ (t.gang r.gid).cp = (s.gang r.gid).cp - 1 ∧ (t.gang r.gid).regs = (s.gang r.gid).regs) ∧
    (r.state ≠ .running → exec (.copyFault core idx sector true) s = .next s) ∧
    (s.nvme.find? (fun n => n.core == core && n.id == id && n.pos == pos) = some n → s.copyById core id = some idx →
      r.state = .running →
      (status ≠ 0 → r.sent = [] → Completes (.nvmeCompletion core id pos status block data) s fun t =>
        (t.copyRec core idx).state = .faulted ∧ (t.copyRec core idx).fcode = 0x17 ∧ (t.copyRec core idx).faddr = block) ∧
      (status ≠ 0 → r.sent ≠ [] → Completes (.nvmeCompletion core id pos status block data) s fun t =>
        (t.copyRec core idx).state = .running ∧ (t.copyRec core idx).stop.isSome = true ∧ t.gangs = s.gangs) ∧
      (Completes (.nvmeCompletion core id pos 0 block data) s fun t => n ∉ t.nvme ∧
        (t.copyRec core idx).held = r.held.writeLE pos n.bytes data ∧ t.dmem = s.dmem ∧ t.gangs = s.gangs))

/-- A copy's sectors, its end, and how it stops. -/
def Obligations.CopyEvents : Prop := Claims.CopyProgress ∧ Claims.CopyStops

/-! ### Control flow -/

/-- Every slice of the issuing split becomes `f` of what it was, no other slice changes, and but for slices `t` is `u`. -/
def Sys2Proof.Claims.eachSlice (s u t : State) (f : Nat → Slice → Slice) : Prop :=
  (∀ j ∈ s.iss.slices, t.cur.slice j = f j (s.cur.slice j)) ∧ (∀ j, j ∉ s.iss.slices → t.cur.slice j = s.cur.slice j) ∧
  t = u.modCur fun g => { g with slices := t.cur.slices }

/-- A slice sent to a PC that software did not choose as an arrival (its LAND check has passed: R108). -/
def Sys2Proof.Claims.sent (pc : Nat) (x : Slice) : Slice := { x with pc := pc, arrival := false }

/-- R107: packet `j` of block `b` has linear index 5b + j and PC 64b + 12j; the successor of slot 4 is slot 0 of the next block,
past the trailer, which is no packet; a branch counts in packets. -/
def Sys2Proof.Claims.PacketAddresses : Prop :=
  (∀ b j, j < 5 → pcOf (5 * b + j) = 64 * b + 12 * j ∧ pcIndex (64 * b + 12 * j) = 5 * b + j ∧
    pcSucc (64 * b + 12 * j) = if j = 4 then 64 * (b + 1) else 64 * b + 12 * (j + 1)) ∧
  (∀ pc, validPc pc = true ↔ pc < 2 ^ 57 ∧ ∃ b j, j < 5 ∧ pc = 64 * b + 12 * j) ∧
  (∀ (s : State) (o : BitVec 19), 0 ≤ (pcIndex s.iss.pc : Int) + o.toInt →
    (pcIndex (s.target o) : Int) = pcIndex s.iss.pc + o.toInt)

/-- R108: a transfer's target passes its check. It is the PC of a packet, its block can be fetched (`u` is the state with what the
translation of that fetch marks) and is well formed, and its LAND bit is set. -/
def Sys2Proof.Claims.lands (s u : State) (T : Nat) : Prop :=
  validPc T = true ∧ Answered s u ∧ ∃ block, s.fetch s.iss.gid T = (u, .ok block) ∧ trailerOk block = true ∧
    landBit block (T % 64 / 12) = true

/-- R136: `br` sends every slice to the target; `jpt` sets J; `brc` sends a slice whose lanes all take it to the target,
lets one with none fall through, and pushes the taken lanes of a mixed one; a check of the target (R108) that fails is a
precise fault, and a push beyond 8 entries ILLEGAL with detail 2, which comes first (R123). -/
def Sys2Proof.Claims.Branches : Prop :=
  ∀ (s u : State) (o : BitVec 19) (p : PReg) (f : FInfo), s.iss.slices.Nodup →
    let T := s.target o; let m := fun j => (s.cur.slice j).mask &&& (s.cur.slice j).live
    let tk := fun j => m j &&& laneNibble (s.srcP p) j; let fl := fun j => m j &&& ~~~(tk j)
    let deep := ∃ j ∈ s.iss.slices, tk j ≠ 0 ∧ fl j ≠ 0 ∧ 8 ≤ (s.cur.slice j).stack.length
    let act := fun j (x : Slice) => if fl j = 0 then sent T x else if tk j = 0 then x
      else { x with stack := ⟨tk j, T, m j, x.j⟩ :: x.stack, mask := fl j }
    (lands s u T →
      (∃ t, exec (.br o) s = .next t ∧ eachSlice s u t fun _ => sent T) ∧
      ((∃ j ∈ s.iss.slices, tk j ≠ 0) → ¬deep → ∃ t, exec (.brc p o) s = .next t ∧ eachSlice s u t act)) ∧
    ((∀ j ∈ s.iss.slices, tk j = 0) → ∃ t, exec (.brc p o) s = .next t ∧ eachSlice s s t act) ∧
    (deep → exec (.brc p o) s = .next (s.fault { code := .illegal, detail := 2 })) ∧
    (s.checkTarget s.iss.gid T = (u, some f) → Answered s (u.fault f) → exec (.br o) s = .next (u.fault f) ∧
      ((∃ j ∈ s.iss.slices, tk j ≠ 0) → ¬deep → exec (.brc p o) s = .next (u.fault f))) ∧
    (validPc T = true → ∃ t, exec (.jpt o) s = .next t ∧ eachSlice s s t fun _ x => { x with j := some (pcIndex T) }) ∧
    (validPc T = false → exec (.jpt o) s = .next (s.fault { code := .align, acc := 3 }))

/-- Packet addresses, and branches. -/
def Obligations.BranchesAndAddresses : Prop := Claims.PacketAddresses ∧ Claims.Branches

/-- R140, within the 16 entries a slice holds on chip: `call` pushes the successor's index, raises RDEPTH and goes to the
target; `ret` pops it and goes there; a `call` whose push has no place is PROTECT with detail 3, and a `ret` of an empty stack ILLEGAL
with detail 1, for the whole split and before its targets are checked (R123). -/
def Sys2Proof.Claims.CallsAndReturns : Prop :=
  ∀ (s u v : State) (o : BitVec 19) (T : Nat → Nat), s.iss.slices.Nodup →
    ((∀ j ∈ s.iss.slices, (s.cur.slice j).rstack.length < 16 ∧ (s.cur.slice j).rdepth < 65535) →
      s.checkTarget s.iss.gid (s.target o) = (u, none) → u.checkTarget s.iss.gid (pcSucc s.iss.pc) = (v, none) → Answered s v →
      Completes (.call o) s (eachSlice s v · fun _ x => sent (s.target o)
        { x with rstack := pcIndex (pcSucc s.iss.pc) :: x.rstack, rdepth := x.rdepth + 1 })) ∧
    ((∀ j ∈ s.iss.slices, 0 < (s.cur.slice j).rdepth ∧ (s.cur.slice j).rstack.head? = some (T j) ∧
        s.checkTarget s.iss.gid (pcOf (T j)) = (s, none)) →
      Completes .ret s (eachSlice s s · fun j x => sent (pcOf (T j))
        { x with rstack := x.rstack.tail, rdepth := x.rdepth - 1 })) ∧
    ((∃ j ∈ s.iss.slices, (s.cur.slice j).rdepth = 65535 ∨
        (16 ≤ (s.cur.slice j).rstack.length ∧ s.iss.src.spill.get 0 j = 0)) →
      exec (.call o) s = .next (s.fault { code := .protect, detail := 3 })) ∧
    ((∃ j ∈ s.iss.slices, (s.cur.slice j).rdepth = 0) →
      exec .ret s = .next (s.fault { code := .illegal, detail := 1 }))

/-- R137: `join` at the top entry's join point resumes its pending lanes, or, when none of them lives, restores the whole
and pops; elsewhere, and on an empty stack, it only falls through. -/
def Sys2Proof.Claims.Join : Prop :=
  ∀ (s : State), s.iss.slices.Nodup → Completes .join s fun t =>
    (∀ j ∈ s.iss.slices, let x := s.cur.slice j; let y := t.cur.slice j
      (x.stack = [] → y = x) ∧
      (∀ e rest, x.stack = e :: rest →
        (e.jp ≠ some (pcIndex s.iss.pc) → y = x) ∧
        (e.jp = some (pcIndex s.iss.pc) → e.pend &&& x.live ≠ 0 →
          y = sent e.pendpc { x with mask := e.pend &&& x.live, stack := { e with pend := 0 } :: rest }) ∧
        (e.jp = some (pcIndex s.iss.pc) → e.pend &&& x.live = 0 → rest = [] →
          y = { x with mask := e.whole &&& x.live, j := none, stack := [] }))) ∧
    (∀ j, j ∉ s.iss.slices → t.cur.slice j = s.cur.slice j) ∧ t = s.modCur fun g => { g with slices := t.cur.slices }

/-- R138: `exit` ends the active lanes; a slice with nothing on its stack ends, one with pending lanes resumes them, and one
that would resume lanes at a join point of none raises ILLEGAL with detail 3 with no effect. A gang whose slices have all
ended has ended. No register and no memory changes. -/
def Sys2Proof.Claims.Exit : Prop :=
  ∀ (s : State), s.iss.slices.Nodup →
    let live := fun j => (s.cur.slice j).live &&& ~~~(s.cur.slice j).mask
    ((∀ j ∈ s.iss.slices, (s.cur.slice j).stack = [] ∨ ∃ e rest, (s.cur.slice j).stack = e :: rest ∧ e.pend &&& live j ≠ 0) →
      Completes .exit s fun t =>
        (∀ j ∈ s.iss.slices, let x := s.cur.slice j; let y := t.cur.slice j
          y.live = live j ∧ (x.stack = [] → y = { x with live := live j, mask := 0 }) ∧
          (∀ e rest, x.stack = e :: rest → y =
            sent e.pendpc { x with live := live j, mask := e.pend &&& live j, stack := { e with pend := 0 } :: rest })) ∧
        (∀ j, j ∉ s.iss.slices → t.cur.slice j = s.cur.slice j) ∧ t.cur.regs = s.cur.regs ∧ t.dmem = s.dmem ∧
        (s.cur.resident = true → (∀ x ∈ t.cur.slices, x.2.live = 0 ∧ x.2.hgLanes = 0) → t.cur.ended = true)) ∧
    ((∃ j ∈ s.iss.slices, ∃ e, (s.cur.slice j).stack = [e] ∧ e.pend &&& live j = 0 ∧ e.whole &&& live j ≠ 0 ∧ e.jp = none) →
      exec .exit s = .next (s.fault { code := .illegal, detail := 3 }))

/-- Calls, returns, `join` and `exit`. -/
def Obligations.CallsJoinExit : Prop := Claims.CallsAndReturns ∧ Claims.Join ∧ Claims.Exit

/-- R139 where every active lane's target passes its check (`u` is the state with what the fetches of the targets mark). A slice with an active lane goes to the lowest of its lanes' targets with
the lanes that name it, and has pushed one entry for each other target, whose lanes wait in its PEND; with one target only, its stack is
as it was. A slice without one goes on at the successor. -/
def Sys2Proof.Claims.IndirectJump : Prop :=
  ∀ (s u : State) (v : VReg64), let T := fun i => (s.codeBase + (s.iss.readV v.val i).toNat) % 2 ^ 64
    let L := fun (j : Nat) => s.lanes.filter fun i => i / 4 == j
    let kinds := fun (j : Nat) => (rising ((L j).map T)).length
    s.iss.slices.Nodup → v.val < s.cur.vregs → s.jumpLanes v.val s.lanes = (u, s.lanes.map fun i => (i, T i, none)) → Answered s u →
    (∀ i ∈ s.lanes, i / 4 ∈ s.iss.slices) →
    (∀ j ∈ s.iss.slices, (s.cur.slice j).stack.length + (kinds j - 1) ≤ 8) →
    ∃ t, exec (.jmp v) s = .next t ∧ t = (u.modCur fun g => { g with slices := t.cur.slices }) ∧
      (∀ j, j ∉ s.iss.slices ∨ L j = [] → t.cur.slice j = s.cur.slice j) ∧
      ∀ j ∈ s.iss.slices, L j ≠ [] → let x := s.cur.slice j; let y := t.cur.slice j
        (∃ i ∈ L j, y.pc = T i) ∧ (∀ i ∈ L j, y.pc ≤ T i) ∧ y.live = x.live ∧
        y.mask = laneNibble (maskOf ((L j).filter fun i => T i == y.pc)) j ∧
        ∃ es, y.stack = es ++ x.stack ∧ es.length = kinds j - 1 ∧
          (∀ i ∈ L j, T i ≠ y.pc → ∃ e ∈ es, e.pendpc = T i ∧ bit e.pend.toNat (i % 4) = true ∧ e.jp = x.j) ∧
          (kinds j = 1 → y = sent (T ((L j).headD 0)) { x with mask := laneNibble (maskOf (L j)) j })

/-- R141: `regang` joins the slices of its split that the mask names, and those of other splits that the mask names whole and that
stand at the packet, into one split, and parts the rest from it. `regang.wait` parks the named slices until every live one named is
parked there; the last to come joins them all, and they go on. Nothing but slices changes. -/
def Sys2Proof.Claims.Regang : Prop :=
  ∀ (s : State) (m : BitVec 8), m ≠ 0 → let named := fun j => j < 8 ∧ m.getLsbD j = true
    (∃ t, exec (.regang m) s = .next t ∧
      (∀ j ∈ s.iss.slices, ∀ k ∈ s.iss.slices, (named j ↔ named k) → (t.cur.slice j).split = (t.cur.slice k).split) ∧
      (∀ j ∈ s.iss.slices, t.cur.slice j = { s.cur.slice j with split := (t.cur.slice j).split }) ∧
      (∀ j ∈ s.iss.slices, named j → ∀ k ∈ s.cur.sliceKeys, k ∉ s.iss.slices → (s.cur.slice k).live ≠ 0 →
        (s.cur.slice k).halted = false → (s.cur.slice k).park = .none → (s.cur.slice k).pc = s.iss.pc →
        (∀ i ∈ s.cur.splitOf k, named i) →
        (t.cur.slice k).split = (t.cur.slice j).split ∧ (t.cur.slice k).pc = pcSucc s.iss.pc) ∧
      t = s.modCur fun g => { g with slices := t.cur.slices }) ∧
    ((∃ j ∈ s.iss.slices, named j) → (∃ k, named k ∧ k ∈ s.cur.sliceKeys ∧ k ∉ s.iss.slices ∧ (s.cur.slice k).ended = false ∧
        (s.cur.slice k).park ≠ .regang m.toNat) →
      ∃ t, exec (.regangWait m) s = .next t ∧
        (∀ j ∈ s.iss.slices, named j → (t.cur.slice j).park = .regang m.toNat ∧ (t.cur.slice j).pc = s.iss.pc) ∧
        (∀ j ∈ s.iss.slices, ¬named j → (t.cur.slice j).park = (s.cur.slice j).park ∧ (t.cur.slice j).pc = (s.cur.slice j).pc) ∧
        t = s.modCur fun g => { g with slices := t.cur.slices }) ∧
    ((∃ j ∈ s.iss.slices, named j) → (∀ j ∈ s.iss.slices, j ∈ s.cur.sliceKeys ∧ (s.cur.slice j).ended = false) →
      (∀ k ∈ s.cur.sliceKeys, named k → k ∉ s.iss.slices →
        (s.cur.slice k).ended = true ∨ ((s.cur.slice k).park = .regang m.toNat ∧ (s.cur.slice k).pc = s.iss.pc)) →
      ∃ t, exec (.regangWait m) s = .next t ∧
        (∀ j ∈ s.iss.slices, named j → ∀ k ∈ s.cur.sliceKeys, named k → (s.cur.slice k).ended = false →
          (t.cur.slice k).split = (t.cur.slice j).split ∧ (t.cur.slice k).park = .none ∧ (t.cur.slice k).pc = pcSucc s.iss.pc) ∧
        t = s.modCur fun g => { g with slices := t.cur.slices })

/-- Indirect jumps, and `regang`. -/
def Obligations.JumpsAndRegang : Prop := Claims.IndirectJump ∧ Claims.Regang

/-- R142 and R144: `elect` sets the bit of the one elected lane of the role in the team; `nop` has no effect; `yield` makes
the gang one that is to leave the active set, and changes nothing else. It leaves once a pending gang of the core is ready, and the oldest
such gang takes its place; without one it stays. -/
def Sys2Proof.Claims.ElectNopYield : Prop :=
  ∀ (s : State) (p : PReg),
    Completes (.elect p) s (PredWrite s · p fun i => s.elected s.teamKey s.cur.role == some (s.iss.gid, i)) ∧
    encode (.elect p) = [BitVec.ofNat 32 (0x600a0000 + p.val)] ∧ exec .nop s = .next s ∧
    (Completes .yield s fun t => t = { s with gangs := t.gangs } ∧ (∀ j, j ≠ s.iss.gid → t.gang j = s.gang j) ∧
      t.cur = if s.cur.active.isSome ∧ .always ∉ s.cur.leaving then { s.cur with leaving := s.cur.leaving ++ [.always] } else s.cur) ∧
    (∀ n, s.cur.active = some n → .always ∈ s.cur.leaving →
      (s.readyPending s.coreKey = [] → s.swapOne s.coreKey s.iss.gid =
        s.modCur fun g => { g with leaving := g.leaving.filter (s.stillLeaves s.iss.gid) }) ∧
      (∀ k rest, s.readyPending s.coreKey = k :: rest → k ≠ s.iss.gid → let t := s.swapOne s.coreKey s.iss.gid
        t.cur.active = none ∧ (t.gang k).active = some n ∧ (s.iss.gid, k) ∈ (t.core s.coreKey).swaps))

/-- R142: L is the lowest lane, neither exited nor halted, of the lowest-numbered gang of the role in the team that has such a
lane, and there is none only when no gang of the role has one. -/
def Sys2Proof.Claims.ElectedLaneLives : Prop :=
  ∀ (s : State) (team role : Nat),
    let able := fun k => (s.gang k).laneMask (s.gang k).sliceKeys fun x => if x.halted then 0 else x.live
    let ofRole := fun k => gidTeam k = team ∧ (s.gang k).resident = true ∧ (s.gang k).role = role ∧ (s.gang k).ended = false
    (∀ gid i, s.elected team role = some (gid, i) → ofRole gid ∧ bit (able gid) i = true ∧
      (∀ k, k < i → bit (able gid) k = false) ∧
      ∀ h, ofRole h → h < gid → ∀ k, k < 64 → bit (able h) k = false) ∧
    (s.elected team role = none → ∀ h, ofRole h → ∀ k, k < 64 → bit (able h) k = false)

/-- `elect`, `nop` and `yield`. -/
def Obligations.ElectNopYieldWords : Prop := Claims.ElectNopYield ∧ Claims.ElectedLaneLives

/-! ### Child grids, power, windows -/

/-- R146: `launch` checks alignment, then depth, then the gang's 16 children, in that order; a child that is rejected is
only counted, and one that is accepted joins the gang's children and the hand-over list. -/
def Sys2Proof.Claims.Launch : Prop :=
  ∀ (s : State) (a : SReg), let va := (s.srcS a).toNat
    (s.lanes = [] → exec (.launch a) s = .next s) ∧
    (s.lanes ≠ [] →
      (va % 64 ≠ 0 → exec (.launch a) s = .next (s.fault { code := .align, addr := va })) ∧
      (va % 64 = 0 →
        (10 ≤ s.curGrid.depth → exec (.launch a) s = .next (s.fault { code := .nestDepth })) ∧
        (s.curGrid.depth < 10 → 16 ≤ s.cur.children.length → s.iss.slices.Nodup → Completes (.launch a) s
          (eachSlice s s · fun _ x => { x with park := .launch va, pc := s.iss.pc })) ∧
        (s.curGrid.depth < 10 → s.cur.children.length < 16 → s.pending.length < 2048 →
          ∀ u v m, s.readLoad s.iss.gid (s.accessCtx s.teamKey) va 512 = (u, .ok m) →
          (∀ r, u.checkLaunch u.coreKey u.childFrom m = (v, .error r) → Answered s v → Completes (.launch a) s fun t =>
            t.cur.joined = v.cur.joined + 1 ∧ t.cur.rejected = v.cur.rejected + 1 ∧ t.cur.children = v.cur.children ∧
            t.pending = v.pending ∧ t.dmem = v.dmem ∧ t.cur.regs = v.cur.regs) ∧
          (∀ h, u.checkLaunch u.coreKey u.childFrom m = (v, .ok h) → Answered s v → Completes (.launch a) s fun t =>
            ∃ k, t.cur.children = v.cur.children ++ [k] ∧ t.pending = v.pending ++ [k] ∧ (t.grid k).lr = h.lr ∧
              (t.grid k).depth = v.curGrid.depth + 1 ∧ (t.grid k).parent = some v.iss.gid ∧
              t.cur.regs = v.cur.regs ∧ t.dmem = v.dmem))))

/-- R147: with no children outstanding `ljoin` writes the gang's child record and clears it; otherwise the split parks. -/
def Sys2Proof.Claims.LaunchJoin : Prop :=
  ∀ (s : State) (d : SReg),
    (s.cur.children = [] → Completes (.ljoin d) s fun t => t.cur.joined = 0 ∧ t.cur.rejected = 0 ∧ t.cur.reason = 0 ∧
      t.dmem = s.dmem ∧ t.teams = s.teams ∧ sreg t d = (if d.val = 0 then 0 else BitVec.ofNat 64
        (s.cur.joined % 2 ^ 16 + s.cur.rejected % 2 ^ 16 * 2 ^ 16 +
          (if s.cur.rejected = 0 then 0 else s.cur.reason % 256) * 2 ^ 32)) ∧ (∀ n, n ≠ d → sreg t n = sreg s n)) ∧
    (s.cur.children ≠ [] → s.iss.slices.Nodup → Completes (.ljoin d) s
      (eachSlice s s · fun _ x => { x with park := .ljoin d.val, pc := s.iss.pc }))

/-- `launch`, and what `ljoin` waits for. -/
def Obligations.LaunchAndLaunchJoin : Prop := Claims.Launch ∧ Claims.LaunchJoin

/-- R148 and R149: a team that holds a grant of at least the class goes on at once; otherwise its request joins the
controller's list, or raises its pending one, and the split parks; `pwrel` returns the grant and leaves the request. -/
def Sys2Proof.Claims.PowerRequests : Prop :=
  ∀ (s : State) (c : PReg), c.val ≠ 0 → let t0 := s.curTeam
    (s.lanes = [] ∨ (∃ g, t0.grant = some g ∧ c.val ≤ g) → exec (.pwreq c) s = .next s ∧ exec (.pwreqYield c) s = .next s) ∧
    (s.lanes ≠ [] → (∀ g, t0.grant = some g → g < c.val) → ∀ i ∈ [Instr.pwreq c, .pwreqYield c], Completes i s fun t =>
      (∀ j ∈ s.iss.slices, (t.cur.slice j).park = .pwreq c.val ∧ (t.cur.slice j).pc = s.iss.pc) ∧
      t.curTeam.request = some (max c.val (t0.request.getD 0)) ∧ t.cur.regs = s.cur.regs ∧ t.dmem = s.dmem ∧
      (t0.request = none → t.curTeam.grant = none ∧ t.power.fifo = s.power.fifo ++ [(s.teamKey, c.val)])) ∧
    (s.lanes ≠ [] → Completes .pwrel s fun t => t = s.modTeam s.teamKey fun x => { x with grant := none })

/-- The power events of R98 and R99: the oldest request is granted only when its allowance fits the pool, and the throttle
follows the limit. -/
def Sys2Proof.Claims.PowerEvents : Prop :=
  ∀ (s : State) (team c : Nat) (rest : List (Nat × Nat)),
    (s.power.fifo = [] → exec .powerGrant s = .next s) ∧
    (s.power.fifo = (team, c) :: rest → s.granted + allowance c ≤ s.power.pool → Completes .powerGrant s fun t =>
      t.power.fifo = rest ∧ (t.team team).grant = some c ∧ (t.team team).request = none ∧ t.gangs = s.gangs ∧ t.dmem = s.dmem) ∧
    (s.power.fifo = (team, c) :: rest → s.power.pool < s.granted + allowance c → exec .powerGrant s = .next s) ∧
    Completes .powerOverLimit s (fun t => t = { s with power := { s.power with throttle := true } }) ∧
    Completes .powerThrottleClear s (fun t => t = { s with power := { s.power with throttle := false } })

/-- `pwreq`, and grants of power. -/
def Obligations.PowerWordsAndEvents : Prop := Claims.PowerRequests ∧ Claims.PowerEvents

/-- R310 to R312: `wmember` reads a member's state, all ones beyond the window and ILLEGAL with detail 14 from 256 on;
`wdetach` detaches a member with nothing outstanding, at once when no other part has to hear of it and parked until every part has applied
it otherwise, and parks one that has something outstanding; `wbar` parks after a release. Without a
window `wdetach` and `wbar` raise ILLEGAL with detail 14. On the firmware core these words are ILLEGAL (R71). -/
def Obligations.WindowWords : Prop :=
  ∀ (s : State) (a : SReg), gidCore s.iss.gid ≠ 388 → let n := (s.srcS a).toNat; let bad : FInfo := { code := .illegal, detail := 14 }
    encode (.wmember a) = [BitVec.ofNat 32 (0x60180000 + a.val * 0x800)] ∧
    (256 ≤ n → exec (.wmember a) s = .next (s.fault bad)) ∧
    (n < 256 → Completes (.wmember a) s fun t => ScalarWrite s t a (match s.curTeam.window with
      | none => 0xffffffffffffffff#64
      | some w => if n < w.entries.length then BitVec.ofNat 64 (w.entries.getD n {}).state else 0xffffffffffffffff#64)) ∧
    (s.curTeam.window = none → exec .wdetach s = .next (s.fault bad) ∧ exec .wbar s = .next (s.fault bad)) ∧
    (∀ w m, s.curTeam.window = some w → s.curTeam.member = some m → (w.entries.getD m {}).state ≠ 2 →
      (s.windowBusy s.teamKey = true → s.iss.slices.Nodup →
        Completes .wdetach s (eachSlice s s · fun _ x => { x with park := .wdetach, pc := s.iss.pc })) ∧
      (s.windowBusy s.teamKey = false → s.curTeam.valid = true → (w.entries.getD m {}).state ≠ 3 → m < w.entries.length →
        Completes .wdetach s fun t => t.dmem = s.dmem ∧
          (∀ w', t.curTeam.window = some w' → (w'.entries.getD m {}).state = 2) ∧
          ((∀ p ∈ w.parts s.part, s.down.contains p = true) → t.gangs = s.gangs) ∧
          ((∃ p ∈ w.parts s.part, s.down.contains p = false) →
            ∀ j ∈ s.iss.slices, (t.cur.slice j).park = .wdetach ∧ (t.cur.slice j).pc = s.iss.pc))) ∧
    (∀ w, s.curTeam.window = some w → s.isTwin s.curTeam.ctx = false →
      ((∃ e ∈ w.entries, e.state = 3) → exec .wbar s = .next (s.fault { code := .windowDeparted })) ∧
      ((∀ e ∈ w.entries, e.state ≠ 3) → Completes .wbar s fun t =>
        (∀ j ∈ s.iss.slices, (t.cur.slice j).park = .wbar w.gen ∧ (t.cur.slice j).pc = s.iss.pc) ∧
        (∃ e, t.cur.sq = s.cur.sq ++ [e] ∧ e.kind = .marker) ∧ t.cur.regs = s.cur.regs ∧ t.dmem = s.dmem ∧ t.teams = s.teams))

/-! ### Counters, barriers, timelines -/

/-- The split stands parked at its packet, and nothing else of the part has changed. -/
def Sys2Proof.Claims.parkedFor (s t : State) (w : Park) : Prop := eachSlice s s t fun _ x => { x with park := w, pc := s.iss.pc }

/-- R254: `waitcnt` goes on when each class it names stands at or below its threshold, 31 names no class, and parks
otherwise; with Y the gang may also give up its place, and with no class named and Y it acts as `yield`. R256: `bar` with N above 16 is ILLEGAL with detail 7; a split of a
gang that has another running split only parks; the one gang of a barrier of one goes on at once and leaves the barrier
free. -/
def Obligations.CountersAndBarriers : Prop :=
  ∀ (s : State) (l st c m : Fin 32) (a : SReg) (i : Fin 16), s.cur.sliceKeys.Pairwise (· < ·) → s.iss.slices.Nodup →
    let within := fun (f : Fin 32) (n : Nat) => f.val = 31 ∨ n ≤ f.val; let n := (s.srcS a).toNat % 32
    let ok := within l s.cur.ld ∧ within st s.cur.st ∧ within c s.cur.cp ∧ within m s.cur.tm
    (ok → exec (.waitcnt l st c m false) s = .next s ∧
      (l.val ≠ 31 ∨ st.val ≠ 31 ∨ c.val ≠ 31 ∨ m.val ≠ 31 → exec (.waitcnt l st c m true) s = .next s)) ∧
    (exec (.waitcnt 31 31 31 31 true) s = exec .yield s) ∧
    (¬ok → Completes (.waitcnt l st c m false) s (parkedFor s · (.waitcnt l.val st.val c.val m.val)) ∧
      Completes (.waitcnt l st c m true) s fun t => t.cur.regs = s.cur.regs ∧ t.dmem = s.dmem ∧ t.teams = s.teams ∧
        ∀ j ∈ s.iss.slices, (t.cur.slice j).park = .waitcnt l.val st.val c.val m.val ∧ (t.cur.slice j).pc = s.iss.pc) ∧
    (16 < n → exec (.bar a i) s = .next (s.fault { code := .illegal, detail := 7 })) ∧
    (n ≤ 16 → s.cur.sq = [] →
      ((∃ x ∈ s.cur.slices, x.1 ∉ s.iss.slices ∧ x.2.live ≠ 0 ∧ x.2.halted = false ∧ ∀ k, x.2.park ≠ .bar i.val k) →
        Completes (.bar a i) s (parkedFor s · (.bar i.val n))) ∧
      (n = 1 → (s.curTeam.bar i.val) = {} → (∃ j ∈ s.iss.slices, (s.cur.slice j).live ≠ 0 ∧ (s.cur.slice j).halted = false) →
        (∀ x ∈ s.cur.slices, x.1 ∈ s.iss.slices ∨ x.2.live = 0 ∨ x.2.halted = true) →
        (∀ x ∈ s.cur.slices, x.1 ∉ s.iss.slices → ∀ k, x.2.park ≠ .bar i.val k) →
        (∀ j ∈ s.iss.slices, (s.cur.slice j).others = none) → Completes (.bar a i) s fun t =>
          (∀ j ∈ s.iss.slices, t.cur.slice j = { s.cur.slice j with park := .none, pc := pcSucc s.iss.pc, did := [] }) ∧
          t.curTeam.bar i.val = {} ∧ t.cur.regs = s.cur.regs ∧ t.dmem = s.dmem))

/-- R258's word `w'` after an arrival at `w` that expects `b` more bytes: P is bit 63, FLT 62, ERR 61, the arrivals still
awaited bits [60:54], their count bits [53:47], the bytes still awaited bits [46:0]. -/
def Sys2Proof.Claims.phaseArrived (w b w' : Nat) : Prop :=
  let arr := bits w 54 7; let n := if arr = 0 then 0 else arr - 1; let bytes := (bits w 0 47 + b) % 2 ^ 47
  let done : Bool := n == 0 && bytes == 0
  bits w' 0 47 = bytes ∧ bits w' 47 7 = bits w 47 7 ∧ (bits w' 54 7 = if done then bits w 47 7 else n) ∧
  bit w' 61 = (bit w 61 || arr == 0) ∧ bit w' 62 = bit w 62 ∧ bit w' 63 = (bit w 63 ^^ done)

/-- R258: a phase-bit form acts once on the 8-byte word that its lowest active lane addresses, with no store of the core to
the word pending, and it changes no other byte; while an engine owns the word's line its split stays at its packet (R224, R243). Its
checks are ALIGN, then PROTECT with detail 6. -/
def Obligations.PhaseBarriers : Prop :=
  ∀ (s : State) (a : AReg) (i : Nat) (rest : List Nat) (n : Fin 128) (b : SReg) (p : PReg) (h : Bool), n.val ≠ 0 →
    let off := ((s.srcA a).base + BitVec.ofNat 64 i * BitVec.ofInt 64 (s.srcA a).stride.toInt).toNat
    let w := s.curTeam.scratch.readLE off 8; let x := (s.srcS b).toNat
    let put := fun (P : Nat → Prop) (t : State) => P (t.curTeam.scratch.readLE off 8) ∧
      (∀ k, k < off ∨ off + 8 ≤ k → t.curTeam.scratch.read k = s.curTeam.scratch.read k) ∧
      t = s.modTeam s.teamKey fun u => { u with scratch := t.curTeam.scratch }
    (s.lanes = i :: rest →
      (off % 8 ≠ 0 → exec (.phbinit a n) s = .next (s.fault { code := .align, acc := 1, addr := off }) ∧
        exec (.phbwait a h) s = .next (s.fault { code := .align, addr := off })) ∧
      (off % 8 = 0 → s.curTeam.scratchSize < off + 8 →
        exec (.phbarr a) s = .next (s.fault { code := .protect, detail := 6, acc := 1, addr := off })) ∧
      (off % 8 = 0 → off + 8 ≤ s.curTeam.scratchSize → s.cur.sq = [] → (s.core s.coreKey).wp = [] → s.iss.slices.Nodup →
        s.recalled (s.accessCtx s.teamKey) (.buf s.teamKey .l off) (s.copyOrder + 1) = true →
        ∀ i, i = .phbinit a n ∨ i = .phbarr a ∨ i = .phbtest a p h ∨ i = .phbwait a h ∨ (i = .phbexp b a ∧ x < 2 ^ 46) →
          Completes i s (eachSlice s s · fun _ y => { y with pc := s.iss.pc })) ∧
      (off % 8 = 0 → off + 8 ≤ s.curTeam.scratchSize → s.cur.sq = [] → (s.core s.coreKey).wp = [] →
        s.recalled (s.accessCtx s.teamKey) (.buf s.teamKey .l off) (s.copyOrder + 1) = false →
        Completes (.phbinit a n) s (put (· = n.val * 2 ^ 54 + n.val * 2 ^ 47)) ∧
        Completes (.phbarr a) s (put (phaseArrived w 0)) ∧
        (x < 2 ^ 46 → Completes (.phbexp b a) s (put (phaseArrived w x))) ∧
        Completes (.phbtest a p h) s (PredWrite s · p fun _ => bit w 63 != h) ∧
        (bit w 63 ≠ h ∨ bit w 62 = true → exec (.phbwait a h) s = .next s) ∧
        (s.iss.slices.Nodup → bit w 63 = h → bit w 62 = false →
          Completes (.phbwait a h) s (parkedFor s · (.phbwait off h)))) ∧
      (2 ^ 46 ≤ x → exec (.phbexp b a) s = .next (s.fault { code := .illegal, detail := 7 }))) ∧
    (s.lanes = [] → exec (.phbinit a n) s = .next s ∧ exec (.phbarr a) s = .next s ∧ exec (.phbexp b a) s = .next s ∧
      exec (.phbwait a h) s = .next s)

/-- R260 to R262 and R78: `tlsig`, `qtail` and `qpost` enter the store queue, counted on `st`, and `tlread` the loads; a
`tlwait` that is satisfied only empties the L1, and one that is not stays where it is. A bad index is ILLEGAL with detail 7,
one of another logical device PROTECT with detail 9 or 10, and a rival's form that would leave its twin TWIN_ISOLATED. A
raise lifts its timeline to a value ahead of it, which leaves the line in no host cache, and leaves one that is not as it was (R79). -/
def Obligations.TimelinesAndPosting : Prop :=
  ∀ (s : State) (a b d : SReg), let k := (s.srcS a).toNat; let v := s.srcS b; let L := s.ldev (s.ctx s.curTeam.ctx).ld
    let T : W64 := s.timelines.get 0 k; let twin := s.isTwin s.curTeam.ctx; let q := k % 2 ^ 10
    let stored := fun (kind : SqKind) (lanes : List LaneAcc) (t : State) => ∃ e : SqEntry, e.kind = kind ∧ e.lanes = lanes ∧
      e.seq = s.cur.seq ∧ e.gid = s.iss.gid ∧
      t = s.modCur fun g => { g with sq := g.sq ++ [e], seq := g.seq + 1, st := g.st + 1 }
    (twin = true → exec (.tlsig a b) s = .next (s.fault { code := .twinIsolated }) ∧
      exec (.qtail a b) s = .next (s.fault { code := .twinIsolated }) ∧
      exec (.qpost a b) s = .next (s.fault { code := .twinIsolated })) ∧
    (2 ^ 12 ≤ k → exec (.tlread d a) s = .next (s.fault { code := .illegal, detail := 7 }) ∧
      exec (.tlwait a b) s = .next (s.fault { code := .illegal, detail := 7 })) ∧
    (k < 2 ^ 12 → k < L.tlfirst ∨ L.tlfirst + L.tlcount ≤ k →
      exec (.tlread d a) s = .next (s.fault { code := .protect, detail := 9 }) ∧
      exec (.tlwait a b) s = .next (s.fault { code := .protect, detail := 9 })) ∧
    (k < 2 ^ 12 → L.tlfirst ≤ k → k < L.tlfirst + L.tlcount →
      (twin = false → Completes (.tlsig a b) s (stored (.tlsig k v.toNat) [])) ∧
      (0 ≤ (T - v).toInt → Completes (.tlwait a b) s (· = s.modCore s.coreKey fun c => { c with l1 := [] })) ∧
      (s.iss.slices.Nodup → (T - v).toInt < 0 → Completes (.tlwait a b) s (eachSlice s s · fun _ x => { x with pc := s.iss.pc })) ∧
      (Completes (.tlread d a) s fun t => ∃ o : Op, o.kind = .tlread d.val s.iss.sup k ∧ o.seq = s.cur.seq ∧
        t = s.modCur fun g => { g with ops := g.ops ++ [o], seq := g.seq + 1, ld := g.ld + 1 })) ∧
    (twin = false → k < 2 ^ 10 → v.toNat < 2 ^ 32 →
      (L.qfirst ≤ k → k < L.qfirst + L.qcount → Completes (.qtail a b) s fun t => ∃ sys, stored (.qtail k v.toNat sys) [] t) ∧
      (k < L.qfirst ∨ L.qfirst + L.qcount ≤ k →
        exec (.qtail a b) s = .next (s.fault { code := .protect, detail := 10 }))) ∧
    (twin = false → bits k 10 22 = 0 → v.toNat % 64 = 0 → v.toNat < 2 ^ 57 → L.qfirst ≤ q → q < L.qfirst + L.qcount →
      ((s.queue q).state ≠ 1 → Completes (.qpost a b) s
        (· = s.setQueue q { s.queue q with stale := min ((s.queue q).stale + 1) 0xffffffff })) ∧
      (∀ l m, let slot := ((s.queue q).base + 64 * (k / 2 ^ 32 % 2 ^ 32 % (s.queue q).size)) % 2 ^ 57
        let c := s.accessCtx s.teamKey
        (s.queue q).state = 1 → s.translateIn s.coreKey c v.toNat 0 = (s, .ok l) → s.translateIn s.coreKey c slot 1 = (s, .ok m) →
        Completes (.qpost a b) s fun t => t.cur.ld = s.cur.ld + 1 ∧ t.cur.st = s.cur.st + 1 ∧ t.cur.regs = s.cur.regs ∧
          t.dmem = s.dmem ∧ (∃ o, t.cur.ops = s.cur.ops ++ [o] ∧ o.kind = .qpost ∧ o.lanes = [⟨0, l, v.toNat, 64, 0, 0, false, 0⟩]) ∧
          ∃ e, t.cur.sq = s.cur.sq ++ [e] ∧ e.kind = .qpost false ∧ e.lanes = [⟨0, m, slot, 64, 0, 0, false, 0⟩])) ∧
    (∀ j, (s.raises.find? fun r => r.tl == j) = none → exec (.timelineRaiseWrite j) s = .next s) ∧
    (∀ j r, (s.raises.find? fun r => r.tl == j) = some r → s.raiseHeld r = false → r.seen = true →
      Completes (.timelineRaiseWrite j) s fun t => let x : W64 := s.timelines.get 0 j; let y : W64 := BitVec.ofNat 64 r.value
        t.timelines.get 0 j = (if 0 < (y - x).toInt then y else x) ∧
        (∀ k, k ≠ j → t.timelines.get 0 k = s.timelines.get 0 k) ∧ t.raises = s.raises.erase r ∧ t.dmem = s.dmem ∧
        t.tlShared = if 0 < (y - x).toInt then s.tlShared.filter (· != j) else s.tlShared)

/-! ### The matrix engine -/

/-- One tile operation joins the team's list, takes the next number of the part's issue order and counts on `tm`; nothing else
changes. -/
def Sys2Proof.Claims.tileStarted (k : TileKind) (s t : State) : Prop :=
  ∃ op : TileOp, op.kind = k ∧ op.gid = s.iss.gid ∧ op.pc = s.iss.pc ∧ op.word = s.iss.word ∧ op.done = 0 ∧ op.popped = [] ∧
    op.order = s.copyOrder + 1 ∧
    t = (State.modTeam { s with copyOrder := s.copyOrder + 1 } s.teamKey fun x => { x with tiles := x.tiles ++ [op] }).modCur
      fun g => { g with tm := g.tm + 1 }

/-- R271: a C region of 16 to 128 by 16 to 256 elements, at a multiple of 16, inside the share of CB. -/
def Sys2Proof.Claims.regionOk (s : State) (c : CRegion) : Prop :=
  16 ≤ c.m ∧ c.m ≤ 128 ∧ 16 ≤ c.n ∧ c.n ≤ 256 ∧ c.off % 16 = 0 ∧ c.off + 4 * c.m * c.n ≤ s.curTeam.extent .cb

/-- R271 to R280: what a matrix word needs to start, and that it then only starts: the buffers change as its operation
completes. A region with a bad shape is ILLEGAL with detail 5, a misaligned one ALIGN, one outside the share PROTECT with
detail 6; a split with no active lane starts nothing. -/
def Obligations.TileIssue : Prop :=
  ∀ (s : State) (f : FSlot) (a b c : SReg), s.lanes ≠ [] →
    let sa := (s.srcS a).toNat; let sb := (s.srcS b).toNat; let sc := (s.srcS c).toNat
    let R := regionOf (s.srcS b); let C := regionOf (s.srcS a); let g : FSlot := ⟨sc % 8, Nat.mod_lt _ (by decide)⟩
    (∀ fa fb k, sc < 8 → s.slotUnused g = false → FmtSlot.ofBits (s.slotBits f) = some fa → FmtSlot.ofBits (s.slotBits g) = some fb →
      granuleOf fa.fmt fb.fmt = some k → regionOk s R → R.kg ≠ 0 → sa % 2 ^ 32 % 16 = 0 → sa / 2 ^ 32 % 16 = 0 →
      sa % 2 ^ 32 + R.m * (R.kg * k) * fa.fmt.width / 8 ≤ s.curTeam.extent .ab →
      sa / 2 ^ 32 + R.kg * k * R.n * fb.fmt.width / 8 ≤ s.curTeam.extent .wb →
      (Admits (.tmm f a b c) s → Completes (.tmm f a b c) s
        (tileStarted (.tmm false (sa % 2 ^ 32) (sa / 2 ^ 32) R (s.slotBits f) (s.slotBits g)) s)) ∧
      (Admits (.tmms f a b c) s → Completes (.tmms f a b c) s
        (tileStarted (.tmm true (sa % 2 ^ 32) (sa / 2 ^ 32) R (s.slotBits f) (s.slotBits g)) s))) ∧
    (s.slotUnused g = true →
      (Admits (.tmm f a b c) s → exec (.tmm f a b c) s = .next (s.fault { code := .illegal })) ∧
      (Admits (.tmms f a b c) s → exec (.tmms f a b c) s = .next (s.fault { code := .illegal }))) ∧
    (Admits (.tzero a) s →
      (regionOk s C → Completes (.tzero a) s (tileStarted (.tzero C) s)) ∧
      (¬(16 ≤ C.m ∧ C.m ≤ 128 ∧ 16 ≤ C.n ∧ C.n ≤ 256) → exec (.tzero a) s = .next (s.fault { code := .illegal, detail := 5 })) ∧
      ((16 ≤ C.m ∧ C.m ≤ 128 ∧ 16 ≤ C.n ∧ C.n ≤ 256) → C.off % 16 ≠ 0 → exec (.tzero a) s = .next (s.fault { code := .align })) ∧
      ((16 ≤ C.m ∧ C.m ≤ 128 ∧ 16 ≤ C.n ∧ C.n ≤ 256) → C.off % 16 = 0 → s.curTeam.extent .cb < C.off + 4 * C.m * C.n →
        exec (.tzero a) s = .next (s.fault { code := .protect, detail := 6 }))) ∧
    (∀ o, let bias := bit sc 32; let act := bits sc 33 3; let boff := sc % 2 ^ 32; let ooff := sb % 2 ^ 32
      let A : FSlot := ⟨bits sb 32 3, Nat.mod_lt _ (by decide)⟩; let B : FSlot := ⟨bits sb 36 3, Nat.mod_lt _ (by decide)⟩
      Admits (.tepi f a b c) s → FmtSlot.ofBits (s.slotBits f) = some o → bits (s.slotBits f).toNat 6 2 < 2 → sc < 2 ^ 36 → act < 3 →
      (bias = false → boff = 0) → regionOk s C → ooff % 16 = 0 → boff % 4 = 0 → ooff + C.m * C.n * o.fmt.width / 8 ≤ s.curTeam.extent .ab →
      (bias = true → boff + 4 * C.n ≤ s.curTeam.extent .ab) →
      (bits sb 32 20 = 0 → Completes (.tepi f a b c) s
        (tileStarted (.tepi C ooff (s.slotBits f) .one .one 0 (16 * bits sb 52 12) act (if bias then some boff else none)) s)) ∧
      (∀ x y, bit sb 39 = true → bit sb 35 = false → s.slotUnused A = false → s.slotUnused B = false →
        bits (s.slotBits A).toNat 6 2 ≠ 3 → bits (s.slotBits B).toNat 6 2 ≠ 2 → s.scaleOf (s.slotBits A) 2 = .ok x →
        s.scaleOf (s.slotBits B) 3 = .ok y → s.scaleShape (s.slotBits A) 2 = true → s.scaleShape (s.slotBits B) 3 = true →
        Completes (.tepi f a b c) s (tileStarted (.tepi C ooff (s.slotBits f) x y (16 * bits sb 40 12) (16 * bits sb 52 12) act
          (if bias then some boff else none)) s))) ∧
    (let rows := sb % 2 ^ 16; let cols := sb / 2 ^ 16 % 2 ^ 16; let eb := sb / 2 ^ 32; let n := rows * cols * 2 ^ eb / 8;
      let src := sa % 2 ^ 32; let dst := sa / 2 ^ 32;
      Admits (.ttrn a b) s → 1 ≤ eb → eb ≤ 5 → 1 ≤ rows → rows ≤ 4096 → 1 ≤ cols → cols ≤ 4096 → rows * 2 ^ eb % 8 = 0 →
      cols * 2 ^ eb % 8 = 0 → src + n ≤ dst ∨ dst + n ≤ src → src % 16 = 0 → dst % 16 = 0 → src + n ≤ s.curTeam.extent .ab →
      dst + n ≤ s.curTeam.extent .ab → Completes (.ttrn a b) s (tileStarted (.ttrn dst src eb cols rows) s))

/-- The team's oldest tile operation has left, and `tm` of its gang is one lower. -/
def Sys2Proof.Claims.tileLeft (s t : State) (team : Nat) (op : TileOp) (rest : List TileOp) : Prop :=
  (t.team team).tiles = rest ∧ (t.gang op.gid).tm = (s.gang op.gid).tm - 1 ∧ (t.gang op.gid).regs = (s.gang op.gid).regs

/-- R199, R276, R280, R283: `tzero` clears its region and no other byte; the last granule of a dense multiply adds, for every
element, the exact sum of its products to C with one rounding; an uncorrectable read ends the oldest operation with nothing
written to the buffers. An operation that is held completes nothing. -/
def Obligations.TileCompletion : Prop :=
  ∀ (s : State) (team : Nat) (op : TileOp) (rest : List TileOp), let T := s.team team; T.tiles = op :: rest →
    (s.tileHeld team op = true → exec (.tileOpComplete team) s = .next s) ∧
    (s.tileHeld team op = false →
      (∀ c, op.kind = .tzero c → Completes (.tileOpComplete team) s fun t => tileLeft s t team op rest ∧ t.dmem = s.dmem ∧
        (t.team team).ab = T.ab ∧ (t.team team).wb = T.wb ∧ (t.team team).scratch = T.scratch ∧
        ∀ k, (t.team team).cb.read k = if c.off ≤ k ∧ k < c.off + 4 * c.m * c.n then 0 else T.cb.read k) ∧
      (∀ ao bo c aw bw fa fb g, op.kind = .tmm false ao bo c aw bw → FmtSlot.ofBits aw = some fa → FmtSlot.ofBits bw = some fb →
        granuleOf fa.fmt fb.fmt = some g → op.done + 1 = c.kg → Completes (.tileOpComplete team) s fun t =>
          tileLeft s t team op rest ∧ t.dmem = s.dmem ∧ (t.team team).ab = T.ab ∧ (t.team team).wb = T.wb ∧
          (∀ i j, i < c.m → j < c.n → let K := c.kg * g; let at4 := c.off + 4 * (i * c.n + j)
            let products := (List.range g).map fun k =>
              (fa.readStored (elemAt T.ab ao ((i * K + (op.done * g + k)) * fa.fmt.width) fa.fmt.width)).mul
                (fb.readStored (elemAt T.wb bo ((j * K + (op.done * g + k)) * fb.fmt.width) fb.fmt.width))
            (t.team team).cb.readLE at4 4 =
              shapeF32.rne ((shapeF32.value (T.cb.readLE at4 4)).add (granuleSum products)) % 2 ^ 32) ∧
          ∀ k, k < c.off ∨ c.off + 4 * c.m * c.n ≤ k → (t.team team).cb.read k = T.cb.read k)) ∧
    (s.tileHeld team op = false →
      Completes (.tileOpFault team true) s fun t => tileLeft s t team op rest ∧ (t.team team).cb = T.cb ∧
        (t.team team).ab = T.ab ∧ ∀ j ∈ (s.gang op.gid).sliceKeys, ((s.gang op.gid).slice j).live ≠ 0 →
          ((t.gang op.gid).slice j).haltDue = true)

/-! ### The stream engine -/

/-- One stream operation on a row joins the team's list with the next number, and counts on `tm`. -/
def Sys2Proof.Claims.streamStarted (k : StreamKind) (row : Nat) (s t : State) : Prop :=
  ∃ o : StreamOp, t.curTeam.streams = s.curTeam.streams ++ [o] ∧ o.kind = k ∧ o.row = row ∧ o.seq = s.curTeam.streamSeq ∧
    o.gid = s.iss.gid ∧ o.order = s.copyOrder + 1 ∧ t.copyOrder = s.copyOrder + 1 ∧ t.curTeam.streamSeq = s.curTeam.streamSeq + 1 ∧ t.cur.tm = s.cur.tm + 1 ∧ t.cur.regs = s.cur.regs ∧
    t.dmem = s.dmem ∧ t.curTeam.ab = s.curTeam.ab ∧ t.curTeam.scratch = s.curTeam.scratch ∧
    ∀ j, j ≠ s.teamKey → t.team j = s.team j

/-- R287 to R300: what each stream word needs to start. A row name with a bit of [63:41] set, or a row that the team does
not have, is ILLEGAL with detail 11; a read or an add of an invalid row ILLEGAL with detail 12. A fence with no add to wait
for goes on. -/
def Obligations.StreamIssue : Prop :=
  ∀ (s : State) (f : FSlot) (a b c : SReg) (x : DeltaType) (v : VReg64) (compact : Bool), s.lanes ≠ [] →
    let row := (s.srcS a).toNat; let T := s.curTeam; let sb := (s.srcS b).toNat; let sc := (s.srcS c).toNat
    let e := (s.srcS c).toInt; let bad : FInfo := { code := .illegal, detail := 11 }; let n := sb / 2 ^ 32
    (2 ^ 41 ≤ row ∨ T.rowCount ≤ row % 2 ^ 16 →
      (Admits (.rsinit a b c) s → exec (.rsinit a b c) s = .next (s.fault bad)) ∧
      (Admits (.rsq a b) s → exec (.rsq a b) s = .next (s.fault bad)) ∧
      (Admits (.rssave compact a b) s → exec (.rssave compact a b) s = .next (s.fault bad))) ∧
    (row < T.rowCount → row < 2 ^ 16 →
      (let len := sb % 2 ^ 16;
        Admits (.rsinit a b c) s → sb / 2 ^ 16 % 2 ^ 16 = 0 → 0 < len → len % 32 = 0 → len ≤ 16384 → -40 ≤ e → e ≤ 8 →
        T.overlapsRow row n len = false → n % 128 = 0 → n + 4 * len ≤ T.sbExtent →
        Completes (.rsinit a b c) s (streamStarted (.init len n e) row s)) ∧
      (Admits (.rsq a b) s → sb % 16 = 0 → sb + 32 ≤ T.extent .ab → Completes (.rsq a b) s (streamStarted (.rsq sb) row s)) ∧
      (Admits (.rsload compact a b c) s → sb % 16 = 0 → sb < 2 ^ 57 → sc % 128 = 0 → sc < 2 ^ 32 →
        Completes (.rsload compact a b c) s (streamStarted (.load compact sb sc) row s)) ∧
      (T.row row = none →
        (Admits (.rssave compact a b) s → exec (.rssave compact a b) s = .next (s.fault { code := .illegal, detail := 12 }))) ∧
      (∀ r, T.row row = some r →
        (Admits (.rssave compact a b) s → sb % 16 = 0 → sb < 2 ^ 57 →
          Completes (.rssave compact a b) s (streamStarted (.save compact sb) row s)) ∧
        (Admits (.rsaddVector x a b v) s → sb + 32 ≤ r.len → sb < 2 ^ 32 → Completes (.rsaddVector x a b v) s
          (streamStarted (.add x (.lanes sb (s.lanes.map fun i => (sb + i, (s.srcV (v.castLE (by decide)) i).toNat)))) row s)) ∧
        (Admits (.rsaddAb x a b c) s → 1 ≤ n → n ≤ 16384 → sb % 2 ^ 32 + n ≤ r.len → sc % 16 = 0 →
          sc + n * deltaSize x ≤ T.extent .ab → Completes (.rsaddAb x a b c) s
            (streamStarted (.add x (.ab sc (sb % 2 ^ 32) n)) row s)) ∧
        (∀ o, Admits (.rsnorm f a b c) s → FmtSlot.ofBits (s.slotBits f) = some o → bits (s.slotBits f).toNat 6 2 < 2 →
          sc / 2 ^ 32 = 1 → n = 0 → sb % 16 = 0 → sb + r.len * o.fmt.width / 8 ≤ T.extent .ab →
          Completes (.rsnorm f a b c) s (streamStarted (.norm (s.slotBits f) sb 0 (sc % 2 ^ 32) true) row s)) ∧
        (∀ o mask m, Admits (.rsnormReel f a b c) s → FmtSlot.ofBits (s.slotBits f) = some o → bits (s.slotBits f).toNat 6 2 < 2 →
          sc / 2 ^ 32 = 1 → n = 0 → sb % 16 = 0 → sb + r.len * o.fmt.width / 8 ≤ T.extent .ab →
          s.curGrid.span 0 = some (row, mask) → T.member = some m → bit mask m = true → s.isTwin T.ctx = false →
          Completes (.rsnormReel f a b c) s
            (streamStarted (.normReel (s.slotBits f) sb 0 (sc % 2 ^ 32) true 0 (T.spanCount.get 0 0)) row s)))) ∧
    (∀ i ∈ [Instr.rsfenceTeam, .rsfenceSet, .rsfenceReel], Admits i s →
      (∀ o ∈ T.streams, o.kind.isAdd = false ∧ o.kind.isRemoteAdd = false) → exec i s = .next s) ∧
    (s.iss.slices.Nodup → (∃ o ∈ T.streams, o.seq < T.streamSeq ∧ ∃ k src, o.kind = .add k src) →
      (Admits .rsfenceTeam s → Completes .rsfenceTeam s (parkedFor s · (.rsfence 0 T.streamSeq))) ∧
      (Admits .rsfenceSet s → Completes .rsfenceSet s (parkedFor s · (.rsfence 1 T.streamSeq))) ∧
      (Admits .rsfenceReel s → Completes .rsfenceReel s (parkedFor s · (.rsfence 2 T.streamSeq))))

/-- R287, R292, R298, R303: an `rsinit` makes its row of zeros, or no row; `rsq` stores the row's record; an uncorrectable
error makes the row invalid and ends the operation. Adding a delta keeps Q the sum of the squares, and an element inside
its range. A cell that the receiver refuses does nothing more. -/
def Obligations.StreamCompletion : Prop :=
  ∀ (s : State) (team seq : Nat) (o : StreamOp), let T := s.team team
    (∀ r : Row, ∀ j d sat, r.q = sumSquares r.n → j < r.n.length → (∀ x ∈ r.n, -(2 ^ 31 - 1) ≤ x ∧ x ≤ 2 ^ 31 - 1) →
      (r.apply j d sat).q = sumSquares (r.apply j d sat).n ∧ (∀ x ∈ (r.apply j d sat).n, -(2 ^ 31 - 1) ≤ x ∧ x ≤ 2 ^ 31 - 1) ∧
      (r.apply j d sat).n.getD j 0 = max (-(2 ^ 31 - 1)) (min (2 ^ 31 - 1) (r.n.getD j 0 + d))) ∧
    (T.streamOp seq = none → exec (.streamOpComplete team seq) s = .next s ∧ exec (.streamOpFault team seq true) s = .next s) ∧
    (T.streams = [o] → o.seq = seq → s.streamHeld team o = false →
      (∀ len off e, o.kind = .init len off e → Completes (.streamOpComplete team seq) s fun t =>
        (t.team team).streams = [] ∧ (t.gang o.gid).tm = (s.gang o.gid).tm - 1 ∧ t.dmem = s.dmem ∧ (t.team team).ab = T.ab ∧
        (len = 0 → (t.team team).row o.row = none) ∧
        (len ≠ 0 → (t.team team).row o.row = some { len := len, off := off, e := e, n := List.replicate len 0, q := 0 }) ∧
        ∀ k, k ≠ o.row → (t.team team).row k = T.row k) ∧
      (∀ off, o.kind = .rsq off → o.snap = none → Completes (.streamOpComplete team seq) s fun t =>
        (t.team team).streams = [] ∧ (t.gang o.gid).tm = (s.gang o.gid).tm - 1 ∧ t.dmem = s.dmem ∧ (t.team team).rows = T.rows ∧
        (t.team team).ab.readLE off 32 = rsqRecord (T.row o.row) % 2 ^ 256 ∧
        ∀ k, k < off ∨ off + 32 ≤ k → (t.team team).ab.read k = T.ab.read k) ∧
      (o.kind.isRemoteAdd = false → (∀ a b c d e, o.kind ≠ .incoming a b c d e) → (o.applied = 0 ∨ o.kind.isAdd = true) →
        Completes (.streamOpFault team seq true) s fun t =>
        (t.team team).streams = [] ∧ (t.team team).row o.row = none ∧ (t.gang o.gid).tm = (s.gang o.gid).tm - 1 ∧
        ∀ k, k ≠ o.row → (t.team team).row k = T.row k)) ∧
    (∀ r u, s.accept r = (u, false) → exec (.streamReceive r) s = .next u) ∧
    (∀ r u c t q, s.accept r = (u, true) → r.cell.body = .pairsAck c t q 0 → (u.team (c * 16 + t)).streams = [o] → o.seq = q →
      o.kind.isRemoteAdd = true → Completes (.streamReceive r) s fun z => (z.team (c * 16 + t)).streams = [] ∧
        (z.gang o.gid).tm = (u.gang o.gid).tm - 1 ∧ z.dmem = u.dmem)

/-! ### The search engine and collectives -/

/-- One search operation joins its core's list, and counts on `tm`; nothing else changes. -/
def Sys2Proof.Claims.searchStarted (k : SearchKind) (s t : State) : Prop :=
  t = (s.modCore s.coreKey fun c => { c with searches := c.searches ++ [⟨s.iss.gid, s.iss.pc, s.iss.word, k, s.iss.sup, s.cur.seq⟩] }).modCur
    fun g => { g with tm := g.tm + 1 }

/-- R233 to R237: what each search word needs to start; a selection writes the k least pairs in key order (R234), and a row
fault ends a `vdist` with the results before it written; an acquire of its gang holds an operation (R222). -/
def Obligations.SearchEngine : Prop :=
  ∀ (s : State) (f : FSlot) (a b c : SReg), let sa := (s.srcS a).toNat; let sb := (s.srcS b).toNat; let sc := (s.srcS c).toNat
    let x := sa % 2 ^ 32; let out := sa / 2 ^ 32; let T := s.curTeam; let n := sc % 2 ^ 16; let k := sc / 2 ^ 16 % 2 ^ 16
    let y := sb % 2 ^ 32; let ab := T.extent .ab
    (s.lanes ≠ [] →
      (Admits (.topk a b c) s → 1 ≤ k → k ≤ 256 → k ≤ n → n ≤ 16384 → x % 4 = 0 → out % 8 = 0 → x + 4 * n ≤ ab → out + 8 * k ≤ ab →
        Completes (.topk a b c) s (searchStarted (.topk x out y n k) s)) ∧
      (Admits (.topk a b c) s → (k = 0 ∨ 256 < k ∨ n < k ∨ 16384 < n) →
        exec (.topk a b c) s = .next (s.fault { code := .illegal, detail := 5 })) ∧
      (Admits (.topkm a b c) s → 1 ≤ n → n ≤ 256 → (∀ l, l = x ∨ l = y → l = out ∨ l + 8 * n ≤ out ∨ out + 8 * n ≤ l) →
        x % 8 = 0 → y % 8 = 0 → out % 8 = 0 → x + 8 * n ≤ ab → y + 8 * n ≤ ab → out + 8 * n ≤ ab →
        Completes (.topkm a b c) s (searchStarted (.topkm x y out n) s)) ∧
      (Admits (.topkr a b c) s → 1 ≤ n → n ≤ 256 → x % 8 = 0 → y % 8 = 0 → x + 8 * n ≤ ab → y + 8 * n ≤ T.extent .l →
        Completes (.topkr a b c) s (searchStarted (.topkr x y n) s)) ∧
      (∀ o d, let index := sb / 2 ^ 32; let rank := d.sizes.headD 0
        Admits (.vdist f a b c) s → FmtSlot.ofBits (s.slotBits f) = some o → distFormat o.fmt = true → o.smode < 2 → 1 ≤ n → n ≤ 4096 →
        bits sc 16 2 < 2 → sc < 2 ^ 18 → s.descriptor T.ctx y = .ok d → d.rank = 1 → rank ≤ 8192 →
        d.efmt = bits (s.slotBits f).toNat 0 6 → out % 4 = 0 → index % 4 = 0 → x + (rank * o.fmt.width + 7) / 8 ≤ ab →
        out + 4 * n ≤ ab → index + 4 * n ≤ ab → Completes (.vdist f a b c) s (searchStarted (.vdist (s.slotBits f) x out index d.base
          (d.strides.headD 0) rank (d.sizes.getD 1 0) n (bits sc 16 2)) s))) ∧
    (∀ k l, let r := leastK k l
      r.length = min k l.length ∧ r.Pairwise (fun p q => pairLe p q = true) ∧
      ∃ rest, (r ++ rest).Perm l ∧ ∀ p ∈ r, ∀ q ∈ rest, pairLe p q = true) ∧
    (∀ core o rest, (s.core core).searches = o :: rest →
      (s.engineHeld o.gid o.gseq = true → exec (.searchOpComplete core) s = .next s ∧ exec (.searchOpFault core) s = .next s) ∧
      (s.engineHeld o.gid o.gseq = false → let team := gidTeam o.gid
      (∀ x out base n k, o.kind = .topk x out base n k → Completes (.searchOpComplete core) s fun t =>
        (t.team team).ab = putPairs (s.team team).ab out (leastK k ((List.range n).map fun j =>
          ((s.team team).ab.readLE (x + 4 * j) 4, (base + j) % 2 ^ 32))) ∧
        (t.core core).searches = rest ∧ (t.gang o.gid).tm = (s.gang o.gid).tm - 1 ∧ t.dmem = s.dmem) ∧
      (∀ x run k, o.kind = .topkr x run k → Completes (.searchOpComplete core) s fun t =>
        (t.team team).scratch = putPairs (s.team team).scratch run
          (leastK k (pairsAt (s.team team).scratch run k ++ pairsAt (s.team team).ab x k)) ∧ (t.team team).ab = (s.team team).ab ∧
        (t.core core).searches = rest ∧ (t.gang o.gid).tm = (s.gang o.gid).tm - 1 ∧ t.dmem = s.dmem) ∧
      (∀ fw q out ix base st s0 s1 n m u l e p d, o.kind = .vdist fw q out ix base st s0 s1 n m → (s.asking ⟨2 ^ 32, 7, core⟩).vdistRun o = (u, l, some (e, d, p)) → Answered s u →
        Completes (.searchOpFault core) s fun t => (t.core core).searches = (u.core core).searches.tail ∧
          (t.team team).ab = putDistances (u.team team).ab out l ∧ (t.gang o.gid).tm = (u.gang o.gid).tm - 1)))

/-- R326 to R328: a collective of a team in a window takes the next number of its tag and counts on `tm`; its participants
are the attached members; data that has come for every one of them is combined into AB. Without a window it is ILLEGAL with
detail 14. -/
def Obligations.Collectives : Prop :=
  ∀ (s : State) (f : FSlot) (a b c : SReg) (op : RedOp), let sa := (s.srcS a).toNat; let sb := (s.srcS b).toNat
    let sc := (s.srcS c).toNat; let T := s.curTeam; let n := sb % 2 ^ 16; let root := sb / 2 ^ 16; let tag := sc
    let ab := T.extent .ab; let src := sa % 2 ^ 32; let dst := sa / 2 ^ 32
    (s.lanes ≠ [] → T.window = none → ∀ i ∈ [Instr.cred f a b c op, .cbc f a b c, .cgat f a b c], Admits i s →
      exec i s = .next (s.fault { code := .illegal, detail := 14 })) ∧
    (∀ w me o, s.lanes ≠ [] → T.window = some w → T.member = some me → FmtSlot.ofBits (s.slotBits f) = some o →
      1 ≤ n → n ≤ 32768 → sb < 2 ^ 24 → sc < 2 ^ 16 → root ∈ w.attached → me ∈ w.attached → src % 16 = 0 → dst % 16 = 0 →
      src + (n * o.fmt.width + 7) / 8 ≤ ab → dst + (w.entries.length * n * o.fmt.width + 7) / 8 ≤ ab →
      dst + (n * o.fmt.width + 7) / 8 ≤ ab → s.isTwin T.ctx = false →
      let started := fun (k : Nat) (t : State) => t.cur.tm = s.cur.tm + 1 ∧ t.cur.regs = s.cur.regs ∧ t.dmem = s.dmem ∧
        t.curTeam.ab = T.ab ∧ ∃ x : CollOp, t.curTeam.colls = T.colls ++ [x] ∧ x.op = k ∧ x.dst = dst ∧ x.n = n ∧ x.root = root ∧
          x.tag = tag ∧ x.ranks = w.attached ∧ x.k = T.collCount.get 0 tag
      (Admits (.cred f a b c op) s → o.fmt ∈ [Fmt.f32, .f16, .b16] → Completes (.cred f a b c op) s (started op.code)) ∧
      (Admits (.cbc f a b c) s → Completes (.cbc f a b c) s (started 3)) ∧
      (Admits (.cgat f a b c) s → Completes (.cgat f a b c) s (started 4))) ∧
    (∀ team k o w me slot, let t0 := s.team team; let got := t0.collData tag k
      t0.colls.find? (fun o => o.tag == tag && o.k == k) = some o → t0.window = some w → t0.member = some me →
      FmtSlot.ofBits o.slot = some slot → (∀ r ∈ o.ranks, (w.entries.getD r {}).state ≠ 3) → o.op = 3 ∨ o.op < 3 →
      (∀ r, (o.op = 3 → r = o.root) → (o.op < 3 → r ∈ o.ranks) → ∃ x ∈ got, x.1 = r) →
      Completes (.collectiveComplete team tag k) s fun t => (t.team team).ab = collOut t0.ab slot o got ∧
        (t.team team).colls = t0.colls.erase o ∧ (t.gang o.gid).tm = (s.gang o.gid).tm - 1 ∧ t.dmem = s.dmem) ∧
    (∀ r u key rank g k xs, s.accept r = (u, true) → r.cell.body = .coll key rank g k xs none →
      ∀ i ∈ [Instr.collReceive r, .mcastReceive r], Completes i s fun t => t.dmem = u.dmem ∧ t.gangs = u.gangs ∧
        ∀ x ∈ u.windowTeams key, (u.team x).member.isSome = true → (u.team x).tooLate r.cell.body = false → r.cell.body ∈ (t.team x).early)

/-! ### System registers, faults, the handler, services, pages -/

/-- R163, R164, R368: which numbers are registers, which only the supervisor reads, what the user's registers hold, that
reading SPECMISS clears it, and which accept a write. R160: a write of a team register is a commit that takes effect only
after two more cycles; of two gangs' writes that commit in one cycle the lower active-set position's stands. -/
def Obligations.SystemRegisters : Prop :=
  ∀ (s : State) (a : SReg) (r : Fin 2048), let n := r.val; let core := gidCore s.iss.gid; let v := s.srcS a; let T := s.curTeam
    let G := s.cur; let user : Prop := n ≤ 0x00b ∨ (0x010 ≤ n ∧ n ≤ 0x01f)
    let priv : Prop := (0x100 ≤ n ∧ n ≤ 0x103) ∨ (0x140 ≤ n ∧ n ≤ 0x143 ∧ 384 ≤ core ∧ core ≤ 387)
    (¬user → ¬priv → exec (.sysrd a r) s = .next (s.fault { code := .illegal }) ∧
      exec (.syswr a r) s = .next (s.fault { code := .illegal })) ∧
    (priv → s.iss.sup = false → exec (.sysrd a r) s = .next (s.fault { code := .protect })) ∧
    (user ∨ (priv ∧ s.iss.sup = true ∧ n ≠ 0x103) → Completes (.sysrd a r) s fun t => ∃ x, ScalarWrite s t a x ∧
      (n = 0 → x = 0x0102) ∧ (n = 1 → x.toNat = (gidGang s.iss.gid + G.role * 2 ^ 4 + G.nslices * 2 ^ 8) % 2 ^ 64) ∧
      (n = 2 → x = BitVec.ofNat 64 T.number) ∧ (n = 8 → x = s.cycle) ∧ (n = 9 → x.toNat = G.regs.sxf.toNat) ∧
      (n = 0xa → x.toNat = G.ld % 2 ^ 11 + G.st % 2 ^ 11 * 2 ^ 11 + G.cp % 2 ^ 11 * 2 ^ 22 + G.tm % 2 ^ 11 * 2 ^ 33) ∧
      (n = 0xb → x = if s.iss.sup then 1 else 0) ∧ ∀ k, n = 0x10 + k → x = T.tregs.get 0 k) ∧
    (n = 0x103 → s.iss.sup = true → Completes (.sysrd a r) s fun t =>
      sreg t a = (if a.val = 0 then 0 else BitVec.ofNat 64 (s.core core).specmiss) ∧ (t.core core).specmiss = 0 ∧
      (∀ m, m ≠ a → sreg t m = sreg s m) ∧ t.dmem = s.dmem ∧ t.teams = s.teams) ∧
    (user → n ≠ 9 → n < 0x10 → exec (.syswr a r) s = .next (s.fault { code := .illegal })) ∧
    (n = 9 → Completes (.syswr a r) s (· = s.modCur fun g => { g with regs := { g.regs with sxf := BitVec.ofNat 2 v.toNat } })) ∧
    (∀ k, k < 16 → n = 0x10 + k → Completes (.syswr a r) s fun t => ∃ c : TCommit, c.reg = k ∧ c.val = v ∧ c.gid = s.iss.gid ∧
      c.due = s.cycle.toNat + 2 ∧ t = s.modTeam s.teamKey fun x => { x with commits := x.commits ++ [c] }) ∧
    (∀ before team c, (s.team team).commits = [c] → c.after = none →
      (c.due < s.cycle.toNat → (s.commitTeam before team).team team =
        { s.team team with tregs := Tab.set (s.team team).tregs c.reg c.val, commits := [] }) ∧
      (s.cycle.toNat ≤ c.due → s.commitTeam before team = s)) ∧
    (∀ before team c d, (s.team team).commits = [c, d] → c.after = none → d.after = none → c.due < s.cycle.toNat →
      d.due < s.cycle.toNat → c.reg = d.reg → c.gid ≠ d.gid → max c.due before = max d.due before → c.pos < d.pos →
      ((s.commitTeam before team).team team).tregs = Tab.set (s.team team).tregs c.reg c.val)

/-- R353 to R355, R358, R364: a precise fault in user mode that no handler takes halts the issuing split at its packet and
writes one record to the context's fault queue, or counts it lost when the queue is full; one that the handler takes puts
the faulting lanes at its entry in supervisor mode with the place and the record saved; one in supervisor mode halts every
split of the gang. Registers and buffers do not change. -/
def Obligations.TakingFaults : Prop :=
  ∀ (s : State) (f : FInfo), s.iss.slices.Nodup → let c := s.curTeam.ctx; let X := s.ctx c; let t := s.fault f
    let words := (s.record s.iss.gid false s.iss.pc s.iss.word f).words; let n := X.fqn + 1; let base := X.fq + 32 * (X.fqProd % n)
    let used := (X.fqProd + 2 ^ 32 - X.fqCons % 2 ^ 32) % 2 ^ 32
    t.cur.regs = s.cur.regs ∧ t.cur.bank = s.cur.bank ∧ t.teams = s.teams ∧ t.hmem = s.hmem ∧
    (s.iss.sup = false → f.code ≠ .pageDev ∨ (f.detail ≠ 0 ∧ f.detail ≠ 2) ∨ X.handler = 0 →
      (∀ j ∈ s.iss.slices, t.cur.slice j = { s.cur.slice j with halted := true, pc := s.iss.pc }) ∧
      (∀ j, j ∉ s.iss.slices → t.cur.slice j = s.cur.slice j) ∧
      (X.bound = true → used < n → (∀ i, i < 4 → t.dmem.readLE (base + 8 * i) 8 = words.getD i 0) ∧
        (∀ a, a < base ∨ base + 32 ≤ a → t.dmem.read a = s.dmem.read a) ∧ (t.ctx c).fqProd = (X.fqProd + 1) % 2 ^ 32 ∧
        t.msix = if X.fqVec = 0 then s.msix else s.msix ++ [(X.ld, X.fqVec)]) ∧
      (X.bound = true → n ≤ used → t.dmem = s.dmem ∧ (t.ctx c).fqLost = min (X.fqLost + 1) (2 ^ 32 - 1))) ∧
    (s.iss.sup = false → f.code = .pageDev → f.detail = 0 ∨ f.detail = 2 → X.handler ≠ 0 → s.cur.handler = none →
      (∀ g : Iss, ({ s with iss := g } : State).checkTarget s.iss.gid X.handler = ({ s with iss := g }, none)) →
      f.lanes = 0xffffffff → let L := fun j => laneNibble s.iss.lanes.toNat j
      (∀ j ∈ s.iss.slices, t.cur.slice j = if L j = 0
        then { s.cur.slice j with replays := [], did := [], others := none, seen := none, park := .handlerHold }
        else { s.cur.slice j with replays := [], did := [], others := none, seen := none, pc := X.handler, arrival := false, mask := L j
                                  sup := true, park := .none }) ∧
      (∃ h, t.cur.handler = some h ∧ h.slices = s.iss.slices ∧ h.pc = s.iss.pc ∧ h.record.words = words ∧
        ∀ j ∈ s.iss.slices, h.savedPc.get 0 j = s.iss.pc ∧ h.savedMask.get 0 j = (s.cur.slice j).mask.toNat ∧
          h.savedRest.get ([], [], none) j = ((s.cur.slice j).replays, (s.cur.slice j).did, (s.cur.slice j).others) ∧
          h.savedSeen.get none j = (s.cur.slice j).seen) ∧
      t.dmem = s.dmem ∧ t.msix = s.msix) ∧
    (s.iss.sup = true → ∀ j ∈ s.cur.sliceKeys, (s.cur.slice j).live ≠ 0 → (t.cur.slice j).halted = true)

/-- R120, R360, R363: the supervisor's words are PROTECT in user mode; the last `hret` of a handler takes its slices back to
where they faulted, with their lanes and in user mode, to perform the fault's work again, or halts them when it reads a value
that is not zero (of a `jmp` the faulting lanes alone: R139); `fltrd` reads the record with SUP zero. -/
def Obligations.HandlerWords : Prop :=
  ∀ (s : State) (a : SReg) (w : Fin 4), (s.iss.sup = false → ∀ i ∈ [Instr.hret a, .pgmap a, .pginv a, .fltrd a w],
      exec i s = .next (s.fault { code := .protect })) ∧
    encode (.fltrd a w) = [BitVec.ofNat 32 (0x700e0000 + a.val * 0x800 + w.val)] ∧
    (∀ x, 4 ≤ x → x < 2048 → ∃ e, decode [BitVec.ofNat 32 (0x700e0000 + a.val * 0x800 + x)] = .error e) ∧
    (∀ h, s.iss.sup = true → s.cur.handler = some h →
      Completes (.fltrd a w) s (ScalarWrite s · a (BitVec.ofNat 64 ({ h.record with sup := false }.words.getD w.val 0))) ∧
      (h.slices = s.iss.slices → s.iss.slices.Nodup → s.iss.slices ≠ [] →
        ((∀ k ∈ h.slices, ((s.cur.slice k).stack.length, (s.cur.slice k).rdepth) = h.depths.get (0, 0) k) →
          (s.srcS a = 0 → Completes (.hret a) s fun t => t.cur.handler = none ∧ t.cur.regs = s.cur.regs ∧ t.cur.bank = s.cur.bank ∧
            t.dmem = s.dmem ∧ t.teams = s.teams ∧
            (∀ k ∈ h.slices, t.cur.slice k = { s.cur.slice k with
              split := h.slices.headD 0, pc := h.savedPc.get h.pc k, arrival := h.arrival, sup := false, park := .none, halted := false
              mask := BitVec.ofNat 4 (h.savedMask.get 0 k) &&& (s.cur.slice k).live
              replays := h.replay.toList ++ (h.savedRest.get ([], [], none) k).1
              did := (h.savedRest.get ([], [], none) k).2.1, others := (h.savedRest.get ([], [], none) k).2.2
              seen := h.savedSeen.get none k }) ∧
            (∀ k, k ∉ h.slices → t.cur.slice k = s.cur.slice k)) ∧
          (s.srcS a ≠ 0 → h.jmp = false → Completes (.hret a) s fun t => t.cur.handler = none ∧ t.cur.regs = s.cur.regs ∧
            ∀ k ∈ h.slices, (t.cur.slice k).halted = true ∧ (t.cur.slice k).sup = false ∧
              (t.cur.slice k).pc = h.savedPc.get h.pc k) ∧
          (let L := fun k => laneNibble (if h.record.lanes = 0xffffffff then h.mask else h.record.lanes) k;
            s.srcS a ≠ 0 → h.jmp = true → (∀ k ∈ h.slices, (s.cur.slice k).stack = [] ∨
              BitVec.ofNat 4 (h.savedMask.get 0 k) &&& (s.cur.slice k).live &&& ~~~(L k) ≠ 0) →
            Completes (.hret a) s fun t => t.cur.handler = none ∧ t.cur.regs = s.cur.regs ∧ ∀ k ∈ h.slices,
              (t.cur.slice k).hgLanes = (s.cur.slice k).hgLanes ||| L k ∧ (t.cur.slice k).live = (s.cur.slice k).live &&& ~~~(L k) ∧
              (t.cur.slice k).sup = false ∧ (t.cur.slice k).halted = false)) ∧
        ((∃ k ∈ h.slices, ((s.cur.slice k).stack.length, (s.cur.slice k).rdepth) ≠ h.depths.get (0, 0) k) →
          Completes (.hret a) s fun t => ∀ k ∈ s.cur.sliceKeys, (s.cur.slice k).live ≠ 0 → (t.cur.slice k).halted = true)))

/-- R369 to R374: `svc` in supervisor mode is ILLEGAL with detail 16; it parks while its release is not complete; on a die
with no service every lane that passes no bytes takes status 0xffffffff and result 0, and the split goes on; the answer to a
batch frees its slot and lets the waiting split go on. -/
def Obligations.ServiceCalls : Prop :=
  ∀ (s : State) (v : VReg) (core slot : Nat), let ks := s.iss.slices; let lanes := s.lanes
    (Admits (.svc v) s → (s.iss.sup = true → exec (.svc v) s = .next (s.fault { code := .illegal, detail := 16 })) ∧
      (s.iss.sup = false → lanes = [] → exec (.svc v) s = .next s) ∧
      (s.iss.sup = false → lanes ≠ [] → ks ≠ [] → s.cur.sq = [] →
        (s.released s.iss.gid s.cur.seq = false →
          Completes (.svc v) s fun t => t.cur.regs = s.cur.regs ∧ t.dmem = s.dmem ∧ t.teams = s.teams ∧
            (∀ j ∈ ks, (t.cur.slice j).park = .serviceSend v.val s.cur.seq ∧ (t.cur.slice j).pc = s.iss.pc) ∧
            ∃ e, t.cur.sq = [e] ∧ e.kind = .marker) ∧
        (s.released s.iss.gid s.cur.seq = true → (s.core (svcCoreOf s.coreKey)).svcRing = 0 → ks.Nodup →
          s.iss.lanes.toNat = s.cur.laneMask ks (fun x => x.mask &&& x.live) → (∀ j ∈ ks, (s.cur.slice j).others = none) →
          (∀ i ∈ lanes, let w := (vreg s v.val i).toNat; w / 2 ^ 27 = 0 ∧ bit w 14 = false ∧ bit w 15 = false) →
          Completes (.svc v) s fun t => t.dmem = s.dmem ∧ t.teams = s.teams ∧
            (∀ i ∈ lanes, vreg t v.val i = 0xffffffff#32 ∧ vreg t (v.val + 1) i = 0) ∧
            (∀ n i, (n ≠ v.val ∧ n ≠ v.val + 1) ∨ i ∉ lanes → vreg t n i = vreg s n i) ∧
            ∀ j ∈ ks, (t.cur.slice j).park = .none ∧ (t.cur.slice j).pc = pcSucc s.iss.pc))) ∧
    ((s.core core).svcEnding.contains slot = false → exec (.svcDone core slot) s = .next s) ∧
    (∀ b c, (s.core core).svcEnding.contains slot = true → (s.core core).svcSlots.find slot = some b → s.ringCtx core = some c →
      isLifted b.gid = false → s.cutPauses (gidTeam b.gid) = false → Answered s ((s.asking ⟨2 ^ 32, 8, core * 1024 + slot⟩).svcDeliver core slot) → (s.gang b.gid).sliceKeys.Pairwise (· < ·) →
      Completes (.svcDone core slot) s fun t => (t.core core).svcSlots.find slot = none ∧
        (t.core core).svcEnding.contains slot = false ∧
        ∀ k ∈ (s.gang b.gid).sliceKeys, ((s.gang b.gid).slice k).park = .service b.vb slot →
          ((s.gang b.gid).slice k).others = none → ((t.gang b.gid).slice k).park = .none ∧
            ((t.gang b.gid).slice k).pc = pcSucc ((s.gang b.gid).slice k).pc)

/-- R361, R362: `pgmap` refuses a bad address or flags with ILLEGAL 16, answers 3 for a page whose home is the host and 1 for
one that is mapped, and else enters a frame, cleared, into the level-1 entry of the context's own tables and answers 0, once every
earlier access of its gang has been performed, and parks until then;
`pginv` drops the page's cached translations on every core, waiting for the accesses that used them. -/
def Obligations.PageWords : Prop :=
  ∀ (s : State) (a d : SReg), s.iss.sup = true → Admits (.pgmap a) s → Admits (.pginv a) s → let va := (s.srcS a).toNat
    let c := s.curTeam.ctx; let X := s.ctx c
    let flags := (s.srcS d).toNat; let v := va % 2 ^ 56; let bad := s.fault { code := .illegal, detail := 16 }
    (63 ≤ a.val ∨ va % 65536 ≠ 0 ∨ va / 2 ^ 56 ≠ 1 → exec (.pgmap a) s = .next bad) ∧
    (d.val = a.val + 1 → va % 65536 = 0 → va / 2 ^ 56 = 1 → s.isTwin c = false →
      (256 ≤ flags → exec (.pgmap a) s = .next bad) ∧
      (flags ∈ [0, 4, 8, 12] → s.released s.iss.gid s.cur.seq = false → s.iss.slices.Nodup →
        Completes (.pgmap a) s (parkedFor s · (.pgmap a.val va flags s.cur.seq))) ∧
      (flags ∈ [0, 4, 8, 12] → s.released s.iss.gid s.cur.seq = true → X.home va = 1 → Completes (.pgmap a) s (ScalarWrite s · d 3)) ∧
      (∀ t3 t2 t1, let e4 := s.devRead (X.pt + 8 * bits v 43 13) 8; let e3 := s.devRead (t3 + 8 * bits v 34 9) 8
        let e2 := s.devRead (t2 + 8 * bits v 25 9) 8; let at1 := t1 + 8 * bits v 16 9; let e1 := s.devRead at1 8
        flags ∈ [0, 4, 8, 12] → s.released s.iss.gid s.cur.seq = true → X.home va ≠ 1 → bit e4 0 = true → pteNext e4 = some t3 → bit e3 0 = true → pteNext e3 = some t2 →
        bit e2 0 = true → bit e2 1 = false → pteNext e2 = some t1 →
        (bit e1 0 = true → pteLeaf e1 (2 ^ 16) ≠ none → bit e1 7 = false → Completes (.pgmap a) s (ScalarWrite s · d 1)) ∧
        (∀ u f, bit e1 0 = false → s.zeroFrame c 65536 = (u, some f) → Completes (.pgmap a) s fun t =>
          t.dmem = u.dmem.writeLE at1 8 (f + 3 + flags) ∧ sreg t d = 0 ∧ (∀ n, n ≠ d → sreg t n = sreg s n) ∧
          ∀ k e, e ∈ (t.core k).tlb → ¬(e.ctx = c ∧ e.vbase = va)))) ∧
    (va ≠ 1 → va % 65536 ≠ 0 ∨ va / 2 ^ 56 ≠ 1 → exec (.pginv a) s = .next bad) ∧
    (va = 1 ∨ (va % 65536 = 0 ∧ va / 2 ^ 56 = 1) → Completes (.pginv a) s fun t => t.dmem = s.dmem ∧ t.cur.regs = s.cur.regs ∧
      t.teams = s.teams ∧
      (∀ k e, e ∈ (t.core k).tlb ↔ e ∈ (s.core k).tlb ∧
        ¬(e.ctx = c ∧ bit e.vbase 56 = true ∧ (va = 1 ∨ (e.vbase ≤ va ∧ va < e.vbase + e.size)))) ∧
      (s.translatedThrough c (s.dropped c va) = [] → t.gangs = s.gangs) ∧
      (s.translatedThrough c (s.dropped c va) ≠ [] →
        ∀ j ∈ s.iss.slices, (t.cur.slice j).park = .pginv (s.translatedThrough c (s.dropped c va))))

/-! ### Gangs and teams between instructions -/

/-- R126, R356, R371, R442: a parked split whose counters have come down goes on past its packet and one whose have not
stays; RESUME lets a gang's halted splits go on with an empty L1, and END ends all its lanes; a gang whose splits all wait,
one for a service, gives up its place, its window written to the save area (where is log 93), and comes back when its wait is over
and there is room. -/
def Obligations.GangEvents : Prop :=
  ∀ (s : State) (gid k ld c l st cp tm : Nat), let g := s.gang gid; let x := g.slice k
    (g.resident = true → x.live ≠ 0 → x.halted = false → s.beforeCut gid = false → s.brkHolds gid = false → s.ctxRuns gid = true →
      x.park = .waitcnt l st cp tm → (g.countsOk l st cp tm = false → exec (.splitUnpark gid k) s = .next s) ∧
      (g.countsOk l st cp tm = true → (g.splitOf k).Nodup → k ∈ g.splitOf k → (∀ j ∈ g.splitOf k, (g.slice j).others = none) →
        Completes (.splitUnpark gid k) s fun t => t.dmem = s.dmem ∧ t.teams = s.teams ∧ (t.gang gid).regs = g.regs ∧
          (∀ j ∈ g.splitOf k, ((t.gang gid).slice j).park = .none ∧ ((t.gang gid).slice j).pc = pcSucc (g.slice j).pc) ∧
          ∀ j, j ∉ g.splitOf k → (t.gang gid).slice j = g.slice j)) ∧
    ((s.ctx c).bound = false ∨ (s.ctx c).ld ≠ ld → exec (.gangResume ld c) s = .next s ∧ exec (.gangEnd ld c) s = .next s) ∧
    ((s.ctx c).bound = true → (s.ctx c).ld = ld → s.selected c = some gid →
      (Completes (.gangResume ld c) s fun t => (t.core (gidCore gid)).l1 = [] ∧ t.dmem = s.dmem ∧ t.teams = s.teams ∧
        (t.gang gid).regs = g.regs ∧ ∀ j ∈ g.sliceKeys, (g.slice j).hg = [] →
          ((t.gang gid).slice j) = { g.slice j with halted := false, haltDue := (g.slice j).haltDue && !(g.slice j).halted }) ∧
      (Completes (.gangEnd ld c) s fun t => t.dmem = s.dmem ∧ (t.gang gid).regs = g.regs ∧ (t.gang gid).handler = none ∧
        ∀ j ∈ g.sliceKeys, ((t.gang gid).slice j).live = 0 ∧ ((t.gang gid).slice j).hgLanes = 0)) ∧
    (∀ a, g.maySwap = true → s.swapPlace gid = some a → Completes (.gangSwapOut gid) s fun t => (t.gang gid).swapped = true ∧
      (t.gang gid).active = none ∧ (t.gang gid).regs = g.regs ∧ (t.gang gid).slices = g.slices ∧
      (∀ i, i < g.windowBytes → (t.dmem.read (a + 4096 + i)).toNat = byteOf g.window i) ∧
      ∀ x, x < a ∨ a + 4096 + g.windowBytes ≤ x → t.dmem.read x = s.dmem.read x) ∧
    (g.maySwap = false → exec (.gangSwapOut gid) s = .next s) ∧
    (g.wantsBack = false → exec (.gangSwapIn gid) s = .next s) ∧
    (g.wantsBack = true → (s.team (gidTeam gid)).scratchOut = false → ((s.seats (gidCore gid)).map (·.occ)).sum + (128 * g.vregs + 1024) ≤ 458752 →
      ((s.seats (gidCore gid)).map (·.gangs)).sum < 64 → Completes (.gangSwapIn gid) s fun t =>
        t.gang gid = { g with swapped := false, age := (s.core (gidCore gid)).nextAge } ∧ t.dmem = s.dmem ∧
        (t.core (gidCore gid)).nextAge = (s.core (gidCore gid)).nextAge + 1)

/-! ### Queues and the firmware core -/

/-- The packet with index `i` has left the queue's table, and no other packet has. -/
def Sys2Proof.Claims.packetGone (s t : State) (q i : Nat) : Prop :=
  (t.queue q).table = (s.queue q).table.filter fun p => p.index != i

/-- R57 to R61, R64, R68, R69, R72, R78: the packet that waits in a running queue does what its type says once it may start and its
lane's turn has come: NOP and BARRIER complete; WAIT completes when its timeline is there, and waits otherwise; SIGNAL lifts its
timeline; WRITE stores 8 bytes; LAUNCH hands its grid over, or is rejected with the reason. Before its turn it does nothing. `qfetch`
takes the head packets of the lanes' queues into v112 to v127 with p7, one for each lane in a visit, `qdisp` hands over or checks a
record, `qcomp` raises, on the firmware core alone (R71). A STOP takes effect where a visit would begin (R417). The order of the groups' visits is log 85. -/
def Obligations.PacketsAndFirmware : Prop :=
  ∀ (s : State) (a : SReg) (q l : Nat) (p : Packet), let x := s.queue q; let op := pktOp p; let w1 := pktWord p 1
    let k := bits w1 0 12; let v : W64 := BitVec.ofNat 64 (pktWord p 2); let T : W64 := s.timelines.get 0 k
    let free : Prop := s.raises = [] ∧ s.triggered k v = [] ∧ k ∉ s.tlShared
    (x.held = some p → s.fw.state = 2 → x.state = 1 → s.mayStart q p = true →
      (∀ taken, s.laneTurn q op = some taken → s.fw.stopping = false ∨ s.newVisit q = false →
        let z : State := { s.asking (packetAsker q) with fw := { s.fw with group := q / 64, taken := taken ++ [q % 64] } }
        (op = 1 → Completes (.nopPacket q) s fun t => packetGone s t q p.index ∧ t.gangs = s.gangs ∧ t.dmem = s.dmem ∧ t.fw = z.fw) ∧
        (op = 5 → Completes (.barrierPacket q) s fun t => packetGone s t q p.index ∧ t.gangs = s.gangs ∧ t.dmem = s.dmem) ∧
        (op = 3 → 0 ≤ (T - v).toInt → Completes (.waitPacket q) s fun t => packetGone s t q p.index ∧ t.gangs = s.gangs) ∧
        (op = 4 → free → Completes (.signalPacket q) s fun t => packetGone s t q p.index ∧ t.dmem = s.dmem ∧
          (t.timelines.get 0 k = if 0 < (v - T).toInt then v else T) ∧ ∀ j, j ≠ k → t.timelines.get 0 j = s.timelines.get 0 j) ∧
        (∀ c u, op = 6 → x.ctx = some c → w1 < 2 ^ 57 → z.storeVa fwCore c w1 8 (pktWord p 2) = (u, none) → Answered s u →
          Completes (.writePacket q) s fun t => packetGone u t q p.index ∧ t.dmem = u.dmem ∧ t.hmem = u.hmem) ∧
        (op = 2 → s.pending.length < 2048 → let m := z.markStarted q p.index; let c := x.ctx.getD 64
          (∀ u h, m.readLaunch fwCore (m.launchFrom q c) w1 = (u, .ok h) → Answered s u → Completes (.launchPacket q) s fun t =>
            ∃ g, t.pending = u.pending ++ [g] ∧ (t.grid g).lr = h.lr ∧ (t.grid g).ctx = c ∧ (t.grid g).queue = some q ∧
              t.gangs = u.gangs ∧ t.dmem = u.dmem) ∧
          (∀ u r, m.readLaunch fwCore (m.launchFrom q c) w1 = (u, .error r) → Answered s u → Completes (.launchPacket q) s fun t =>
            (t.queue q).reject = r ∧ (t.queue q).nrej = min 255 ((u.queue q).nrej + 1) ∧ t.pending = u.pending))) ∧
      (op = 3 → (T - v).toInt < 0 → exec (.waitPacket q) s = .next s) ∧
      (s.fw.stopping = true → s.newVisit q = true → s.laneOp q = some 1 → (∃ taken, s.laneTurn q 1 = some taken) →
        exec (.nopPacket q) s = .next s.stopFirmware) ∧
      (s.laneTurn q op = none → ∀ i, (i, op) ∈ [(Instr.nopPacket q, 1), (.launchPacket q, 2), (.waitPacket q, 3), (.signalPacket q, 4),
        (.barrierPacket q, 5), (.writePacket q, 6)] → exec i s = .next s)) ∧
    (gidCore s.iss.gid ≠ 388 → exec (.qfetch a) s = .next (s.fault { code := .illegal }) ∧
      exec .qdisp s = .next (s.fault { code := .illegal }) ∧ exec .qcomp s = .next (s.fault { code := .illegal })) ∧
    (gidCore s.iss.gid = 388 → let g := (s.srcS a).toNat; let u : State := { s with
        fw := { s.fw with fetched := g, group := g, taken := if g = s.fw.group then s.fw.taken else [] } }
      (16 ≤ g → exec (.qfetch a) s = .next (s.fault { code := .protect })) ∧
      (g < 16 → s.fw.stopping = true → g ≠ s.fw.group → exec (.qfetch a) s = .next s.stopFirmware) ∧
      (g < 16 → s.fw.stopping = false ∨ g = s.fw.group → (∀ i ∈ s.lanes, u.mayRead (64 * g + i) = false ∨ i ∈ u.fw.taken) → Completes (.qfetch a) s fun t => t.fw.fetched = g ∧
        t.queues = s.queues ∧ ∀ i ∈ s.lanes, bit (preg t 7).toNat i = false) ∧
      (∀ w, g < 16 → s.fw.stopping = false ∨ g = s.fw.group → s.lanes = [l] → q = 64 * g + l → u.mayRead q = true → l ∉ u.fw.taken → u.readSlot q = (u, some w) → u.packetBad q w = none →
        Completes (.qfetch a) s fun t => (t.queue q).head = x.head + 1 ∧ (∃ n, (t.queue q).table = x.table ++ [{ words := w, index := n }]) ∧
          bit (preg t 7).toNat l = true ∧ t.fw.taken = u.fw.taken ++ [l] ∧ ∀ j, j < 16 → vreg t (112 + j) l = BitVec.ofNat 32 (w.getD (j / 2) 0 / 2 ^ (32 * (j % 2)))) ∧
      (∀ u r, s.lanes = [l] → q = s.laneQueue l → x.held = some p → op = 2 → s.mayStart q p = true → x.state = 1 →
        s.handOver q p ((s.srcV 114 l).toNat + (s.srcV 115 l).toNat * 2 ^ 32) = (u, some r) → Answered s u →
        Completes .qdisp s fun t =>
          vreg t 111 l = BitVec.ofNat 32 r ∧ t.pending = u.pending ∧ t.grids = u.grids ∧ t.queues = u.queues) ∧
      (∀ u r, s.lanes = [l] → q = s.laneQueue l → x.held = none →
        s.readLaunch fwCore (s.launchFrom q (x.ctx.getD 64)) ((s.srcV 114 l).toNat + (s.srcV 115 l).toNat * 2 ^ 32) = (u, .error r) →
        Answered s u → Completes .qdisp s fun t => vreg t 111 l = BitVec.ofNat 32 r ∧ t.queues = u.queues) ∧
      (s.lanes = [l] → k = bits (s.srcV 110 l).toNat 0 12 → v.toNat = (s.srcV 108 l).toNat + (s.srcV 109 l).toNat * 2 ^ 32 → free →
        Completes .qcomp s fun t => (t.timelines.get 0 k = if 0 < (v - T).toInt then v else T) ∧
          (∀ j, j ≠ k → t.timelines.get 0 j = s.timelines.get 0 j) ∧ t.dmem = s.dmem ∧ t.queues = s.queues))

/-- R62, R65 to R68, R73 to R75, R80 to R82, R55, R109: a tail write is taken when the queue runs, moves forward and stays
within the ring, and counted stale otherwise; ENABLE starts a well-set queue and clearing it empties one; reads of the
clearing registers answer and clear; binding a context reads its record, unless the context is resident (R55; what resident means is
log 91); visits rotate over 16 groups, and an uncorrectable word stops the firmware core. What of the table is left when ENABLE is cleared
is log 88's choice, and what becomes of address bits above 56 log 90's. -/
def Obligations.QueueRegisters : Prop :=
  ∀ (s : State) (ld q v core c va addr : Nat), let x := s.queue q; let L := s.ldev ld; let d : W32 := BitVec.ofNat 32 v
    (s.queueOwner q ≠ some ld → ∀ n, ∀ i ∈ [Instr.tailWrite ld q n v, .queueEnable ld q v, .queueDisable ld q v, .contextBind ld q v,
      .cqheadWrite ld q v], exec i s = .next s) ∧
    (s.queueOwner q = some ld →
      (x.state = 1 → 0 < (d - x.tail).toInt → (d - x.head).toNat ≤ 2 ^ x.logsize →
        Completes (.tailWrite ld q 4 v) s (· = s.setQueue q { x with tail := d })) ∧
      (∀ n, n ≠ 4 ∨ x.state ≠ 1 ∨ (d - x.tail).toInt ≤ 0 ∨ 2 ^ x.logsize < (d - x.head).toNat →
        Completes (.tailWrite ld q n v) s (· = s.setQueue q { x with stale := min (x.stale + 1) 0xffffffff })) ∧
      (let n := bits v 16 5; let k := bits v 0 12;
        x.enable = false → bit v 31 = true → bit v 30 = false → 4 ≤ n → n ≤ 16 → x.base % 4096 = 0 → x.headwb % 4 = 0 →
        x.ctx.isSome = true → L.featDone = true →
        (L.tlfirst ≤ k → k < L.tlfirst + L.tlcount → Completes (.queueEnable ld q v) s (· = s.setQueue q
          { x with compat := false, logsize := n, tl := k, enable := true, state := 1, halt := 0 })) ∧
        (k < L.tlfirst ∨ L.tlfirst + L.tlcount ≤ k → Completes (.queueEnable ld q v) s fun t =>
          (t.queue q).state = 2 ∧ (t.queue q).halt = 0x42 ∧ (t.queue q).enable = true)) ∧
      (x.enable = true → bit v 31 = false → s.withdrawable q = [] → Completes (.queueDisable ld q v) s fun t => let y := t.queue q
        y.enable = false ∧ y.state = 0 ∧ y.head = 0 ∧ y.tail = 0 ∧ y.table = x.table.filter (·.started) ∧ t.gangs = s.gangs) ∧
      (x.enable = true → Completes (.contextBind ld q v) s
        (· = s.setQueue q { x with stale := min (x.stale + 1) 0xffffffff })) ∧
      (x.enable = false → bits v 52 12 ≠ 0x10 ∨ v % 128 ≠ 0 → Completes (.contextBind ld q v) s
        (· = s.setQueue q { x with cxb := v, ctx := none })) ∧
      (∀ k y, x.enable = false → bits v 52 12 = 0x10 → v % 128 = 0 → s.ctxFor ld (v % 2 ^ 52) = some k →
        (s.readRecord (s.ctx k) ld k (v % 2 ^ 52) = some y → Completes (.contextBind ld q v) s fun t =>
          t.queue q = { x with cxb := v, ctx := some k } ∧ t.dmem = s.dmem ∧ t.gangs = s.gangs ∧
          (s.isResident k = true → t.ctxs = s.ctxs) ∧
          (s.isResident k = false → t.ctx k = { y with bound := true, state := if y.state = .unbound then .running else y.state })) ∧
        (s.readRecord (s.ctx k) ld k (v % 2 ^ 52) = none → Completes (.contextBind ld q v) s
          (· = s.setQueue q { x with cxb := v, ctx := none }))) ∧
      (2 ^ bits x.cqctl 12 5 < (x.cqindex - d).toNat → Completes (.cqheadWrite ld q v) s
        (· = s.setQueue q { x with stale := min (x.stale + 1) 0xffffffff })) ∧
      ((x.cqindex - d).toNat ≤ 2 ^ bits x.cqctl 12 5 → Completes (.cqheadWrite ld q v) s (· = s.setQueue q { x with cqhead := d })) ∧
      (Completes (.qStaleRead ld q) s fun t => t.hostRead = BitVec.ofNat 64 x.stale ∧ t.queue q = { x with stale := 0 }) ∧
      (Completes (.nrejRead ld q) s fun t => t.queue q = { x with nrej := 0 } ∧
        t.hostRead = BitVec.ofNat 64 (x.nrej + x.reject * 2 ^ 8 + x.halt * 2 ^ 16 + x.state * 2 ^ 30))) ∧
    (∀ w u, let A : Asker := ⟨2 ^ 32, 10, q⟩; x.ctx = some w → x.wbDue = true →
      ((s.asking A).setQueue q { x with wbDue := false }).storeVa fwCore w (x.headwb % 2 ^ 57) 4 x.head.toNat = (u, none) →
      Answered s u → exec (.headWriteback q) s = .next { u.heard A with hostWho := s.hostWho }) ∧
    (x.wbDue = false → exec (.headWriteback q) s = .next s) ∧
    (∀ e rest w, x.entries = e :: rest → x.ctx = some w → (x.cqindex - x.cqhead).toNat = 2 ^ bits x.cqctl 12 5 →
      exec (.completionEntryWrite q) s = .next s) ∧
    (∀ e rest w u, let n := bits x.cqctl 12 5; x.entries = e :: rest → x.ctx = some w → (x.cqindex - x.cqhead).toNat ≠ 2 ^ n →
      ((s.asking ⟨2 ^ 32, 11, q⟩).setQueue q { x with entries := rest }).storeVa fwCore w ((x.cqbase + 16 * (x.cqindex.toNat % 2 ^ n)) % 2 ^ 57) 16
        (e + if x.cqindex.toNat / 2 ^ n % 2 = 0 then 2 ^ 127 else 0) = (u, none) → Answered s u → Completes (.completionEntryWrite q) s fun t =>
          (t.queue q).cqindex = (u.queue q).cqindex + 1 ∧ t.dmem = u.dmem ∧ t.hmem = u.hmem) ∧
    (x.cqfresh = 0 → exec (.cqCoalesceTimer q) s = .next s) ∧
    (x.cqfresh ≠ 0 → Completes (.cqCoalesceTimer q) s fun t => t.queue q = { x with cqfresh := 0 } ∧
      t.msix = if bits x.cqctl 37 11 = 0 then s.msix else s.msix ++ [((s.queueOwner q).getD 16, bits x.cqctl 37 11)]) ∧
    (s.fw.state = 2 → Completes .fwVisitTimeout s (fun t => t.fw.group = (s.fw.group + 1) % 16 ∧ t.fw.taken = [] ∧
        t.fw.state = (if s.fw.stopping then 3 else 2) ∧ t.queues = s.queues) ∧
      Completes (.fwImemUncorrectable addr) s fun t => t.fw.state = 3 ∧ t.fw.errValid = true ∧
        t.fw.errAddr = if s.fw.errValid then s.fw.errAddr else addr % 2 ^ 18) ∧
    (s.fw.state ≠ 2 → exec .fwVisitTimeout s = .next s ∧ exec (.fwImemUncorrectable addr) s = .next s) ∧
    (Completes (.queueTableUncorrectable q) s fun t => (t.queue q).state = 3 ∧ t.grids = s.grids ∧
      ∀ p ∈ (t.queue q).table, p ∈ x.table ∧ p.started = true ∧ pktOp p = 2) ∧
    (Completes (.tlStaleRead ld) s fun t => t.hostRead = BitVec.ofNat 64 L.tlStale ∧ t.ldev ld = { L with tlStale := 0 }) ∧
    (Completes (.hostAstatRead ld) s fun t => t.ldev ld = { L with ur := 0, fallback := 0, unsup := 0, abort := 0 } ∧
      t.hostRead.toNat = L.abort % 2 ^ 16 + L.unsup % 2 ^ 16 * 2 ^ 16 + L.fallback % 2 ^ 16 * 2 ^ 32 + L.ur % 2 ^ 16 * 2 ^ 48) ∧
    ((s.ctx c).bound = true → (s.ctx c).ld = ld →
      (Completes (.fqLostRead ld c) s fun t => t.hostRead = BitVec.ofNat 64 (s.ctx c).fqLost ∧ t.ctx c = { s.ctx c with fqLost := 0 }) ∧
      (Completes (.fqSpecRead ld c) s fun t => t.hostRead = BitVec.ofNat 64 (s.ctx c).fqSpec ∧ t.ctx c = { s.ctx c with fqSpec := 0 }) ∧
      (Completes (.notwinRead ld c) s fun t => t.hostRead = BitVec.ofNat 64 (s.ccStat c) ∧ t.ctx c = { s.ctx c with notwin := 0 })) ∧
    (core < 388 → (s.ctx c).bound = true → let base := va % 2 ^ 57 / 64 * 64
      let z : State := { s with hostWho := none }
      (∀ u m, z.translateIn core c base 3 = (u, .ok m) → (s.atomicHeld m = true → exec (.fetchBlock core c va) s = .next s) ∧
        (s.atomicHeld m = false → Completes (.fetchBlock core c va) s fun t =>
          (c, base, s.readLoc m 64) ∈ (t.core core).fetched ∧ t.dmem = s.dmem ∧ t.gangs = s.gangs)) ∧
      (∀ u e, z.translateIn core c base 3 = (u, .error e) → Answered s u → Completes (.fetchBlock core c va) s fun t =>
        (t.ctx c).fqSpec = min ((s.ctx c).fqSpec + 1) (2 ^ 32 - 1) ∧ t.dmem = s.dmem ∧ t.gangs = s.gangs))

/-! ### Placement, the ends of teams and grids -/

/-- A cell of a type with these numbers is on its way to a part. -/
def Sys2Proof.Claims.told (t : State) (part type : Nat) (body : CellBody) : Prop :=
  ∃ c : Cell, c.type = type ∧ c.dst = part ∧ c.src = t.part ∧ c.body = body ∧ (c ∈ t.loop ∨ ∃ k, c ∈ (t.port k).queue)

/-- A control cell of a type with these numbers has been accepted, and `u` is the part then. -/
def Sys2Proof.Claims.received (s u : State) (r : Rx) (type : Nat) (xs : List Nat) : Prop :=
  r.cell.type = type ∧ r.cell.body = .control xs ∧ s.accept r = (u, true)

/-- R84 to R96: a team that fits is placed in the lowest slot of its core with its gangs at their entries and arguments, when
its tenant's weight lets it have the decision (R93; how the window of 256 is kept is log 71's choice, that nothing is placed during a cut log 100's); the reserve-and-commit
exchange holds room and shares, grants, commits, starts, revokes, releases and gives up as R91 and R92 say. A COMMIT waits
while members may not be placed (R73, R95, R379), and a retry while a child of the tenant waits (R95). -/
def Obligations.Placement : Prop :=
  ∀ (s u : State) (r : Rx) (k core key part i : Nat), let g := s.grid k; let src := r.cell.src; let c := r.cell.ctag
    (s.mayPlace k = false ∨ (lrService g.lr = false ∧ s.weightLets g.tenant = false) →
      exec (.placementDecision false k i core) s = .next s) ∧
    (let new := core * 16 + s.freeSlot core;
      s.mayPlace k = true → lrService g.lr = false → lrReel g.lr = false → lrSet g.lr = false → core < 384 →
      s.weightLets g.tenant = true → s.fits core g.lr g.tenant 1 = true → Completes (.placementDecision false k i core) s fun t =>
        (t.team new).valid = true ∧ (t.team new).grid = k ∧ (t.team new).number = g.nextTeam ∧ (t.team new).ctx = g.ctx ∧
        (t.grid k).nextTeam = g.nextTeam + 1 ∧ t.decided = (if s.decided < 255 then s.decided + 1 else 0) ∧ t.dmem = s.dmem ∧ (∀ j, j ≠ new → t.team j = s.team j) ∧
        ∀ n, n < lrGangs g.lr → let G := t.gang (new * 16 + n); let e := (lrWord g.lr 8 + roleEntry (lrRole g.lr (roleOf g.lr n))) % 2 ^ 64
          G.resident = true ∧ G.ended = false ∧ G.vregs = roleVregs (lrRole g.lr (roleOf g.lr n)) ∧ G.nslices = lrSlices g.lr ∧
          (∀ j, j < 8 → G.regs.s.get 0 (j + 1) = BitVec.ofNat 64 (lrWord g.lr (0x100 + 8 * j))) ∧
          ∀ j, j < lrSlices g.lr → (G.slice j).pc = e ∧ (G.slice j).mask = 15 ∧ (G.slice j).live = 15) ∧
    (∀ n x resume lr smap places, received s u r 0x10 (key :: n :: x :: resume :: lr :: smap :: places) →
      ((u.ctx c).state = .unbound ∨ u.accepts c src = false → Completes (.reserve r) s (told · src 0x17 (.control [key]))) ∧
      (∀ h l, (u.ctx c).state ≠ .unbound → u.accepts c src = true → u.holds = [] → u.reserveQ = [] →
        h = { key := key, coord := src, ctx := c, teams := n, index := x, places := places, resume := resume == 1
              lr := Memory.writeLE [] 0 512 lr
              smap := if smap = 0 then [] else Memory.writeLE [] 0 (smapBytes (smap % 2 ^ 64)) smap : Hold } →
        (u.grantCores h = some l → Completes (.reserve r) s fun t => t.holds = [{ h with
            granted := true, cores := l, shares := u.chooseShares h.lr l, needs := u.holdNeeds h }] ∧
          told t src 0x11 (.control [key])) ∧
        (u.grantCores h = none → Completes (.reserve r) s fun t => t.reserveQ = [h] ∧ t.holds = []))) ∧
    (received s u r 0x11 [key] →
      (u.reel key = none → Completes (.grant r) s (told · src 0x18 (.control [key]))) ∧
      (∀ h, u.reel key = some h → h.retrying = false → h.committed = false → src ∈ h.parts →
        (∀ p ∈ h.parts, p = src ∨ p ∈ h.granted) → Completes (.grant r) s fun t =>
          ∀ p ∈ h.parts, told t p 0x12 (.control [key]))) ∧
    (∀ h l l', received s u r 0x12 [key] → u.holds = l ++ h :: l' → h.key = key → h.holds = true →
      (∀ x ∈ l ++ l', x.key ≠ key ∧ x.due = false) → let v := { u with holds := l ++ { h with due := true } :: l' };
      (v.mayCommitHold { h with due := true } = true → h.resume = false → Completes (.commit r) s fun t =>
        (∃ y ∈ t.holds, y.key = key ∧ y.committed = true) ∧ ∃ xs, told t h.coord 0x13 (.control (key :: xs))) ∧
      (v.mayCommitHold { h with due := true } = false → exec (.commit r) s = .next v)) ∧
    (∀ h, received s u r 0x13 [key, 0] → u.reel key = some h → h.committed = true → (∀ p ∈ h.parts, p = src ∨ p ∈ h.placed) →
      Completes (.placed r) s fun t => t.reel key = none ∧ (∀ j, h.grid = some j → j ∉ t.pending) ∧ ∀ p ∈ h.parts, ∃ xs, told t p 0x14 (.control (key :: xs))) ∧
    (∀ rest, received s u r 0x14 (key :: part :: rest) → Completes (.start r) s fun t =>
      (∀ j ∈ u.waitingTeams key, (t.team j).started = true ∧ ∃ w, (t.team j).window = some w ∧ w.key = key) ∧
      ∀ h ∈ t.holds, h.key ≠ key) ∧
    (∀ h type ev, (type = 0x15 ∧ ev = Instr.revoke r) ∨ (type = 0x16 ∧ ev = .refuse r) → received s u r type [key] → u.reel key = some h →
      Completes ev s fun t => (∃ y, t.reel key = some y ∧ y.retrying = true ∧ y.committed = false ∧ y.granted = []) ∧
        ∀ p ∈ h.granted, told t p 0x18 (.control [key])) ∧
    (∀ h j q, received s u r 0x17 [key] → u.reel key = some h → h.grid = some j → (u.grid j).queue = some q →
      Completes (.refuseFinal r) s fun t => j ∉ t.pending ∧ (t.queue q).reject = 0x0c) ∧
    (∀ h, received s u r 0x18 [key] → u.holds.find? (fun h => h.key == key) = some h → h.committed = false → u.reserveQ = [] →
      Completes (.release r) s fun t => t.holds = u.holds.filter fun x => x.key != key) ∧
    (∀ j, received s u r 0x18 [key, 1] → (u.grid j).reel = some key → Completes (.release r) s fun t =>
      (t.grid j).partsLeft = (u.grid j).partsLeft.filter (· != src)) ∧
    (∀ h, s.holds.find? (fun h => h.key == key) = some h →
      (h.committed = true ∨ h.due = true → exec (.reserveHoldTimeout key) s = .next s) ∧
      (h.committed = false → h.due = false → s.reserveQ = [] → Completes (.reserveHoldTimeout key) s fun t =>
        (t.holds = s.holds.filter fun x => x.key != key) ∧ told t h.coord 0x15 (.control [key]))) ∧
    (∀ h, s.reel key = some h →
      (part ∉ h.asked → exec (.reserveAnswerTimeout key part) s = .next s) ∧
      (part ∈ h.asked → h.silent.get 0 part < 7 → Completes (.reserveAnswerTimeout key part) s fun t =>
        ∃ y, t.reel key = some y ∧ y.retrying = true ∧ y.silent.get 0 part = h.silent.get 0 part + 1) ∧
      (∀ j q, part ∈ h.asked → 7 ≤ h.silent.get 0 part → h.grid = some j → (s.grid j).queue = some q →
        Completes (.reserveAnswerTimeout key part) s fun t => j ∉ t.pending ∧ (t.queue q).reject = 0x0b) ∧
      (h.retrying = false ∨ (h.resume = false ∧ s.childWaits (s.ctx h.ctx).tenant = true) → exec (.reserveRetry key) s = .next s) ∧
      (h.retrying = true → (h.resume = true ∨ s.childWaits (s.ctx h.ctx).tenant = false) → Completes (.reserveRetry key) s fun t =>
        ∀ p ∈ h.parts, ∃ xs, told t p 0x10 (.control (key :: xs))))

/-- R125, R127, R128, R407, R408, R78: credits refill to at most four weights; an idle or expired gang of the active set is to
leave it once a pending gang is ready (`yield`'s statement says how the place passes); the entering gang may issue once the
swap is complete; a team's slot is freed with its gangs, and with the detaching teams of its window on the part (R309; log 84),
when all of them are idle and let go; a grid that may retire leaves, and lifts its timeline. -/
def Obligations.TeamsAndGridsEnd : Prop :=
  ∀ (s : State) (gid k team : Nat), let core := gidCore gid; let g := s.grid k; let T : W64 := s.timelines.get 0 g.timeline
    (Completes .deficitRefill s fun t => t.gangs = s.gangs ∧ t.teams = s.teams ∧ ∀ j, (t.core j).deficit =
      (s.core j).deficit.map fun x => (x.1, min (x.2 + (s.tenants.get {} x.1).weight) (4 * (s.tenants.get {} x.1).weight))) ∧
    (∀ x ∈ [(Instr.activeSetIdleEvict gid, Leave.idle), (.activeQuantumExpire gid, .always)], Completes x.1 s fun t =>
      t = { s with gangs := t.gangs } ∧ (∀ j, j ≠ gid → t.gang j = s.gang j) ∧
      t.gang gid = if (s.gang gid).active.isSome ∧ x.2 ∉ (s.gang gid).leaving
        then { s.gang gid with leaving := (s.gang gid).leaving ++ [x.2] } else s.gang gid) ∧
    (Completes (.gangSwapComplete gid) s fun t => t.gangs = s.gangs ∧ ∀ w ∈ (t.core core).swaps, w.2 ≠ gid) ∧
    (let ts := s.freedWith team;
      ((∃ j ∈ ts, s.teamIdle j = false ∨ s.windowLets j = false) → exec (.teamSlotFree team) s = .next s) ∧
      ((∀ j ∈ ts, s.teamIdle j = true ∧ s.windowLets j = true) → Completes (.teamSlotFree team) s fun t =>
        (∀ j ∈ ts, t.team j = {}) ∧ (∀ j, gidTeam j ∈ ts → t.gang j = {}) ∧ (∀ j, gidTeam j ∉ ts → t.gang j = s.gang j) ∧
        t.dmem = s.dmem ∧
        (ts.Nodup → ∀ j, (t.grid j).freed = (s.grid j).freed + (ts.filter fun k => (s.team k).grid == j).length))) ∧
    (s.mayRetire k = false → exec (.gridRetire k) s = .next s) ∧
    (∀ q, s.mayRetire k = true → g.parent = none → g.queue = some q → s.isTwin g.ctx = false → s.raises = [] →
      s.triggered g.timeline g.value = [] → g.timeline ∉ s.tlShared → Completes (.gridRetire k) s fun t =>
        (t.grid k).valid = false ∧ (t.timelines.get 0 g.timeline = if 0 < (g.value - T).toInt then g.value else T) ∧
        (∀ j, j ≠ g.timeline → t.timelines.get 0 j = s.timelines.get 0 j) ∧ t.dmem = s.dmem) ∧
    (∀ p, s.mayRetire k = true → g.parent = some p → isLifted p = false → g.queue = none → g.reel = none → k ∈ (s.gang p).children →
      Completes (.gridRetire k) s fun t => (t.grid k).valid = false ∧ (t.gang p).joined = (s.gang p).joined + 1 ∧
        (t.gang p).children = (s.gang p).children.filter (· != k) ∧ t.timelines = s.timelines)

/-! ### Cuts, twins and breaks -/

/-- R378 to R396: operations of a context's control block act only from its logical device; each refuses a context in
another state with its error code, and otherwise changes the state as the rule says. A `brk` without break mode faults BRK
with its code, and during a cut waits for the next. -/
def Obligations.CutsAndTwins : Prop :=
  ∀ (s : State) (ld c v : Nat) (b : Bool) (n : Fin 2048), let x := s.ctx c; let B := s.setBrk c b; let X := s.curTeam.ctx
    let err := fun (e : Nat) (t : State) => (t.ctx c).err = e ∧ t.gangs = s.gangs ∧ t.teams = s.teams ∧ t.dmem = s.dmem
    (x.bound = false ∨ x.ld ≠ ld → ∀ i ∈ [Instr.preempt ld c b, .contextResume ld c b, .twin ld c b, .step ld c b, .rival ld c b,
      .discard ld c b, .ccMemaWrite ld c v, .ccMemdRead ld c, .ccMemdWrite ld c v], exec i s = .next s) ∧
    (x.bound = true → x.ld = ld →
      (x.runs = false → Completes (.preempt ld c b) s (err 1) ∧ Completes (.twin ld c b) s (err 1)) ∧
      (s.feature c 3 = false → Completes (.twin ld c b) s (err 1)) ∧
      (x.runs = true → x.cut ≠ none ∨ x.preempting = true ∨ x.preemptAgain = true → Completes (.preempt ld c b) s (err 5)) ∧
      (x.runs = true → x.cut = none → x.preempting = false → x.preemptAgain = false → s.memberParts c = [] → s.areaSmall c = true →
        Completes (.preempt ld c b) s (err 7)) ∧
      (x.runs = true → x.cut = none → x.preempting = false → x.preemptAgain = false → x.preemptSmall = false → s.memberParts c = [] → s.areaSmall c = false →
        Completes (.preempt ld c b) s fun t => (t.ctx c).state = .cutting ∧ (t.ctx c).cutNo = x.cutNo + 1 ∧
          (∃ k, (t.ctx c).cut = some k ∧ k.kind = .preempt) ∧ t.gangs = s.gangs ∧ t.dmem = s.dmem) ∧
      (x.state ≠ .saved → Completes (.contextResume ld c b) s (err 1)) ∧
      (x.state = .saved → x.want ≠ 0 → Completes (.contextResume ld c b) s (err 0)) ∧
      (x.state = .saved → x.want = 0 → B.rereadRecord c = none → Completes (.contextResume ld c b) s (err 10)) ∧
      (∀ y, x.state = .saved → x.snap.state ≠ 4 → x.want = 0 → B.rereadRecord c = some y →
        (B.readArea c true = none → Completes (.contextResume ld c b) s (err 8)) ∧
        (∀ u, B.readArea c true = some (u, []) → y.parent = none → y.snap.state ≠ 4 → y.snap.restored = none →
          Completes (.contextResume ld c b) s fun t => (t.ctx c).state = .running ∧ (t.ctx c).err = 0 ∧ (t.ctx c).want = 0)) ∧
      (∀ e, x.runs = true → s.feature c 3 = true → B.formTwin c = .error e → Completes (.twin ld c b) s (err e)) ∧
      (∀ u z, x.runs = true → s.feature c 3 = true → B.formTwin c = .ok (u, z) → Completes (.twin ld c b) s fun t =>
        ∃ k, (t.ctx c).cut = some k ∧ k.kind = .twin ∧ k.twin = some z ∧ t.gangs = u.gangs ∧ t.dmem = u.dmem) ∧
      (x.state ≠ .frozen → Completes (.step ld c b) s (err 1) ∧ Completes (.rival ld c b) s (err 1) ∧
        Completes (.ccMemdRead ld c) s (fun t => err 1 t ∧ t.hostRead = 0) ∧ Completes (.ccMemdWrite ld c v) s (err 1) ∧
        (v % 8 = 0 → Completes (.ccMemaWrite ld c v) s (err 1))) ∧
      (v % 8 ≠ 0 → Completes (.ccMemaWrite ld c v) s (err 0x0b)) ∧
      (x.state = .frozen →
        (B.readArea c false = none → Completes (.step ld c b) s (err 8)) ∧
        (∀ g u ts, B.readArea c false = some (u, ts) → Ctx.selectedSaved { x with saved := ts } = some g → Completes (.step ld c b) s fun t =>
          (t.ctx c).state = .stepping ∧ (t.ctx c).stepping = some g ∧ (t.ctx c).want = 3 ∧ (t.ctx c).saved = ts) ∧
        (x.lost ≠ 0 → Completes (.rival ld c b) s (err 6)) ∧
        (∀ u ts, x.lost = 0 → B.readArea c false = some (u, ts) → ts ≠ [] → Completes (.rival ld c b) s fun t =>
          (t.ctx c).want = 2 ∧ (t.ctx c).saved = ts ∧ (t.ctx c).err = 0)) ∧
      (x.parent = none → Completes (.discard ld c b) s (err 1)) ∧
      (x.parent ≠ none → x.state = .stepping → x.cut = none → Completes (.discard ld c b) s fun t =>
        (t.ctx c).discarding = true ∧ t.gangs = s.gangs) ∧
      (x.parent ≠ none → x.state = .frozen → x.cut = none → s.ctxTeams c = [] → Completes (.discard ld c b) s fun t =>
        (t.ctx c).bound = false ∨ ((t.ctx c).state = .ended ∧ (t.ctx c).discarding = true)) ∧
      (x.parent ≠ none → x.state = .cutting → Completes (.discard ld c b) s (err 1)) ∧
      (x.state = .frozen → let A : Asker := ⟨2 ^ 32, 12, c⟩; let z := s.asking A
        (v % 8 = 0 → v < 2 ^ 64 → Completes (.ccMemaWrite ld c v) s fun t => t.ctx c = { x with mema := v } ∧ t.dmem = s.dmem) ∧
        (∀ l, (z.viewPlace c x.mema).2 = .ok (some l) → s.atomicHeld l = false → Completes (.ccMemdRead ld c) s fun t =>
          t.hostRead = BitVec.ofNat 64 (s.readLoc l 8) ∧ (t.ctx c).mema = (x.mema + 8) % 2 ^ 64 ∧ t.dmem = s.dmem) ∧
        ((z.viewPlace c x.mema).2 = .error () → let u := (z.viewPlace c x.mema).1;
          (u.hostNeed = s.hostNeed → Completes (.ccMemdWrite ld c v) s fun t =>
            (t.ctx c).err = 9 ∧ (t.ctx c).mema = (x.mema + 8) % 2 ^ 64 ∧ t.dmem = s.dmem) ∧
          (u.hostNeed ≠ s.hostNeed → ∀ i ∈ [Instr.ccMemdRead ld c, .ccMemdWrite ld c v],
            exec i s = .next { z.askHost u.hostNeed with hostWho := s.hostWho })) ∧
        (∀ pa f, let g := x.mema / 65536; (z.viewPlace c x.mema).2 = .ok (some (.dev pa)) → bit x.mema 56 = true →
          bit (x.view.perms.get 0 g) 7 = false → x.view.shared.contains g = false → x.view.priv.find g = some f → s.sharers c g = [] → x.snap.view.shared.contains g = false →
          v < 2 ^ 64 → Completes (.ccMemdWrite ld c v) s fun t => let a := f + x.mema % 65536
            t.dmem.readLE a 8 = v ∧ (∀ k, k < a ∨ a + 8 ≤ k → t.dmem.read k = s.dmem.read k) ∧
            (t.ctx c).mema = (x.mema + 8) % 2 ^ 64))) ∧
    (x.cut = none → ∀ core, exec (.preemptSaveComplete c) s = .next s ∧ exec (.twinWriteComplete c core) s = .next s) ∧
    (∀ k, x.cut = some k → k.kind = .preempt → k.written = false → s.cutReady c k = true → Completes (.preemptSaveComplete c) s fun t =>
      (t.ctx c).state = .saved ∧ ∀ j ∈ s.ctxTeams c, (t.team j).valid = false) ∧
    (∀ k z core, x.cut = some k → k.kind = .twin → k.twin = some z → k.captured = true → k.written = false → k.cores = [core] →
      (s.ctx z).discarding = false → Completes (.twinWriteComplete c core) s fun t => (t.ctx z).state = .frozen) ∧
    (x.state = .stepping → x.want = 0 → s.stepDone c = true → x.discarding = false → Completes (.stepComplete c) s fun t =>
      (t.ctx c).state = .frozen ∧ (t.ctx c).stepping = none) ∧
    (x.state ≠ .stepping → exec (.stepComplete c) s = .next s) ∧
    (∀ r u k m kind, received s u r 0x20 [0, m, kind] → r.cell.ctag = c → (u.ctx c).cutNo = m → (u.ctx c).cut = some k → k.written = false →
      Completes (.cut r) s fun t => (t.ctx c).cut = some { k with markers := k.markers ++ [r.cell.src * 32 + r.cell.plane] } ∧
        t.gangs = u.gangs ∧ t.dmem = u.dmem) ∧
    (∀ r u ok, received s u r 0x20 [1, (u.ctx c).cutNo + 1, ok] → r.cell.ctag = c → (u.ctx c).runs = true → (u.ctx c).cut = none →
      (u.ctx c).preempting = true → (∃ p ∈ (u.ctx c).preemptAwait, p ≠ r.cell.src ∧ p ∉ u.down) →
      Completes (.preemptAnswerReceive r) s fun t =>
        (t.ctx c).preemptAwait = (u.ctx c).preemptAwait.filter (· != r.cell.src) ∧ t.gangs = u.gangs ∧ t.dmem = u.dmem) ∧
    (s.writeComing c (v / 65536) = false → exec (.cowCopy c v) s = .next s) ∧
    (∀ e z u f, let g := v / 65536; s.writeComing c g = true → s.isTwin c = false → s.walk c x.pt v = .leaf e → s.sharers c g = [z] → z ≠ c →
      s.copyFor c (e.pbase + (v - e.vbase) - v % 65536) = (u, some f) → (u.ctx c).snap.view.shared.contains g = false →
      Completes (.cowCopy c v) s fun t => (t.ctx z).view = (u.ctx z).view.take g (some f) ∧ t.dmem = u.dmem ∧ t.teams = u.teams ∧
        ∀ j, (t.gang j).regs = (u.gang j).regs) ∧
    (∀ f rest, let prod := s.devRead (x.hint + 0x38) 4; x.discarding = false → x.returning = f :: rest → x.hint ≠ 0 → x.ret ≠ 0 →
      (prod + 2 ^ 32 - s.devRead (x.hint + 0x3c) 4 % 2 ^ 32) % 2 ^ 32 < 2 ^ x.retLog → Completes (.frameReturn c) s fun t =>
        (t.ctx c).returning = rest ∧ t.dmem.readLE (x.hint + 0x38) 4 = (prod + 1) % 2 ^ 32 ∧ t.gangs = s.gangs) ∧
    (s.lanes = [] → exec (.brk n) s = .next s) ∧
    (s.lanes ≠ [] → (s.ctx X).brkmode = false → exec (.brk n) s = .next (s.fault { code := .brk, detail := n.val })) ∧
    (s.lanes ≠ [] → (s.ctx X).brkmode = true → ∀ k, (s.ctx X).cut = some k → Completes (.brk n) s fun t =>
      ∃ y : Break, (t.ctx X).brkWaits = (s.ctx X).brkWaits ++ [y] ∧ y.gid = s.iss.gid ∧ y.code = n.val ∧ y.pc = s.iss.pc ∧
        t.gangs = s.gangs ∧ t.dmem = s.dmem) ∧
    (s.lanes ≠ [] → (s.ctx X).brkmode = true → (s.ctx X).cut = none → ∀ u z, s.formTwin X = .ok (u, z) → Completes (.brk n) s fun t =>
      ∃ k, (t.ctx X).cut = some k ∧ k.kind = .twin ∧ k.twin = some z ∧ k.brkCount = 1 ∧ t.gangs = u.gangs)

/-! ### Snapshots, links, hosts -/

/-- R400 to R405: the snapshot block is written only while STATE is 0; SNAP begins a snapshot at its cut; the image is
written, streamed and acknowledged, or the snapshot fails with its code and its buffer is invalid (log 57 says how); RESTORE makes the
context a saved one. -/
def Obligations.Snapshots : Prop :=
  ∀ (s u : State) (r : Rx) (ld c v off n num e used m : Nat) (image : Option SnapImage), let x := s.ctx c; let S := x.snap
    let d := r.cell.ctag; let U := (u.ctx d).snap; let src := r.cell.src
    let err := fun (e : Nat) (t : State) => (t.ctx c).snap.err = e ∧ t.gangs = s.gangs ∧ t.teams = s.teams ∧ t.dmem = s.dmem
    let spoiled := fun (e : Nat) (t : State) => (t.ctx c).snap.err = e ∧ (t.ctx c).snap.state = 0 ∧ (t.ctx c).snap.done = S.done ∧
      t.dmem.readLE (physAddr S.area + S.size * (1 - S.buf)) 8 = 0 ∧ t.gangs = s.gangs ∧ t.teams = s.teams
    let ops := [Instr.snapshotBlockWrite ld c off n v, .snap ld c v, .restore ld c v image]
    (x.bound = false ∨ x.ld ≠ ld → ∀ i ∈ ops, exec i s = .next s) ∧
    (x.bound = true → x.ld = ld →
      (S.state ≠ 0 → ∀ i ∈ ops, Completes i s (err 4)) ∧
      (S.state = 0 → v < 2 ^ 64 → let E := S.enable && s.feature c 4
        (Completes (.snapshotBlockWrite ld c 0x08 8 v) s fun t => (t.ctx c).snap = { S with area := v, enable := E }) ∧
        (Completes (.snapshotBlockWrite ld c 0x10 8 v) s fun t => (t.ctx c).snap = { S with size := v, enable := E }) ∧
        (Completes (.snapshotBlockWrite ld c 0x18 8 v) s fun t => (t.ctx c).snap = { S with ranges := v, enable := E }) ∧
        (Completes (.snapshotBlockWrite ld c 0x20 8 v) s fun t => (t.ctx c).snap = { S with recv := v, enable := E }) ∧
        (Completes (.snapshotBlockWrite ld c 0x28 8 v) s fun t => (t.ctx c).snap = { S with enable := E }) ∧
        (Completes (.snapshotBlockWrite ld c 0x38 8 v) s fun t => (t.ctx c).snap = { S with target := v, enable := E }) ∧
        (x.runs = false ∨ bit v 8 = false ∨ s.feature c 4 = false → Completes (.snap ld c v) s (err 4)) ∧
        (let z := (s.snapWrite c (·.setCtl v)).modSnap c fun y => { y with asked := true };
          x.runs = true → bit v 8 = true → s.feature c 4 = true → S.wanted = false → x.brkWaits = [] →
          x.discarding = false → x.preemptAgain = false →
          z.snapMay c = true → z.snapBad c = false → Completes (.snap ld c v) s fun t => let y := t.ctx c
            y.snap.state = 1 ∧ y.snap.begun = S.done + 1 ∧ y.snap.done = S.done ∧ y.cutNo = x.cutNo + 1 ∧
            (∃ k, y.cut = some k ∧ k.kind = .snapshot) ∧ t.gangs = s.gangs ∧ t.dmem = s.dmem) ∧
        (let idle := x.state = .saved ∨ x.state = .running ∧ s.ctxTeams c = [] ∧ ∀ k ∈ s.pending, (s.grid k).ctx ≠ c;
          (¬idle → Completes (.restore ld c v image) s (err 4)) ∧
          (idle → bit v 26 = true → Completes (.restore ld c v none) s (err 5)) ∧
          (idle → bit v 26 = false → physOk S.area 65536 = false → Completes (.restore ld c v image) s (err 6)) ∧
          (∀ i l, idle → bit v 26 = true → i.num = S.target → s.declared c = some l →
            let j : SnapImage := { i with teams := i.teams.map fun t =>
              { t with team := { t.team with rows := t.team.rows.mapVals Row.recompacted } } }
            requiredSize j.teams ≤ x.saven →
            Completes (.restore ld c v (some i)) s fun t => (t.ctx c).snap.state = 4 ∧ (t.ctx c).snap.loading = some j ∧
              t.dmem = s.dmem ∧ t.gangs = s.gangs)))) ∧
    (S.taking = none → exec (.snapshotWriteComplete c) s = .next s) ∧
    (∀ i, S.taking = some i → S.state = 2 → S.written = false →
      (S.size < i.used S.list → Completes (.snapshotWriteComplete c) s (spoiled 1)) ∧
      (i.used S.list ≤ S.size → S.view.lost ≠ [] → Completes (.snapshotWriteComplete c) s (spoiled 2)) ∧
      (i.used S.list ≤ S.size → S.view.lost = [] → S.view.priv = [] → S.stream = false → x.returning = [] →
        Completes (.snapshotWriteComplete c) s fun t => (t.ctx c).snap.done = S.begun ∧ (t.ctx c).snap.state = 0 ∧
          (t.ctx c).snap.buf = 1 - S.buf ∧ t.gangs = s.gangs)) ∧
    (S.trigger = none ∨ S.holding = false ∨ S.wanted = true → exec (.snapshotRaiseRelease c) s = .next s) ∧
    (∀ k w, S.trigger = some (k, w) → S.holding = true → S.wanted = false → x.cut = none → s.raises = [] →
      Completes (.snapshotRaiseRelease c) s fun t => (t.ctx c).snap = { S with holding := false, trigger := none }) ∧
    (received s u r 0x21 [3, num, e, m] →
      (U.state ≠ 0 → U.begun = num → U.cutNo = m → Completes (.snapReceive r) s fun t =>
        (t.ctx d).snap.state = 0 ∧ (t.ctx d).snap.err = e ∧ (t.ctx d).snap.done = U.done) ∧
      (U.cutNo < m → Completes (.snapReceive r) s fun t => (t.ctx d).snap = { U with failed := some (m, e) } ∧ t.dmem = u.dmem)) ∧
    (received s u r 0x21 [4, num] → Completes (.snapReceive r) s fun t =>
      (t.ctx d).snap = { U with reported := U.reported.set src num } ∧ t.dmem = u.dmem) ∧
    (received s u r 0x21 [0, num, used, off, v, m] → U.recv ≠ 0 → physOk U.recv 1 = true → used ≤ U.size → off < used →
      Completes (.snapReceive r) s fun t => let n := min 128 (used - off)
        let y := if U.recvNum = num ∧ U.recvCut = m then U else U.startCopy num m
        let a := physAddr U.recv + U.size * (1 - y.recvBuf) + off
        t.dmem.readLE a n = v % 2 ^ (8 * n) ∧ (∀ k, k < a ∨ a + n ≤ k → t.dmem.read k = u.dmem.read k) ∧
        (used ≤ y.recvGot + n → told t src 0x21 (.control [2, num, m]))) ∧
    (received s u r 0x21 [2, num, m] → U.state = 3 → U.begun = num → U.cutNo = m → Completes (.snapshotCopyAck r) s fun t =>
      (t.ctx d).snap.done = num ∧ (t.ctx d).snap.state = 0 ∧ t.dmem = u.dmem) ∧
    (S.state ≠ 3 → exec (.snapshotPartnerTimeout c) s = .next s) ∧
    (S.state = 3 → Completes (.snapshotPartnerTimeout c) s (spoiled 3)) ∧
    (S.loading = none → exec (.restoreComplete c) s = .next s) ∧
    (∀ i, S.loading = some i → S.state = 4 → x.want = 0 → s.ctxTeams c = [] → Completes (.restoreComplete c) s fun t =>
      (t.ctx c).state = .saved ∧ (t.ctx c).snap.state = 0 ∧ (t.ctx c).snap.restored = i.trigger ∧ t.teams = s.teams ∧
        ∀ j, (t.gang j).regs = (s.gang j).regs)

/-- A cell of a type that no engine holds back has been accepted, and `u` is the part then. -/
def Sys2Proof.Claims.arrived (s u : State) (r : Rx) (type : Nat) : Prop :=
  r.cell.type = type ∧ (r.port = 33 → s.cellHeld r.cell = false) ∧ s.accept r = (u, true) ∧ u.cellHeld r.cell = false

/-- R313 to R324, R308, R309, R312: a slot sends one cell, the control cell or the reserved flow first; acknowledgements, resends,
CRC errors and cells out of order move a port as R320 says, and a cell is taken once; one whose line an engine owns stands aside;
requests are performed here and answered, replies end what waits for them; a change of a member's state is applied and answered (the
answer is log 20's); a part that is down departs from every window. -/
def Obligations.Links : Prop :=
  ∀ (s u : State) (r : Rx) (port slot lseq part plane seq idx : Nat) (b : Bool), let p := s.port port; let c := r.cell
    let q := if slot = 0 then { p with table := p.written } else p
    (q.pick slot = none ∨ p.up = false ∨ 256 ≤ p.replay.length → exec (.fabricSlot port slot) s = .next (s.setPort port q)) ∧
    (∀ x, q.pick slot = some x → p.up = true → p.replay.length < 256 → Completes (.fabricSlot port slot) s fun t =>
      t = s.setPort port { q with queue := q.queue.erase x, replay := q.replay ++ [(q.lseq, x)], lseq := (q.lseq + 1) % 256 }) ∧
    ((∃ x ∈ p.queue, isControlCell x = true) → ∃ x ∈ p.queue, p.pick 63 = some x ∧ isControlCell x = true) ∧
    (let e := p.table.get 0 slot;
      slot ≠ 63 → bit e 8 = true → (∃ x ∈ p.queue, x.flow = bits e 0 8) → ∃ x ∈ p.queue, p.pick slot = some x ∧ x.flow = bits e 0 8) ∧
    (∀ l1 x l2, p.replay = l1 ++ (lseq, x) :: l2 → (∀ y ∈ l1, y.1 ≠ lseq) → Completes (.linkAck port lseq) s fun t =>
      t = s.setPort port { p with replay := l2, resends := 0 }) ∧
    ((∀ y ∈ p.replay, y.1 ≠ lseq) → exec (.linkAck port lseq) s = .next s ∧ exec (.linkNak port lseq) s = .next s) ∧
    (p.replay = [] → exec (.linkReplayTimeout port) s = .next s) ∧
    (∀ x rest, p.replay = (lseq, x) :: rest → let k := if p.resentAt = lseq then p.resends + 1 else 1
      ∀ i ∈ [Instr.linkNak port lseq, .linkReplayTimeout port], Completes i s fun t =>
        (t.port port).replays = min 65535 (p.replays + 1) ∧ (k < 8 → (t.port port).replay = p.replay ∧ (t.port port).up = p.up) ∧
        (8 ≤ k → (t.port port).up = false)) ∧
    (Completes (.cellCrcFail port b) s fun t => t = s.setPort port (if p.up = false then p else
      { p with hdrerr := if b then min 65535 (p.hdrerr + 1) else p.hdrerr
               bodyerr := if b then p.bodyerr else min 65535 (p.bodyerr + 1), naking := true })) ∧
    (Completes (.tailxReceive port lseq) s fun t => t = s.setPort port (if p.up = false then p else
      { p with poison := min 255 (p.poison + 1), expect := if lseq = p.expect then (p.expect + 1) % 256 else p.expect })) ∧
    (r.port < 32 → s.accept r = (u, true) → (u.accept r).2 = false ∧ (s.port r.port).expect = r.lseq ∧
      (s.badCell c = false ∨ spOk c.type c.sp = true ∧ asksBinding c.type = true) ∧
      u.seqRx.get 0 (seqKey c) = (c.seq + 1) % 2 ^ 14 ∧
      wireFramed r.wire = true ∧ wireHeadOk r.wire = true ∧ wireBodyOk r.wire = true ∧ wireCarries r.wire c = true) ∧
    (let P := s.port r.port; let gone := fun (P' : Port) => exec (.smallReceive r) s = .next (s.setPort r.port P');
      c.type = 4 → r.port < 32 → P.up = true → wireFramed r.wire = true →
        (wireHeadOk r.wire = false → gone { P with hdrerr := min 65535 (P.hdrerr + 1), naking := true }) ∧
        (wireHeadOk r.wire = true → wireBodyOk r.wire = false → gone { P with bodyerr := min 65535 (P.bodyerr + 1), naking := true }) ∧
        (wireHeadOk r.wire = true → wireBodyOk r.wire = true → wireCarries r.wire c = true → r.lseq ≠ P.expect →
          gone { P with naking := true })) ∧
    (∀ x ∈ [(0x01, Instr.lineWrReceive r), (0x02, .lineRqReceive r), (0x03, .lineDataReceive r), (0x04, .smallReceive r)],
      c.type = x.1 → r.port ≠ 33 → s.accept r = (u, true) → u.cellHeld c = true →
        exec x.2 s = .next { u with deferred := u.deferred ++ [c] }) ∧
    (arrived s u r 0x04 →
      (∀ e, c.body = .requests [e] → unpackRequest (packRequest e) = e → goesOn c = false → u.gathered c = [] → e.win = true → let off := bits e.addr 0 22 * 4 + e.low
        let team := bits e.addr 26 9 * 16 + bits e.addr 22 4; let T := u.team team
        (T.valid = false ∨ T.ctx ≠ c.ctag → e.eop = 1 ∨ e.eop = 2 ∨ e.eop = 3 → Completes (.smallReceive r) s fun t => t.teams = u.teams ∧
          told t c.src 0x04 (.replies [⟨0, c.seq, FCode.windowDeparted.num, 0, if e.eop = 2 then 5 else 4⟩])) ∧
        (T.valid = true → T.ctx = c.ctag → off + e.size ≤ T.scratchSize →
          (e.eop = 1 → Completes (.smallReceive r) s fun t => t.teams = u.teams ∧
            told t c.src 0x04 (.replies [⟨u.readLoc (.buf team .l off) e.size, c.seq, 0, 0, 4⟩])) ∧
          (e.eop = 2 → Completes (.smallReceive r) s fun t => t.readLoc (.buf team .l off) e.size = e.data % 256 ^ e.size ∧
            t.dmem = u.dmem ∧ (∀ j, j ≠ team → t.team j = u.team j) ∧ told t c.src 0x04 (.replies [⟨0, c.seq, 0, 0, 5⟩])) ∧
          (e.eop = 3 → e.aop = AtomOp.add.code → e.size = 4 ∨ e.size = 8 → e.data < 2 ^ (8 * e.size) → Completes (.smallReceive r) s fun t =>
            let old := u.readLoc (.buf team .l off) e.size
            t.readLoc (.buf team .l off) e.size = (old + e.data) % 2 ^ (8 * e.size) ∧
            told t c.src 0x04 (.replies [⟨old, c.seq, 0, 0, 4⟩])))) ∧
      (∀ e e', c.body = .requests [e, e'] → unpackRequest (packRequest e) = e → goesOn c = false → u.gathered c = [] → e.win = true →
        e.eop = 3 → e.aop = AtomOp.cas.code → e.size = 8 → e'.eop = 0 → e'.data < 2 ^ 64 → let off := bits e.addr 0 22 * 4 + e.low
        let team := bits e.addr 26 9 * 16 + bits e.addr 22 4; let T := u.team team
        T.valid = true → T.ctx = c.ctag → off + 8 ≤ T.scratchSize → Completes (.smallReceive r) s fun t =>
          let old := u.readLoc (.buf team .l off) 8
          t.readLoc (.buf team .l off) 8 = (if old = e.data then e'.data else old) ∧
          told t c.src 0x04 (.replies [⟨old, c.seq, 0, 0, 4⟩])) ∧
      (∀ e x gid k, c.body = .replies [e] → u.remoteFor c e = some x → x.what = .svcRead gid (k / 256) (k % 256) → e.status = 0 →
        Completes (.smallReceive r) s fun t => t.remotes = u.remotes.erase x ∧ (t.gang gid).svcHeld.get 0 k = e.data % 256) ∧
      (∀ e x gid g lane o a, u.lateCell c = false → c.body = .replies [e] → u.remoteFor c e = some x → x.what = .load gid g lane → e.status = 0 →
        State.findOp { u with remotes := u.remotes.erase x } gid g lane = some (o, a) → Completes (.smallReceive r) s fun t =>
          t = State.deliver { u with remotes := u.remotes.erase x } gid o a (e.data % 256 ^ a.size))) ∧
    (∀ given bar, let bytes := given.filter fun y => bit c.arg (y.1 / 16)
      arrived s u r 0x01 → c.body = .line given bar → c.sp = 1 → bytes ≠ [] → let off := bits c.laddr 0 17 * 128
      let team := bits c.laddr 21 9 * 16 + bits c.laddr 17 4; let T := u.team team
      (T.valid = false ∨ T.ctx ≠ c.ctag → Completes (.lineWrReceive r) s fun t => t.teams = u.teams ∧
        told t c.src 0x04 (.replies [⟨0, c.seq, FCode.windowDeparted.num, 0, 5⟩])) ∧
      (T.valid = true → T.ctx = c.ctag → bar = 0 → (∀ y ∈ bytes, off + y.1 < T.scratchSize) → (bytes.map (·.1)).Nodup →
        Completes (.lineWrReceive r) s fun t => (∀ y ∈ bytes, t.readLoc (.buf team .l (off + y.1)) 1 = y.2 % 256) ∧
          (∀ k, (∀ y ∈ bytes, k ≠ off + y.1) → t.readLoc (.buf team .l k) 1 = u.readLoc (.buf team .l k) 1) ∧ t.dmem = u.dmem ∧
          told t c.src 0x04 (.replies [⟨0, c.seq, 0, 0, 5⟩]))) ∧
    (∀ e w f, arrived s u r 0x02 → c.body = .requests [e] → e.eop = 6 →
      u.requestPlace c.ctag { e with eop := 1, low := 0, size := 1 } = (w, f) →
      (∀ k, f = .error k → Completes (.lineRqReceive r) s fun t => told t c.src 0x04 (.replies [⟨0, c.seq, k.num, 0, 4⟩])) ∧
      (∀ va l, f = .ok (va, l) → Completes (.lineRqReceive r) s fun t => ∃ bytes, told t c.src 0x03 (.line bytes 0) ∧
        (∀ y, y ∈ bytes ↔ y.1 < 128 ∧ bit e.data (56 + y.1 / 16) = true ∧ y.2 = w.readLoc (l.plus y.1) 1) ∧ t.dmem = w.dmem)) ∧
    (∀ bytes bar x rest core id ps i, arrived s u r 0x03 → c.body = .line bytes bar → u.remotes = x :: rest → x.part = c.src →
      x.plane = c.plane → x.what = .copyRead core id ps → u.askedLine core id ps = some c.laddr → u.copyById core id = some i →
      Completes (.lineDataReceive r) s fun t => t.remotes = rest ∧ ∀ k ∈ ps, ∀ a v,
        (u.copyRec core i).src.byteAt k = some a → Tab.find bytes (a % 128) = some v → k ∈ (t.copyRec core i).come) ∧
    (part ∈ s.down ∨ part = s.part → exec (.peerDownTimeout part) s = .next s) ∧
    (part ∉ s.down → part ≠ s.part → Completes (.peerDownTimeout part) s fun t => part ∈ t.down ∧
      ∀ k w, (t.team k).window = some w → ∀ y ∈ w.entries, y.part = part → y.state = 3) ∧
    (let hit := fun (x : Remote) => x.part == part && x.plane == plane && x.seq == seq && x.idx == idx;
      (s.remotes.find? hit = none → exec (.remoteReplyTimeout part plane seq idx) s = .next s) ∧
      (∀ x, s.remotes.find? hit = some x → Completes (.remoteReplyTimeout part plane seq idx) s fun t =>
        t = s.failRemote x .peerDown true ∧ (∀ core id, x.what = .svcBack core id 0 → t.remotes = s.remotes.erase x))) ∧
    (∀ key rank n, s.accept r = (u, true) → (u.teams.map (·.1)).Nodup →
      (c.body = .wbar key rank n → Completes (.wbarReceive r) s fun t => t.gangs = u.gangs ∧ ∀ k w, (u.team k).window = some w →
        (u.team k).valid = true → ∃ z, (t.team k).window = some z ∧ z.entries = w.entries ∧
          z.arrivals.get 0 rank = if w.key = key then n else w.arrivals.get 0 rank) ∧
      (c.body = .wstate key rank n → Completes (.wstateReceive r) s fun t => ∀ k w y, (u.team k).window = some w →
        (u.team k).valid = true → w.key = key → w.entries[rank]? = some y → ∃ z y', (t.team k).window = some z ∧
          z.entries[rank]? = some y' ∧ y'.state = if y.state = 3 then 3 else n) ∧
      (c.body = .wstate key rank n → Completes (.wstateReceive r) s (told · c.src 0x0b (.wstateAck key rank false))))

/-- R13, R74, R76, R333, R343, R348, R409 to R420: what hosts and the fabric manager do to the part. -/
def Obligations.HostSide : Prop :=
  ∀ (s : State) (m : HostMap) (ld off v va n host width rate tlfirst tlcount qfirst qcount port : Nat) (link : Fin 2) (b : Bool),
    let d := s.ldev ld; let p := s.port port
    (m.ok? = false → exec (.hostTranslationAnswer m) s = .next s) ∧
    (m.ok? = true → Completes (.hostTranslationAnswer m) s fun t =>
      let mine := fun (p : Nat × Nat) => p.1 = m.ld ∧ m.vbase ≤ p.2 * 4096 ∧ p.2 * 4096 < m.vbase + m.size
      t.gangs = s.gangs ∧ t.teams = s.teams ∧ t.dmem = s.dmem ∧ t.hmem = s.hmem ∧
      (∀ p, p ∈ t.hostAsked ↔ p ∈ s.hostAsked ∧ ¬mine p) ∧ (∀ w, w ∈ t.hostWaits ↔ w ∈ s.hostWaits ∧ ¬mine w.2) ∧
      (m.r = false → m.w = false → m.x = false → t.hostMaps = s.hostMaps ∧
        ∀ w, w ∈ t.hostDenied ↔ w ∈ s.hostDenied ∨ w ∈ s.hostWaits ∧ mine w.2 ∧ w.1.kind ≠ 3) ∧
      (m.r = true ∨ m.w = true ∨ m.x = true → m ∈ t.hostMaps ∧ (∀ w, w ∈ t.hostDenied ↔ w ∈ s.hostDenied ∧ ¬mine w.2) ∧
        ∀ x ∈ t.hostMaps, x = m ∨ x ∈ s.hostMaps ∧ (x.ld ≠ m.ld ∨ x.vbase + x.size ≤ m.vbase ∨ m.vbase + m.size ≤ x.vbase))) ∧
    (let hit := fun (x : HostMap) => x.ld == ld && decide (x.vbase ≤ va) && decide (va < x.vbase + x.size);
      (s.hostMaps.find? hit = none → exec (.hostTranslationInvalidate ld va) s = .next s) ∧
      (∀ x, s.hostMaps.find? hit = some x → Completes (.hostTranslationInvalidate ld va) s fun t =>
        t = { s with hostMaps := if s.hostPending x then s.hostMaps else s.hostMaps.erase x })) ∧
    (let outside := d.bound = false ∨ 64 * d.tlcount ≤ off;
      (outside → exec (.timelineHostRead ld off) s = .next s ∧ exec (.timelineHostStore ld off) s = .next s) ∧
      (¬outside → (Completes (.timelineHostRead ld off) s fun t => d.tlfirst + off / 64 ∈ t.tlShared ∧ t.timelines = s.timelines ∧
          t.hostRead = if off % 64 < 8 then Tab.get 0 s.timelines (d.tlfirst + off / 64) else 0) ∧
        Completes (.timelineHostStore ld off) s fun t => t = s.setLdev ld { d with tlStale := min (d.tlStale + 1) (2 ^ 32 - 1) })) ∧
    (trainedOk width rate = false → exec (.hostLinkDown ⟨link, width, rate⟩) s = .next s) ∧
    (trainedOk width rate = true → Completes (.hostLinkDown ⟨link, width, rate⟩) s fun t => ∀ k, (s.ldev k).bound = true →
      t.ldev k = { s.ldev k with link := 1 - link.val, width := width, rate := rate } ∧
        ((s.ldev k).link = link.val → ∀ x ∈ t.atomics, x.ld ≠ k)) ∧
    (let nd : LogDev := { d with bound := true, host := host, link := link.val, width := width, rate := rate, tlfirst := tlfirst
                                 tlcount := tlcount, qfirst := qfirst, qcount := qcount, cacheBound := b };
      Completes (.ldBind ld host link width rate tlfirst tlcount qfirst qcount b) s fun t =>
        t = if s.bindOk ld host nd then s.setLdev ld nd else s) ∧
    (d.bound = true ∨ 16 ≤ ld ∨ 1024 < qfirst + qcount ∨ 4096 < tlfirst + tlcount ∨ (∃ k, (k, s.ldev k) ∈ s.lds ∧ (s.ldev k).bound = true ∧
      (s.ldev k).host = host) → exec (.ldBind ld host link width rate tlfirst tlcount qfirst qcount b) s = .next s) ∧
    (∀ i, i = Instr.coldReset ∨ (∃ v, v % 2 = 1 ∧ i = .warmReset 0 v) → Completes i s fun t => t.dmem = [] ∧ t.gangs = [] ∧ t.ctxs = [] ∧ t.queues = [] ∧
      t.timelines = [] ∧ t.fw.zeroing = true ∧ t.fw.state = 0 ∧ t.part = s.part ∧ t.hmem = s.hmem ∧
      ∀ k, (t.ldev k).bound = true → i ≠ .coldReset ∧ (t.ldev k).host = (s.ldev k).host ∧ (s.ldev k).bound = true) ∧
    (ld ≠ 0 ∨ v % 2 = 0 → exec (.warmReset ld v) s = .next s) ∧
    (d.bound = false → exec (.logicalDeviceReset ld) s = .next s) ∧
    (d.bound = true → Completes (.logicalDeviceReset ld) s fun t => t.ldev ld = d.afterReset ∧ (t.ldev ld).featDone = false ∧
      (∀ q, d.qfirst ≤ q → q < d.qfirst + d.qcount → (t.queue q).enable = false) ∧
      (∀ k, d.ownsTl k = true → t.timelines.get 0 k = 0)) ∧
    (Completes .memoryZeroDone s fun t => t = { s with fw := { s.fw with zeroing := false } }) ∧
    (ld ≠ 0 → exec (.firmwareLoad ld) s = .next s ∧ exec (.firmwareStop ld) s = .next s) ∧
    (let busy := s.fw.zeroing = true ∨ s.fw.state = 1 ∨ s.fw.state = 2;
      Completes (.firmwareLoad 0) s fun t => (busy → t = { s with fw := { s.fw with err := 5 } }) ∧
        (¬busy → t = { s with fw := { s.fw with state := 1 } })) ∧
    (Completes (.firmwareStop 0) s fun t => (s.fw.state ≠ 2 → t = { s with fw := { s.fw with err := 5 } }) ∧
      (s.fw.state = 2 → t = { s with fw := { s.fw with stopping := true } })) ∧
    (s.fw.state ≠ 1 → exec .firmwareLoadComplete s = .next s) ∧
    (∀ u x, let z := s.asking ⟨2 ^ 32, 13, 0⟩; s.fw.state = 1 → z.imageBad = (u, x) →
      (u.hostNeed ≠ s.hostNeed → exec .firmwareLoadComplete s = .next { z.askHost u.hostNeed with hostWho := s.hostWho }) ∧
      (u.hostNeed = s.hostNeed → Completes .firmwareLoadComplete s fun t => t.dmem = s.dmem ∧
        (∀ e, x = .error e → t.fw.state = 4 ∧ t.fw.err = e ∧ t.imem = [] ∧ t.gangs = s.gangs) ∧
        (∀ y, x = .ok y → t.fw.state = 2 ∧ t.fw.group = 0 ∧ t.imem = y.1 ∧
          ∀ k, k < 16 → (t.gang fwGid).slice k = { mask := 15, live := 15 }))) ∧
    (v % 2 = 0 ∨ d.bound = false → exec (.attest ld v) s = .next s ∧ exec (.featureRequest ld v) s = .next s) ∧
    (v % 2 = 1 → d.bound = true →
      (Completes (.attest ld v) s fun t => t = if d.atBusy.isSome then s else s.setLdev ld { d with atBusy := some (bit v 1), atDone := false }) ∧
      Completes (.featureRequest ld v) s fun t => t = s.setLdev ld { d with featAsked := true }) ∧
    (d.atBusy = none → exec (.attestReportDone ld) s = .next s) ∧
    (∀ x, d.atBusy = some x → let va := d.atAddr / 4096 * 4096; let y := s.asking ⟨2 ^ 32, 14, ld⟩
      let z := (y.modLdev ld fun y => { y with atBusy := none }).hostPages ld va 1
      let done := fun (b : Bool) => Completes (.attestReportDone ld) s fun t =>
        (t.ldev ld).atBusy = none ∧ (t.ldev ld).atDone = b ∧ t.dmem = s.dmem
      (z.2 = none → (z.1.hostNeed ≠ s.hostNeed → exec (.attestReportDone ld) s =
          .next { y.askHost z.1.hostNeed with hostWho := s.hostWho }) ∧
        (z.1.hostNeed = s.hostNeed → done d.atDone)) ∧
      (∀ page, z.2 = some page → (z.1.putHostPages ld va (z.1.attestReport ld (page.slice 8 32) x)
        (0x800 + if x then Config.certificateBytes % 2561 else 0)).hostNeed = s.hostNeed → done true)) ∧
    (s.fw.state ≠ 2 ∨ d.featAsked = false ∨ d.featDone = true → exec (.featureNegotiationDone ld) s = .next s) ∧
    (s.fw.state = 2 → d.featAsked = true → d.featDone = false → Completes (.featureNegotiationDone ld) s fun t =>
      t = s.setLdev ld { d with featOn := featCap &&& d.featReq, featDone := true, cache := d.cacheBound && bit (featCap &&& d.featReq) 0 }) ∧
    (Completes (.pwrCapWrite ld v) s fun t => t = if ld = 0 ∧ 1024 ≤ v ∧ v ≤ 3520 then { s with power := { s.power with pool := v } } else s) ∧
    (Completes (.arouteWrite ld v) s fun t =>
      t = s.setLdev ld (if v % 4 = 3 ∨ v % 4 = 1 ∧ d.cache = false then d else { d with aroute := v % 4 })) ∧
    (Completes .fwErrClear s fun t => t = { s with fw := { s.fw with errValid := false } }) ∧
    (off + n ≤ 0x100000 ∨ 0x500000 ≤ off → Completes (.registerWrite ld off n v) s fun t => t.gangs = s.gangs ∧ t.teams = s.teams ∧ t.dmem = s.dmem) ∧
    (∀ x, x < 32 → ld < 16 → v < 2 ^ 32 → Completes (.registerWrite ld (0x6000 + 4 * x) 4 v) s fun t =>
      (t.ldev ld).regs.readLE (0x6000 + 4 * x) 4 = v &&& plainMask (0x6000 + 4 * x) ∧ t.regWord ld 0x130 = s.regWord ld 0x130) ∧
    (Completes (.portCounterRead port) s fun t => if 32 ≤ port then t = { s with hostRead := 0 } else
      t.hostRead = BitVec.ofNat 64 p.counters ∧ t.port port = { p with hdrerr := 0, bodyerr := 0, replays := 0, poison := 0, badcell := 0 } ∧
      t.gangs = s.gangs)

/-! ### Issue, steps, and what every step keeps -/

/-- R71, R120 to R123: a word is ILLEGAL, then out of the role's registers, then in a space or mode it may not be in; the
first that holds is a precise fault of the whole split, for every word of the table. -/
def Sys2Proof.Claims.IssueChecks : Prop :=
  ∀ (i : Instr) (s : State) (d : SReg) (r : Fin 2048), let core := s.coreKey
    let illegal := i.wf = false ∨ isControlMode i = true ∧ core ≠ fwCore ∨ core = fwCore ∧ notInControlMode i = true ∨
      (∃ f ∈ slotsOf i, s.slotBits f = 0) ∨ (∃ d r, i = .sysrd d r ∧ sysKind core r.val = .unassigned) ∨
      (∃ a r, i = .syswr a r ∧ (sysKind core r.val = .unassigned ∨ sysWritable r.val = false)) ∨
      (∃ f d a b, i = .cvtp f d a b ∧ ∀ x, FmtSlot.ofBits (s.slotBits f) = some x → 16 < x.fmt.width)
    (illegal → wordFault i s = some (5, { code := .illegal })) ∧
    (¬illegal → (∃ n ∈ vregsOf i, s.cur.vregs ≤ n) → wordFault i s = some (6, { code := .regRange })) ∧
    (¬illegal → (∀ n ∈ vregsOf i, n < s.cur.vregs) → wordFault i s = (spaceFault i s).map fun f => (7, f)) ∧
    (s.iss.sup = false → privilegedForm i = true → spaceFault i s = some { code := .protect }) ∧
    (s.iss.sup = false → sysKind core r.val = .privileged →
      spaceFault (.sysrd d r) s = some { code := .protect } ∧ spaceFault (.syswr d r) s = some { code := .protect }) ∧
    (∀ c f, i.isWord = true → wordFault i s = some (c, f) → exec i s = .next (s.fault f))

/-- The checks a word passes at issue, and alignment. -/
def Obligations.IssueFaults : Prop := Claims.IssueChecks ∧ Claims.VectorRange ∧ Claims.AlignmentFaults

/-- R102 to R109, R123, R124, R127, R131 to R133 (log 2): a core's step issues the packet of the gang and split chosen, of one word
that decodes here: the word acts on the split set to its successor packet, and the slices are grouped by where they go; one that
needs a host's answer asks for it, and its split stays where it was (R348; log 6); the active set fills, and what waits for the end of
a cut begins; an event's step performs the event. -/
def Obligations.StepRunsDecoded : Prop :=
  (∀ (s z u : State) (core gid k block : Nat) (rest : List Move) (i : Instr), s.agenda = .issue core :: rest →
    State.choose { s with agenda := rest } core = (z, some gid) → z.readySplit gid = some k →
    let n := if gid = fwGid then 16 else 8
    let z := (((z.modGang gid fun g => { g with turn := (k + 1) % n }).tookStep gid).beginIssue gid k).modSlices fun _ x => { x with awaits := [] }
    let pc := z.iss.pc; let slot := pc % 64 / 12; let w0 := blockWord block slot 0; let w1 := blockWord block slot 1
    (∀ j ∈ z.iss.slices, let x := z.cur.slice j; x.haltDue = false ∧ x.replays = [] ∧ x.did = []) →
    validPc pc = true → z.fetch gid pc = (u, .ok block) → trailerOk block = true →
    ((∃ j ∈ z.iss.slices, (z.cur.slice j).arrival = true) → landBit block slot = true) →
    chained w0 = false → decodeWord w0.toNat (if isSL w0 then w1 else 0) = .ok i →
    let t := u.modSlices fun _ x => { x with pc := pcSucc pc, arrival := false, did := [], seen := none }
    step s = Res.andThen (exec i { t with iss := { t.iss with word := 0 } }) fun y =>
      let y := if arranges [⟨0, w0.toNat, some i⟩] then y else y.modGang t.iss.gid fun g => g.regroup t.iss.slices
      let y := y.charge gid
      let y : State := if y.hostNeed = z.hostNeed then { y with hostDenied := y.hostDenied.filter fun d => some d.1 != z.hostWho }
        else { (z.askHost y.hostNeed).modSlices fun _ x => { x with awaits := y.hostNeed } with hostNeed := [] }
      .next { (y.settleActive core).wakeAll with hostNeed := [], hostWho := none }) ∧
  (∀ (s : State) (i : Instr) (rest : List Move), s.agenda = .event i :: rest → i.isWord = false →
    step s = Res.andThen (exec i { s with agenda := rest }) fun y => .next { y.wakeAll with hostNeed := [], hostWho := none })

/-- Every step answers a next state, keeps device memory in its one canonical form, and leaves no access waiting inside it for a
host's answer (R348; log 6). -/
def Obligations.MemoryCanonical : Prop := ∀ s, ∃ t, step s = .next t ∧ t.hostNeed = [] ∧ (Canonical s → Canonical t)

/-- R415 and the register maps: after reset device memory reads zero everywhere and is being zeroed, no context is bound, no
gang resident, no queue enabled, no logical device bound, every timeline zero, and the registers read their reset values. -/
def Obligations.ResetState : Prop :=
  let s := State.reset
  Canonical s ∧ s.fw.zeroing = true ∧ s.agenda = [] ∧ ∀ k, s.dmem.read k = 0 ∧ (s.ctx k).bound = false ∧ (s.gang k).resident = false ∧
    (s.team k).valid = false ∧ (s.grid k).valid = false ∧ (s.queue k).enable = false ∧ (s.ldev k).bound = false ∧
    s.timelines.get 0 k = 0 ∧ s.tenants.get {} k = { gangmax := 0, enabled := false, weight := 1 } ∧ (s.ldev k).featOn = 0 ∧
    s.regWord k 0x100 = 0 ∧ s.regWord k 0x108 = 1 ∧ s.regWord k 0x110 = 3520 * 2 ^ 16 ∧ s.regWord k 0x118 = 0 ∧
    s.regWord k 0x120 = 0 ∧ s.regWord k 0x128 = 0 ∧ s.regWord k 0x130 = k ∧ s.regWord k 0x150 = 0 ∧ s.regWord k 0x160 = 0 ∧
    s.regWord k 0x170 = 0 ∧ s.regWord 0 0x190 = 0 ∧ s.regWord 0 0x198 = 3520 ∧ s.regWord k 0x1a8 = 0 ∧ s.regWord k 0x1b0 = 0 ∧
    s.regWord k 0x1b8 = 0
end

