-- ==== Sys2Proof/Laws/Table.lean ====
section
/-! SUPPORT. Laws of the sparse tables and of byte memory: what a read finds after a write, and that every operation keeps
the canonical form. -/

namespace Sys2Proof.Machine

/-! ### Tables -/

theorem Tab.get_set {α : Type} (d : α) (t : Tab α) (k : Nat) (v : α) : (Tab.set t k v).get d k = v := by
  induction t with
  | nil => simp [Tab.set, Tab.get]
  | cons p t ih =>
    obtain ⟨a, x⟩ := p
    simp only [Tab.set]
    split
    · next h => simp [Tab.get, h]
    · split
      · simp [Tab.get]
      · next h _ => simp [Tab.get, Ne.symm h, ih]

theorem Tab.get_set_ne {α : Type} (d : α) (t : Tab α) (j k : Nat) (v : α) (h : j ≠ k) : (Tab.set t k v).get d j = t.get d j := by
  induction t with
  | nil => simp [Tab.set, Tab.get, Ne.symm h]
  | cons p t ih =>
    obtain ⟨a, x⟩ := p
    simp only [Tab.set]
    split
    · next e => subst e; simp [Tab.get, Ne.symm h]
    · split
      · simp [Tab.get, Ne.symm h]
      · by_cases e : a = j <;> simp [Tab.get, e, ih]

/-! ### Reading after writing -/

theorem Memory.read_insert (m : Memory) (k : Nat) (v : Byte) : (Memory.insert m k v).read k = v := by
  induction m with
  | nil => simp [Memory.insert, Memory.read]
  | cons p t ih =>
    obtain ⟨a, x⟩ := p
    simp only [Memory.insert]
    split
    · next h => simp [Memory.read, h]
    · split
      · simp [Memory.read]
      · next h _ => simp [Memory.read, Ne.symm h, ih]

theorem Memory.read_insert_ne (m : Memory) (j k : Nat) (v : Byte) (h : j ≠ k) : (Memory.insert m k v).read j = m.read j := by
  induction m with
  | nil => simp [Memory.insert, Memory.read, Ne.symm h]
  | cons p t ih =>
    obtain ⟨a, x⟩ := p
    simp only [Memory.insert]
    split
    · next e => subst e; simp [Memory.read, Ne.symm h]
    · split
      · simp [Memory.read, Ne.symm h]
      · by_cases e : a = j <;> simp [Memory.read, e, ih]

theorem Memory.read_drop (m : Memory) (j k : Nat) : (Memory.drop m k).read j = if j = k then Memory.unlisted else m.read j := by
  induction m with
  | nil => simp [Memory.drop, Memory.read]
  | cons p t ih =>
    obtain ⟨a, x⟩ := p
    simp only [Memory.drop, List.filter] at ih ⊢
    by_cases ha : a = k
    · subst ha
      simp only [bne_self_eq_false, ih, Memory.read]
      by_cases hj : j = a
      · simp [hj]
      · simp only [if_neg hj, if_neg (Ne.symm hj)]
    · have : (a != k) = true := by simp [ha]
      simp only [this, Memory.read, ih]
      by_cases hj : a = j <;> simp [hj]
      intro e; subst e; exact absurd hj ha

/-- A byte written is read; every other byte is as before. -/
theorem Memory.read_write (m : Memory) (j k : Nat) (v : Byte) : (Memory.write m k v).read j = if j = k then v else m.read j := by
  simp only [Memory.write]
  split
  · next h => rw [Memory.read_drop, h]
  · by_cases h : j = k
    · subst h; simp [Memory.read_insert]
    · simp [h, Memory.read_insert_ne _ _ _ _ h]

/-- Bytes outside a little-endian write are as before. -/
theorem Memory.read_writeLE_ne (m : Memory) (a n v j : Nat) (h : j < a ∨ a + n ≤ j) : (Memory.writeLE m a n v).read j = m.read j := by
  induction n generalizing m a v with
  | zero => rfl
  | succ n ih =>
    rw [Memory.writeLE, ih _ _ _ (by omega), Memory.read_write]
    simp [show j ≠ a by omega]

/-- A little-endian read of what was written there gives the low bytes of it (R10). -/
theorem Memory.readLE_writeLE (m : Memory) (a n v : Nat) : (Memory.writeLE m a n v).readLE a n = v % 256 ^ n := by
  induction n generalizing m a v with
  | zero => simp [Memory.readLE, Nat.mod_one]
  | succ n ih =>
    rw [Memory.writeLE, Memory.readLE, ih, Memory.read_writeLE_ne _ _ _ _ _ (by omega), Memory.read_write]
    have h : (256 : Nat) ^ (n + 1) = 256 * 256 ^ n := by ring
    rw [h, Nat.mod_mul]
    simp

/-! ### The canonical form -/

/-- Every listed address of a memory is at least `b`. -/
theorem Memory.rising_cons (c : Host.Cell) (m : Memory) :
    Memory.rising (c :: m) = true ↔ Memory.rising m = true ∧ ∀ x ∈ m, c.1 < x.1 := by
  induction m generalizing c with
  | nil => simp [Memory.rising]
  | cons d t ih =>
    obtain ⟨a, x⟩ := c; obtain ⟨b, y⟩ := d
    simp only [Memory.rising, Bool.and_eq_true, decide_eq_true_eq, List.mem_cons, forall_eq_or_imp]
    constructor
    · rintro ⟨h1, h2⟩
      exact ⟨h2, h1, fun z hz => lt_trans h1 (((ih (b, y)).1 h2).2 z hz)⟩
    · rintro ⟨h1, h2, _⟩; exact ⟨h2, h1⟩

theorem Memory.wf_iff (m : Memory) : m.wf = true ↔ m.Pairwise (fun x y => x.1 < y.1) ∧ ∀ x ∈ m, x.2 ≠ Memory.unlisted := by
  have h : Memory.rising m = true ↔ m.Pairwise (fun x y => x.1 < y.1) := by
    induction m with
    | nil => simp [Memory.rising]
    | cons c t ih => rw [Memory.rising_cons, List.pairwise_cons, ih, and_comm]
  simp [Memory.wf, h]

theorem Memory.wf_nil : Memory.wf [] = true := rfl

theorem Memory.wf_filter (m : Memory) (p : Host.Cell → Bool) (h : m.wf = true) : Memory.wf (m.filter p) = true := by
  rw [Memory.wf_iff] at h ⊢
  exact ⟨h.1.filter _, fun x hx => h.2 x (List.mem_filter.1 hx).1⟩

theorem Memory.mem_insert (m : Memory) (k : Nat) (v : Byte) (x : Host.Cell) (h : x ∈ Memory.insert m k v) : x = (k, v) ∨ x ∈ m := by
  induction m with
  | nil => simpa [Memory.insert] using h
  | cons p t ih =>
    obtain ⟨a, y⟩ := p
    simp only [Memory.insert] at h
    split at h
    · next e =>
      rcases List.mem_cons.1 h with h | h
      · exact .inl (by rw [h, e])
      · exact .inr (List.mem_cons_of_mem _ h)
    · split at h
      · rcases List.mem_cons.1 h with h | h
        · exact .inl h
        · exact .inr h
      · rcases List.mem_cons.1 h with h | h
        · exact .inr (by simp [h])
        · rcases ih h with h | h
          · exact .inl h
          · exact .inr (List.mem_cons_of_mem _ h)

theorem Memory.wf_insert (m : Memory) (k : Nat) (v : Byte) (hv : v ≠ Memory.unlisted) (h : m.wf = true) :
    Memory.wf (Memory.insert m k v) = true := by
  rw [Memory.wf_iff] at h ⊢
  refine ⟨?_, fun x hx => ?_⟩
  · obtain ⟨h, -⟩ := h
    induction m with
    | nil => simp [Memory.insert]
    | cons p t ih =>
      obtain ⟨a, y⟩ := p
      rw [List.pairwise_cons] at h
      simp only [Memory.insert]
      split
      · exact List.pairwise_cons.2 h
      · split
        · next hlt =>
          refine List.pairwise_cons.2 ⟨?_, List.pairwise_cons.2 h⟩
          intro x hx
          rcases List.mem_cons.1 hx with rfl | hx
          · exact hlt
          · exact lt_trans hlt (h.1 x hx)
        · next hne hnlt =>
          refine List.pairwise_cons.2 ⟨fun x hx => ?_, ih h.2⟩
          rcases Memory.mem_insert _ _ _ _ hx with rfl | hx
          · show a < k; omega
          · exact h.1 x hx
  · rcases Memory.mem_insert _ _ _ _ hx with rfl | hx
    · exact hv
    · exact h.2 x hx

/-- Every memory operation keeps the canonical form. -/
theorem Memory.wf_write (m : Memory) (k : Nat) (v : Byte) (h : m.wf = true) : Memory.wf (Memory.write m k v) = true := by
  simp only [Memory.write]
  split
  · exact Memory.wf_filter _ _ h
  · next hv => exact Memory.wf_insert _ _ _ hv h

theorem Memory.wf_drop (m : Memory) (k : Nat) (h : m.wf = true) : Memory.wf (Memory.drop m k) = true := Memory.wf_filter _ _ h

theorem Memory.wf_writeLE (m : Memory) (a n v : Nat) (h : m.wf = true) : Memory.wf (Memory.writeLE m a n v) = true := by
  induction n generalizing m a v with
  | zero => exact h
  | succ n ih => exact ih _ _ _ (Memory.wf_write _ _ _ h)

theorem Memory.wf_foldl {β : Type} (l : List β) (f : Memory → β → Memory) (m : Memory)
    (hf : ∀ t x, Memory.wf t = true → Memory.wf (f t x) = true) (h : m.wf = true) : Memory.wf (l.foldl f m) = true := by
  induction l generalizing m with
  | nil => exact h
  | cons x l ih => exact ih _ (hf _ _ h)

theorem Memory.wf_copy (m : Memory) (src dst n : Nat) (h : m.wf = true) : Memory.wf (Memory.copy m src dst n) = true :=
  Memory.wf_foldl _ _ _ (fun _ _ ht => Memory.wf_write _ _ _ ht) (Memory.wf_filter _ _ h)

theorem Memory.wf_paste (m : Memory) (a n : Nat) (piece : Memory) (h : m.wf = true) : Memory.wf (Memory.paste m a n piece) = true :=
  Memory.wf_foldl _ _ _ (fun t c ht => by split; exacts [Memory.wf_write _ _ _ ht, ht]) (Memory.wf_filter _ _ h)

theorem Memory.wf_slice (m : Memory) (a n : Nat) (h : m.wf = true) : Memory.wf (Memory.slice m a n) = true := by
  have hf := Memory.wf_filter m (fun c => decide (a ≤ c.1) && decide (c.1 < a + n)) h
  rw [Memory.wf_iff] at hf ⊢
  refine ⟨?_, fun x hx => ?_⟩
  · rw [Memory.slice, List.pairwise_map]
    refine hf.1.imp_of_mem fun {x y} hx hy hlt => ?_
    have hx' : a ≤ x.1 := by have := (List.mem_filter.1 hx).2; simp at this; exact this.1
    show x.1 - a < y.1 - a
    omega
  · obtain ⟨y, hy, rfl⟩ := List.mem_map.1 hx
    exact hf.2 y hy

/-! ### Reading ranges -/

theorem Memory.read_of_not_mem (m : Memory) (k : Nat) (h : ∀ x ∈ m, x.1 ≠ k) : m.read k = Memory.unlisted := by
  induction m with
  | nil => rfl
  | cons c t ih =>
    obtain ⟨a, x⟩ := c
    have ha : a ≠ k := h (a, x) (by simp)
    simp [Memory.read, ha, ih fun y hy => h y (List.mem_cons_of_mem _ hy)]

theorem Memory.read_filter (m : Memory) (p : Nat → Bool) (k : Nat) :
    Memory.read (m.filter fun c => p c.1) k = if p k then m.read k else Memory.unlisted := by
  induction m with
  | nil => simp [Memory.read]
  | cons c t ih =>
    obtain ⟨a, x⟩ := c
    by_cases ha : p a = true
    · simp only [List.filter, ha, Memory.read, ih]
      by_cases e : a = k
      · subst e; simp [ha]
      · simp [e]
    · simp only [List.filter, Bool.not_eq_true] at ha ⊢
      simp only [ha, ih, Memory.read]
      by_cases e : a = k
      · subst e; simp [ha]
      · simp [e]

/-- A piece cut out of a memory reads as the range it was cut from. -/
theorem Memory.read_slice (m : Memory) (a n k : Nat) (h : k < n) : (Memory.slice m a n).read k = m.read (a + k) := by
  induction m with
  | nil => rfl
  | cons c t ih =>
    obtain ⟨b, x⟩ := c
    by_cases hb : a ≤ b ∧ b < a + n
    · have e : Memory.slice ((b, x) :: t) a n = (b - a, x) :: Memory.slice t a n := by simp [Memory.slice, List.filter, hb.1, hb.2]
      rw [e, Memory.read, Memory.read, ih]
      by_cases hk : b = a + k
      · simp [hk]
      · rw [if_neg hk, if_neg (by omega)]
    · have e : Memory.slice ((b, x) :: t) a n = Memory.slice t a n := by
        have : (decide (a ≤ b) && decide (b < a + n)) = false := by
          rw [Bool.and_eq_false_iff, decide_eq_false_iff_not, decide_eq_false_iff_not]; omega
        simp [Memory.slice, List.filter, this]
      rw [e, ih, Memory.read, if_neg (by omega)]

theorem Memory.read_foldl_write (l : Memory) (m : Memory) (a n k : Nat) (hl : l.Pairwise fun x y => x.1 < y.1) :
    Memory.read (l.foldl (fun t c => if c.1 < n then Memory.write t (a + c.1) c.2 else t) m) k =
      if a ≤ k ∧ k < a + n ∧ ∃ x ∈ l, x.1 = k - a then l.read (k - a) else m.read k := by
  induction l generalizing m with
  | nil => simp
  | cons c l ih =>
    obtain ⟨b, x⟩ := c
    rw [List.pairwise_cons] at hl
    rw [List.foldl_cons, ih _ hl.2]
    by_cases hin : a ≤ k ∧ k < a + n
    · by_cases hb : b = k - a
      · have hno : ¬∃ y ∈ l, y.1 = k - a := by
          rintro ⟨y, hy, e⟩; have := hl.1 y hy; simp only at this; omega
        have hlt : b < n := by omega
        have hk : k = a + b := by omega
        simp only [hin, hno, and_false, if_false, true_and, List.mem_cons, exists_eq_or_imp, hb, true_or, if_true, Memory.read]
        rw [← hb, if_pos hlt, Memory.read_write, if_pos hk]
      · simp only [hin, true_and, List.mem_cons, exists_eq_or_imp, hb, false_or, Memory.read, if_false]
        split
        · rfl
        · split
          · rw [Memory.read_write, if_neg (by omega)]
          · rfl
    · have h1 : ¬(a ≤ k ∧ k < a + n ∧ ∃ y ∈ l, y.1 = k - a) := fun h => hin ⟨h.1, h.2.1⟩
      have h2 : ¬(a ≤ k ∧ k < a + n ∧ ∃ y ∈ (b, x) :: l, y.1 = k - a) := fun h => hin ⟨h.1, h.2.1⟩
      rw [if_neg h1, if_neg h2]
      dsimp only
      split
      · rw [Memory.read_write, if_neg (by omega)]
      · rfl

/-- Bytes of the range come from the piece, every other byte is as before. -/
theorem Memory.read_paste (m : Memory) (a n : Nat) (piece : Memory) (k : Nat) (hp : piece.wf = true) :
    (Memory.paste m a n piece).read k = if a ≤ k ∧ k < a + n then piece.read (k - a) else m.read k := by
  rw [Memory.paste, Memory.read_foldl_write _ _ _ _ _ ((Memory.wf_iff _).1 hp).1]
  have hf := Memory.read_filter m (fun j => !(decide (a ≤ j) && decide (j < a + n))) k
  rw [hf]
  by_cases hin : a ≤ k ∧ k < a + n
  · by_cases hx : ∃ x ∈ piece, x.1 = k - a
    · simp [hin, hx]
    · have : piece.read (k - a) = Memory.unlisted := Memory.read_of_not_mem _ _ fun x hx' e => hx ⟨x, hx', e⟩
      simp [hin, hx, this]
  · have hn : ¬(a ≤ k ∧ k < a + n ∧ ∃ x ∈ piece, x.1 = k - a) := fun h => hin ⟨h.1, h.2.1⟩
    rw [if_neg hn, if_neg hin]
    have : (!(decide (a ≤ k) && decide (k < a + n))) = true := by
      rw [Bool.not_eq_true', Bool.and_eq_false_iff, decide_eq_false_iff_not, decide_eq_false_iff_not]; omega
    rw [this]; rfl

end Sys2Proof.Machine
end

