-- ==== Sys2Proof/Laws/State.lean ====
section
/-! SUPPORT. What the setters of State change: one lemma per field per setter, each true by unfolding, so that no proof
unfolds a record update; `modX` is `setX` of the changed value. -/

namespace Sys2Proof.Machine

@[simp] theorem State.modGang_eq (s : State) (k : Nat) (f : Gang → Gang) : s.modGang k f = s.setGang k (f (s.gang k)) := rfl
@[simp] theorem State.setGang_gangs (s : State) (k : Nat) (x : Gang) : (s.setGang k x).gangs = s.gangs.set k x := rfl
@[simp] theorem State.setGang_agenda (s : State) (k : Nat) (x : Gang) : (s.setGang k x).agenda = s.agenda := rfl
@[simp] theorem State.setGang_cycle (s : State) (k : Nat) (x : Gang) : (s.setGang k x).cycle = s.cycle := rfl
@[simp] theorem State.setGang_fresh (s : State) (k : Nat) (x : Gang) : (s.setGang k x).fresh = s.fresh := rfl
@[simp] theorem State.setGang_iss (s : State) (k : Nat) (x : Gang) : (s.setGang k x).iss = s.iss := rfl
@[simp] theorem State.setGang_teams (s : State) (k : Nat) (x : Gang) : (s.setGang k x).teams = s.teams := rfl
@[simp] theorem State.setGang_cores (s : State) (k : Nat) (x : Gang) : (s.setGang k x).cores = s.cores := rfl
@[simp] theorem State.setGang_grids (s : State) (k : Nat) (x : Gang) : (s.setGang k x).grids = s.grids := rfl
@[simp] theorem State.setGang_ctxs (s : State) (k : Nat) (x : Gang) : (s.setGang k x).ctxs = s.ctxs := rfl
@[simp] theorem State.setGang_dmem (s : State) (k : Nat) (x : Gang) : (s.setGang k x).dmem = s.dmem := rfl
@[simp] theorem State.setGang_hmem (s : State) (k : Nat) (x : Gang) : (s.setGang k x).hmem = s.hmem := rfl
@[simp] theorem State.setGang_imem (s : State) (k : Nat) (x : Gang) : (s.setGang k x).imem = s.imem := rfl
@[simp] theorem State.setGang_hostMaps (s : State) (k : Nat) (x : Gang) : (s.setGang k x).hostMaps = s.hostMaps := rfl
@[simp] theorem State.setGang_hostAsked (s : State) (k : Nat) (x : Gang) : (s.setGang k x).hostAsked = s.hostAsked := rfl
@[simp] theorem State.setGang_hostWaits (s : State) (k : Nat) (x : Gang) : (s.setGang k x).hostWaits = s.hostWaits := rfl
@[simp] theorem State.setGang_hostDenied (s : State) (k : Nat) (x : Gang) : (s.setGang k x).hostDenied = s.hostDenied := rfl
@[simp] theorem State.setGang_hostWho (s : State) (k : Nat) (x : Gang) : (s.setGang k x).hostWho = s.hostWho := rfl
@[simp] theorem State.setGang_hostNeed (s : State) (k : Nat) (x : Gang) : (s.setGang k x).hostNeed = s.hostNeed := rfl
@[simp] theorem State.setGang_timelines (s : State) (k : Nat) (x : Gang) : (s.setGang k x).timelines = s.timelines := rfl
@[simp] theorem State.setGang_tlShared (s : State) (k : Nat) (x : Gang) : (s.setGang k x).tlShared = s.tlShared := rfl
@[simp] theorem State.setGang_raises (s : State) (k : Nat) (x : Gang) : (s.setGang k x).raises = s.raises := rfl
@[simp] theorem State.setGang_copyOrder (s : State) (k : Nat) (x : Gang) : (s.setGang k x).copyOrder = s.copyOrder := rfl
@[simp] theorem State.setGang_part (s : State) (k : Nat) (x : Gang) : (s.setGang k x).part = s.part := rfl
@[simp] theorem State.setGang_msix (s : State) (k : Nat) (x : Gang) : (s.setGang k x).msix = s.msix := rfl
@[simp] theorem State.setGang_hostRead (s : State) (k : Nat) (x : Gang) : (s.setGang k x).hostRead = s.hostRead := rfl
@[simp] theorem State.setGang_queues (s : State) (k : Nat) (x : Gang) : (s.setGang k x).queues = s.queues := rfl
@[simp] theorem State.setGang_fw (s : State) (k : Nat) (x : Gang) : (s.setGang k x).fw = s.fw := rfl
@[simp] theorem State.setGang_lds (s : State) (k : Nat) (x : Gang) : (s.setGang k x).lds = s.lds := rfl
@[simp] theorem State.setGang_tenants (s : State) (k : Nat) (x : Gang) : (s.setGang k x).tenants = s.tenants := rfl
@[simp] theorem State.setGang_power (s : State) (k : Nat) (x : Gang) : (s.setGang k x).power = s.power := rfl
@[simp] theorem State.setGang_pending (s : State) (k : Nat) (x : Gang) : (s.setGang k x).pending = s.pending := rfl
@[simp] theorem State.setGang_decided (s : State) (k : Nat) (x : Gang) : (s.setGang k x).decided = s.decided := rfl
@[simp] theorem State.setGang_decisions (s : State) (k : Nat) (x : Gang) : (s.setGang k x).decisions = s.decisions := rfl
@[simp] theorem State.setGang_reels (s : State) (k : Nat) (x : Gang) : (s.setGang k x).reels = s.reels := rfl
@[simp] theorem State.setGang_holds (s : State) (k : Nat) (x : Gang) : (s.setGang k x).holds = s.holds := rfl
@[simp] theorem State.setGang_reserveQ (s : State) (k : Nat) (x : Gang) : (s.setGang k x).reserveQ = s.reserveQ := rfl
@[simp] theorem State.setGang_ports (s : State) (k : Nat) (x : Gang) : (s.setGang k x).ports = s.ports := rfl
@[simp] theorem State.setGang_seqTx (s : State) (k : Nat) (x : Gang) : (s.setGang k x).seqTx = s.seqTx := rfl
@[simp] theorem State.setGang_seqRx (s : State) (k : Nat) (x : Gang) : (s.setGang k x).seqRx = s.seqRx := rfl
@[simp] theorem State.setGang_engines (s : State) (k : Nat) (x : Gang) : (s.setGang k x).engines = s.engines := rfl
@[simp] theorem State.setGang_gathering (s : State) (k : Nat) (x : Gang) : (s.setGang k x).gathering = s.gathering := rfl
@[simp] theorem State.setGang_remotes (s : State) (k : Nat) (x : Gang) : (s.setGang k x).remotes = s.remotes := rfl
@[simp] theorem State.setGang_loop (s : State) (k : Nat) (x : Gang) : (s.setGang k x).loop = s.loop := rfl
@[simp] theorem State.setGang_deferred (s : State) (k : Nat) (x : Gang) : (s.setGang k x).deferred = s.deferred := rfl
@[simp] theorem State.setGang_ahead (s : State) (k : Nat) (x : Gang) : (s.setGang k x).ahead = s.ahead := rfl
@[simp] theorem State.setGang_down (s : State) (k : Nat) (x : Gang) : (s.setGang k x).down = s.down := rfl
@[simp] theorem State.setGang_hostLines (s : State) (k : Nat) (x : Gang) : (s.setGang k x).hostLines = s.hostLines := rfl
@[simp] theorem State.setGang_posted (s : State) (k : Nat) (x : Gang) : (s.setGang k x).posted = s.posted := rfl
@[simp] theorem State.setGang_atomics (s : State) (k : Nat) (x : Gang) : (s.setGang k x).atomics = s.atomics := rfl
@[simp] theorem State.setGang_nvme (s : State) (k : Nat) (x : Gang) : (s.setGang k x).nvme = s.nvme := rfl
@[simp] theorem State.gang_setGang (s : State) (k : Nat) (x : Gang) : (s.setGang k x).gang k = x := Tab.get_set _ _ _ _
theorem State.gang_setGang_ne (s : State) (j k : Nat) (x : Gang) (h : j ≠ k) : (s.setGang k x).gang j = s.gang j :=
  Tab.get_set_ne _ _ _ _ _ h
@[simp] theorem State.team_setGang (s : State) (j k : Nat) (x : Gang) : (s.setGang k x).team j = s.team j := rfl
@[simp] theorem State.core_setGang (s : State) (j k : Nat) (x : Gang) : (s.setGang k x).core j = s.core j := rfl
@[simp] theorem State.grid_setGang (s : State) (j k : Nat) (x : Gang) : (s.setGang k x).grid j = s.grid j := rfl
@[simp] theorem State.ctx_setGang (s : State) (j k : Nat) (x : Gang) : (s.setGang k x).ctx j = s.ctx j := rfl
@[simp] theorem State.ldev_setGang (s : State) (j k : Nat) (x : Gang) : (s.setGang k x).ldev j = s.ldev j := rfl
@[simp] theorem State.port_setGang (s : State) (j k : Nat) (x : Gang) : (s.setGang k x).port j = s.port j := rfl
@[simp] theorem State.queue_setGang (s : State) (j k : Nat) (x : Gang) : (s.setGang k x).queue j = s.queue j := rfl

@[simp] theorem State.modTeam_eq (s : State) (k : Nat) (f : Team → Team) : s.modTeam k f = s.setTeam k (f (s.team k)) := rfl
@[simp] theorem State.setTeam_teams (s : State) (k : Nat) (x : Team) : (s.setTeam k x).teams = s.teams.set k x := rfl
@[simp] theorem State.setTeam_agenda (s : State) (k : Nat) (x : Team) : (s.setTeam k x).agenda = s.agenda := rfl
@[simp] theorem State.setTeam_cycle (s : State) (k : Nat) (x : Team) : (s.setTeam k x).cycle = s.cycle := rfl
@[simp] theorem State.setTeam_fresh (s : State) (k : Nat) (x : Team) : (s.setTeam k x).fresh = s.fresh := rfl
@[simp] theorem State.setTeam_iss (s : State) (k : Nat) (x : Team) : (s.setTeam k x).iss = s.iss := rfl
@[simp] theorem State.setTeam_gangs (s : State) (k : Nat) (x : Team) : (s.setTeam k x).gangs = s.gangs := rfl
@[simp] theorem State.setTeam_cores (s : State) (k : Nat) (x : Team) : (s.setTeam k x).cores = s.cores := rfl
@[simp] theorem State.setTeam_grids (s : State) (k : Nat) (x : Team) : (s.setTeam k x).grids = s.grids := rfl
@[simp] theorem State.setTeam_ctxs (s : State) (k : Nat) (x : Team) : (s.setTeam k x).ctxs = s.ctxs := rfl
@[simp] theorem State.setTeam_dmem (s : State) (k : Nat) (x : Team) : (s.setTeam k x).dmem = s.dmem := rfl
@[simp] theorem State.setTeam_hmem (s : State) (k : Nat) (x : Team) : (s.setTeam k x).hmem = s.hmem := rfl
@[simp] theorem State.setTeam_imem (s : State) (k : Nat) (x : Team) : (s.setTeam k x).imem = s.imem := rfl
@[simp] theorem State.setTeam_hostMaps (s : State) (k : Nat) (x : Team) : (s.setTeam k x).hostMaps = s.hostMaps := rfl
@[simp] theorem State.setTeam_hostAsked (s : State) (k : Nat) (x : Team) : (s.setTeam k x).hostAsked = s.hostAsked := rfl
@[simp] theorem State.setTeam_hostWaits (s : State) (k : Nat) (x : Team) : (s.setTeam k x).hostWaits = s.hostWaits := rfl
@[simp] theorem State.setTeam_hostDenied (s : State) (k : Nat) (x : Team) : (s.setTeam k x).hostDenied = s.hostDenied := rfl
@[simp] theorem State.setTeam_hostWho (s : State) (k : Nat) (x : Team) : (s.setTeam k x).hostWho = s.hostWho := rfl
@[simp] theorem State.setTeam_hostNeed (s : State) (k : Nat) (x : Team) : (s.setTeam k x).hostNeed = s.hostNeed := rfl
@[simp] theorem State.setTeam_timelines (s : State) (k : Nat) (x : Team) : (s.setTeam k x).timelines = s.timelines := rfl
@[simp] theorem State.setTeam_tlShared (s : State) (k : Nat) (x : Team) : (s.setTeam k x).tlShared = s.tlShared := rfl
@[simp] theorem State.setTeam_raises (s : State) (k : Nat) (x : Team) : (s.setTeam k x).raises = s.raises := rfl
@[simp] theorem State.setTeam_copyOrder (s : State) (k : Nat) (x : Team) : (s.setTeam k x).copyOrder = s.copyOrder := rfl
@[simp] theorem State.setTeam_part (s : State) (k : Nat) (x : Team) : (s.setTeam k x).part = s.part := rfl
@[simp] theorem State.setTeam_msix (s : State) (k : Nat) (x : Team) : (s.setTeam k x).msix = s.msix := rfl
@[simp] theorem State.setTeam_hostRead (s : State) (k : Nat) (x : Team) : (s.setTeam k x).hostRead = s.hostRead := rfl
@[simp] theorem State.setTeam_queues (s : State) (k : Nat) (x : Team) : (s.setTeam k x).queues = s.queues := rfl
@[simp] theorem State.setTeam_fw (s : State) (k : Nat) (x : Team) : (s.setTeam k x).fw = s.fw := rfl
@[simp] theorem State.setTeam_lds (s : State) (k : Nat) (x : Team) : (s.setTeam k x).lds = s.lds := rfl
@[simp] theorem State.setTeam_tenants (s : State) (k : Nat) (x : Team) : (s.setTeam k x).tenants = s.tenants := rfl
@[simp] theorem State.setTeam_power (s : State) (k : Nat) (x : Team) : (s.setTeam k x).power = s.power := rfl
@[simp] theorem State.setTeam_pending (s : State) (k : Nat) (x : Team) : (s.setTeam k x).pending = s.pending := rfl
@[simp] theorem State.setTeam_decided (s : State) (k : Nat) (x : Team) : (s.setTeam k x).decided = s.decided := rfl
@[simp] theorem State.setTeam_decisions (s : State) (k : Nat) (x : Team) : (s.setTeam k x).decisions = s.decisions := rfl
@[simp] theorem State.setTeam_reels (s : State) (k : Nat) (x : Team) : (s.setTeam k x).reels = s.reels := rfl
@[simp] theorem State.setTeam_holds (s : State) (k : Nat) (x : Team) : (s.setTeam k x).holds = s.holds := rfl
@[simp] theorem State.setTeam_reserveQ (s : State) (k : Nat) (x : Team) : (s.setTeam k x).reserveQ = s.reserveQ := rfl
@[simp] theorem State.setTeam_ports (s : State) (k : Nat) (x : Team) : (s.setTeam k x).ports = s.ports := rfl
@[simp] theorem State.setTeam_seqTx (s : State) (k : Nat) (x : Team) : (s.setTeam k x).seqTx = s.seqTx := rfl
@[simp] theorem State.setTeam_seqRx (s : State) (k : Nat) (x : Team) : (s.setTeam k x).seqRx = s.seqRx := rfl
@[simp] theorem State.setTeam_engines (s : State) (k : Nat) (x : Team) : (s.setTeam k x).engines = s.engines := rfl
@[simp] theorem State.setTeam_gathering (s : State) (k : Nat) (x : Team) : (s.setTeam k x).gathering = s.gathering := rfl
@[simp] theorem State.setTeam_remotes (s : State) (k : Nat) (x : Team) : (s.setTeam k x).remotes = s.remotes := rfl
@[simp] theorem State.setTeam_loop (s : State) (k : Nat) (x : Team) : (s.setTeam k x).loop = s.loop := rfl
@[simp] theorem State.setTeam_deferred (s : State) (k : Nat) (x : Team) : (s.setTeam k x).deferred = s.deferred := rfl
@[simp] theorem State.setTeam_ahead (s : State) (k : Nat) (x : Team) : (s.setTeam k x).ahead = s.ahead := rfl
@[simp] theorem State.setTeam_down (s : State) (k : Nat) (x : Team) : (s.setTeam k x).down = s.down := rfl
@[simp] theorem State.setTeam_hostLines (s : State) (k : Nat) (x : Team) : (s.setTeam k x).hostLines = s.hostLines := rfl
@[simp] theorem State.setTeam_posted (s : State) (k : Nat) (x : Team) : (s.setTeam k x).posted = s.posted := rfl
@[simp] theorem State.setTeam_atomics (s : State) (k : Nat) (x : Team) : (s.setTeam k x).atomics = s.atomics := rfl
@[simp] theorem State.setTeam_nvme (s : State) (k : Nat) (x : Team) : (s.setTeam k x).nvme = s.nvme := rfl
@[simp] theorem State.team_setTeam (s : State) (k : Nat) (x : Team) : (s.setTeam k x).team k = x := Tab.get_set _ _ _ _
theorem State.team_setTeam_ne (s : State) (j k : Nat) (x : Team) (h : j ≠ k) : (s.setTeam k x).team j = s.team j :=
  Tab.get_set_ne _ _ _ _ _ h
@[simp] theorem State.gang_setTeam (s : State) (j k : Nat) (x : Team) : (s.setTeam k x).gang j = s.gang j := rfl
@[simp] theorem State.core_setTeam (s : State) (j k : Nat) (x : Team) : (s.setTeam k x).core j = s.core j := rfl
@[simp] theorem State.grid_setTeam (s : State) (j k : Nat) (x : Team) : (s.setTeam k x).grid j = s.grid j := rfl
@[simp] theorem State.ctx_setTeam (s : State) (j k : Nat) (x : Team) : (s.setTeam k x).ctx j = s.ctx j := rfl
@[simp] theorem State.ldev_setTeam (s : State) (j k : Nat) (x : Team) : (s.setTeam k x).ldev j = s.ldev j := rfl
@[simp] theorem State.port_setTeam (s : State) (j k : Nat) (x : Team) : (s.setTeam k x).port j = s.port j := rfl
@[simp] theorem State.queue_setTeam (s : State) (j k : Nat) (x : Team) : (s.setTeam k x).queue j = s.queue j := rfl

@[simp] theorem State.modCore_eq (s : State) (k : Nat) (f : Core → Core) : s.modCore k f = s.setCore k (f (s.core k)) := rfl
@[simp] theorem State.setCore_cores (s : State) (k : Nat) (x : Core) : (s.setCore k x).cores = s.cores.set k x := rfl
@[simp] theorem State.setCore_agenda (s : State) (k : Nat) (x : Core) : (s.setCore k x).agenda = s.agenda := rfl
@[simp] theorem State.setCore_cycle (s : State) (k : Nat) (x : Core) : (s.setCore k x).cycle = s.cycle := rfl
@[simp] theorem State.setCore_fresh (s : State) (k : Nat) (x : Core) : (s.setCore k x).fresh = s.fresh := rfl
@[simp] theorem State.setCore_iss (s : State) (k : Nat) (x : Core) : (s.setCore k x).iss = s.iss := rfl
@[simp] theorem State.setCore_gangs (s : State) (k : Nat) (x : Core) : (s.setCore k x).gangs = s.gangs := rfl
@[simp] theorem State.setCore_teams (s : State) (k : Nat) (x : Core) : (s.setCore k x).teams = s.teams := rfl
@[simp] theorem State.setCore_grids (s : State) (k : Nat) (x : Core) : (s.setCore k x).grids = s.grids := rfl
@[simp] theorem State.setCore_ctxs (s : State) (k : Nat) (x : Core) : (s.setCore k x).ctxs = s.ctxs := rfl
@[simp] theorem State.setCore_dmem (s : State) (k : Nat) (x : Core) : (s.setCore k x).dmem = s.dmem := rfl
@[simp] theorem State.setCore_hmem (s : State) (k : Nat) (x : Core) : (s.setCore k x).hmem = s.hmem := rfl
@[simp] theorem State.setCore_imem (s : State) (k : Nat) (x : Core) : (s.setCore k x).imem = s.imem := rfl
@[simp] theorem State.setCore_hostMaps (s : State) (k : Nat) (x : Core) : (s.setCore k x).hostMaps = s.hostMaps := rfl
@[simp] theorem State.setCore_hostAsked (s : State) (k : Nat) (x : Core) : (s.setCore k x).hostAsked = s.hostAsked := rfl
@[simp] theorem State.setCore_hostWaits (s : State) (k : Nat) (x : Core) : (s.setCore k x).hostWaits = s.hostWaits := rfl
@[simp] theorem State.setCore_hostDenied (s : State) (k : Nat) (x : Core) : (s.setCore k x).hostDenied = s.hostDenied := rfl
@[simp] theorem State.setCore_hostWho (s : State) (k : Nat) (x : Core) : (s.setCore k x).hostWho = s.hostWho := rfl
@[simp] theorem State.setCore_hostNeed (s : State) (k : Nat) (x : Core) : (s.setCore k x).hostNeed = s.hostNeed := rfl
@[simp] theorem State.setCore_timelines (s : State) (k : Nat) (x : Core) : (s.setCore k x).timelines = s.timelines := rfl
@[simp] theorem State.setCore_tlShared (s : State) (k : Nat) (x : Core) : (s.setCore k x).tlShared = s.tlShared := rfl
@[simp] theorem State.setCore_raises (s : State) (k : Nat) (x : Core) : (s.setCore k x).raises = s.raises := rfl
@[simp] theorem State.setCore_copyOrder (s : State) (k : Nat) (x : Core) : (s.setCore k x).copyOrder = s.copyOrder := rfl
@[simp] theorem State.setCore_part (s : State) (k : Nat) (x : Core) : (s.setCore k x).part = s.part := rfl
@[simp] theorem State.setCore_msix (s : State) (k : Nat) (x : Core) : (s.setCore k x).msix = s.msix := rfl
@[simp] theorem State.setCore_hostRead (s : State) (k : Nat) (x : Core) : (s.setCore k x).hostRead = s.hostRead := rfl
@[simp] theorem State.setCore_queues (s : State) (k : Nat) (x : Core) : (s.setCore k x).queues = s.queues := rfl
@[simp] theorem State.setCore_fw (s : State) (k : Nat) (x : Core) : (s.setCore k x).fw = s.fw := rfl
@[simp] theorem State.setCore_lds (s : State) (k : Nat) (x : Core) : (s.setCore k x).lds = s.lds := rfl
@[simp] theorem State.setCore_tenants (s : State) (k : Nat) (x : Core) : (s.setCore k x).tenants = s.tenants := rfl
@[simp] theorem State.setCore_power (s : State) (k : Nat) (x : Core) : (s.setCore k x).power = s.power := rfl
@[simp] theorem State.setCore_pending (s : State) (k : Nat) (x : Core) : (s.setCore k x).pending = s.pending := rfl
@[simp] theorem State.setCore_decided (s : State) (k : Nat) (x : Core) : (s.setCore k x).decided = s.decided := rfl
@[simp] theorem State.setCore_decisions (s : State) (k : Nat) (x : Core) : (s.setCore k x).decisions = s.decisions := rfl
@[simp] theorem State.setCore_reels (s : State) (k : Nat) (x : Core) : (s.setCore k x).reels = s.reels := rfl
@[simp] theorem State.setCore_holds (s : State) (k : Nat) (x : Core) : (s.setCore k x).holds = s.holds := rfl
@[simp] theorem State.setCore_reserveQ (s : State) (k : Nat) (x : Core) : (s.setCore k x).reserveQ = s.reserveQ := rfl
@[simp] theorem State.setCore_ports (s : State) (k : Nat) (x : Core) : (s.setCore k x).ports = s.ports := rfl
@[simp] theorem State.setCore_seqTx (s : State) (k : Nat) (x : Core) : (s.setCore k x).seqTx = s.seqTx := rfl
@[simp] theorem State.setCore_seqRx (s : State) (k : Nat) (x : Core) : (s.setCore k x).seqRx = s.seqRx := rfl
@[simp] theorem State.setCore_engines (s : State) (k : Nat) (x : Core) : (s.setCore k x).engines = s.engines := rfl
@[simp] theorem State.setCore_gathering (s : State) (k : Nat) (x : Core) : (s.setCore k x).gathering = s.gathering := rfl
@[simp] theorem State.setCore_remotes (s : State) (k : Nat) (x : Core) : (s.setCore k x).remotes = s.remotes := rfl
@[simp] theorem State.setCore_loop (s : State) (k : Nat) (x : Core) : (s.setCore k x).loop = s.loop := rfl
@[simp] theorem State.setCore_deferred (s : State) (k : Nat) (x : Core) : (s.setCore k x).deferred = s.deferred := rfl
@[simp] theorem State.setCore_ahead (s : State) (k : Nat) (x : Core) : (s.setCore k x).ahead = s.ahead := rfl
@[simp] theorem State.setCore_down (s : State) (k : Nat) (x : Core) : (s.setCore k x).down = s.down := rfl
@[simp] theorem State.setCore_hostLines (s : State) (k : Nat) (x : Core) : (s.setCore k x).hostLines = s.hostLines := rfl
@[simp] theorem State.setCore_posted (s : State) (k : Nat) (x : Core) : (s.setCore k x).posted = s.posted := rfl
@[simp] theorem State.setCore_atomics (s : State) (k : Nat) (x : Core) : (s.setCore k x).atomics = s.atomics := rfl
@[simp] theorem State.setCore_nvme (s : State) (k : Nat) (x : Core) : (s.setCore k x).nvme = s.nvme := rfl
@[simp] theorem State.core_setCore (s : State) (k : Nat) (x : Core) : (s.setCore k x).core k = x := Tab.get_set _ _ _ _
theorem State.core_setCore_ne (s : State) (j k : Nat) (x : Core) (h : j ≠ k) : (s.setCore k x).core j = s.core j :=
  Tab.get_set_ne _ _ _ _ _ h
@[simp] theorem State.gang_setCore (s : State) (j k : Nat) (x : Core) : (s.setCore k x).gang j = s.gang j := rfl
@[simp] theorem State.team_setCore (s : State) (j k : Nat) (x : Core) : (s.setCore k x).team j = s.team j := rfl
@[simp] theorem State.grid_setCore (s : State) (j k : Nat) (x : Core) : (s.setCore k x).grid j = s.grid j := rfl
@[simp] theorem State.ctx_setCore (s : State) (j k : Nat) (x : Core) : (s.setCore k x).ctx j = s.ctx j := rfl
@[simp] theorem State.ldev_setCore (s : State) (j k : Nat) (x : Core) : (s.setCore k x).ldev j = s.ldev j := rfl
@[simp] theorem State.port_setCore (s : State) (j k : Nat) (x : Core) : (s.setCore k x).port j = s.port j := rfl
@[simp] theorem State.queue_setCore (s : State) (j k : Nat) (x : Core) : (s.setCore k x).queue j = s.queue j := rfl

@[simp] theorem State.modGrid_eq (s : State) (k : Nat) (f : Grid → Grid) : s.modGrid k f = s.setGrid k (f (s.grid k)) := rfl
@[simp] theorem State.setGrid_grids (s : State) (k : Nat) (x : Grid) : (s.setGrid k x).grids = s.grids.set k x := rfl
@[simp] theorem State.setGrid_agenda (s : State) (k : Nat) (x : Grid) : (s.setGrid k x).agenda = s.agenda := rfl
@[simp] theorem State.setGrid_cycle (s : State) (k : Nat) (x : Grid) : (s.setGrid k x).cycle = s.cycle := rfl
@[simp] theorem State.setGrid_fresh (s : State) (k : Nat) (x : Grid) : (s.setGrid k x).fresh = s.fresh := rfl
@[simp] theorem State.setGrid_iss (s : State) (k : Nat) (x : Grid) : (s.setGrid k x).iss = s.iss := rfl
@[simp] theorem State.setGrid_gangs (s : State) (k : Nat) (x : Grid) : (s.setGrid k x).gangs = s.gangs := rfl
@[simp] theorem State.setGrid_teams (s : State) (k : Nat) (x : Grid) : (s.setGrid k x).teams = s.teams := rfl
@[simp] theorem State.setGrid_cores (s : State) (k : Nat) (x : Grid) : (s.setGrid k x).cores = s.cores := rfl
@[simp] theorem State.setGrid_ctxs (s : State) (k : Nat) (x : Grid) : (s.setGrid k x).ctxs = s.ctxs := rfl
@[simp] theorem State.setGrid_dmem (s : State) (k : Nat) (x : Grid) : (s.setGrid k x).dmem = s.dmem := rfl
@[simp] theorem State.setGrid_hmem (s : State) (k : Nat) (x : Grid) : (s.setGrid k x).hmem = s.hmem := rfl
@[simp] theorem State.setGrid_imem (s : State) (k : Nat) (x : Grid) : (s.setGrid k x).imem = s.imem := rfl
@[simp] theorem State.setGrid_hostMaps (s : State) (k : Nat) (x : Grid) : (s.setGrid k x).hostMaps = s.hostMaps := rfl
@[simp] theorem State.setGrid_hostAsked (s : State) (k : Nat) (x : Grid) : (s.setGrid k x).hostAsked = s.hostAsked := rfl
@[simp] theorem State.setGrid_hostWaits (s : State) (k : Nat) (x : Grid) : (s.setGrid k x).hostWaits = s.hostWaits := rfl
@[simp] theorem State.setGrid_hostDenied (s : State) (k : Nat) (x : Grid) : (s.setGrid k x).hostDenied = s.hostDenied := rfl
@[simp] theorem State.setGrid_hostWho (s : State) (k : Nat) (x : Grid) : (s.setGrid k x).hostWho = s.hostWho := rfl
@[simp] theorem State.setGrid_hostNeed (s : State) (k : Nat) (x : Grid) : (s.setGrid k x).hostNeed = s.hostNeed := rfl
@[simp] theorem State.setGrid_timelines (s : State) (k : Nat) (x : Grid) : (s.setGrid k x).timelines = s.timelines := rfl
@[simp] theorem State.setGrid_tlShared (s : State) (k : Nat) (x : Grid) : (s.setGrid k x).tlShared = s.tlShared := rfl
@[simp] theorem State.setGrid_raises (s : State) (k : Nat) (x : Grid) : (s.setGrid k x).raises = s.raises := rfl
@[simp] theorem State.setGrid_copyOrder (s : State) (k : Nat) (x : Grid) : (s.setGrid k x).copyOrder = s.copyOrder := rfl
@[simp] theorem State.setGrid_part (s : State) (k : Nat) (x : Grid) : (s.setGrid k x).part = s.part := rfl
@[simp] theorem State.setGrid_msix (s : State) (k : Nat) (x : Grid) : (s.setGrid k x).msix = s.msix := rfl
@[simp] theorem State.setGrid_hostRead (s : State) (k : Nat) (x : Grid) : (s.setGrid k x).hostRead = s.hostRead := rfl
@[simp] theorem State.setGrid_queues (s : State) (k : Nat) (x : Grid) : (s.setGrid k x).queues = s.queues := rfl
@[simp] theorem State.setGrid_fw (s : State) (k : Nat) (x : Grid) : (s.setGrid k x).fw = s.fw := rfl
@[simp] theorem State.setGrid_lds (s : State) (k : Nat) (x : Grid) : (s.setGrid k x).lds = s.lds := rfl
@[simp] theorem State.setGrid_tenants (s : State) (k : Nat) (x : Grid) : (s.setGrid k x).tenants = s.tenants := rfl
@[simp] theorem State.setGrid_power (s : State) (k : Nat) (x : Grid) : (s.setGrid k x).power = s.power := rfl
@[simp] theorem State.setGrid_pending (s : State) (k : Nat) (x : Grid) : (s.setGrid k x).pending = s.pending := rfl
@[simp] theorem State.setGrid_decided (s : State) (k : Nat) (x : Grid) : (s.setGrid k x).decided = s.decided := rfl
@[simp] theorem State.setGrid_decisions (s : State) (k : Nat) (x : Grid) : (s.setGrid k x).decisions = s.decisions := rfl
@[simp] theorem State.setGrid_reels (s : State) (k : Nat) (x : Grid) : (s.setGrid k x).reels = s.reels := rfl
@[simp] theorem State.setGrid_holds (s : State) (k : Nat) (x : Grid) : (s.setGrid k x).holds = s.holds := rfl
@[simp] theorem State.setGrid_reserveQ (s : State) (k : Nat) (x : Grid) : (s.setGrid k x).reserveQ = s.reserveQ := rfl
@[simp] theorem State.setGrid_ports (s : State) (k : Nat) (x : Grid) : (s.setGrid k x).ports = s.ports := rfl
@[simp] theorem State.setGrid_seqTx (s : State) (k : Nat) (x : Grid) : (s.setGrid k x).seqTx = s.seqTx := rfl
@[simp] theorem State.setGrid_seqRx (s : State) (k : Nat) (x : Grid) : (s.setGrid k x).seqRx = s.seqRx := rfl
@[simp] theorem State.setGrid_engines (s : State) (k : Nat) (x : Grid) : (s.setGrid k x).engines = s.engines := rfl
@[simp] theorem State.setGrid_gathering (s : State) (k : Nat) (x : Grid) : (s.setGrid k x).gathering = s.gathering := rfl
@[simp] theorem State.setGrid_remotes (s : State) (k : Nat) (x : Grid) : (s.setGrid k x).remotes = s.remotes := rfl
@[simp] theorem State.setGrid_loop (s : State) (k : Nat) (x : Grid) : (s.setGrid k x).loop = s.loop := rfl
@[simp] theorem State.setGrid_deferred (s : State) (k : Nat) (x : Grid) : (s.setGrid k x).deferred = s.deferred := rfl
@[simp] theorem State.setGrid_ahead (s : State) (k : Nat) (x : Grid) : (s.setGrid k x).ahead = s.ahead := rfl
@[simp] theorem State.setGrid_down (s : State) (k : Nat) (x : Grid) : (s.setGrid k x).down = s.down := rfl
@[simp] theorem State.setGrid_hostLines (s : State) (k : Nat) (x : Grid) : (s.setGrid k x).hostLines = s.hostLines := rfl
@[simp] theorem State.setGrid_posted (s : State) (k : Nat) (x : Grid) : (s.setGrid k x).posted = s.posted := rfl
@[simp] theorem State.setGrid_atomics (s : State) (k : Nat) (x : Grid) : (s.setGrid k x).atomics = s.atomics := rfl
@[simp] theorem State.setGrid_nvme (s : State) (k : Nat) (x : Grid) : (s.setGrid k x).nvme = s.nvme := rfl
@[simp] theorem State.grid_setGrid (s : State) (k : Nat) (x : Grid) : (s.setGrid k x).grid k = x := Tab.get_set _ _ _ _
theorem State.grid_setGrid_ne (s : State) (j k : Nat) (x : Grid) (h : j ≠ k) : (s.setGrid k x).grid j = s.grid j :=
  Tab.get_set_ne _ _ _ _ _ h
@[simp] theorem State.gang_setGrid (s : State) (j k : Nat) (x : Grid) : (s.setGrid k x).gang j = s.gang j := rfl
@[simp] theorem State.team_setGrid (s : State) (j k : Nat) (x : Grid) : (s.setGrid k x).team j = s.team j := rfl
@[simp] theorem State.core_setGrid (s : State) (j k : Nat) (x : Grid) : (s.setGrid k x).core j = s.core j := rfl
@[simp] theorem State.ctx_setGrid (s : State) (j k : Nat) (x : Grid) : (s.setGrid k x).ctx j = s.ctx j := rfl
@[simp] theorem State.ldev_setGrid (s : State) (j k : Nat) (x : Grid) : (s.setGrid k x).ldev j = s.ldev j := rfl
@[simp] theorem State.port_setGrid (s : State) (j k : Nat) (x : Grid) : (s.setGrid k x).port j = s.port j := rfl
@[simp] theorem State.queue_setGrid (s : State) (j k : Nat) (x : Grid) : (s.setGrid k x).queue j = s.queue j := rfl

@[simp] theorem State.modCtx_eq (s : State) (k : Nat) (f : Ctx → Ctx) : s.modCtx k f = s.setCtx k (f (s.ctx k)) := rfl
@[simp] theorem State.setCtx_ctxs (s : State) (k : Nat) (x : Ctx) : (s.setCtx k x).ctxs = s.ctxs.set k x := rfl
@[simp] theorem State.setCtx_agenda (s : State) (k : Nat) (x : Ctx) : (s.setCtx k x).agenda = s.agenda := rfl
@[simp] theorem State.setCtx_cycle (s : State) (k : Nat) (x : Ctx) : (s.setCtx k x).cycle = s.cycle := rfl
@[simp] theorem State.setCtx_fresh (s : State) (k : Nat) (x : Ctx) : (s.setCtx k x).fresh = s.fresh := rfl
@[simp] theorem State.setCtx_iss (s : State) (k : Nat) (x : Ctx) : (s.setCtx k x).iss = s.iss := rfl
@[simp] theorem State.setCtx_gangs (s : State) (k : Nat) (x : Ctx) : (s.setCtx k x).gangs = s.gangs := rfl
@[simp] theorem State.setCtx_teams (s : State) (k : Nat) (x : Ctx) : (s.setCtx k x).teams = s.teams := rfl
@[simp] theorem State.setCtx_cores (s : State) (k : Nat) (x : Ctx) : (s.setCtx k x).cores = s.cores := rfl
@[simp] theorem State.setCtx_grids (s : State) (k : Nat) (x : Ctx) : (s.setCtx k x).grids = s.grids := rfl
@[simp] theorem State.setCtx_dmem (s : State) (k : Nat) (x : Ctx) : (s.setCtx k x).dmem = s.dmem := rfl
@[simp] theorem State.setCtx_hmem (s : State) (k : Nat) (x : Ctx) : (s.setCtx k x).hmem = s.hmem := rfl
@[simp] theorem State.setCtx_imem (s : State) (k : Nat) (x : Ctx) : (s.setCtx k x).imem = s.imem := rfl
@[simp] theorem State.setCtx_hostMaps (s : State) (k : Nat) (x : Ctx) : (s.setCtx k x).hostMaps = s.hostMaps := rfl
@[simp] theorem State.setCtx_hostAsked (s : State) (k : Nat) (x : Ctx) : (s.setCtx k x).hostAsked = s.hostAsked := rfl
@[simp] theorem State.setCtx_hostWaits (s : State) (k : Nat) (x : Ctx) : (s.setCtx k x).hostWaits = s.hostWaits := rfl
@[simp] theorem State.setCtx_hostDenied (s : State) (k : Nat) (x : Ctx) : (s.setCtx k x).hostDenied = s.hostDenied := rfl
@[simp] theorem State.setCtx_hostWho (s : State) (k : Nat) (x : Ctx) : (s.setCtx k x).hostWho = s.hostWho := rfl
@[simp] theorem State.setCtx_hostNeed (s : State) (k : Nat) (x : Ctx) : (s.setCtx k x).hostNeed = s.hostNeed := rfl
@[simp] theorem State.setCtx_timelines (s : State) (k : Nat) (x : Ctx) : (s.setCtx k x).timelines = s.timelines := rfl
@[simp] theorem State.setCtx_tlShared (s : State) (k : Nat) (x : Ctx) : (s.setCtx k x).tlShared = s.tlShared := rfl
@[simp] theorem State.setCtx_raises (s : State) (k : Nat) (x : Ctx) : (s.setCtx k x).raises = s.raises := rfl
@[simp] theorem State.setCtx_copyOrder (s : State) (k : Nat) (x : Ctx) : (s.setCtx k x).copyOrder = s.copyOrder := rfl
@[simp] theorem State.setCtx_part (s : State) (k : Nat) (x : Ctx) : (s.setCtx k x).part = s.part := rfl
@[simp] theorem State.setCtx_msix (s : State) (k : Nat) (x : Ctx) : (s.setCtx k x).msix = s.msix := rfl
@[simp] theorem State.setCtx_hostRead (s : State) (k : Nat) (x : Ctx) : (s.setCtx k x).hostRead = s.hostRead := rfl
@[simp] theorem State.setCtx_queues (s : State) (k : Nat) (x : Ctx) : (s.setCtx k x).queues = s.queues := rfl
@[simp] theorem State.setCtx_fw (s : State) (k : Nat) (x : Ctx) : (s.setCtx k x).fw = s.fw := rfl
@[simp] theorem State.setCtx_lds (s : State) (k : Nat) (x : Ctx) : (s.setCtx k x).lds = s.lds := rfl
@[simp] theorem State.setCtx_tenants (s : State) (k : Nat) (x : Ctx) : (s.setCtx k x).tenants = s.tenants := rfl
@[simp] theorem State.setCtx_power (s : State) (k : Nat) (x : Ctx) : (s.setCtx k x).power = s.power := rfl
@[simp] theorem State.setCtx_pending (s : State) (k : Nat) (x : Ctx) : (s.setCtx k x).pending = s.pending := rfl
@[simp] theorem State.setCtx_decided (s : State) (k : Nat) (x : Ctx) : (s.setCtx k x).decided = s.decided := rfl
@[simp] theorem State.setCtx_decisions (s : State) (k : Nat) (x : Ctx) : (s.setCtx k x).decisions = s.decisions := rfl
@[simp] theorem State.setCtx_reels (s : State) (k : Nat) (x : Ctx) : (s.setCtx k x).reels = s.reels := rfl
@[simp] theorem State.setCtx_holds (s : State) (k : Nat) (x : Ctx) : (s.setCtx k x).holds = s.holds := rfl
@[simp] theorem State.setCtx_reserveQ (s : State) (k : Nat) (x : Ctx) : (s.setCtx k x).reserveQ = s.reserveQ := rfl
@[simp] theorem State.setCtx_ports (s : State) (k : Nat) (x : Ctx) : (s.setCtx k x).ports = s.ports := rfl
@[simp] theorem State.setCtx_seqTx (s : State) (k : Nat) (x : Ctx) : (s.setCtx k x).seqTx = s.seqTx := rfl
@[simp] theorem State.setCtx_seqRx (s : State) (k : Nat) (x : Ctx) : (s.setCtx k x).seqRx = s.seqRx := rfl
@[simp] theorem State.setCtx_engines (s : State) (k : Nat) (x : Ctx) : (s.setCtx k x).engines = s.engines := rfl
@[simp] theorem State.setCtx_gathering (s : State) (k : Nat) (x : Ctx) : (s.setCtx k x).gathering = s.gathering := rfl
@[simp] theorem State.setCtx_remotes (s : State) (k : Nat) (x : Ctx) : (s.setCtx k x).remotes = s.remotes := rfl
@[simp] theorem State.setCtx_loop (s : State) (k : Nat) (x : Ctx) : (s.setCtx k x).loop = s.loop := rfl
@[simp] theorem State.setCtx_deferred (s : State) (k : Nat) (x : Ctx) : (s.setCtx k x).deferred = s.deferred := rfl
@[simp] theorem State.setCtx_ahead (s : State) (k : Nat) (x : Ctx) : (s.setCtx k x).ahead = s.ahead := rfl
@[simp] theorem State.setCtx_down (s : State) (k : Nat) (x : Ctx) : (s.setCtx k x).down = s.down := rfl
@[simp] theorem State.setCtx_hostLines (s : State) (k : Nat) (x : Ctx) : (s.setCtx k x).hostLines = s.hostLines := rfl
@[simp] theorem State.setCtx_posted (s : State) (k : Nat) (x : Ctx) : (s.setCtx k x).posted = s.posted := rfl
@[simp] theorem State.setCtx_atomics (s : State) (k : Nat) (x : Ctx) : (s.setCtx k x).atomics = s.atomics := rfl
@[simp] theorem State.setCtx_nvme (s : State) (k : Nat) (x : Ctx) : (s.setCtx k x).nvme = s.nvme := rfl
@[simp] theorem State.ctx_setCtx (s : State) (k : Nat) (x : Ctx) : (s.setCtx k x).ctx k = x := Tab.get_set _ _ _ _
theorem State.ctx_setCtx_ne (s : State) (j k : Nat) (x : Ctx) (h : j ≠ k) : (s.setCtx k x).ctx j = s.ctx j :=
  Tab.get_set_ne _ _ _ _ _ h
@[simp] theorem State.gang_setCtx (s : State) (j k : Nat) (x : Ctx) : (s.setCtx k x).gang j = s.gang j := rfl
@[simp] theorem State.team_setCtx (s : State) (j k : Nat) (x : Ctx) : (s.setCtx k x).team j = s.team j := rfl
@[simp] theorem State.core_setCtx (s : State) (j k : Nat) (x : Ctx) : (s.setCtx k x).core j = s.core j := rfl
@[simp] theorem State.grid_setCtx (s : State) (j k : Nat) (x : Ctx) : (s.setCtx k x).grid j = s.grid j := rfl
@[simp] theorem State.ldev_setCtx (s : State) (j k : Nat) (x : Ctx) : (s.setCtx k x).ldev j = s.ldev j := rfl
@[simp] theorem State.port_setCtx (s : State) (j k : Nat) (x : Ctx) : (s.setCtx k x).port j = s.port j := rfl
@[simp] theorem State.queue_setCtx (s : State) (j k : Nat) (x : Ctx) : (s.setCtx k x).queue j = s.queue j := rfl

@[simp] theorem State.modLdev_eq (s : State) (k : Nat) (f : LogDev → LogDev) : s.modLdev k f = s.setLdev k (f (s.ldev k)) := rfl
@[simp] theorem State.setLdev_lds (s : State) (k : Nat) (x : LogDev) : (s.setLdev k x).lds = s.lds.set k x := rfl
@[simp] theorem State.setLdev_agenda (s : State) (k : Nat) (x : LogDev) : (s.setLdev k x).agenda = s.agenda := rfl
@[simp] theorem State.setLdev_cycle (s : State) (k : Nat) (x : LogDev) : (s.setLdev k x).cycle = s.cycle := rfl
@[simp] theorem State.setLdev_fresh (s : State) (k : Nat) (x : LogDev) : (s.setLdev k x).fresh = s.fresh := rfl
@[simp] theorem State.setLdev_iss (s : State) (k : Nat) (x : LogDev) : (s.setLdev k x).iss = s.iss := rfl
@[simp] theorem State.setLdev_gangs (s : State) (k : Nat) (x : LogDev) : (s.setLdev k x).gangs = s.gangs := rfl
@[simp] theorem State.setLdev_teams (s : State) (k : Nat) (x : LogDev) : (s.setLdev k x).teams = s.teams := rfl
@[simp] theorem State.setLdev_cores (s : State) (k : Nat) (x : LogDev) : (s.setLdev k x).cores = s.cores := rfl
@[simp] theorem State.setLdev_grids (s : State) (k : Nat) (x : LogDev) : (s.setLdev k x).grids = s.grids := rfl
@[simp] theorem State.setLdev_ctxs (s : State) (k : Nat) (x : LogDev) : (s.setLdev k x).ctxs = s.ctxs := rfl
@[simp] theorem State.setLdev_dmem (s : State) (k : Nat) (x : LogDev) : (s.setLdev k x).dmem = s.dmem := rfl
@[simp] theorem State.setLdev_hmem (s : State) (k : Nat) (x : LogDev) : (s.setLdev k x).hmem = s.hmem := rfl
@[simp] theorem State.setLdev_imem (s : State) (k : Nat) (x : LogDev) : (s.setLdev k x).imem = s.imem := rfl
@[simp] theorem State.setLdev_hostMaps (s : State) (k : Nat) (x : LogDev) : (s.setLdev k x).hostMaps = s.hostMaps := rfl
@[simp] theorem State.setLdev_hostAsked (s : State) (k : Nat) (x : LogDev) : (s.setLdev k x).hostAsked = s.hostAsked := rfl
@[simp] theorem State.setLdev_hostWaits (s : State) (k : Nat) (x : LogDev) : (s.setLdev k x).hostWaits = s.hostWaits := rfl
@[simp] theorem State.setLdev_hostDenied (s : State) (k : Nat) (x : LogDev) : (s.setLdev k x).hostDenied = s.hostDenied := rfl
@[simp] theorem State.setLdev_hostWho (s : State) (k : Nat) (x : LogDev) : (s.setLdev k x).hostWho = s.hostWho := rfl
@[simp] theorem State.setLdev_hostNeed (s : State) (k : Nat) (x : LogDev) : (s.setLdev k x).hostNeed = s.hostNeed := rfl
@[simp] theorem State.setLdev_timelines (s : State) (k : Nat) (x : LogDev) : (s.setLdev k x).timelines = s.timelines := rfl
@[simp] theorem State.setLdev_tlShared (s : State) (k : Nat) (x : LogDev) : (s.setLdev k x).tlShared = s.tlShared := rfl
@[simp] theorem State.setLdev_raises (s : State) (k : Nat) (x : LogDev) : (s.setLdev k x).raises = s.raises := rfl
@[simp] theorem State.setLdev_copyOrder (s : State) (k : Nat) (x : LogDev) : (s.setLdev k x).copyOrder = s.copyOrder := rfl
@[simp] theorem State.setLdev_part (s : State) (k : Nat) (x : LogDev) : (s.setLdev k x).part = s.part := rfl
@[simp] theorem State.setLdev_msix (s : State) (k : Nat) (x : LogDev) : (s.setLdev k x).msix = s.msix := rfl
@[simp] theorem State.setLdev_hostRead (s : State) (k : Nat) (x : LogDev) : (s.setLdev k x).hostRead = s.hostRead := rfl
@[simp] theorem State.setLdev_queues (s : State) (k : Nat) (x : LogDev) : (s.setLdev k x).queues = s.queues := rfl
@[simp] theorem State.setLdev_fw (s : State) (k : Nat) (x : LogDev) : (s.setLdev k x).fw = s.fw := rfl
@[simp] theorem State.setLdev_tenants (s : State) (k : Nat) (x : LogDev) : (s.setLdev k x).tenants = s.tenants := rfl
@[simp] theorem State.setLdev_power (s : State) (k : Nat) (x : LogDev) : (s.setLdev k x).power = s.power := rfl
@[simp] theorem State.setLdev_pending (s : State) (k : Nat) (x : LogDev) : (s.setLdev k x).pending = s.pending := rfl
@[simp] theorem State.setLdev_decided (s : State) (k : Nat) (x : LogDev) : (s.setLdev k x).decided = s.decided := rfl
@[simp] theorem State.setLdev_decisions (s : State) (k : Nat) (x : LogDev) : (s.setLdev k x).decisions = s.decisions := rfl
@[simp] theorem State.setLdev_reels (s : State) (k : Nat) (x : LogDev) : (s.setLdev k x).reels = s.reels := rfl
@[simp] theorem State.setLdev_holds (s : State) (k : Nat) (x : LogDev) : (s.setLdev k x).holds = s.holds := rfl
@[simp] theorem State.setLdev_reserveQ (s : State) (k : Nat) (x : LogDev) : (s.setLdev k x).reserveQ = s.reserveQ := rfl
@[simp] theorem State.setLdev_ports (s : State) (k : Nat) (x : LogDev) : (s.setLdev k x).ports = s.ports := rfl
@[simp] theorem State.setLdev_seqTx (s : State) (k : Nat) (x : LogDev) : (s.setLdev k x).seqTx = s.seqTx := rfl
@[simp] theorem State.setLdev_seqRx (s : State) (k : Nat) (x : LogDev) : (s.setLdev k x).seqRx = s.seqRx := rfl
@[simp] theorem State.setLdev_engines (s : State) (k : Nat) (x : LogDev) : (s.setLdev k x).engines = s.engines := rfl
@[simp] theorem State.setLdev_gathering (s : State) (k : Nat) (x : LogDev) : (s.setLdev k x).gathering = s.gathering := rfl
@[simp] theorem State.setLdev_remotes (s : State) (k : Nat) (x : LogDev) : (s.setLdev k x).remotes = s.remotes := rfl
@[simp] theorem State.setLdev_loop (s : State) (k : Nat) (x : LogDev) : (s.setLdev k x).loop = s.loop := rfl
@[simp] theorem State.setLdev_deferred (s : State) (k : Nat) (x : LogDev) : (s.setLdev k x).deferred = s.deferred := rfl
@[simp] theorem State.setLdev_ahead (s : State) (k : Nat) (x : LogDev) : (s.setLdev k x).ahead = s.ahead := rfl
@[simp] theorem State.setLdev_down (s : State) (k : Nat) (x : LogDev) : (s.setLdev k x).down = s.down := rfl
@[simp] theorem State.setLdev_hostLines (s : State) (k : Nat) (x : LogDev) : (s.setLdev k x).hostLines = s.hostLines := rfl
@[simp] theorem State.setLdev_posted (s : State) (k : Nat) (x : LogDev) : (s.setLdev k x).posted = s.posted := rfl
@[simp] theorem State.setLdev_atomics (s : State) (k : Nat) (x : LogDev) : (s.setLdev k x).atomics = s.atomics := rfl
@[simp] theorem State.setLdev_nvme (s : State) (k : Nat) (x : LogDev) : (s.setLdev k x).nvme = s.nvme := rfl
@[simp] theorem State.ldev_setLdev (s : State) (k : Nat) (x : LogDev) : (s.setLdev k x).ldev k = x := Tab.get_set _ _ _ _
theorem State.ldev_setLdev_ne (s : State) (j k : Nat) (x : LogDev) (h : j ≠ k) : (s.setLdev k x).ldev j = s.ldev j :=
  Tab.get_set_ne _ _ _ _ _ h
@[simp] theorem State.gang_setLdev (s : State) (j k : Nat) (x : LogDev) : (s.setLdev k x).gang j = s.gang j := rfl
@[simp] theorem State.team_setLdev (s : State) (j k : Nat) (x : LogDev) : (s.setLdev k x).team j = s.team j := rfl
@[simp] theorem State.core_setLdev (s : State) (j k : Nat) (x : LogDev) : (s.setLdev k x).core j = s.core j := rfl
@[simp] theorem State.grid_setLdev (s : State) (j k : Nat) (x : LogDev) : (s.setLdev k x).grid j = s.grid j := rfl
@[simp] theorem State.ctx_setLdev (s : State) (j k : Nat) (x : LogDev) : (s.setLdev k x).ctx j = s.ctx j := rfl
@[simp] theorem State.port_setLdev (s : State) (j k : Nat) (x : LogDev) : (s.setLdev k x).port j = s.port j := rfl
@[simp] theorem State.queue_setLdev (s : State) (j k : Nat) (x : LogDev) : (s.setLdev k x).queue j = s.queue j := rfl

@[simp] theorem State.modPort_eq (s : State) (k : Nat) (f : Port → Port) : s.modPort k f = s.setPort k (f (s.port k)) := rfl
@[simp] theorem State.setPort_ports (s : State) (k : Nat) (x : Port) : (s.setPort k x).ports = s.ports.set k x := rfl
@[simp] theorem State.setPort_agenda (s : State) (k : Nat) (x : Port) : (s.setPort k x).agenda = s.agenda := rfl
@[simp] theorem State.setPort_cycle (s : State) (k : Nat) (x : Port) : (s.setPort k x).cycle = s.cycle := rfl
@[simp] theorem State.setPort_fresh (s : State) (k : Nat) (x : Port) : (s.setPort k x).fresh = s.fresh := rfl
@[simp] theorem State.setPort_iss (s : State) (k : Nat) (x : Port) : (s.setPort k x).iss = s.iss := rfl
@[simp] theorem State.setPort_gangs (s : State) (k : Nat) (x : Port) : (s.setPort k x).gangs = s.gangs := rfl
@[simp] theorem State.setPort_teams (s : State) (k : Nat) (x : Port) : (s.setPort k x).teams = s.teams := rfl
@[simp] theorem State.setPort_cores (s : State) (k : Nat) (x : Port) : (s.setPort k x).cores = s.cores := rfl
@[simp] theorem State.setPort_grids (s : State) (k : Nat) (x : Port) : (s.setPort k x).grids = s.grids := rfl
@[simp] theorem State.setPort_ctxs (s : State) (k : Nat) (x : Port) : (s.setPort k x).ctxs = s.ctxs := rfl
@[simp] theorem State.setPort_dmem (s : State) (k : Nat) (x : Port) : (s.setPort k x).dmem = s.dmem := rfl
@[simp] theorem State.setPort_hmem (s : State) (k : Nat) (x : Port) : (s.setPort k x).hmem = s.hmem := rfl
@[simp] theorem State.setPort_imem (s : State) (k : Nat) (x : Port) : (s.setPort k x).imem = s.imem := rfl
@[simp] theorem State.setPort_hostMaps (s : State) (k : Nat) (x : Port) : (s.setPort k x).hostMaps = s.hostMaps := rfl
@[simp] theorem State.setPort_hostAsked (s : State) (k : Nat) (x : Port) : (s.setPort k x).hostAsked = s.hostAsked := rfl
@[simp] theorem State.setPort_hostWaits (s : State) (k : Nat) (x : Port) : (s.setPort k x).hostWaits = s.hostWaits := rfl
@[simp] theorem State.setPort_hostDenied (s : State) (k : Nat) (x : Port) : (s.setPort k x).hostDenied = s.hostDenied := rfl
@[simp] theorem State.setPort_hostWho (s : State) (k : Nat) (x : Port) : (s.setPort k x).hostWho = s.hostWho := rfl
@[simp] theorem State.setPort_hostNeed (s : State) (k : Nat) (x : Port) : (s.setPort k x).hostNeed = s.hostNeed := rfl
@[simp] theorem State.setPort_timelines (s : State) (k : Nat) (x : Port) : (s.setPort k x).timelines = s.timelines := rfl
@[simp] theorem State.setPort_tlShared (s : State) (k : Nat) (x : Port) : (s.setPort k x).tlShared = s.tlShared := rfl
@[simp] theorem State.setPort_raises (s : State) (k : Nat) (x : Port) : (s.setPort k x).raises = s.raises := rfl
@[simp] theorem State.setPort_copyOrder (s : State) (k : Nat) (x : Port) : (s.setPort k x).copyOrder = s.copyOrder := rfl
@[simp] theorem State.setPort_part (s : State) (k : Nat) (x : Port) : (s.setPort k x).part = s.part := rfl
@[simp] theorem State.setPort_msix (s : State) (k : Nat) (x : Port) : (s.setPort k x).msix = s.msix := rfl
@[simp] theorem State.setPort_hostRead (s : State) (k : Nat) (x : Port) : (s.setPort k x).hostRead = s.hostRead := rfl
@[simp] theorem State.setPort_queues (s : State) (k : Nat) (x : Port) : (s.setPort k x).queues = s.queues := rfl
@[simp] theorem State.setPort_fw (s : State) (k : Nat) (x : Port) : (s.setPort k x).fw = s.fw := rfl
@[simp] theorem State.setPort_lds (s : State) (k : Nat) (x : Port) : (s.setPort k x).lds = s.lds := rfl
@[simp] theorem State.setPort_tenants (s : State) (k : Nat) (x : Port) : (s.setPort k x).tenants = s.tenants := rfl
@[simp] theorem State.setPort_power (s : State) (k : Nat) (x : Port) : (s.setPort k x).power = s.power := rfl
@[simp] theorem State.setPort_pending (s : State) (k : Nat) (x : Port) : (s.setPort k x).pending = s.pending := rfl
@[simp] theorem State.setPort_decided (s : State) (k : Nat) (x : Port) : (s.setPort k x).decided = s.decided := rfl
@[simp] theorem State.setPort_decisions (s : State) (k : Nat) (x : Port) : (s.setPort k x).decisions = s.decisions := rfl
@[simp] theorem State.setPort_reels (s : State) (k : Nat) (x : Port) : (s.setPort k x).reels = s.reels := rfl
@[simp] theorem State.setPort_holds (s : State) (k : Nat) (x : Port) : (s.setPort k x).holds = s.holds := rfl
@[simp] theorem State.setPort_reserveQ (s : State) (k : Nat) (x : Port) : (s.setPort k x).reserveQ = s.reserveQ := rfl
@[simp] theorem State.setPort_seqTx (s : State) (k : Nat) (x : Port) : (s.setPort k x).seqTx = s.seqTx := rfl
@[simp] theorem State.setPort_seqRx (s : State) (k : Nat) (x : Port) : (s.setPort k x).seqRx = s.seqRx := rfl
@[simp] theorem State.setPort_engines (s : State) (k : Nat) (x : Port) : (s.setPort k x).engines = s.engines := rfl
@[simp] theorem State.setPort_gathering (s : State) (k : Nat) (x : Port) : (s.setPort k x).gathering = s.gathering := rfl
@[simp] theorem State.setPort_remotes (s : State) (k : Nat) (x : Port) : (s.setPort k x).remotes = s.remotes := rfl
@[simp] theorem State.setPort_loop (s : State) (k : Nat) (x : Port) : (s.setPort k x).loop = s.loop := rfl
@[simp] theorem State.setPort_deferred (s : State) (k : Nat) (x : Port) : (s.setPort k x).deferred = s.deferred := rfl
@[simp] theorem State.setPort_ahead (s : State) (k : Nat) (x : Port) : (s.setPort k x).ahead = s.ahead := rfl
@[simp] theorem State.setPort_down (s : State) (k : Nat) (x : Port) : (s.setPort k x).down = s.down := rfl
@[simp] theorem State.setPort_hostLines (s : State) (k : Nat) (x : Port) : (s.setPort k x).hostLines = s.hostLines := rfl
@[simp] theorem State.setPort_posted (s : State) (k : Nat) (x : Port) : (s.setPort k x).posted = s.posted := rfl
@[simp] theorem State.setPort_atomics (s : State) (k : Nat) (x : Port) : (s.setPort k x).atomics = s.atomics := rfl
@[simp] theorem State.setPort_nvme (s : State) (k : Nat) (x : Port) : (s.setPort k x).nvme = s.nvme := rfl
@[simp] theorem State.port_setPort (s : State) (k : Nat) (x : Port) : (s.setPort k x).port k = x := Tab.get_set _ _ _ _
theorem State.port_setPort_ne (s : State) (j k : Nat) (x : Port) (h : j ≠ k) : (s.setPort k x).port j = s.port j :=
  Tab.get_set_ne _ _ _ _ _ h
@[simp] theorem State.gang_setPort (s : State) (j k : Nat) (x : Port) : (s.setPort k x).gang j = s.gang j := rfl
@[simp] theorem State.team_setPort (s : State) (j k : Nat) (x : Port) : (s.setPort k x).team j = s.team j := rfl
@[simp] theorem State.core_setPort (s : State) (j k : Nat) (x : Port) : (s.setPort k x).core j = s.core j := rfl
@[simp] theorem State.grid_setPort (s : State) (j k : Nat) (x : Port) : (s.setPort k x).grid j = s.grid j := rfl
@[simp] theorem State.ctx_setPort (s : State) (j k : Nat) (x : Port) : (s.setPort k x).ctx j = s.ctx j := rfl
@[simp] theorem State.ldev_setPort (s : State) (j k : Nat) (x : Port) : (s.setPort k x).ldev j = s.ldev j := rfl
@[simp] theorem State.queue_setPort (s : State) (j k : Nat) (x : Port) : (s.setPort k x).queue j = s.queue j := rfl

@[simp] theorem State.modQueue_eq (s : State) (k : Nat) (f : Queue → Queue) : s.modQueue k f = s.setQueue k (f (s.queue k)) := rfl
@[simp] theorem State.setQueue_queues (s : State) (k : Nat) (x : Queue) : (s.setQueue k x).queues = s.queues.set k x := rfl
@[simp] theorem State.setQueue_agenda (s : State) (k : Nat) (x : Queue) : (s.setQueue k x).agenda = s.agenda := rfl
@[simp] theorem State.setQueue_cycle (s : State) (k : Nat) (x : Queue) : (s.setQueue k x).cycle = s.cycle := rfl
@[simp] theorem State.setQueue_fresh (s : State) (k : Nat) (x : Queue) : (s.setQueue k x).fresh = s.fresh := rfl
@[simp] theorem State.setQueue_iss (s : State) (k : Nat) (x : Queue) : (s.setQueue k x).iss = s.iss := rfl
@[simp] theorem State.setQueue_gangs (s : State) (k : Nat) (x : Queue) : (s.setQueue k x).gangs = s.gangs := rfl
@[simp] theorem State.setQueue_teams (s : State) (k : Nat) (x : Queue) : (s.setQueue k x).teams = s.teams := rfl
@[simp] theorem State.setQueue_cores (s : State) (k : Nat) (x : Queue) : (s.setQueue k x).cores = s.cores := rfl
@[simp] theorem State.setQueue_grids (s : State) (k : Nat) (x : Queue) : (s.setQueue k x).grids = s.grids := rfl
@[simp] theorem State.setQueue_ctxs (s : State) (k : Nat) (x : Queue) : (s.setQueue k x).ctxs = s.ctxs := rfl
@[simp] theorem State.setQueue_dmem (s : State) (k : Nat) (x : Queue) : (s.setQueue k x).dmem = s.dmem := rfl
@[simp] theorem State.setQueue_hmem (s : State) (k : Nat) (x : Queue) : (s.setQueue k x).hmem = s.hmem := rfl
@[simp] theorem State.setQueue_imem (s : State) (k : Nat) (x : Queue) : (s.setQueue k x).imem = s.imem := rfl
@[simp] theorem State.setQueue_hostMaps (s : State) (k : Nat) (x : Queue) : (s.setQueue k x).hostMaps = s.hostMaps := rfl
@[simp] theorem State.setQueue_hostAsked (s : State) (k : Nat) (x : Queue) : (s.setQueue k x).hostAsked = s.hostAsked := rfl
@[simp] theorem State.setQueue_hostWaits (s : State) (k : Nat) (x : Queue) : (s.setQueue k x).hostWaits = s.hostWaits := rfl
@[simp] theorem State.setQueue_hostDenied (s : State) (k : Nat) (x : Queue) : (s.setQueue k x).hostDenied = s.hostDenied := rfl
@[simp] theorem State.setQueue_hostWho (s : State) (k : Nat) (x : Queue) : (s.setQueue k x).hostWho = s.hostWho := rfl
@[simp] theorem State.setQueue_hostNeed (s : State) (k : Nat) (x : Queue) : (s.setQueue k x).hostNeed = s.hostNeed := rfl
@[simp] theorem State.setQueue_timelines (s : State) (k : Nat) (x : Queue) : (s.setQueue k x).timelines = s.timelines := rfl
@[simp] theorem State.setQueue_tlShared (s : State) (k : Nat) (x : Queue) : (s.setQueue k x).tlShared = s.tlShared := rfl
@[simp] theorem State.setQueue_raises (s : State) (k : Nat) (x : Queue) : (s.setQueue k x).raises = s.raises := rfl
@[simp] theorem State.setQueue_copyOrder (s : State) (k : Nat) (x : Queue) : (s.setQueue k x).copyOrder = s.copyOrder := rfl
@[simp] theorem State.setQueue_part (s : State) (k : Nat) (x : Queue) : (s.setQueue k x).part = s.part := rfl
@[simp] theorem State.setQueue_msix (s : State) (k : Nat) (x : Queue) : (s.setQueue k x).msix = s.msix := rfl
@[simp] theorem State.setQueue_hostRead (s : State) (k : Nat) (x : Queue) : (s.setQueue k x).hostRead = s.hostRead := rfl
@[simp] theorem State.setQueue_fw (s : State) (k : Nat) (x : Queue) : (s.setQueue k x).fw = s.fw := rfl
@[simp] theorem State.setQueue_lds (s : State) (k : Nat) (x : Queue) : (s.setQueue k x).lds = s.lds := rfl
@[simp] theorem State.setQueue_tenants (s : State) (k : Nat) (x : Queue) : (s.setQueue k x).tenants = s.tenants := rfl
@[simp] theorem State.setQueue_power (s : State) (k : Nat) (x : Queue) : (s.setQueue k x).power = s.power := rfl
@[simp] theorem State.setQueue_pending (s : State) (k : Nat) (x : Queue) : (s.setQueue k x).pending = s.pending := rfl
@[simp] theorem State.setQueue_decided (s : State) (k : Nat) (x : Queue) : (s.setQueue k x).decided = s.decided := rfl
@[simp] theorem State.setQueue_decisions (s : State) (k : Nat) (x : Queue) : (s.setQueue k x).decisions = s.decisions := rfl
@[simp] theorem State.setQueue_reels (s : State) (k : Nat) (x : Queue) : (s.setQueue k x).reels = s.reels := rfl
@[simp] theorem State.setQueue_holds (s : State) (k : Nat) (x : Queue) : (s.setQueue k x).holds = s.holds := rfl
@[simp] theorem State.setQueue_reserveQ (s : State) (k : Nat) (x : Queue) : (s.setQueue k x).reserveQ = s.reserveQ := rfl
@[simp] theorem State.setQueue_ports (s : State) (k : Nat) (x : Queue) : (s.setQueue k x).ports = s.ports := rfl
@[simp] theorem State.setQueue_seqTx (s : State) (k : Nat) (x : Queue) : (s.setQueue k x).seqTx = s.seqTx := rfl
@[simp] theorem State.setQueue_seqRx (s : State) (k : Nat) (x : Queue) : (s.setQueue k x).seqRx = s.seqRx := rfl
@[simp] theorem State.setQueue_engines (s : State) (k : Nat) (x : Queue) : (s.setQueue k x).engines = s.engines := rfl
@[simp] theorem State.setQueue_gathering (s : State) (k : Nat) (x : Queue) : (s.setQueue k x).gathering = s.gathering := rfl
@[simp] theorem State.setQueue_remotes (s : State) (k : Nat) (x : Queue) : (s.setQueue k x).remotes = s.remotes := rfl
@[simp] theorem State.setQueue_loop (s : State) (k : Nat) (x : Queue) : (s.setQueue k x).loop = s.loop := rfl
@[simp] theorem State.setQueue_deferred (s : State) (k : Nat) (x : Queue) : (s.setQueue k x).deferred = s.deferred := rfl
@[simp] theorem State.setQueue_ahead (s : State) (k : Nat) (x : Queue) : (s.setQueue k x).ahead = s.ahead := rfl
@[simp] theorem State.setQueue_down (s : State) (k : Nat) (x : Queue) : (s.setQueue k x).down = s.down := rfl
@[simp] theorem State.setQueue_hostLines (s : State) (k : Nat) (x : Queue) : (s.setQueue k x).hostLines = s.hostLines := rfl
@[simp] theorem State.setQueue_posted (s : State) (k : Nat) (x : Queue) : (s.setQueue k x).posted = s.posted := rfl
@[simp] theorem State.setQueue_atomics (s : State) (k : Nat) (x : Queue) : (s.setQueue k x).atomics = s.atomics := rfl
@[simp] theorem State.setQueue_nvme (s : State) (k : Nat) (x : Queue) : (s.setQueue k x).nvme = s.nvme := rfl
@[simp] theorem State.queue_setQueue (s : State) (k : Nat) (x : Queue) : (s.setQueue k x).queue k = x := Tab.get_set _ _ _ _
theorem State.queue_setQueue_ne (s : State) (j k : Nat) (x : Queue) (h : j ≠ k) : (s.setQueue k x).queue j = s.queue j :=
  Tab.get_set_ne _ _ _ _ _ h
@[simp] theorem State.gang_setQueue (s : State) (j k : Nat) (x : Queue) : (s.setQueue k x).gang j = s.gang j := rfl
@[simp] theorem State.team_setQueue (s : State) (j k : Nat) (x : Queue) : (s.setQueue k x).team j = s.team j := rfl
@[simp] theorem State.core_setQueue (s : State) (j k : Nat) (x : Queue) : (s.setQueue k x).core j = s.core j := rfl
@[simp] theorem State.grid_setQueue (s : State) (j k : Nat) (x : Queue) : (s.setQueue k x).grid j = s.grid j := rfl
@[simp] theorem State.ctx_setQueue (s : State) (j k : Nat) (x : Queue) : (s.setQueue k x).ctx j = s.ctx j := rfl
@[simp] theorem State.ldev_setQueue (s : State) (j k : Nat) (x : Queue) : (s.setQueue k x).ldev j = s.ldev j := rfl
@[simp] theorem State.port_setQueue (s : State) (j k : Nat) (x : Queue) : (s.setQueue k x).port j = s.port j := rfl

end Sys2Proof.Machine
end

