-- ==== Sys2Proof/Laws/Ops.lean ====
section
/-! SUPPORT. What each shared operation can do, said once: the guard of every word, register writes with their frames, lane
masks, slices, faults, cells, and the parts of a step. -/

namespace Sys2Proof.Machine

open Sys2Proof.Claims

/-! ### The issuing gang -/

@[simp] theorem State.cur_modCur (s : State) (f : Gang → Gang) : (s.modCur f).cur = f s.cur := by
  simp [State.cur, State.modCur]

@[simp] theorem State.iss_modCur (s : State) (f : Gang → Gang) : (s.modCur f).iss = s.iss := rfl
@[simp] theorem State.dmem_modCur (s : State) (f : Gang → Gang) : (s.modCur f).dmem = s.dmem := rfl
@[simp] theorem State.teams_modCur (s : State) (f : Gang → Gang) : (s.modCur f).teams = s.teams := rfl
@[simp] theorem State.ctxs_modCur (s : State) (f : Gang → Gang) : (s.modCur f).ctxs = s.ctxs := rfl

theorem Tab.set_set {α : Type} (t : Tab α) (k : Nat) (v w : α) : (Tab.set t k v).set k w = t.set k w := by
  induction t with
  | nil => simp [Tab.set]
  | cons p t ih =>
    obtain ⟨a, x⟩ := p
    simp only [Tab.set]
    split
    · next h => simp [Tab.set, h]
    · split
      · simp [Tab.set]
      · next h h' => simp [Tab.set, h, h', ih]

@[simp] theorem State.modCur_modCur (s : State) (f g : Gang → Gang) : (s.modCur f).modCur g = s.modCur fun x => g (f x) := by
  simp [State.modCur, State.setGang, State.gang, Tab.get_set, Tab.set_set]

theorem State.modCur_congr (s : State) (f g : Gang → Gang) (h : f s.cur = g s.cur) : s.modCur f = s.modCur g := by
  simp only [State.cur] at h; simp [State.modCur, h]

/-! ### Every word's guard -/

/-- A word that no issue check stops answers its effect, once the hosts have answered for the pages it needs. -/
theorem guard_of_admits {i : Instr} {s : State} (h : Admits i s) (f : State → State) (hn : Answered s (f s)) :
    guard i s f = .next (f s) := by
  simp only [Admits] at h; simp only [Answered] at hn; simp [guard, h, hn]

/-- Until then it only asks. -/
theorem guard_of_unanswered {i : Instr} {s : State} (h : Admits i s) (f : State → State) (hn : ¬ Answered s (f s)) :
    guard i s f = .next (s.awaitHost (f s).hostNeed) := by
  simp only [Admits] at h; simp only [Answered] at hn; simp [guard, h, hn]

/-- A word that a check stops faults, and has no effect. -/
theorem guard_of_fault {i : Instr} {s : State} {c : Nat} {e : FInfo} (h : wordFault i s = some (c, e)) (f : State → State) :
    guard i s f = .next (s.fault e) := by simp [guard, h]

/-- All that a guarded word can do. -/
theorem guard_cases (i : Instr) (s : State) (f : State → State) :
    (wordFault i s = none ∧ guard i s f = .next (if (f s).hostNeed = s.hostNeed then f s else s.awaitHost (f s).hostNeed)) ∨
    ∃ c e, wordFault i s = some (c, e) ∧ guard i s f = .next (s.fault e) := by
  rcases h : wordFault i s with _ | ⟨c, e⟩
  · refine .inl ⟨rfl, ?_⟩
    simp only [guard, h]
  · exact .inr ⟨c, e, rfl, guard_of_fault h f⟩

theorem Completes.intro {i : Instr} {s t : State} {P : State → Prop} (h : exec i s = .next t) (hp : P t) : Completes i s P :=
  ⟨t, h, hp⟩

theorem Completes.mono {i : Instr} {s : State} {P Q : State → Prop} (h : Completes i s P) (hpq : ∀ t, P t → Q t) : Completes i s Q :=
  let ⟨t, e, p⟩ := h
  ⟨t, e, hpq t p⟩

/-! ### Lane masks -/

theorem bit_iff (x i : Nat) : bit x i = x.testBit i := by
  simp [bit, Nat.testBit, Nat.shiftRight_eq_div_pow, Nat.one_and_eq_mod_two]

theorem mem_maskBits (m n i : Nat) : i ∈ maskBits m n ↔ i < n ∧ bit m i = true := by
  simp [maskBits]

theorem State.mem_lanes (s : State) (i : Nat) : i ∈ s.lanes ↔ i < 64 ∧ s.active i = true := mem_maskBits _ _ _

theorem maskBits_nodup (m n : Nat) : (maskBits m n).Nodup := List.Nodup.filter _ List.nodup_range

theorem Tab.get_foldl_set {α : Type} (d : α) (f : Nat → α) (l : List Nat) (t : Tab α) (i : Nat) :
    Tab.get d (l.foldl (fun t i => Tab.set t i (f i)) t) i = if i ∈ l then f i else Tab.get d t i := by
  induction l generalizing t with
  | nil => simp
  | cons a l ih =>
    rw [List.foldl_cons, ih]
    by_cases h : i ∈ l
    · simp [h]
    · by_cases e : i = a
      · subst e; simp [h, Tab.get_set]
      · simp [h, e, Tab.get_set_ne _ _ _ _ _ e]

/-! ### Register writes, with their frames -/

theorem State.writeS_spec (s : State) (d : SReg) (x : W64) : ScalarWrite s (s.writeS d x) d x := by
  have hc : (s.writeS d x).cur = s.cur.writeS s.iss.sup d.val x := by simp [State.writeS]
  have hi : (s.writeS d x).iss = s.iss := rfl
  refine ⟨?_, fun n hn => ?_, fun n hn => ?_, fun h => ?_, ?_, ?_⟩
  · simp only [sreg, hi, hc, Gang.writeS]
    by_cases h0 : d.val = 0
    · simp [h0]
    · by_cases hb : s.iss.sup = true ∧ 48 ≤ d.val <;> simp [h0, hb, Tab.get_set]
  · have hv : n.val ≠ d.val := fun e => hn (Fin.ext e)
    simp only [sreg, hi, hc, Gang.writeS]
    by_cases h0 : d.val = 0
    · simp [h0]
    · by_cases hb : s.iss.sup = true ∧ 48 ≤ d.val <;> simp [h0, hb, Tab.get_set_ne _ _ _ _ _ hv]
  · rw [hc]
    simp only [Gang.writeS]
    by_cases h0 : d.val = 0
    · simp [h0]
    · by_cases hb : s.iss.sup = true ∧ 48 ≤ d.val <;> simp [h0, hb, Tab.get_set_ne _ _ _ _ _ hn]
  · rw [hc]; simp [Gang.writeS, h]
  · simp only [OnlyScalars, hc]
    refine State.modCur_congr _ _ _ ?_
    simp only [Gang.writeS]
    split
    · rfl
    · split <;> rfl
  · rw [hc]
    simp only [Gang.writeS]
    by_cases h0 : d.val = 0
    · simp [h0]
    · by_cases hb : s.iss.sup = true ∧ 48 ≤ d.val <;> simp [h0, hb]

theorem State.writeA_spec (s : State) (d : AReg) (x : AffReg) : AffineWrite s (s.writeA d x) d x := by
  have hc : (s.writeA d x).cur = s.cur.writeA s.iss.sup d.val x := by simp [State.writeA]
  have hi : (s.writeA d x).iss = s.iss := rfl
  refine ⟨?_, fun n hn => ?_, fun n hn => ?_, ?_, ?_⟩
  · simp only [areg, hi, hc, Gang.writeA]
    by_cases hb : s.iss.sup = true ∧ 14 ≤ d.val <;> simp [hb, Tab.get_set]
  · have hv : n.val ≠ d.val := fun e => hn (Fin.ext e)
    simp only [areg, hi, hc, Gang.writeA]
    by_cases hb : s.iss.sup = true ∧ 14 ≤ d.val <;> simp [hb, Tab.get_set_ne _ _ _ _ _ hv]
  · rw [hc]
    simp only [Gang.writeA]
    by_cases hb : s.iss.sup = true ∧ 14 ≤ d.val <;> simp [hb, Tab.get_set_ne _ _ _ _ _ hn]
  · rw [hc]
    simp only [Gang.writeA]
    by_cases hb : s.iss.sup = true ∧ 14 ≤ d.val <;> simp [hb]
  · simp only [hc]
    refine State.modCur_congr _ _ _ ?_
    simp only [Gang.writeA]
    split <;> rfl

theorem State.writeV_spec (s : State) (d : VReg) (f : Nat → W32) : VectorWrite s (s.writeV d f) d f := by
  have hc : (s.writeV d f).cur = s.cur.writeV d.val s.lanes f := by simp [State.writeV]
  refine ⟨fun i hi => ?_, fun n i hn => ?_, ?_⟩
  · have hm := s.mem_lanes i
    simp only [vreg, hc, Gang.writeV, Tab.get_set, Tab.get_foldl_set, hm, hi, true_and]
  · simp only [vreg, hc, Gang.writeV, Tab.get_set_ne _ _ _ _ _ hn]
  · simp only [hc]
    exact State.modCur_congr _ _ _ rfl

theorem bit_setBits (x i j : Nat) (b : Bool) : bit (setBits x i 1 b.toNat) j = if j = i then b else bit x j := by
  have hx : setBits x i 1 b.toNat = x - (x.testBit i).toNat * 2 ^ i + b.toNat * 2 ^ i := by
    have : bits x i 1 = (x.testBit i).toNat := by
      rw [← bit_iff]; simp only [bits, bit, pow_one]
      rcases Nat.mod_two_eq_zero_or_one (x / 2 ^ i) with h | h <;> simp [h]
    have hb : b.toNat % 2 = b.toNat := by cases b <;> rfl
    simp [setBits, this, hb]
  have hd : x = x / 2 ^ (i + 1) * 2 ^ (i + 1) + (x.testBit i).toNat * 2 ^ i + x % 2 ^ i := by
    have h1 := Nat.div_add_mod x (2 ^ i)
    have h2 := Nat.div_add_mod (x / 2 ^ i) 2
    have h3 : x / 2 ^ (i + 1) = x / 2 ^ i / 2 := by rw [pow_succ, Nat.div_div_eq_div_mul]
    have h4 : x / 2 ^ i % 2 = (x.testBit i).toNat := by
      rw [← bit_iff]; simp only [bit]
      rcases Nat.mod_two_eq_zero_or_one (x / 2 ^ i) with h | h <;> simp [h]
    rw [h3, pow_succ]; rw [h4] at h2; rw [← h2] at h1; linarith
  have hr : setBits x i 1 b.toNat = x / 2 ^ (i + 1) * 2 ^ (i + 1) + b.toNat * 2 ^ i + x % 2 ^ i := by
    rw [hx]; generalize (x.testBit i).toNat * 2 ^ i = a at *; omega
  have key : ∀ (c : Bool) (q r : Nat), r < 2 ^ i → (q * 2 ^ (i + 1) + c.toNat * 2 ^ i + r).testBit j =
      if j < i then r.testBit j else if j = i then c else q.testBit (j - (i + 1)) := by
    intro c q r hlt
    have e : q * 2 ^ (i + 1) + c.toNat * 2 ^ i + r = 2 ^ i * (2 * q + c.toNat) + r := by ring
    rw [e, Nat.testBit_two_pow_mul_add _ hlt]
    by_cases h1 : j < i
    · simp [h1]
    · by_cases h2 : j = i
      · subst h2; cases c <;> simp [Nat.testBit_zero]
      · have : j - i = (j - (i + 1)) + 1 := by omega
        simp only [h1, h2, if_false, this, Nat.testBit_succ]
        congr 1; cases c
        · simp
        · simp; omega
  have hlt : x % 2 ^ i < 2 ^ i := Nat.mod_lt _ (by positivity)
  rw [bit_iff, hr, key b _ _ hlt]
  by_cases h : j = i
  · subst h; simp
  · have hk := key (x.testBit i) (x / 2 ^ (i + 1)) _ hlt
    rw [← hd] at hk
    simp only [h, if_false] at hk ⊢
    rw [bit_iff, hk]

theorem bit_foldl_setBits (f : Nat → Bool) (l : List Nat) (m : W64) (i : Nat) (hi : i < 64) (hl : ∀ j ∈ l, j < 64) :
    bit (l.foldl (fun m i => BitVec.ofNat 64 (setBits m.toNat i 1 (f i).toNat)) m).toNat i = if i ∈ l then f i else bit m.toNat i := by
  induction l generalizing m with
  | nil => simp
  | cons a l ih =>
    rw [List.foldl_cons, ih _ fun j hj => hl j (List.mem_cons_of_mem _ hj)]
    have hb : bit (BitVec.ofNat 64 (setBits m.toNat a 1 (f a).toNat)).toNat i = bit (setBits m.toNat a 1 (f a).toNat) i := by
      rw [bit_iff, bit_iff, BitVec.toNat_ofNat, Nat.testBit_mod_two_pow]; simp [hi]
    rw [hb, bit_setBits]
    by_cases h : i ∈ l
    · simp [h]
    · by_cases e : i = a <;> simp [h, e]

theorem State.writeP_spec (s : State) (d : PReg) (f : Nat → Bool) : PredWrite s (s.writeP d f) d f := by
  have hc : (s.writeP d f).cur = s.cur.writeP s.iss.sup d.val s.lanes f := by simp [State.writeP]
  have hi : (s.writeP d f).iss = s.iss := rfl
  have hl : ∀ j ∈ s.lanes, j < 64 := fun j hj => ((s.mem_lanes j).1 hj).1
  refine ⟨fun h => ?_, fun h0 i hlt => ?_, fun n hn => ?_, ?_, ?_⟩
  · rw [hc]; simp [Gang.writeP, h]
  · have hm := s.mem_lanes i
    simp only [preg, hi, hc, Gang.writeP, h0, if_false]
    by_cases hb : s.iss.sup = true ∧ 6 ≤ d.val <;>
      simp [hb, Tab.get_set, bit_foldl_setBits f s.lanes _ i hlt hl, hm, hlt]
  · have hv : n.val ≠ d.val := fun e => hn (Fin.ext e)
    simp only [preg, hi, hc, Gang.writeP]
    by_cases h0 : d.val = 0
    · simp [h0]
    · by_cases hb : s.iss.sup = true ∧ 6 ≤ d.val <;> simp [h0, hb, Tab.get_set_ne _ _ _ _ _ hv]
  · rw [hc]
    simp only [Gang.writeP]
    by_cases h0 : d.val = 0
    · simp [h0]
    · by_cases hb : s.iss.sup = true ∧ 6 ≤ d.val <;> simp [h0, hb]
  · simp only [hc]
    refine State.modCur_congr _ _ _ ?_
    simp only [Gang.writeP]
    split
    · rfl
    · split <;> rfl

/-! ### Slices -/

theorem Gang.slice_modSlice (g : Gang) (j k : Nat) (f : Slice → Slice) :
    (g.modSlice k f).slice j = if j = k then f (g.slice k) else g.slice j := by
  by_cases h : j = k
  · subst h; simp [Gang.modSlice, Gang.setSlice, Gang.slice, Tab.get_set]
  · simp [Gang.modSlice, Gang.setSlice, Gang.slice, h, Tab.get_set_ne _ _ _ _ _ h]

/-- Each listed slice is changed once; every other is as before. -/
theorem Gang.slice_modSlices (g : Gang) (ks : List Nat) (f : Nat → Slice → Slice) (h : ks.Nodup) (j : Nat) :
    (g.modSlices ks f).slice j = if j ∈ ks then f j (g.slice j) else g.slice j := by
  induction ks generalizing g with
  | nil => simp [Gang.modSlices]
  | cons k ks ih =>
    rw [List.nodup_cons] at h
    have e : g.modSlices (k :: ks) f = (g.modSlice k (f k)).modSlices ks f := rfl
    rw [e, ih _ h.2, Gang.slice_modSlice]
    by_cases hj : j = k
    · subst hj; simp [h.1]
    · simp [hj]

/-! ### Results and steps -/

@[simp] theorem Res.andThen_next (s : State) (f : State → Res) : Res.andThen (.next s) f = f s := rfl

theorem Res.next_of_andThen {r : Res} {f : State → Res} {t : State} (h : Res.andThen r f = .next t) : ∃ s, r = .next s ∧ f s = .next t := by
  cases r with
  | next s => exact ⟨s, rfl, h⟩
  | fault x => cases h
  | refused x => cases h

/-! ### Cells -/

/-- Sending a cell changes the queue of one port, or the part's own loop, and the sequence number; nothing else. -/
theorem State.sendCell_frame (s : State) (c : Cell) :
    ∃ ports loop seq, s.sendCell c = { s with ports := ports, loop := loop, seqTx := seq } := by
  simp only [State.sendCell]
  split
  · exact ⟨_, _, _, rfl⟩
  · exact ⟨_, _, _, rfl⟩

/-- Refusing a cell sends at most one cell. -/
theorem State.refuseCell_frame (s : State) (c : Cell) :
    ∃ ports loop seq, s.refuseCell c = { s with ports := ports, loop := loop, seqTx := seq } := by
  simp only [State.refuseCell, State.reply]
  repeat' split
  all_goals first | exact s.sendCell_frame _ | exact ⟨_, _, _, rfl⟩

/-- What taking a cell may change: ports, the loop, cells that wait or came ahead, and the sequence numbers; nothing else. -/
def CellFrame (s t : State) : Prop :=
  ∃ ports loop tx rx later early,
    t = { s with ports := ports, loop := loop, seqTx := tx, seqRx := rx, deferred := later, ahead := early }

theorem CellFrame.trans {s t u : State} (h : CellFrame s t) (k : CellFrame t u) : CellFrame s u := by
  obtain ⟨_, _, _, _, _, _, rfl⟩ := h
  obtain ⟨_, _, _, _, _, _, rfl⟩ := k
  exact ⟨_, _, _, _, _, _, rfl⟩

/-- Discarding a bad cell counts it, and answers it where it must be. -/
theorem State.dropBad_frame (s : State) (port : Nat) (c : Cell) : CellFrame s (s.dropBad port c).1 := by
  simp only [State.dropBad]
  repeat' split
  · exact ⟨_, _, _, _, _, _, rfl⟩
  · exact ⟨_, _, _, _, _, _, rfl⟩
  · obtain ⟨p, l, x, e⟩ := State.refuseCell_frame (s.modPort port fun p => { p with badcell := min 255 (p.badcell + 1) }) c
    rw [e]
    exact ⟨_, _, _, _, _, _, rfl⟩

theorem State.acceptLoop_frame (s : State) (c : Cell) : CellFrame s (s.acceptLoop c).1 := by
  simp only [State.acceptLoop]
  repeat' split
  all_goals first
    | exact ⟨_, _, _, _, _, _, rfl⟩
    | exact CellFrame.trans ⟨_, _, _, _, _, _, rfl⟩ (State.dropBad_frame _ _ _)

theorem State.acceptSeq_frame (s : State) (port : Nat) (c : Cell) : CellFrame s (s.acceptSeq port c).1 := by
  simp only [State.acceptSeq]
  repeat' split
  all_goals first
    | exact ⟨_, _, _, _, _, _, rfl⟩
    | exact CellFrame.trans ⟨_, _, _, _, _, _, rfl⟩ (State.dropBad_frame _ _ _)

theorem State.acceptAhead_frame (s : State) (c : Cell) : CellFrame s (s.acceptAhead c).1 := by
  simp only [State.acceptAhead]
  repeat' split
  all_goals first
    | exact ⟨_, _, _, _, _, _, rfl⟩
    | exact CellFrame.trans ⟨_, _, _, _, _, _, rfl⟩ (State.acceptSeq_frame _ _ _)

theorem State.accept_frame (s : State) (r : Rx) : CellFrame s (s.accept r).1 := by
  simp only [State.accept]
  repeat' split
  · exact s.acceptLoop_frame _
  · exact ⟨_, _, _, _, _, _, rfl⟩
  · exact ⟨_, _, _, _, _, _, rfl⟩
  · exact s.acceptAhead_frame _
  · exact CellFrame.trans ⟨_, _, _, _, _, _, rfl⟩ (State.acceptSeq_frame _ _ _)
  · exact ⟨_, _, _, _, _, _, rfl⟩

/-! ### Reset -/

theorem State.reset_dmem_wf : State.reset.dmem.wf = true := rfl

end Sys2Proof.Machine
end

