-- ==== Sys2Proof/Laws/PerInstr.lean ====
section
/-! SUPPORT. Statements about every instruction as syntax, one lemma a constructor: how many words an instruction takes. -/

namespace Sys2Proof.Laws.Encoding

/-- An SL word takes the word after it as its literal (R103, R111); every other word is one; an event is none. -/
def Statement (i : Instr) : Prop :=
  (encode i).length = if i.isWord then (match i with
    | .slit _ _ => 2
    | .slitN32 _ _ => 2
    | _ => 1) else 0

end Sys2Proof.Laws.Encoding

namespace Sys2Proof

theorem Laws.Encoding.sadd : ∀ a b c, Laws.Encoding.Statement (.sadd a b c) := fun _ _ _ => rfl
theorem Laws.Encoding.ssub : ∀ a b c, Laws.Encoding.Statement (.ssub a b c) := fun _ _ _ => rfl
theorem Laws.Encoding.smul : ∀ a b c, Laws.Encoding.Statement (.smul a b c) := fun _ _ _ => rfl
theorem Laws.Encoding.smulhI64 : ∀ a b c, Laws.Encoding.Statement (.smulhI64 a b c) := fun _ _ _ => rfl
theorem Laws.Encoding.smulhN64 : ∀ a b c, Laws.Encoding.Statement (.smulhN64 a b c) := fun _ _ _ => rfl
theorem Laws.Encoding.sdivI64 : ∀ a b c, Laws.Encoding.Statement (.sdivI64 a b c) := fun _ _ _ => rfl
theorem Laws.Encoding.sdivN64 : ∀ a b c, Laws.Encoding.Statement (.sdivN64 a b c) := fun _ _ _ => rfl
theorem Laws.Encoding.sremI64 : ∀ a b c, Laws.Encoding.Statement (.sremI64 a b c) := fun _ _ _ => rfl
theorem Laws.Encoding.sremN64 : ∀ a b c, Laws.Encoding.Statement (.sremN64 a b c) := fun _ _ _ => rfl
theorem Laws.Encoding.sand : ∀ a b c, Laws.Encoding.Statement (.sand a b c) := fun _ _ _ => rfl
theorem Laws.Encoding.sor : ∀ a b c, Laws.Encoding.Statement (.sor a b c) := fun _ _ _ => rfl
theorem Laws.Encoding.sxor : ∀ a b c, Laws.Encoding.Statement (.sxor a b c) := fun _ _ _ => rfl
theorem Laws.Encoding.snot : ∀ a b, Laws.Encoding.Statement (.snot a b) := fun _ _ => rfl
theorem Laws.Encoding.sshl : ∀ a b c, Laws.Encoding.Statement (.sshl a b c) := fun _ _ _ => rfl
theorem Laws.Encoding.sshr : ∀ a b c, Laws.Encoding.Statement (.sshr a b c) := fun _ _ _ => rfl
theorem Laws.Encoding.ssra : ∀ a b c, Laws.Encoding.Statement (.ssra a b c) := fun _ _ _ => rfl
theorem Laws.Encoding.smin : ∀ a b c, Laws.Encoding.Statement (.smin a b c) := fun _ _ _ => rfl
theorem Laws.Encoding.smax : ∀ a b c, Laws.Encoding.Statement (.smax a b c) := fun _ _ _ => rfl
theorem Laws.Encoding.sminn : ∀ a b c, Laws.Encoding.Statement (.sminn a b c) := fun _ _ _ => rfl
theorem Laws.Encoding.smaxn : ∀ a b c, Laws.Encoding.Statement (.smaxn a b c) := fun _ _ _ => rfl
theorem Laws.Encoding.ssel : ∀ a b c, Laws.Encoding.Statement (.ssel a b c) := fun _ _ _ => rfl
theorem Laws.Encoding.smov : ∀ a b, Laws.Encoding.Statement (.smov a b) := fun _ _ => rfl
theorem Laws.Encoding.sclz : ∀ a b, Laws.Encoding.Statement (.sclz a b) := fun _ _ => rfl
theorem Laws.Encoding.spopc : ∀ a b, Laws.Encoding.Statement (.spopc a b) := fun _ _ => rfl
theorem Laws.Encoding.sbfxI64 : ∀ a b c, Laws.Encoding.Statement (.sbfxI64 a b c) := fun _ _ _ => rfl
theorem Laws.Encoding.sbfxN64 : ∀ a b c, Laws.Encoding.Statement (.sbfxN64 a b c) := fun _ _ _ => rfl
theorem Laws.Encoding.sbfi : ∀ a b c, Laws.Encoding.Statement (.sbfi a b c) := fun _ _ _ => rfl
theorem Laws.Encoding.scmp : ∀ a b c d, Laws.Encoding.Statement (.scmp a b c d) := fun _ _ _ _ => rfl
theorem Laws.Encoding.sli : ∀ a b, Laws.Encoding.Statement (.sli a b) := fun _ _ => rfl
theorem Laws.Encoding.slit : ∀ a b, Laws.Encoding.Statement (.slit a b) := fun _ _ => rfl
theorem Laws.Encoding.slitN32 : ∀ a b, Laws.Encoding.Statement (.slitN32 a b) := fun _ _ => rfl
theorem Laws.Encoding.aset : ∀ a b c, Laws.Encoding.Statement (.aset a b c) := fun _ _ _ => rfl
theorem Laws.Encoding.aadd : ∀ a b c d, Laws.Encoding.Statement (.aadd a b c d) := fun _ _ _ _ => rfl
theorem Laws.Encoding.astr : ∀ a b c, Laws.Encoding.Statement (.astr a b c) := fun _ _ _ => rfl
theorem Laws.Encoding.amul : ∀ a b c d, Laws.Encoding.Statement (.amul a b c d) := fun _ _ _ _ => rfl
theorem Laws.Encoding.aidx : ∀ a b c, Laws.Encoding.Statement (.aidx a b c) := fun _ _ _ => rfl
theorem Laws.Encoding.aget : ∀ a b, Laws.Encoding.Statement (.aget a b) := fun _ _ => rfl
theorem Laws.Encoding.pand : ∀ a b c, Laws.Encoding.Statement (.pand a b c) := fun _ _ _ => rfl
theorem Laws.Encoding.por : ∀ a b c, Laws.Encoding.Statement (.por a b c) := fun _ _ _ => rfl
theorem Laws.Encoding.pxor : ∀ a b c, Laws.Encoding.Statement (.pxor a b c) := fun _ _ _ => rfl
theorem Laws.Encoding.pnot : ∀ a b, Laws.Encoding.Statement (.pnot a b) := fun _ _ => rfl
theorem Laws.Encoding.pmov : ∀ a b, Laws.Encoding.Statement (.pmov a b) := fun _ _ => rfl
theorem Laws.Encoding.pcnt : ∀ a b, Laws.Encoding.Statement (.pcnt a b) := fun _ _ => rfl
theorem Laws.Encoding.vaddVv : ∀ a b c, Laws.Encoding.Statement (.vaddVv a b c) := fun _ _ _ => rfl
theorem Laws.Encoding.vaddVx : ∀ a b c, Laws.Encoding.Statement (.vaddVx a b c) := fun _ _ _ => rfl
theorem Laws.Encoding.vsubVv : ∀ a b c, Laws.Encoding.Statement (.vsubVv a b c) := fun _ _ _ => rfl
theorem Laws.Encoding.vsubVx : ∀ a b c, Laws.Encoding.Statement (.vsubVx a b c) := fun _ _ _ => rfl
theorem Laws.Encoding.vmulVv : ∀ a b c, Laws.Encoding.Statement (.vmulVv a b c) := fun _ _ _ => rfl
theorem Laws.Encoding.vmulVx : ∀ a b c, Laws.Encoding.Statement (.vmulVx a b c) := fun _ _ _ => rfl
theorem Laws.Encoding.vmulhI32Vv : ∀ a b c, Laws.Encoding.Statement (.vmulhI32Vv a b c) := fun _ _ _ => rfl
theorem Laws.Encoding.vmulhI32Vx : ∀ a b c, Laws.Encoding.Statement (.vmulhI32Vx a b c) := fun _ _ _ => rfl
theorem Laws.Encoding.vmulhN32Vv : ∀ a b c, Laws.Encoding.Statement (.vmulhN32Vv a b c) := fun _ _ _ => rfl
theorem Laws.Encoding.vmulhN32Vx : ∀ a b c, Laws.Encoding.Statement (.vmulhN32Vx a b c) := fun _ _ _ => rfl
theorem Laws.Encoding.vmadVv : ∀ a b c, Laws.Encoding.Statement (.vmadVv a b c) := fun _ _ _ => rfl
theorem Laws.Encoding.vmadVx : ∀ a b c, Laws.Encoding.Statement (.vmadVx a b c) := fun _ _ _ => rfl
theorem Laws.Encoding.vsaddI32Vv : ∀ a b c, Laws.Encoding.Statement (.vsaddI32Vv a b c) := fun _ _ _ => rfl
theorem Laws.Encoding.vsaddI32Vx : ∀ a b c, Laws.Encoding.Statement (.vsaddI32Vx a b c) := fun _ _ _ => rfl
theorem Laws.Encoding.vsaddN32Vv : ∀ a b c, Laws.Encoding.Statement (.vsaddN32Vv a b c) := fun _ _ _ => rfl
theorem Laws.Encoding.vsaddN32Vx : ∀ a b c, Laws.Encoding.Statement (.vsaddN32Vx a b c) := fun _ _ _ => rfl
theorem Laws.Encoding.vssubI32Vv : ∀ a b c, Laws.Encoding.Statement (.vssubI32Vv a b c) := fun _ _ _ => rfl
theorem Laws.Encoding.vssubI32Vx : ∀ a b c, Laws.Encoding.Statement (.vssubI32Vx a b c) := fun _ _ _ => rfl
theorem Laws.Encoding.vssubN32Vv : ∀ a b c, Laws.Encoding.Statement (.vssubN32Vv a b c) := fun _ _ _ => rfl
theorem Laws.Encoding.vssubN32Vx : ∀ a b c, Laws.Encoding.Statement (.vssubN32Vx a b c) := fun _ _ _ => rfl
theorem Laws.Encoding.vminVv : ∀ a b c, Laws.Encoding.Statement (.vminVv a b c) := fun _ _ _ => rfl
theorem Laws.Encoding.vminVx : ∀ a b c, Laws.Encoding.Statement (.vminVx a b c) := fun _ _ _ => rfl
theorem Laws.Encoding.vmaxVv : ∀ a b c, Laws.Encoding.Statement (.vmaxVv a b c) := fun _ _ _ => rfl
theorem Laws.Encoding.vmaxVx : ∀ a b c, Laws.Encoding.Statement (.vmaxVx a b c) := fun _ _ _ => rfl
theorem Laws.Encoding.vminnVv : ∀ a b c, Laws.Encoding.Statement (.vminnVv a b c) := fun _ _ _ => rfl
theorem Laws.Encoding.vminnVx : ∀ a b c, Laws.Encoding.Statement (.vminnVx a b c) := fun _ _ _ => rfl
theorem Laws.Encoding.vmaxnVv : ∀ a b c, Laws.Encoding.Statement (.vmaxnVv a b c) := fun _ _ _ => rfl
theorem Laws.Encoding.vmaxnVx : ∀ a b c, Laws.Encoding.Statement (.vmaxnVx a b c) := fun _ _ _ => rfl
theorem Laws.Encoding.vandVv : ∀ a b c, Laws.Encoding.Statement (.vandVv a b c) := fun _ _ _ => rfl
theorem Laws.Encoding.vandVx : ∀ a b c, Laws.Encoding.Statement (.vandVx a b c) := fun _ _ _ => rfl
theorem Laws.Encoding.vorVv : ∀ a b c, Laws.Encoding.Statement (.vorVv a b c) := fun _ _ _ => rfl
theorem Laws.Encoding.vorVx : ∀ a b c, Laws.Encoding.Statement (.vorVx a b c) := fun _ _ _ => rfl
theorem Laws.Encoding.vxorVv : ∀ a b c, Laws.Encoding.Statement (.vxorVv a b c) := fun _ _ _ => rfl
theorem Laws.Encoding.vxorVx : ∀ a b c, Laws.Encoding.Statement (.vxorVx a b c) := fun _ _ _ => rfl
theorem Laws.Encoding.vshlVv : ∀ a b c, Laws.Encoding.Statement (.vshlVv a b c) := fun _ _ _ => rfl
theorem Laws.Encoding.vshlVx : ∀ a b c, Laws.Encoding.Statement (.vshlVx a b c) := fun _ _ _ => rfl
theorem Laws.Encoding.vshrVv : ∀ a b c, Laws.Encoding.Statement (.vshrVv a b c) := fun _ _ _ => rfl
theorem Laws.Encoding.vshrVx : ∀ a b c, Laws.Encoding.Statement (.vshrVx a b c) := fun _ _ _ => rfl
theorem Laws.Encoding.vsraVv : ∀ a b c, Laws.Encoding.Statement (.vsraVv a b c) := fun _ _ _ => rfl
theorem Laws.Encoding.vsraVx : ∀ a b c, Laws.Encoding.Statement (.vsraVx a b c) := fun _ _ _ => rfl
theorem Laws.Encoding.vbfxI32Vv : ∀ a b c, Laws.Encoding.Statement (.vbfxI32Vv a b c) := fun _ _ _ => rfl
theorem Laws.Encoding.vbfxI32Vx : ∀ a b c, Laws.Encoding.Statement (.vbfxI32Vx a b c) := fun _ _ _ => rfl
theorem Laws.Encoding.vbfxN32Vv : ∀ a b c, Laws.Encoding.Statement (.vbfxN32Vv a b c) := fun _ _ _ => rfl
theorem Laws.Encoding.vbfxN32Vx : ∀ a b c, Laws.Encoding.Statement (.vbfxN32Vx a b c) := fun _ _ _ => rfl
theorem Laws.Encoding.vbfiVv : ∀ a b c, Laws.Encoding.Statement (.vbfiVv a b c) := fun _ _ _ => rfl
theorem Laws.Encoding.vbfiVx : ∀ a b c, Laws.Encoding.Statement (.vbfiVx a b c) := fun _ _ _ => rfl
theorem Laws.Encoding.vsel : ∀ a b c d, Laws.Encoding.Statement (.vsel a b c d) := fun _ _ _ _ => rfl
theorem Laws.Encoding.vnot : ∀ a b, Laws.Encoding.Statement (.vnot a b) := fun _ _ => rfl
theorem Laws.Encoding.vabs : ∀ a b, Laws.Encoding.Statement (.vabs a b) := fun _ _ => rfl
theorem Laws.Encoding.vneg : ∀ a b, Laws.Encoding.Statement (.vneg a b) := fun _ _ => rfl
theorem Laws.Encoding.vclz : ∀ a b, Laws.Encoding.Statement (.vclz a b) := fun _ _ => rfl
theorem Laws.Encoding.vpopc : ∀ a b, Laws.Encoding.Statement (.vpopc a b) := fun _ _ => rfl
theorem Laws.Encoding.vmov : ∀ a b, Laws.Encoding.Statement (.vmov a b) := fun _ _ => rfl
theorem Laws.Encoding.vli : ∀ a b, Laws.Encoding.Statement (.vli a b) := fun _ _ => rfl
theorem Laws.Encoding.vcmpVv : ∀ a b c d, Laws.Encoding.Statement (.vcmpVv a b c d) := fun _ _ _ _ => rfl
theorem Laws.Encoding.vcmpVx : ∀ a b c d, Laws.Encoding.Statement (.vcmpVx a b c d) := fun _ _ _ _ => rfl
theorem Laws.Encoding.vshflIdx : ∀ a b c, Laws.Encoding.Statement (.vshflIdx a b c) := fun _ _ _ => rfl
theorem Laws.Encoding.vshflIdxChk : ∀ a b c, Laws.Encoding.Statement (.vshflIdxChk a b c) := fun _ _ _ => rfl
theorem Laws.Encoding.vredAdd : ∀ a b, Laws.Encoding.Statement (.vredAdd a b) := fun _ _ => rfl
theorem Laws.Encoding.vredMin : ∀ a b, Laws.Encoding.Statement (.vredMin a b) := fun _ _ => rfl
theorem Laws.Encoding.vredMax : ∀ a b, Laws.Encoding.Statement (.vredMax a b) := fun _ _ => rfl
theorem Laws.Encoding.vscanAdd : ∀ a b, Laws.Encoding.Statement (.vscanAdd a b) := fun _ _ => rfl
theorem Laws.Encoding.vballot : ∀ a b, Laws.Encoding.Statement (.vballot a b) := fun _ _ => rfl
theorem Laws.Encoding.vvoteAny : ∀ a b, Laws.Encoding.Statement (.vvoteAny a b) := fun _ _ => rfl
theorem Laws.Encoding.vvoteAll : ∀ a b, Laws.Encoding.Statement (.vvoteAll a b) := fun _ _ => rfl
theorem Laws.Encoding.vshflUp : ∀ a b c, Laws.Encoding.Statement (.vshflUp a b c) := fun _ _ _ => rfl
theorem Laws.Encoding.vshflUpChk : ∀ a b c, Laws.Encoding.Statement (.vshflUpChk a b c) := fun _ _ _ => rfl
theorem Laws.Encoding.vshflDn : ∀ a b c, Laws.Encoding.Statement (.vshflDn a b c) := fun _ _ _ => rfl
theorem Laws.Encoding.vshflDnChk : ∀ a b c, Laws.Encoding.Statement (.vshflDnChk a b c) := fun _ _ _ => rfl
theorem Laws.Encoding.vshflXor : ∀ a b c, Laws.Encoding.Statement (.vshflXor a b c) := fun _ _ _ => rfl
theorem Laws.Encoding.vshflXorChk : ∀ a b c, Laws.Encoding.Statement (.vshflXorChk a b c) := fun _ _ _ => rfl
theorem Laws.Encoding.vbcast : ∀ a b c, Laws.Encoding.Statement (.vbcast a b c) := fun _ _ _ => rfl
theorem Laws.Encoding.vbcastChk : ∀ a b c, Laws.Encoding.Statement (.vbcastChk a b c) := fun _ _ _ => rfl
theorem Laws.Encoding.fadd : ∀ a b c d, Laws.Encoding.Statement (.fadd a b c d) := fun _ _ _ _ => rfl
theorem Laws.Encoding.fsub : ∀ a b c d, Laws.Encoding.Statement (.fsub a b c d) := fun _ _ _ _ => rfl
theorem Laws.Encoding.fmul : ∀ a b c d, Laws.Encoding.Statement (.fmul a b c d) := fun _ _ _ _ => rfl
theorem Laws.Encoding.ffma : ∀ a b c d, Laws.Encoding.Statement (.ffma a b c d) := fun _ _ _ _ => rfl
theorem Laws.Encoding.fmin : ∀ a b c d, Laws.Encoding.Statement (.fmin a b c d) := fun _ _ _ _ => rfl
theorem Laws.Encoding.fmax : ∀ a b c d, Laws.Encoding.Statement (.fmax a b c d) := fun _ _ _ _ => rfl
theorem Laws.Encoding.fabs : ∀ a b c, Laws.Encoding.Statement (.fabs a b c) := fun _ _ _ => rfl
theorem Laws.Encoding.fneg : ∀ a b c, Laws.Encoding.Statement (.fneg a b c) := fun _ _ _ => rfl
theorem Laws.Encoding.frcp : ∀ a b c, Laws.Encoding.Statement (.frcp a b c) := fun _ _ _ => rfl
theorem Laws.Encoding.frsq : ∀ a b c, Laws.Encoding.Statement (.frsq a b c) := fun _ _ _ => rfl
theorem Laws.Encoding.fsqrt : ∀ a b c, Laws.Encoding.Statement (.fsqrt a b c) := fun _ _ _ => rfl
theorem Laws.Encoding.fexp2 : ∀ a b c, Laws.Encoding.Statement (.fexp2 a b c) := fun _ _ _ => rfl
theorem Laws.Encoding.flog2 : ∀ a b c, Laws.Encoding.Statement (.flog2 a b c) := fun _ _ _ => rfl
theorem Laws.Encoding.fround : ∀ a b c d, Laws.Encoding.Statement (.fround a b c d) := fun _ _ _ _ => rfl
theorem Laws.Encoding.fcmp : ∀ a b c d e, Laws.Encoding.Statement (.fcmp a b c d e) := fun _ _ _ _ _ => rfl
theorem Laws.Encoding.cvt : ∀ a b c d e, Laws.Encoding.Statement (.cvt a b c d e) := fun _ _ _ _ _ => rfl
theorem Laws.Encoding.cvtp : ∀ a b c d, Laws.Encoding.Statement (.cvtp a b c d) := fun _ _ _ _ => rfl
theorem Laws.Encoding.ldGlobal : ∀ a b c d e, Laws.Encoding.Statement (.ldGlobal a b c d e) := fun _ _ _ _ _ => rfl
theorem Laws.Encoding.stGlobal : ∀ a b c d e, Laws.Encoding.Statement (.stGlobal a b c d e) := fun _ _ _ _ _ => rfl
theorem Laws.Encoding.pf : ∀ a b, Laws.Encoding.Statement (.pf a b) := fun _ _ => rfl
theorem Laws.Encoding.ldWindow : ∀ a b c d e, Laws.Encoding.Statement (.ldWindow a b c d e) := fun _ _ _ _ _ => rfl
theorem Laws.Encoding.stWindow : ∀ a b c d e, Laws.Encoding.Statement (.stWindow a b c d e) := fun _ _ _ _ _ => rfl
theorem Laws.Encoding.ldLocal : ∀ a b c d e, Laws.Encoding.Statement (.ldLocal a b c d e) := fun _ _ _ _ _ => rfl
theorem Laws.Encoding.stLocal : ∀ a b c d e, Laws.Encoding.Statement (.stLocal a b c d e) := fun _ _ _ _ _ => rfl
theorem Laws.Encoding.atomGlobal32 : ∀ a b c d e, Laws.Encoding.Statement (.atomGlobal32 a b c d e) := fun _ _ _ _ _ => rfl
theorem Laws.Encoding.atomGlobal64 : ∀ a b c d e, Laws.Encoding.Statement (.atomGlobal64 a b c d e) := fun _ _ _ _ _ => rfl
theorem Laws.Encoding.atomLocal32 : ∀ a b c d e, Laws.Encoding.Statement (.atomLocal32 a b c d e) := fun _ _ _ _ _ => rfl
theorem Laws.Encoding.atomLocal64 : ∀ a b c d e, Laws.Encoding.Statement (.atomLocal64 a b c d e) := fun _ _ _ _ _ => rfl
theorem Laws.Encoding.rld : ∀ a b c d e, Laws.Encoding.Statement (.rld a b c d e) := fun _ _ _ _ _ => rfl
theorem Laws.Encoding.rst : ∀ a b c d e, Laws.Encoding.Statement (.rst a b c d e) := fun _ _ _ _ _ => rfl
theorem Laws.Encoding.ratom : ∀ a b c d e, Laws.Encoding.Statement (.ratom a b c d e) := fun _ _ _ _ _ => rfl
theorem Laws.Encoding.cpy : ∀ a b c d e, Laws.Encoding.Statement (.cpy a b c d e) := fun _ _ _ _ _ => rfl
theorem Laws.Encoding.cpyc : ∀ a b c d e, Laws.Encoding.Statement (.cpyc a b c d e) := fun _ _ _ _ _ => rfl
theorem Laws.Encoding.cpyq : ∀ a b, Laws.Encoding.Statement (.cpyq a b) := fun _ _ => rfl
theorem Laws.Encoding.cpys : ∀ a b c d, Laws.Encoding.Statement (.cpys a b c d) := fun _ _ _ _ => rfl
theorem Laws.Encoding.cpyst : ∀ a b, Laws.Encoding.Statement (.cpyst a b) := fun _ _ => rfl
theorem Laws.Encoding.cpyres : ∀ a, Laws.Encoding.Statement (.cpyres a) := fun _ => rfl
theorem Laws.Encoding.cpycan : ∀ a, Laws.Encoding.Statement (.cpycan a) := fun _ => rfl
theorem Laws.Encoding.tmm : ∀ a b c d, Laws.Encoding.Statement (.tmm a b c d) := fun _ _ _ _ => rfl
theorem Laws.Encoding.tmms : ∀ a b c d, Laws.Encoding.Statement (.tmms a b c d) := fun _ _ _ _ => rfl
theorem Laws.Encoding.tzero : ∀ a, Laws.Encoding.Statement (.tzero a) := fun _ => rfl
theorem Laws.Encoding.tepi : ∀ a b c d, Laws.Encoding.Statement (.tepi a b c d) := fun _ _ _ _ => rfl
theorem Laws.Encoding.ttrn : ∀ a b, Laws.Encoding.Statement (.ttrn a b) := fun _ _ => rfl
theorem Laws.Encoding.rsinit : ∀ a b c, Laws.Encoding.Statement (.rsinit a b c) := fun _ _ _ => rfl
theorem Laws.Encoding.rsaddVector : ∀ a b c d, Laws.Encoding.Statement (.rsaddVector a b c d) := fun _ _ _ _ => rfl
theorem Laws.Encoding.rsaddAb : ∀ a b c d, Laws.Encoding.Statement (.rsaddAb a b c d) := fun _ _ _ _ => rfl
theorem Laws.Encoding.rsnorm : ∀ a b c d, Laws.Encoding.Statement (.rsnorm a b c d) := fun _ _ _ _ => rfl
theorem Laws.Encoding.rsnormReel : ∀ a b c d, Laws.Encoding.Statement (.rsnormReel a b c d) := fun _ _ _ _ => rfl
theorem Laws.Encoding.rsq : ∀ a b, Laws.Encoding.Statement (.rsq a b) := fun _ _ => rfl
theorem Laws.Encoding.rssave : ∀ a b c, Laws.Encoding.Statement (.rssave a b c) := fun _ _ _ => rfl
theorem Laws.Encoding.rsload : ∀ a b c d, Laws.Encoding.Statement (.rsload a b c d) := fun _ _ _ _ => rfl
theorem Laws.Encoding.rsfenceTeam : Laws.Encoding.Statement .rsfenceTeam := rfl
theorem Laws.Encoding.rsfenceSet : Laws.Encoding.Statement .rsfenceSet := rfl
theorem Laws.Encoding.rsfenceReel : Laws.Encoding.Statement .rsfenceReel := rfl
theorem Laws.Encoding.cred : ∀ a b c d e, Laws.Encoding.Statement (.cred a b c d e) := fun _ _ _ _ _ => rfl
theorem Laws.Encoding.cbc : ∀ a b c d, Laws.Encoding.Statement (.cbc a b c d) := fun _ _ _ _ => rfl
theorem Laws.Encoding.cgat : ∀ a b c d, Laws.Encoding.Statement (.cgat a b c d) := fun _ _ _ _ => rfl
theorem Laws.Encoding.vdist : ∀ a b c d, Laws.Encoding.Statement (.vdist a b c d) := fun _ _ _ _ => rfl
theorem Laws.Encoding.topk : ∀ a b c, Laws.Encoding.Statement (.topk a b c) := fun _ _ _ => rfl
theorem Laws.Encoding.topkm : ∀ a b c, Laws.Encoding.Statement (.topkm a b c) := fun _ _ _ => rfl
theorem Laws.Encoding.topkr : ∀ a b c, Laws.Encoding.Statement (.topkr a b c) := fun _ _ _ => rfl
theorem Laws.Encoding.nop : Laws.Encoding.Statement .nop := rfl
theorem Laws.Encoding.exit : Laws.Encoding.Statement .exit := rfl
theorem Laws.Encoding.yield : Laws.Encoding.Statement .yield := rfl
theorem Laws.Encoding.brk : ∀ a, Laws.Encoding.Statement (.brk a) := fun _ => rfl
theorem Laws.Encoding.join : Laws.Encoding.Statement .join := rfl
theorem Laws.Encoding.elect : ∀ a, Laws.Encoding.Statement (.elect a) := fun _ => rfl
theorem Laws.Encoding.regang : ∀ a, Laws.Encoding.Statement (.regang a) := fun _ => rfl
theorem Laws.Encoding.regangWait : ∀ a, Laws.Encoding.Statement (.regangWait a) := fun _ => rfl
theorem Laws.Encoding.ret : Laws.Encoding.Statement .ret := rfl
theorem Laws.Encoding.jmp : ∀ a, Laws.Encoding.Statement (.jmp a) := fun _ => rfl
theorem Laws.Encoding.launch : ∀ a, Laws.Encoding.Statement (.launch a) := fun _ => rfl
theorem Laws.Encoding.ljoin : ∀ a, Laws.Encoding.Statement (.ljoin a) := fun _ => rfl
theorem Laws.Encoding.wdetach : Laws.Encoding.Statement .wdetach := rfl
theorem Laws.Encoding.wmember : ∀ a, Laws.Encoding.Statement (.wmember a) := fun _ => rfl
theorem Laws.Encoding.pwreq : ∀ a, Laws.Encoding.Statement (.pwreq a) := fun _ => rfl
theorem Laws.Encoding.pwreqYield : ∀ a, Laws.Encoding.Statement (.pwreqYield a) := fun _ => rfl
theorem Laws.Encoding.pwrel : Laws.Encoding.Statement .pwrel := rfl
theorem Laws.Encoding.fence : ∀ a b, Laws.Encoding.Statement (.fence a b) := fun _ _ => rfl
theorem Laws.Encoding.waitcnt : ∀ a b c d e, Laws.Encoding.Statement (.waitcnt a b c d e) := fun _ _ _ _ _ => rfl
theorem Laws.Encoding.br : ∀ a, Laws.Encoding.Statement (.br a) := fun _ => rfl
theorem Laws.Encoding.brc : ∀ a b, Laws.Encoding.Statement (.brc a b) := fun _ _ => rfl
theorem Laws.Encoding.call : ∀ a, Laws.Encoding.Statement (.call a) := fun _ => rfl
theorem Laws.Encoding.jpt : ∀ a, Laws.Encoding.Statement (.jpt a) := fun _ => rfl
theorem Laws.Encoding.bar : ∀ a b, Laws.Encoding.Statement (.bar a b) := fun _ _ => rfl
theorem Laws.Encoding.phbinit : ∀ a b, Laws.Encoding.Statement (.phbinit a b) := fun _ _ => rfl
theorem Laws.Encoding.phbarr : ∀ a, Laws.Encoding.Statement (.phbarr a) := fun _ => rfl
theorem Laws.Encoding.phbexp : ∀ a b, Laws.Encoding.Statement (.phbexp a b) := fun _ _ => rfl
theorem Laws.Encoding.phbtest : ∀ a b c, Laws.Encoding.Statement (.phbtest a b c) := fun _ _ _ => rfl
theorem Laws.Encoding.phbwait : ∀ a b, Laws.Encoding.Statement (.phbwait a b) := fun _ _ => rfl
theorem Laws.Encoding.wbar : Laws.Encoding.Statement .wbar := rfl
theorem Laws.Encoding.tlsig : ∀ a b, Laws.Encoding.Statement (.tlsig a b) := fun _ _ => rfl
theorem Laws.Encoding.tlwait : ∀ a b, Laws.Encoding.Statement (.tlwait a b) := fun _ _ => rfl
theorem Laws.Encoding.tlread : ∀ a b, Laws.Encoding.Statement (.tlread a b) := fun _ _ => rfl
theorem Laws.Encoding.qpost : ∀ a b, Laws.Encoding.Statement (.qpost a b) := fun _ _ => rfl
theorem Laws.Encoding.qtail : ∀ a b, Laws.Encoding.Statement (.qtail a b) := fun _ _ => rfl
theorem Laws.Encoding.sysrd : ∀ a b, Laws.Encoding.Statement (.sysrd a b) := fun _ _ => rfl
theorem Laws.Encoding.syswr : ∀ a b, Laws.Encoding.Statement (.syswr a b) := fun _ _ => rfl
theorem Laws.Encoding.svc : ∀ a, Laws.Encoding.Statement (.svc a) := fun _ => rfl
theorem Laws.Encoding.hret : ∀ a, Laws.Encoding.Statement (.hret a) := fun _ => rfl
theorem Laws.Encoding.pgmap : ∀ a, Laws.Encoding.Statement (.pgmap a) := fun _ => rfl
theorem Laws.Encoding.pginv : ∀ a, Laws.Encoding.Statement (.pginv a) := fun _ => rfl
theorem Laws.Encoding.fltrd : ∀ a b, Laws.Encoding.Statement (.fltrd a b) := fun _ _ => rfl
theorem Laws.Encoding.qfetch : ∀ a, Laws.Encoding.Statement (.qfetch a) := fun _ => rfl
theorem Laws.Encoding.qdisp : Laws.Encoding.Statement .qdisp := rfl
theorem Laws.Encoding.qcomp : Laws.Encoding.Statement .qcomp := rfl
theorem Laws.Encoding.fetchBlock : ∀ a b c, Laws.Encoding.Statement (.fetchBlock a b c) := fun _ _ _ => rfl
theorem Laws.Encoding.nopPacket : ∀ a, Laws.Encoding.Statement (.nopPacket a) := fun _ => rfl
theorem Laws.Encoding.launchPacket : ∀ a, Laws.Encoding.Statement (.launchPacket a) := fun _ => rfl
theorem Laws.Encoding.waitPacket : ∀ a, Laws.Encoding.Statement (.waitPacket a) := fun _ => rfl
theorem Laws.Encoding.signalPacket : ∀ a, Laws.Encoding.Statement (.signalPacket a) := fun _ => rfl
theorem Laws.Encoding.barrierPacket : ∀ a, Laws.Encoding.Statement (.barrierPacket a) := fun _ => rfl
theorem Laws.Encoding.writePacket : ∀ a, Laws.Encoding.Statement (.writePacket a) := fun _ => rfl
theorem Laws.Encoding.headWriteback : ∀ a, Laws.Encoding.Statement (.headWriteback a) := fun _ => rfl
theorem Laws.Encoding.completionEntryWrite : ∀ a, Laws.Encoding.Statement (.completionEntryWrite a) := fun _ => rfl
theorem Laws.Encoding.cqCoalesceTimer : ∀ a, Laws.Encoding.Statement (.cqCoalesceTimer a) := fun _ => rfl
theorem Laws.Encoding.fwVisitTimeout : Laws.Encoding.Statement .fwVisitTimeout := rfl
theorem Laws.Encoding.fwImemUncorrectable : ∀ a, Laws.Encoding.Statement (.fwImemUncorrectable a) := fun _ => rfl
theorem Laws.Encoding.queueTableUncorrectable : ∀ a, Laws.Encoding.Statement (.queueTableUncorrectable a) := fun _ => rfl
theorem Laws.Encoding.tailWrite : ∀ a b c d, Laws.Encoding.Statement (.tailWrite a b c d) := fun _ _ _ _ => rfl
theorem Laws.Encoding.queueEnable : ∀ a b c, Laws.Encoding.Statement (.queueEnable a b c) := fun _ _ _ => rfl
theorem Laws.Encoding.queueDisable : ∀ a b c, Laws.Encoding.Statement (.queueDisable a b c) := fun _ _ _ => rfl
theorem Laws.Encoding.contextBind : ∀ a b c, Laws.Encoding.Statement (.contextBind a b c) := fun _ _ _ => rfl
theorem Laws.Encoding.cqheadWrite : ∀ a b c, Laws.Encoding.Statement (.cqheadWrite a b c) := fun _ _ _ => rfl
theorem Laws.Encoding.qStaleRead : ∀ a b, Laws.Encoding.Statement (.qStaleRead a b) := fun _ _ => rfl
theorem Laws.Encoding.nrejRead : ∀ a b, Laws.Encoding.Statement (.nrejRead a b) := fun _ _ => rfl
theorem Laws.Encoding.tlStaleRead : ∀ a, Laws.Encoding.Statement (.tlStaleRead a) := fun _ => rfl
theorem Laws.Encoding.fqLostRead : ∀ a b, Laws.Encoding.Statement (.fqLostRead a b) := fun _ _ => rfl
theorem Laws.Encoding.fqSpecRead : ∀ a b, Laws.Encoding.Statement (.fqSpecRead a b) := fun _ _ => rfl
theorem Laws.Encoding.hostAstatRead : ∀ a, Laws.Encoding.Statement (.hostAstatRead a) := fun _ => rfl
theorem Laws.Encoding.portCounterRead : ∀ a, Laws.Encoding.Statement (.portCounterRead a) := fun _ => rfl
theorem Laws.Encoding.notwinRead : ∀ a b, Laws.Encoding.Statement (.notwinRead a b) := fun _ _ => rfl
theorem Laws.Encoding.fwErrClear : Laws.Encoding.Statement .fwErrClear := rfl
theorem Laws.Encoding.registerWrite : ∀ a b c d, Laws.Encoding.Statement (.registerWrite a b c d) := fun _ _ _ _ => rfl
theorem Laws.Encoding.placementDecision : ∀ a b c d, Laws.Encoding.Statement (.placementDecision a b c d) := fun _ _ _ _ => rfl
theorem Laws.Encoding.reserve : ∀ a, Laws.Encoding.Statement (.reserve a) := fun _ => rfl
theorem Laws.Encoding.grant : ∀ a, Laws.Encoding.Statement (.grant a) := fun _ => rfl
theorem Laws.Encoding.commit : ∀ a, Laws.Encoding.Statement (.commit a) := fun _ => rfl
theorem Laws.Encoding.placed : ∀ a, Laws.Encoding.Statement (.placed a) := fun _ => rfl
theorem Laws.Encoding.start : ∀ a, Laws.Encoding.Statement (.start a) := fun _ => rfl
theorem Laws.Encoding.revoke : ∀ a, Laws.Encoding.Statement (.revoke a) := fun _ => rfl
theorem Laws.Encoding.refuse : ∀ a, Laws.Encoding.Statement (.refuse a) := fun _ => rfl
theorem Laws.Encoding.refuseFinal : ∀ a, Laws.Encoding.Statement (.refuseFinal a) := fun _ => rfl
theorem Laws.Encoding.release : ∀ a, Laws.Encoding.Statement (.release a) := fun _ => rfl
theorem Laws.Encoding.reserveHoldTimeout : ∀ a, Laws.Encoding.Statement (.reserveHoldTimeout a) := fun _ => rfl
theorem Laws.Encoding.reserveAnswerTimeout : ∀ a b, Laws.Encoding.Statement (.reserveAnswerTimeout a b) := fun _ _ => rfl
theorem Laws.Encoding.reserveRetry : ∀ a, Laws.Encoding.Statement (.reserveRetry a) := fun _ => rfl
theorem Laws.Encoding.deficitRefill : Laws.Encoding.Statement .deficitRefill := rfl
theorem Laws.Encoding.activeSetIdleEvict : ∀ a, Laws.Encoding.Statement (.activeSetIdleEvict a) := fun _ => rfl
theorem Laws.Encoding.activeQuantumExpire : ∀ a, Laws.Encoding.Statement (.activeQuantumExpire a) := fun _ => rfl
theorem Laws.Encoding.gangSwapComplete : ∀ a, Laws.Encoding.Statement (.gangSwapComplete a) := fun _ => rfl
theorem Laws.Encoding.splitUnpark : ∀ a b, Laws.Encoding.Statement (.splitUnpark a b) := fun _ _ => rfl
theorem Laws.Encoding.powerGrant : Laws.Encoding.Statement .powerGrant := rfl
theorem Laws.Encoding.powerOverLimit : Laws.Encoding.Statement .powerOverLimit := rfl
theorem Laws.Encoding.powerThrottleClear : Laws.Encoding.Statement .powerThrottleClear := rfl
theorem Laws.Encoding.loadReturn : ∀ a b c d, Laws.Encoding.Statement (.loadReturn a b c d) := fun _ _ _ _ => rfl
theorem Laws.Encoding.storeAck : ∀ a b c, Laws.Encoding.Statement (.storeAck a b c) := fun _ _ _ => rfl
theorem Laws.Encoding.atomicReturn : ∀ a b c, Laws.Encoding.Statement (.atomicReturn a b c) := fun _ _ _ => rfl
theorem Laws.Encoding.recallComplete : ∀ a b c d, Laws.Encoding.Statement (.recallComplete a b c d) := fun _ _ _ _ => rfl
theorem Laws.Encoding.pageWalkComplete : ∀ a b c, Laws.Encoding.Statement (.pageWalkComplete a b c) := fun _ _ _ => rfl
theorem Laws.Encoding.copySectorWrite : ∀ a b c, Laws.Encoding.Statement (.copySectorWrite a b c) := fun _ _ _ => rfl
theorem Laws.Encoding.copyComplete : ∀ a b, Laws.Encoding.Statement (.copyComplete a b) := fun _ _ => rfl
theorem Laws.Encoding.copyFault : ∀ a b c d, Laws.Encoding.Statement (.copyFault a b c d) := fun _ _ _ _ => rfl
theorem Laws.Encoding.nvmeCompletion : ∀ a b c d e f, Laws.Encoding.Statement (.nvmeCompletion a b c d e f) := fun _ _ _ _ _ _ => rfl
theorem Laws.Encoding.tileOpComplete : ∀ a, Laws.Encoding.Statement (.tileOpComplete a) := fun _ => rfl
theorem Laws.Encoding.tileOpFault : ∀ a b, Laws.Encoding.Statement (.tileOpFault a b) := fun _ _ => rfl
theorem Laws.Encoding.streamOpComplete : ∀ a b, Laws.Encoding.Statement (.streamOpComplete a b) := fun _ _ => rfl
theorem Laws.Encoding.streamOpFault : ∀ a b c, Laws.Encoding.Statement (.streamOpFault a b c) := fun _ _ _ => rfl
theorem Laws.Encoding.searchOpComplete : ∀ a, Laws.Encoding.Statement (.searchOpComplete a) := fun _ => rfl
theorem Laws.Encoding.searchOpFault : ∀ a, Laws.Encoding.Statement (.searchOpFault a) := fun _ => rfl
theorem Laws.Encoding.collectiveComplete : ∀ a b c, Laws.Encoding.Statement (.collectiveComplete a b c) := fun _ _ _ => rfl
theorem Laws.Encoding.svcDone : ∀ a b, Laws.Encoding.Statement (.svcDone a b) := fun _ _ => rfl
theorem Laws.Encoding.gangSwapOut : ∀ a, Laws.Encoding.Statement (.gangSwapOut a) := fun _ => rfl
theorem Laws.Encoding.gangSwapIn : ∀ a, Laws.Encoding.Statement (.gangSwapIn a) := fun _ => rfl
theorem Laws.Encoding.teamSlotFree : ∀ a, Laws.Encoding.Statement (.teamSlotFree a) := fun _ => rfl
theorem Laws.Encoding.gridRetire : ∀ a, Laws.Encoding.Statement (.gridRetire a) := fun _ => rfl
theorem Laws.Encoding.gangResume : ∀ a b, Laws.Encoding.Statement (.gangResume a b) := fun _ _ => rfl
theorem Laws.Encoding.gangEnd : ∀ a b, Laws.Encoding.Statement (.gangEnd a b) := fun _ _ => rfl
theorem Laws.Encoding.preempt : ∀ a b c, Laws.Encoding.Statement (.preempt a b c) := fun _ _ _ => rfl
theorem Laws.Encoding.preemptSaveComplete : ∀ a, Laws.Encoding.Statement (.preemptSaveComplete a) := fun _ => rfl
theorem Laws.Encoding.contextResume : ∀ a b c, Laws.Encoding.Statement (.contextResume a b c) := fun _ _ _ => rfl
theorem Laws.Encoding.twin : ∀ a b c, Laws.Encoding.Statement (.twin a b c) := fun _ _ _ => rfl
theorem Laws.Encoding.twinWriteComplete : ∀ a b, Laws.Encoding.Statement (.twinWriteComplete a b) := fun _ _ => rfl
theorem Laws.Encoding.step : ∀ a b c, Laws.Encoding.Statement (.step a b c) := fun _ _ _ => rfl
theorem Laws.Encoding.stepComplete : ∀ a, Laws.Encoding.Statement (.stepComplete a) := fun _ => rfl
theorem Laws.Encoding.rival : ∀ a b c, Laws.Encoding.Statement (.rival a b c) := fun _ _ _ => rfl
theorem Laws.Encoding.discard : ∀ a b c, Laws.Encoding.Statement (.discard a b c) := fun _ _ _ => rfl
theorem Laws.Encoding.ccMemaWrite : ∀ a b c, Laws.Encoding.Statement (.ccMemaWrite a b c) := fun _ _ _ => rfl
theorem Laws.Encoding.ccMemdRead : ∀ a b, Laws.Encoding.Statement (.ccMemdRead a b) := fun _ _ => rfl
theorem Laws.Encoding.ccMemdWrite : ∀ a b c, Laws.Encoding.Statement (.ccMemdWrite a b c) := fun _ _ _ => rfl
theorem Laws.Encoding.cut : ∀ a, Laws.Encoding.Statement (.cut a) := fun _ => rfl
theorem Laws.Encoding.cowCopy : ∀ a b, Laws.Encoding.Statement (.cowCopy a b) := fun _ _ => rfl
theorem Laws.Encoding.frameReturn : ∀ a, Laws.Encoding.Statement (.frameReturn a) := fun _ => rfl
theorem Laws.Encoding.snap : ∀ a b c, Laws.Encoding.Statement (.snap a b c) := fun _ _ _ => rfl
theorem Laws.Encoding.restore : ∀ a b c d, Laws.Encoding.Statement (.restore a b c d) := fun _ _ _ _ => rfl
theorem Laws.Encoding.restoreComplete : ∀ a, Laws.Encoding.Statement (.restoreComplete a) := fun _ => rfl
theorem Laws.Encoding.snapshotBlockWrite : ∀ a b c d e, Laws.Encoding.Statement (.snapshotBlockWrite a b c d e) := fun _ _ _ _ _ => rfl
theorem Laws.Encoding.snapshotRaiseRelease : ∀ a, Laws.Encoding.Statement (.snapshotRaiseRelease a) := fun _ => rfl
theorem Laws.Encoding.snapshotWriteComplete : ∀ a, Laws.Encoding.Statement (.snapshotWriteComplete a) := fun _ => rfl
theorem Laws.Encoding.snapReceive : ∀ a, Laws.Encoding.Statement (.snapReceive a) := fun _ => rfl
theorem Laws.Encoding.snapshotCopyAck : ∀ a, Laws.Encoding.Statement (.snapshotCopyAck a) := fun _ => rfl
theorem Laws.Encoding.snapshotPartnerTimeout : ∀ a, Laws.Encoding.Statement (.snapshotPartnerTimeout a) := fun _ => rfl
theorem Laws.Encoding.fabricSlot : ∀ a b, Laws.Encoding.Statement (.fabricSlot a b) := fun _ _ => rfl
theorem Laws.Encoding.lineWrReceive : ∀ a, Laws.Encoding.Statement (.lineWrReceive a) := fun _ => rfl
theorem Laws.Encoding.lineRqReceive : ∀ a, Laws.Encoding.Statement (.lineRqReceive a) := fun _ => rfl
theorem Laws.Encoding.lineDataReceive : ∀ a, Laws.Encoding.Statement (.lineDataReceive a) := fun _ => rfl
theorem Laws.Encoding.smallReceive : ∀ a, Laws.Encoding.Statement (.smallReceive a) := fun _ => rfl
theorem Laws.Encoding.collReceive : ∀ a, Laws.Encoding.Statement (.collReceive a) := fun _ => rfl
theorem Laws.Encoding.mcastReceive : ∀ a, Laws.Encoding.Statement (.mcastReceive a) := fun _ => rfl
theorem Laws.Encoding.streamReceive : ∀ a, Laws.Encoding.Statement (.streamReceive a) := fun _ => rfl
theorem Laws.Encoding.wbarReceive : ∀ a, Laws.Encoding.Statement (.wbarReceive a) := fun _ => rfl
theorem Laws.Encoding.wstateReceive : ∀ a, Laws.Encoding.Statement (.wstateReceive a) := fun _ => rfl
theorem Laws.Encoding.linkAck : ∀ a b, Laws.Encoding.Statement (.linkAck a b) := fun _ _ => rfl
theorem Laws.Encoding.linkNak : ∀ a b, Laws.Encoding.Statement (.linkNak a b) := fun _ _ => rfl
theorem Laws.Encoding.linkReplayTimeout : ∀ a, Laws.Encoding.Statement (.linkReplayTimeout a) := fun _ => rfl
theorem Laws.Encoding.cellCrcFail : ∀ a b, Laws.Encoding.Statement (.cellCrcFail a b) := fun _ _ => rfl
theorem Laws.Encoding.tailxReceive : ∀ a b, Laws.Encoding.Statement (.tailxReceive a b) := fun _ _ => rfl
theorem Laws.Encoding.peerDownTimeout : ∀ a, Laws.Encoding.Statement (.peerDownTimeout a) := fun _ => rfl
theorem Laws.Encoding.remoteReplyTimeout : ∀ a b c d, Laws.Encoding.Statement (.remoteReplyTimeout a b c d) := fun _ _ _ _ => rfl
theorem Laws.Encoding.hostSnoop : ∀ a b c d, Laws.Encoding.Statement (.hostSnoop a b c d) := fun _ _ _ _ => rfl
theorem Laws.Encoding.hostTranslationAnswer : ∀ a, Laws.Encoding.Statement (.hostTranslationAnswer a) := fun _ => rfl
theorem Laws.Encoding.hostTranslationInvalidate : ∀ a b, Laws.Encoding.Statement (.hostTranslationInvalidate a b) := fun _ _ => rfl
theorem Laws.Encoding.zeroLengthReadComplete : ∀ a b c, Laws.Encoding.Statement (.zeroLengthReadComplete a b c) := fun _ _ _ => rfl
theorem Laws.Encoding.atomicopCompletion : ∀ a b c d, Laws.Encoding.Statement (.atomicopCompletion a b c d) := fun _ _ _ _ => rfl
theorem Laws.Encoding.atomicopTimeout : ∀ a b, Laws.Encoding.Statement (.atomicopTimeout a b) := fun _ _ => rfl
theorem Laws.Encoding.timelineHostRead : ∀ a b, Laws.Encoding.Statement (.timelineHostRead a b) := fun _ _ => rfl
theorem Laws.Encoding.timelineHostStore : ∀ a b, Laws.Encoding.Statement (.timelineHostStore a b) := fun _ _ => rfl
theorem Laws.Encoding.timelineRaiseWrite : ∀ a, Laws.Encoding.Statement (.timelineRaiseWrite a) := fun _ => rfl
theorem Laws.Encoding.hostLinkDown : ∀ a, Laws.Encoding.Statement (.hostLinkDown a) := fun _ => rfl
theorem Laws.Encoding.ldBind : ∀ a b c d e f g h i j, Laws.Encoding.Statement (.ldBind a b c d e f g h i j) := fun _ _ _ _ _ _ _ _ _ _ => rfl
theorem Laws.Encoding.coldReset : Laws.Encoding.Statement .coldReset := rfl
theorem Laws.Encoding.warmReset : ∀ a b, Laws.Encoding.Statement (.warmReset a b) := fun _ _ => rfl
theorem Laws.Encoding.logicalDeviceReset : ∀ a, Laws.Encoding.Statement (.logicalDeviceReset a) := fun _ => rfl
theorem Laws.Encoding.memoryZeroDone : Laws.Encoding.Statement .memoryZeroDone := rfl
theorem Laws.Encoding.firmwareLoad : ∀ a, Laws.Encoding.Statement (.firmwareLoad a) := fun _ => rfl
theorem Laws.Encoding.firmwareLoadComplete : Laws.Encoding.Statement .firmwareLoadComplete := rfl
theorem Laws.Encoding.firmwareStop : ∀ a, Laws.Encoding.Statement (.firmwareStop a) := fun _ => rfl
theorem Laws.Encoding.attest : ∀ a b, Laws.Encoding.Statement (.attest a b) := fun _ _ => rfl
theorem Laws.Encoding.attestReportDone : ∀ a, Laws.Encoding.Statement (.attestReportDone a) := fun _ => rfl
theorem Laws.Encoding.featureRequest : ∀ a b, Laws.Encoding.Statement (.featureRequest a b) := fun _ _ => rfl
theorem Laws.Encoding.pwrCapWrite : ∀ a b, Laws.Encoding.Statement (.pwrCapWrite a b) := fun _ _ => rfl
theorem Laws.Encoding.arouteWrite : ∀ a b, Laws.Encoding.Statement (.arouteWrite a b) := fun _ _ => rfl
theorem Laws.Encoding.featureNegotiationDone : ∀ a, Laws.Encoding.Statement (.featureNegotiationDone a) := fun _ => rfl
theorem Laws.Encoding.preemptAnswerReceive : ∀ a, Laws.Encoding.Statement (.preemptAnswerReceive a) := fun _ => rfl

end Sys2Proof
end

