-- ==== Sys2Proof/Laws/Vocab.lean ====
section
/-! SUPPORT. Each coded field reads back the value it was written from (spec/05 R111, R116 to R118). -/

namespace Sys2Proof

@[simp] theorem Scope.ofCode_code (x : Scope) : Scope.ofCode x.code = some x := by cases x <;> rfl

theorem Scope.code_le (x : Scope) : x.code ≤ 7 := by cases x <;> decide

@[simp] theorem Cond.ofCode_code (x : Cond) : Cond.ofCode x.code = some x := by cases x <;> rfl

theorem Cond.code_le (x : Cond) : x.code ≤ 9 := by cases x <;> decide

@[simp] theorem FCond.ofCode_code (x : FCond) : FCond.ofCode x.code = some x := by cases x <;> rfl

theorem FCond.code_le (x : FCond) : x.code ≤ 10 := by cases x <;> decide

@[simp] theorem RoundMode.ofCode_code (x : RoundMode) : RoundMode.ofCode x.code = some x := by cases x <;> rfl

theorem RoundMode.code_le (x : RoundMode) : x.code ≤ 4 := by cases x <;> decide

@[simp] theorem FType.ofCode_code (x : FType) : FType.ofCode x.code = some x := by cases x <;> rfl

theorem FType.code_le (x : FType) : x.code ≤ 2 := by cases x <;> decide

@[simp] theorem CvtType.ofCode_code (x : CvtType) : CvtType.ofCode x.code = some x := by cases x <;> rfl

theorem CvtType.code_le (x : CvtType) : x.code ≤ 5 := by cases x <;> decide

@[simp] theorem LoadSize.ofCode_code (x : LoadSize) : LoadSize.ofCode x.code = some x := by cases x <;> rfl

theorem LoadSize.code_le (x : LoadSize) : x.code ≤ 5 := by cases x <;> decide

@[simp] theorem StoreSize.ofCode_code (x : StoreSize) : StoreSize.ofCode x.code = some x := by cases x <;> rfl

theorem StoreSize.code_le (x : StoreSize) : x.code ≤ 5 := by cases x <;> decide

@[simp] theorem LocalSpace.ofCode_code (x : LocalSpace) : LocalSpace.ofCode x.code = some x := by cases x <;> rfl

theorem LocalSpace.code_le (x : LocalSpace) : x.code ≤ 6 := by cases x <;> decide

@[simp] theorem AtomOp.ofCode_code (x : AtomOp) : AtomOp.ofCode x.code = some x := by cases x <;> rfl

theorem AtomOp.code_le (x : AtomOp) : x.code ≤ 10 := by cases x <;> decide

@[simp] theorem AtomPlace.ofCode_code (x : AtomPlace) : AtomPlace.ofCode x.code = some x := by cases x <;> rfl

theorem AtomPlace.code_le (x : AtomPlace) : x.code ≤ 6 := by cases x <;> decide

@[simp] theorem CopySpace.ofCode_code (x : CopySpace) : CopySpace.ofCode x.code = some x := by cases x <;> rfl

theorem CopySpace.code_le (x : CopySpace) : x.code ≤ 6 := by cases x <;> decide

@[simp] theorem DeltaType.ofCode_code (x : DeltaType) : DeltaType.ofCode x.code = some x := by cases x <;> rfl

theorem DeltaType.code_le (x : DeltaType) : x.code ≤ 3 := by cases x <;> decide

@[simp] theorem RedOp.ofCode_code (x : RedOp) : RedOp.ofCode x.code = some x := by cases x <;> rfl

theorem RedOp.code_le (x : RedOp) : x.code ≤ 2 := by cases x <;> decide

@[simp] theorem Src2.ofCode_code (x : Src2) : Src2.ofCode x.code = x := by
  cases x with
  | imm i =>
    have h : i.toNat < 64 := i.isLt
    have h2 : i.toNat / 64 % 2 = 0 := by omega
    simp [Src2.ofCode, Src2.code, h2]
  | reg r =>
    have h : (64 + r.val) / 64 % 2 ≠ 0 := by omega
    have e : (Fin.ofNat 64 (64 + r.val)) = r := by apply Fin.ext; simp [Fin.ofNat]
    rw [Src2.code, Src2.ofCode, if_neg h, e]

theorem Src2.code_lt (x : Src2) : x.code < 128 := by
  cases x with
  | imm i => have h : i.toNat < 64 := i.isLt
             simp only [Src2.code]; omega
  | reg r => simp only [Src2.code]; omega

theorem voffOfCode_voffCode (v : Option VReg) (h : v ≠ some 127) : voffOfCode (voffCode v) = v := by
  cases v with
  | none => rfl
  | some v =>
    have h1 : v.val ≠ 127 := fun e => h (by congr 1; exact Fin.ext e)
    have h2 : v.val % 128 ≠ 127 := by omega
    have e : (Fin.ofNat 128 v.val) = v := by apply Fin.ext; simp [Fin.ofNat]
    rw [voffCode, voffOfCode, if_neg h2, e]

theorem voffCode_lt (v : Option VReg) : voffCode v < 128 := by
  cases v with
  | none => decide
  | some v => exact v.isLt

end Sys2Proof
end

