-- ==== Sys2Proof/Tests/Slice0.lean ====
section
/-! SUPPORT. The model's own tests: terms the well-formedness check refuses, words written out from the spec's encodings,
single instructions with results worked out from the spec, and for each statement of Obligations.lean a state and operands
that meet the hypotheses of its clauses. -/

namespace Sys2Proof.Tests

set_option Elab.async false

open Sys2Proof.Machine Sys2Proof.Claims

/-! ### Helpers -/

/-- The instruction answers a next state of which `p` holds. -/
def after (i : Instr) (s : State) (p : State → Bool) : Bool :=
  match exec i s with
  | .next t => p t
  | _ => false

/-- A gang of eight slices, all lanes live, at the start of the device half. -/
def gang0 : Gang :=
  { resident := true, nslices := 8, vregs := 16, active := some 0
    slices := (List.range 8).map fun k => (k, { pc := 2 ^ 56, mask := 15, live := 15 }) }
def team0 : Team := { valid := true, ctx := 0, gangs := 1, scratchSize := 4096, divisor := 1, shares := [1, 1, 1, 1] }
def ctx0 : Ctx := { bound := true, state := .running, partners := [(0, 0x80)] }

/-- A part with one gang, issuing its packet for 32 lanes. -/
def base : State :=
  { iss := { gid := 0, slices := List.range 8, lanes := 0xffffffff, pc := 2 ^ 56 }
    gangs := [(0, gang0)], teams := [(0, team0)], ctxs := [(0, ctx0)], grids := [(0, { valid := true })] }

/-- The same with registers, as the packet finds them. -/
def withRegs (r : Regs) : State :=
  { base with iss := { base.iss with src := r }, gangs := [(0, { gang0 with regs := r })] }
def withS (l : Tab W64) : State := withRegs { s := l }

/-- 32 MB of the device half at 2^56 onward, mapped readable, writable and executable by one page. -/
def mapped (r : Regs) : State :=
  { withRegs r with
    dmem := ((Memory.writeLE [] 0x10000 8 0x20001).writeLE 0x20000 8 0x21001).writeLE 0x21000 8 0x200000f
    ctxs := [(0, { ctx0 with pt := 0x10000 })] }

/-- `a1` at an address, with a stride of 4. -/
def at1 (a : Nat) : Regs := { a := [(1, ⟨BitVec.ofNat 64 a, 4⟩)], v := [(2, [(0, 0x11223344), (1, 7)])] }

/-- The state an instruction leaves, for the next event of a test. -/
def next (i : Instr) (s : State) : State :=
  match exec i s with
  | .next t => t
  | _ => s

/-- `mapped` with every packet of the first two blocks a landing place, and both blocks fetched. -/
def coded (r : Regs) : State :=
  let s := { mapped r with dmem := ((mapped r).dmem.writeLE 0x200003c 4 0x3f).writeLE 0x200007c 4 0x3f }
  ((s.checkTarget 0 (2 ^ 56)).1.checkTarget 0 (2 ^ 56 + 64)).1

/-- `s` with its gang's slices changed. -/
def withSlices (s : State) (f : Nat → Slice → Slice) : State :=
  s.modCur fun g => { g with slices := g.slices.map fun x => (x.1, f x.1 x.2) }

/-! ### Well-formedness: an ill-formed term for each check -/

theorem test_wf_sadd : Instr.wf (.sadd 0 0 0) = false ∧ Instr.wf (.sadd 1 0 0) = true := by decide
theorem test_wf_vsel : Instr.wf (.vsel 0 1 2 3) = false ∧ Instr.wf (.vsel 1 1 2 3) = true := by decide
theorem test_wf_cvt : Instr.wf (.cvt .f32 1 2 .f32 0) = false ∧ Instr.wf (.cvt .f32 1 2 .i32 1) = false ∧
    Instr.wf (.cvt .f32 1 2 .slot 1) = true := by decide
theorem test_wf_offset : Instr.wf (.ldGlobal .n32 0 1 (some 127) .gang) = false ∧ Instr.wf (.pf 1 (some 127)) = false ∧
    Instr.wf (.stLocal .n32 0 1 (some 127) .l) = false ∧ Instr.wf (.atomLocal32 .add 0 1 (some 127) .lTeam) = false ∧
    Instr.wf (.ldGlobal .n32 0 1 (some 126) .gang) = true := by decide
theorem test_wf_regang : Instr.wf (.regang 0) = false ∧ Instr.wf (.regangWait 0) = false := by decide
theorem test_wf_pwreq : Instr.wf (.pwreq 0) = false ∧ Instr.wf (.pwreqYield 0) = false := by decide
theorem test_wf_fence : Instr.wf (.fence 0 .gang) = false := by decide
theorem test_wf_phbinit : Instr.wf (.phbinit 0 0) = false := by decide

/-! ### Decoding: a word for every instruction word, its fixed bits as the spec's tables give them and its fields in their
places (R110 to R119) -/

/-- The word, with its literal, decodes to the instruction and to no other. -/
def reads (x : W32 × W32 × Instr) : Bool :=
  match decodeWord x.1.toNat x.2.1 with
  | .ok j => j == x.2.2
  | _ => false

theorem test_decode_scalar1 : List.all (α := W32 × W32 × Instr)
    [(0x0001a518, 0, .sadd 13 10 12), (0x0008a18c, 0, .ssub 5 3 6), (0x0012a396, 0, .smul 21 7 11),
     (0x001a4702, 0, .smulhI64 18 14 1), (0x0021a518, 0, .smulhN64 13 10 12), (0x0028a18c, 0, .sdivI64 5 3 6),
     (0x0032a396, 0, .sdivN64 21 7 11), (0x003a4702, 0, .sremI64 18 14 1), (0x0041a518, 0, .sremN64 13 10 12),
     (0x0048a18c, 0, .sand 5 3 6), (0x0052a396, 0, .sor 21 7 11), (0x005a4702, 0, .sxor 18 14 1),
     (0x0061a500, 0, .snot 13 10), (0x0068a18c, 0, .sshl 5 3 6), (0x0072a396, 0, .sshr 21 7 11),
     (0x007a4702, 0, .ssra 18 14 1), (0x0081a518, 0, .smin 13 10 12), (0x0088a18c, 0, .smax 5 3 6),
     (0x0092a396, 0, .sminn 21 7 11), (0x009a4702, 0, .smaxn 18 14 1), (0x00a1a518, 0, .ssel 13 10 12),
     (0x00a8a180, 0, .smov 5 3), (0x00b2a380, 0, .sclz 21 7), (0x00ba4700, 0, .spopc 18 14),
     (0x00c1a518, 0, .sbfxI64 13 10 12), (0x00c8a18c, 0, .sbfxN64 5 3 6), (0x00d2a396, 0, .sbfi 21 7 11),
     (0x0141c090, 0, .scmp .gtn 14 1 8), (0x02681ffd, 0, .sli 13 8189), (0x0400a000, 0x12345695, .slit 5 0x12345695)] reads = true := by decide +kernel

theorem test_decode_scalar2 : List.all (α := W32 × W32 × Instr)
    [(0x040aa000, 0x12345696, .slitN32 21 0x12345696)] reads = true := by decide +kernel

theorem test_decode_affine : List.all (α := W32 × W32 × Instr)
    [(0x1004077d, 0, .aset 2 14 125), (0x103b467d, 0, .aadd 13 10 12 125), (0x104a6300, 0, .astr 5 3 6),
     (0x106ae5fd, 0, .amul 5 7 11 125), (0x1085c07d, 0, .aidx 2 14 125), (0x10a1a500, 0, .aget 13 10)] reads = true := by decide +kernel

theorem test_decode_predicate : List.all (α := W32 × W32 × Instr)
    [(0x120a6300, 0, .pand 5 3 6), (0x122ae180, 0, .por 5 7 3), (0x1244c080, 0, .pxor 2 6 1), (0x126a4000, 0, .pnot 5 2),
     (0x128a6000, 0, .pmov 5 3), (0x12a0a380, 0, .pcnt 5 7)] reads = true := by decide +kernel

theorem test_decode_vector1 : List.all (α := W32 × W32 × Instr)
    [(0x20048701, 0, .vaddVv 18 14 1), (0x22034534, 0, .vaddVx 13 10 (.imm 52)), (0x20214186, 0, .vsubVv 5 3 6),
     (0x222543b5, 0, .vsubVx 21 7 (.imm 53)), (0x20448701, 0, .vmulVv 18 14 1), (0x22434534, 0, .vmulVx 13 10 (.imm 52)),
     (0x20614186, 0, .vmulhI32Vv 5 3 6), (0x226543b5, 0, .vmulhI32Vx 21 7 (.imm 53)), (0x20848701, 0, .vmulhN32Vv 18 14 1),
     (0x22834534, 0, .vmulhN32Vx 13 10 (.imm 52)), (0x20a14186, 0, .vmadVv 5 3 6), (0x22a543b5, 0, .vmadVx 21 7 (.imm 53)),
     (0x20c48701, 0, .vsaddI32Vv 18 14 1), (0x22c34534, 0, .vsaddI32Vx 13 10 (.imm 52)),
     (0x20e14186, 0, .vsaddN32Vv 5 3 6), (0x22e543b5, 0, .vsaddN32Vx 21 7 (.imm 53)), (0x21048701, 0, .vssubI32Vv 18 14 1),
     (0x23034534, 0, .vssubI32Vx 13 10 (.imm 52)), (0x21214186, 0, .vssubN32Vv 5 3 6),
     (0x232543b5, 0, .vssubN32Vx 21 7 (.imm 53)), (0x21448701, 0, .vminVv 18 14 1),
     (0x23434534, 0, .vminVx 13 10 (.imm 52)), (0x21614186, 0, .vmaxVv 5 3 6), (0x236543b5, 0, .vmaxVx 21 7 (.imm 53)),
     (0x21848701, 0, .vminnVv 18 14 1), (0x23834534, 0, .vminnVx 13 10 (.imm 52)), (0x21a14186, 0, .vmaxnVv 5 3 6),
     (0x23a543b5, 0, .vmaxnVx 21 7 (.imm 53)), (0x24048701, 0, .vandVv 18 14 1), (0x26034534, 0, .vandVx 13 10 (.imm 52))] reads = true := by decide +kernel

theorem test_decode_vector2 : List.all (α := W32 × W32 × Instr)
    [(0x24214186, 0, .vorVv 5 3 6), (0x262543b5, 0, .vorVx 21 7 (.imm 53)), (0x24448701, 0, .vxorVv 18 14 1),
     (0x26434534, 0, .vxorVx 13 10 (.imm 52)), (0x24614186, 0, .vshlVv 5 3 6), (0x266543b5, 0, .vshlVx 21 7 (.imm 53)),
     (0x24848701, 0, .vshrVv 18 14 1), (0x26834534, 0, .vshrVx 13 10 (.imm 52)), (0x24a14186, 0, .vsraVv 5 3 6),
     (0x26a543b5, 0, .vsraVx 21 7 (.imm 53)), (0x24c48701, 0, .vbfxI32Vv 18 14 1),
     (0x26c34534, 0, .vbfxI32Vx 13 10 (.imm 52)), (0x24e14186, 0, .vbfxN32Vv 5 3 6),
     (0x26e543b5, 0, .vbfxN32Vx 21 7 (.imm 53)), (0x25048701, 0, .vbfiVv 18 14 1),
     (0x27034534, 0, .vbfiVx 13 10 (.imm 52)), (0x25a0c302, 0, .vsel 5 3 6 2), (0x27254380, 0, .vnot 21 7),
     (0x27448700, 0, .vabs 18 14), (0x27634500, 0, .vneg 13 10), (0x27814180, 0, .vclz 5 3), (0x27a54380, 0, .vpopc 21 7),
     (0x27c48700, 0, .vmov 18 14), (0x27e34036, 0, .vli 13 (.imm 54)), (0x2900c302, 0, .vcmpVv .gtn 3 6 2),
     (0x2b21c5bc, 0, .vcmpVx .gen 7 11 (.imm 60))] reads = true := by decide +kernel

theorem test_decode_cross_lane : List.all (α := W32 × W32 × Instr)
    [(0x2c048701, 0, .vshflIdx 18 14 1), (0x2c23450c, 0, .vshflIdxChk 13 10 12), (0x2c414180, 0, .vredAdd 5 3),
     (0x2c654380, 0, .vredMin 21 7), (0x2c848700, 0, .vredMax 18 14), (0x2ca34500, 0, .vscanAdd 13 10),
     (0x2cc14180, 0, .vballot 5 3), (0x2ce14380, 0, .vvoteAny 5 7), (0x2d008300, 0, .vvoteAll 2 6),
     (0x2e034534, 0, .vshflUp 13 10 (.imm 52)), (0x2e2141c6, 0, .vshflUpChk 5 3 (.reg 6)),
     (0x2e4543b5, 0, .vshflDn 21 7 (.imm 53)), (0x2e648741, 0, .vshflDnChk 18 14 (.reg 1)),
     (0x2e834534, 0, .vshflXor 13 10 (.imm 52)), (0x2ea141c6, 0, .vshflXorChk 5 3 (.reg 6)),
     (0x2ec543b5, 0, .vbcast 21 7 (.imm 53)), (0x2ee48741, 0, .vbcastChk 18 14 (.reg 1))] reads = true := by decide +kernel

theorem test_decode_float : List.all (α := W32 × W32 × Instr)
    [(0x30028609, 0, .fadd .f32 10 12 9), (0x3220c302, 0, .fsub .f16x2 3 6 2), (0x3441c584, 0, .fmul .b16x2 7 11 4),
     (0x30638088, 0, .ffma .f32 14 1 8), (0x32828609, 0, .fmin .f16x2 10 12 9), (0x34a0c302, 0, .fmax .b16x2 3 6 2),
     (0x30c1c580, 0, .fabs .f32 7 11), (0x32e38080, 0, .fneg .f16x2 14 1), (0x35028600, 0, .frcp .b16x2 10 12),
     (0x3120c300, 0, .frsq .f32 3 6), (0x3341c580, 0, .fsqrt .f16x2 7 11), (0x35638080, 0, .fexp2 .b16x2 14 1),
     (0x31828600, 0, .flog2 .f32 10 12), (0x33a0c303, 0, .fround .f16x2 3 6 .down), (0x36a0c215, 0, .fcmp .ge .f32 3 4 21),
     (0x380380ac, 0, .cvt .f32 14 1 .slot 4), (0x3a828609, 0, .cvtp 4 10 12 9)] reads = true := by decide +kernel

theorem test_decode_memory : List.all (α := W32 × W32 × Instr)
    [(0x4040d812, 0, .ldGlobal .n16 3 6 (some 2) .core), (0x41a1effb, 0, .stGlobal .n64 7 11 none .set),
     (0x40c00870, 0, .pf 2 (some 14)), (0x42a2b3fd, 0, .ldWindow .n64 10 12 none .dev),
     (0x4380d816, 0, .stWindow .n32 3 6 (some 2) .reel), (0x4421effb, 0, .ldLocal .i8 7 11 none .ab),
     (0x45038444, 0, .stLocal .n8 14 1 (some 8) .cb), (0x4722b3f9, 0, .atomGlobal32 .cas 10 12 none .team),
     (0x4940d812, 0, .atomGlobal64 .inc 3 6 (some 2) .core), (0x4a01effa, 0, .atomLocal32 .add 7 11 none .lCore),
     (0x4c238443, 0, .atomLocal64 .min 14 1 (some 8) .wSet)] reads = true := by decide +kernel

theorem test_decode_fabric : List.all (α := W32 × W32 × Instr)
    [(0x4e02b04d, 0, .rld false 10 12 9 .dev), (0x4e60d816, 0, .rst true 3 6 2 .reel),
     (0x4f01ec27, 0, .ratom .maxn 7 11 4 .sys)] reads = true := by decide +kernel

theorem test_decode_copy : List.all (α := W32 × W32 × Instr)
    [(0x504e0485, 0, .cpy .l 14 1 8 .cb), (0x508a309e, 0, .cpyc .w 10 12 9 .sb), (0x52050c00, 0, .cpyq 5 3),
     (0x53072c41, 0, .cpys .ab 7 11 4), (0x52123802, 0, .cpyst 18 14), (0x520d0003, 0, .cpyres 13),
     (0x52050004, 0, .cpycan 5)] reads = true := by decide +kernel

theorem test_decode_matrix : List.all (α := W32 × W32 × Instr)
    [(0x54872c40, 0, .tmm 2 7 11 4), (0x54ce0481, 0, .tmms 3 14 1 8), (0x540d0002, 0, .tzero 13),
     (0x55431823, 0, .tepi 5 3 6 2), (0x54151c04, 0, .ttrn 21 7)] reads = true := by decide +kernel

theorem test_decode_stream : List.all (α := W32 × W32 × Instr)
    [(0x56123810, 0, .rsinit 18 14 1), (0x564a3091, 0, .rsaddVector .f16 10 12 9), (0x56831822, 0, .rsaddAb .b16 3 6 2),
     (0x56872c43, 0, .rsnorm 2 7 11 4), (0x56ce0484, 0, .rsnormReel 3 14 1 8), (0x560d2805, 0, .rsq 13 10),
     (0x56431806, 0, .rssave true 3 6), (0x56072c47, 0, .rsload false 7 11 4), (0x56000008, 0, .rsfenceTeam),
     (0x56000009, 0, .rsfenceSet), (0x5600000a, 0, .rsfenceReel), (0x58872c41, 0, .cred 2 7 11 4 .min)] reads = true := by decide +kernel

theorem test_decode_collective : List.all (α := W32 × W32 × Instr)
    [(0x58ce0483, 0, .cbc 3 14 1 8), (0x590a3094, 0, .cgat 4 10 12 9), (0x5b431820, 0, .vdist 5 3 6 2)] reads = true := by decide +kernel

theorem test_decode_search : List.all (α := W32 × W32 × Instr)
    [(0x5a151cb1, 0, .topk 21 7 11), (0x5a123812, 0, .topkm 18 14 1), (0x5a0d28c3, 0, .topkr 13 10 12),
     (0x60000000, 0, .nop)] reads = true := by decide +kernel

theorem test_decode_control1 : List.all (α := W32 × W32 × Instr)
    [(0x60020000, 0, .exit), (0x60040000, 0, .yield), (0x6006000d, 0, .brk 13), (0x60080000, 0, .join),
     (0x600a0005, 0, .elect 5), (0x600c00fd, 0, .regang 253), (0x600c01fd, 0, .regangWait 253), (0x600e0000, 0, .ret),
     (0x6010a800, 0, .jmp 21), (0x60129000, 0, .launch 18), (0x60146800, 0, .ljoin 13), (0x60160000, 0, .wdetach),
     (0x6018a800, 0, .wmember 21), (0x601a0002, 0, .pwreq 2), (0x601a000d, 0, .pwreqYield 5), (0x601c0000, 0, .pwrel),
     (0x601e000c, 0, .fence 1 .die), (0x63270510, 0, .waitcnt 18 14 1 8 true), (0x6407fffd, 0, .br 524285),
     (0x646ffffd, 0, .brc 5 524285), (0x6487fffd, 0, .call 524285), (0x64c7fffd, 0, .jpt 524285),
     (0x6600680a, 0, .bar 13 10), (0x66020283, 0, .phbinit 5 3), (0x66040280, 0, .phbarr 5),
     (0x66069700, 0, .phbexp 18 14), (0x660806a0, 0, .phbtest 13 2 false), (0x660a0281, 0, .phbwait 5 true),
     (0x660c0000, 0, .wbar), (0x6800091c, 0, .tlsig 18 14)] reads = true := by decide +kernel

theorem test_decode_control2 : List.all (α := W32 × W32 × Instr)
    [(0x68080694, 0, .tlwait 13 10), (0x6810a180, 0, .tlread 5 3), (0x68180a8e, 0, .qpost 21 7),
     (0x6820091c, 0, .qtail 18 14), (0x7002680a, 0, .sysrd 13 10), (0x70042803, 0, .syswr 5 3), (0x70060015, 0, .svc 21),
     (0x70089000, 0, .hret 18), (0x700a6800, 0, .pgmap 13), (0x700c2800, 0, .pginv 5), (0x700ea803, 0, .fltrd 21 3),
     (0x7c029000, 0, .qfetch 18), (0x7c040000, 0, .qdisp), (0x7c060000, 0, .qcomp)] reads = true := by decide +kernel

/-! ### Scalar, affine and predicate words -/

/-- R166: sums wrap, high products are signed, a shift of 64 or more leaves sign or zero; R157: `s0` discards. -/
theorem test_scalar_results :
    after (.sadd 3 1 2) (withS [(1, 2 ^ 64 - 1), (2, 2)]) (fun t => t.cur.regs.s.get 0 3 == 1) ∧
    after (.smulhI64 3 1 2) (withS [(1, -1), (2, 2)]) (fun t => t.cur.regs.s.get 0 3 == -1) ∧
    after (.ssra 3 1 2) (withS [(1, -8), (2, 64)]) (fun t => t.cur.regs.s.get 0 3 == -1) ∧
    after (.sadd 0 1 2) (withS [(1, 5), (2, 2)]) (fun t => t.cur.regs.s == [(1, 5), (2, 2)]) := by decide +kernel

/-- R167: the three cases of division, with the flags. -/
theorem test_division :
    after (.sdivI64 3 1 2) (withS [(1, -7), (2, 2)]) (fun t => t.cur.regs.s.get 0 3 == -3 && t.cur.regs.sxf == 0) ∧
    after (.sremI64 3 1 2) (withS [(1, -7), (2, 2)]) (fun t => t.cur.regs.s.get 0 3 == -1) ∧
    after (.sdivN64 3 1 0) (withS [(1, 9)]) (fun t => t.cur.regs.s.get 0 3 == -1 && t.cur.regs.sxf == 1) ∧
    after (.sremI64 3 1 2) (withS [(1, 2 ^ 63), (2, -1)]) (fun t => t.cur.regs.s.get 0 3 == 0 && t.cur.regs.sxf == 2) := by
  decide +kernel

/-- R168: a field that runs past bit 63 is cut there. -/
theorem test_bit_fields :
    after (.sbfxN64 3 1 2) (withS [(1, 0xf000000000000000), (2, 0x083c)]) (fun t => t.cur.regs.s.get 0 3 == 0xf) ∧
    after (.sbfxI64 3 1 2) (withS [(1, 0x80), (2, 0x0404)]) (fun t => t.cur.regs.s.get 0 3 == -8) ∧
    after (.sbfi 3 1 2) (withS [(1, 0xff), (2, 0x0408), (3, 0)]) (fun t => t.cur.regs.s.get 0 3 == 0xf00) := by decide +kernel

/-- R171, R172, R174. -/
theorem test_affine_predicate :
    after (.amul 1 2 3 1) (withRegs { s := [(3, 3)], a := [(2, ⟨10, 2 ^ 31⟩)] }) (fun t => t.cur.regs.a.get {} 1 == ⟨40, 0⟩) ∧
    after (.aget 2 4) (withRegs { a := [(2, ⟨2 ^ 32, -1⟩)] }) (fun t => vreg t 4 3 == -3) ∧
    after (.pxor 1 2 0) (withRegs { p := [(2, 5)] }) (fun t => t.cur.regs.p.get 0 1 == 0xfffffffa) ∧
    after (.pcnt 2 7) (withRegs { p := [(2, 0x300000007)] }) (fun t => t.cur.regs.s.get 0 7 == 3) := by decide +kernel

/-- The hypotheses of ScalarArithmetic, ScalarDivision and AffineAndPredicates, clause by clause. -/
theorem witness_scalar :
    (¬((1 : SReg).val = 0 ∧ (0 : SReg).val = 0 ∧ (0 : SReg).val = 0)) ∧ (withS [(1, 9)]).srcS 2 = 0 ∧
    ((withS [(1, 2 ^ 63), (2, -1)]).srcS 1 == 0x8000000000000000#64 && (withS [(1, 2 ^ 63), (2, -1)]).srcS 2 == 0xffffffffffffffff#64) = true ∧
    (withS [(1, 9), (2, 4)]).srcS 2 ≠ 0 ∧ ((withS [(1, 9), (2, 4)]).srcS 1 == 0x8000000000000000#64) = false ∧
    (15 : VReg64).val < base.cur.vregs ∧ base.cur.vregs ≤ (16 : VReg64).val := by decide +kernel

/-! ### Vector words -/

/-- R177, R178: results of single lanes at the ends of their ranges. -/
theorem test_vector_integer :
    after (.vmulhI32Vv 3 1 2) (withRegs { v := [(1, [(0, 2 ^ 31)]), (2, [(0, 2 ^ 31)])] }) (fun t => vreg t 3 0 == 2 ^ 30) ∧
    after (.vsaddI32Vv 3 1 2) (withRegs { v := [(1, [(0, 0x7fffffff)]), (2, [(0, 1)])] }) (fun t => vreg t 3 0 == 0x7fffffff) ∧
    after (.vssubN32Vv 3 1 2) (withRegs { v := [(1, [(0, 1)]), (2, [(0, 2)])] }) (fun t => vreg t 3 0 == 0) ∧
    after (.vsraVx 3 1 (.imm 32)) (withRegs { v := [(1, [(0, 2 ^ 31)])] }) (fun t => vreg t 3 0 == -1) ∧
    after (.vbfxI32Vx 3 1 (.reg 1)) (withRegs { s := [(1, 0x41c)], v := [(1, [(0, 2 ^ 31)])] }) (fun t => vreg t 3 0 == -8) := by
  decide +kernel

/-- R176: lanes outside the mask keep their values; R184: the source lane is clamped by no one, and is valid or zero. -/
theorem test_lanes :
    after (.vli 3 (.imm 5)) { base with iss := { base.iss with lanes := 1 } } (fun t => vreg t 3 0 == 5 && vreg t 3 1 == 0) ∧
    after (.vshflUpChk 3 1 (.imm 1)) (withRegs { v := [(1, [(0, 7), (1, 8)])] })
      (fun t => vreg t 3 0 == 0 && vreg t 3 1 == 7 && t.cur.regs.p.get 0 7 == 0xfffffffe) ∧
    after (.vscanAdd 3 1) (withRegs { v := [(1, [(0, 1), (1, 2), (2, 3)])] }) (fun t => vreg t 3 1 == 3 && vreg t 3 31 == 6) ∧
    after (.vballot 3 2) (withRegs { p := [(2, 0x80000001)] }) (fun t => vreg t 3 5 == 0x80000001) := by decide +kernel

/-- R201 to R205: 1 + 2^-24 is a tie to even, -0 equals +0, a NaN is unordered. -/
theorem test_float :
    after (.fadd .f32 3 1 2) (withRegs { v := [(1, [(0, 0x3f800000)]), (2, [(0, 0x33800000)])] }) (fun t => vreg t 3 0 == 0x3f800000) ∧
    after (.fadd .b16x2 3 1 2) (withRegs { v := [(1, [(0, 0x3f804000)]), (2, [(0, 0x3f803f80)])] })
      (fun t => vreg t 3 0 == 0x40004040) ∧
    after (.fcmp .eq .f32 1 1 2) (withRegs { v := [(1, [(0, 2 ^ 31)])] }) (fun t => bit (t.cur.regs.p.get 0 1).toNat 0) ∧
    after (.fcmp .unord .f32 1 1 2) (withRegs { v := [(1, [(0, 0x7fc00000)])] }) (fun t => t.cur.regs.p.get 0 1 == 1) ∧
    after (.cvt .i32 3 1 .f32 0) (withRegs { v := [(1, [(0, 0xc0700000)])] }) (fun t => vreg t 3 0 == -3) := by decide +kernel

/-- A part whose grid has a format slot 1 (`.e4m3`) for the conversions. -/
def withSlot (bits : Nat) : State :=
  { base with grids := [(0, { valid := true, lr := Memory.writeLE [] 0x088 8 bits })] }

/-- The hypotheses of the vector statements: registers in range and not, an active lane, slots used, unused and too wide. -/
theorem witness_vector :
    InRange base [15, 0, 7] ∧ ¬InRange base [16, 0, 7] ∧ ¬InRange base [0, 127] ∧ (List.range 64).filter base.active ≠ [] ∧
    (1 : PReg).val ≠ 0 ∧ Instr.wf (.cvt .f32 1 2 .slot 1) = true ∧ Instr.wf (.cvt .f32 1 2 .i32 0) = true ∧
    (withSlot 0x4).slotUnused 1 = false ∧ (withSlot 0).slotUnused 1 = true ∧
    FmtSlot.ofBits ((withSlot 0x4).slotBits 1) = some ((withSlot 0x4).slot 1) ∧ ((withSlot 0x4).slot 1).fmt.width ≤ 16 ∧
    16 < ((withSlot 0x11).slot 1).fmt.width := by
  refine ⟨?_, ?_, ?_, ?_⟩ <;> first | (simp only [InRange]; decide +kernel) | decide +kernel

/-! ### Memory words and their completion -/

/-- R219, R220, R226: a load is counted on `ld` and writes its lanes as they return; a store waits in the queue, is
acknowledged lane by lane, and only then is in memory. -/
theorem test_store_load :
    let s := mapped (at1 (2 ^ 56 + 0x40))
    let t := next (.stGlobal .n32 2 1 none .gang) s
    t.cur.st = 1 ∧ t.dmem.readLE 0x2000040 4 = 0 ∧
    after (.storeAck 0 0 0) (t.drainAll 0) (fun u => u.dmem.readLE 0x2000040 4 == 0x11223344 && u.dmem.readLE 0x2000044 4 == 0) ∧
    after (.ldLocal .i8 3 1 none .l) (withRegs { a := [(1, ⟨1, 1⟩)] }) (fun t => t.cur.ld == 1 && t.cur.regs.v == []) := by
  decide +kernel

/-- R154, R155: `k:` reads the window at once; the slot of `s0` reads zero. -/
theorem test_register_window :
    after (.ldLocal .n32 3 1 none .k) (withRegs { s := [(1, 0xabcd)], a := [(1, ⟨128 * 16 + 8, 0⟩)] }) (fun t => vreg t 3 0 == 0xabcd) ∧
    after (.stLocal .n8 2 1 none .k) { withRegs { a := [(1, ⟨128 * 16 + 16, 0⟩)], v := [(2, [(0, 0x1ff)])] } with
        iss := { base.iss with lanes := 1, src := { a := [(1, ⟨128 * 16 + 16, 0⟩)], v := [(2, [(0, 0x1ff)])] } } }
      (fun t => t.cur.regs.s.get 0 2 == 0xff) := by decide +kernel

/-- R228: an atomic on scratch returns the old value and leaves the new one. -/
theorem test_atomic :
    let s := { withRegs { a := [(1, ⟨0, 0⟩)], v := [(2, [(0, 5)])] } with
      iss := { base.iss with lanes := 1, src := { a := [(1, ⟨0, 0⟩)], v := [(2, [(0, 5)])] } } }
    after (.atomicReturn 0 0 0) (next (.atomLocal32 .add 2 1 none .lRelaxed) s)
      (fun t => (t.team 0).scratch.readLE 0 4 == 5 && vreg t 2 0 == 0 && t.cur.ld == 0) := by decide +kernel

/-- Hypotheses of LoadIssue, StoreIssue, AtomicIssue, FabricIssue, RegisterWindowWords, PrefetchAndFences. -/
theorem witness_memory_issue :
    let s := mapped (at1 (2 ^ 56)); let w := fun (l : List LaneAcc) => l ≠ []
    Admits (.ldGlobal .n32 3 1 none .gang) s ∧ Admits (.ldWindow .n32 3 1 none .gang) s ∧ Admits (.ldLocal .n32 3 1 none .cf) s ∧
    Admits (.stGlobal .n32 2 1 none .sys) s ∧ Admits (.stLocal .n64 2 1 none .ab) s ∧ Admits (.atomGlobal64 .cas 2 1 none .dev) s ∧
    Admits (.atomLocal32 .inc 2 1 none .wReel) s ∧
    (resolved s .g 4 0 1 none (fun _ => 0) fun _ => 0).2.2 = [] ∧ w (resolved s .g 4 0 1 none (fun _ => 0) fun _ => 0).2.1 ∧
    (resolved s .w 4 0 1 none (fun _ => 0) fun _ => 0).2.1 = [] ∧
    (resolved (withRegs (at1 0)) (.buf .l) 4 1 1 none (fun _ => 0) fun _ => 0).2.2 = [] ∧
    Admits (.rld false 3 1 2 .gang) s ∧ Admits (.rst true 2 1 2 .gang) s ∧ Admits (.ratom .add 2 1 2 .gang) s ∧
    s.isTwin s.curTeam.ctx = false ∧ ({ s with ctxs := [(0, { ctx0 with parent := some 1 })] } : State).isTwin s.curTeam.ctx = true ∧
    Admits (.ldLocal .n32 3 1 none .k) (withRegs (at1 0x100)) ∧
    (∀ i ∈ (withRegs (at1 0x100)).lanes, (withRegs (at1 0x100)).kCheck ((withRegs (at1 0x100)).laneAddr 1 none i).toNat 4 = none) ∧
    (∀ k ∈ (withRegs (at1 1)).lanes, ((withRegs (at1 1)).laneAddr 1 none k).toNat % 4 ≠ 0) := by
  simp only [Admits]; decide +kernel

/-- A part with a peer: logical part 0 is part 9. -/
theorem witness_fabric :
    let s := { withRegs { a := [(1, ⟨2 ^ 56, 0⟩)] } with
      ctxs := [(0, { ctx0 with places := [(0, 2 ^ 31 + 9)] })], lds := [(0, { featOn := 4 })] }
    (s.peerLanes 4 1 2 (fun _ => 0) fun _ => 0).2 = [] ∧ peersOf (s.peerLanes 4 1 2 (fun _ => 0) fun _ => 0).1 = [0] ∧
    after (.rld false 3 1 2 .gang) s (fun t => t.cur.ld == 1) := by decide +kernel

/-- Hypotheses of StorePerformed, LoadsAndAtomicsReturn and the recalled accesses: a store of one lane in the write path, a
load and an atomic outstanding. -/
theorem witness_memory_return :
    let one := fun (r : Regs) => { mapped r with iss := { base.iss with lanes := 1, src := r } }
    let s := State.drainAll (next (.stGlobal .n32 2 1 none .gang) (one (at1 (2 ^ 56)))) 0
    let b := State.drainAll (next (.stLocal .n32 2 1 none .l) (one (at1 8))) 0
    let l := next (.ldGlobal .n32 3 1 none .gang) (one (at1 (2 ^ 56)))
    let x := next (.atomLocal32 .add 2 1 none .lRelaxed) (one (at1 8))
    let e := (s.findStore 0 0 0).getD ({ seq := 0, kind := .marker, lanes := [] }, { lane := 0, loc := .dev 0, addr := 0, size := 0 })
    let f := (b.findStore 0 0 0).getD ({ seq := 0, kind := .marker, lanes := [] }, { lane := 0, loc := .dev 0, addr := 0, size := 0 })
    let o := (l.findOp 0 0 0).getD ({ seq := 0, kind := .qpost, lanes := [] }, { lane := 0, loc := .dev 0, addr := 0, size := 0 })
    let p := (x.findOp 0 0 0).getD ({ seq := 0, kind := .qpost, lanes := [] }, { lane := 0, loc := .dev 0, addr := 0, size := 0 })
    (s.findStore 0 0 0).isSome = true ∧ s.mayAck (gidCore 0) e.1 e.2 = true ∧ e.2.loc = .dev 0x2000000 ∧ e.2.data < 256 ^ e.2.size ∧
    s.sharers e.1.actx (e.2.addr / 65536) = [] ∧ s.beforeCut 0 = false ∧
    (s.ctx e.1.actx).snap.view.shared.contains (e.2.addr / 65536) = false ∧
    (b.findStore 0 0 0).isSome = true ∧ b.mayAck (gidCore 0) f.1 f.2 = true ∧ f.2.loc = .buf 0 .l 8 ∧ f.2.data < 256 ^ f.2.size ∧
    (l.findOp 0 0 0).isSome = true ∧ o.1.kind = .load 3 false .gang ∧ l.mayDo 0 o.1 = true ∧ o.2.loc.isRemote = false ∧
    l.recalled o.1.actx o.2.loc (l.copyOrder + 1) = false ∧ l.laneLost o.1 o.2 = false ∧
    (x.findOp 0 0 0).isSome = true ∧ p.1.kind = .atomic 2 .add .gang ∧ x.mayDo 0 p.1 = true ∧ p.2.loc = .buf 0 .l 8 ∧
    x.recalled p.1.actx p.2.loc (x.copyOrder + 1) = false ∧ p.1.together p.2 = [p.2] := by
  decide +kernel

/-- R219: a byte of an own store still queued is served before memory; R228: the values of atomics meet their ranges. -/
theorem witness_served :
    let e : SqEntry := { seq := 0, kind := .store .gang, lanes := [{ lane := 0, loc := .dev 4, addr := 4, size := 1, data := 0xab }] }
    newestByte [e] (Loc.plus (.dev 4) 0) = some 0xab ∧ newestByte [e] (Loc.plus (.dev 5) 0) = none ∧
    base.serveBytes [e] [] { lane := 0, loc := .dev 4, addr := 4, size := 2 } 0x1100 2 = 0x11ab ∧
    (32 = 32 ∨ 32 = 64) ∧ 0xffffffff < 2 ^ 32 ∧ (32 = 64 ∨ 64 = 64) ∧ (255 < 256) ∧ atomNew .max 32 0xffffffff 1 0 = 1 := by
  decide +kernel

/-- Hypotheses of MemoryAndHostEvents: an AtomicOp on its way, and none; a walk that ends in a leaf; a fence. -/
theorem witness_host_events :
    let s := mapped {}; let x : AtomicOp := ⟨1, 0x80, 0, 0, [0]⟩
    let a := { s with atomics := [x], lds := [(1, { bound := true })] }
    (∀ x ∈ s.atomics, ¬(x.ld = 1 ∧ x.ha / 128 = 0x80 / 128)) ∧ (∃ x ∈ a.atomics, x.ld = 1 ∧ x.ha / 128 = 0x80 / 128) ∧
    a.atomics.find? (fun x => x.ld == 1 && x.ha == 0x80) = some x ∧ s.atomics.find? (fun x => x.ld == 1 && x.ha == 0x80) = none ∧
    s.isTwin 0 = false ∧ s.cached 0 0 (2 ^ 56) = none ∧ (match s.walk 0 (s.ctx 0).pt (2 ^ 56) with
      | .leaf e => e.pbase == 0x2000000
      | _ => false) = true ∧ ((1 : Fin 4).val ≠ 0) ∧ (1 : Nat) ≠ 0 ∧
    (∀ r, some (5 : VReg) = some r → r.val < base.cur.vregs ∧ r.val ≠ 127) := by
  refine ⟨?_, ?_, ?_, ?_, ?_, ?_, ?_, ?_, ?_, ?_⟩
  iterate 9 decide +kernel
  rintro r h; cases h; decide +kernel

/-- Hypotheses on answers of a host: the page at 0x1000 has none; lanes that are all misaligned; sectors in the L1 and not. -/
theorem witness_memory_answers :
    let s := mapped (at1 (2 ^ 56)); let h := withRegs (at1 0x1000); let m := withRegs (at1 1)
    let r := fun (s : State) => resolved s .g 4 0 1 none (fun _ => 0) fun _ => 0
    let c : State := { base with cores := [(0, { l1 := [(8, 0xab)] })] }
    (r s).2.2 = [] ∧ (r s).2.1 ≠ [] ∧ Answered s (r s).1 ∧ (r h).2.1 = [] ∧ ¬Answered h ((r h).1.laneFault 0 (r h).2.2) ∧ (r m).2.1 = [] ∧
    Answered m ((r m).1.laneFault 0 (r m).2.2) ∧
    Answered m (m.laneFault 0 (m.lanes.map fun i => ⟨i, .align, 0, (m.laneAddr 1 none i).toNat⟩)) ∧ s.posted = [] ∧
    Tab.find (c.core 0).l1 (2 * (64 / 16)) = some 0xab ∧ Tab.find (base.core 0).l1 (2 * (64 / 16)) = none ∧ base.path 0 = [] ∧
    1 ≤ base.l1Room 0 ∧ (base.core 0).l1 = [] ∧ (loadBytes .n32 ≠ 1) := by
  simp only [Answered]; decide +kernel

/-- An atomic of one lane on a page of the host, sent as an AtomicOp. -/
theorem witness_atomicop :
    let a : LaneAcc := { lane := 0, loc := .host 1 0x80, addr := 0x80, size := 4, data := 5 }
    let o : Op := { seq := 3, kind := .atomic 2 .add .gang, lanes := [a], slices := [0] }
    let s : State := { base with gangs := [(0, { gang0 with ops := [o], ld := 1 })], atomics := [⟨1, 0x80, 0, 3, [0]⟩] }
    s.atomics.find? (fun x => x.ld == 1 && x.ha == 0x80) = some ⟨1, 0x80, 0, 3, [0]⟩ ∧
    (s.gang 0).ops.find? (fun o => o.seq == 3) = some o ∧ (o.lanes.filter fun b => [0].contains b.lane) = [a] ∧ a.loc = .host 1 0x80 ∧
    let c : State := { s with lds := [(1, { cache := true })], hmem := [(1, Memory.writeLE [] 0x80 4 7)] }
    o.route = 0 ∧ (c.ldev 1).cache = true ∧ (s.ldev 1).cache = false ∧ base.atomics.find? (fun x => x.ld == 1 && x.ha == 0x80) = none ∧
    after (.atomicopCompletion 1 0x80 true 0) c (fun t => Memory.readLE (t.hmem.get [] 1) 0x80 4 == 12 && (t.ldev 1).fallback == 1) ∧
    after (.atomicopCompletion 1 0x80 true 0) s (fun t => t.hmem == [] && (t.ldev 1).ur == 1) ∧
    after (.atomicopCompletion 1 0x80 false 0) { s with hmem := [(1, Memory.writeLE [] 0x80 4 7)] } (fun t =>
      Memory.readLE (t.hmem.get [] 1) 0x80 4 == 12 && vreg t 2 0 == 7 && t.atomics == []) := by decide +kernel

/-! ### Copies -/

theorem test_targets : (coded {}).checkTarget 0 (2 ^ 56 + 12) = (coded {}, none) ∧
    (coded {}).checkTarget 0 (2 ^ 56 + 64) = (coded {}, none) ∧
    (mapped {}).checkTarget 0 (2 ^ 56 + 8) = (mapped {}, some { code := .align, acc := 3 }) := by
  decide +kernel

/-- R239 to R242: a 64-byte copy with a barrier at 8, from the device half into scratch; R241's faults. -/
def copying (o : Nat) : State := coded { s := [(1, 64), (2, 2 ^ 56), (3, BitVec.ofNat 64 o)] }

/-- Hypotheses of CopyWords. -/
theorem witness_copy_words :
    let s := copying (64 + 8 * 2 ^ 32); let q := coded { s := [(1, 2 ^ 56), (2, 64)] }
    s.lanes ≠ [] ∧ s.freeCopy s.coreKey = some 0 ∧ (s.srcS 3).toNat < 2 ^ 56 ∧ (s.srcS 3).toNat % 2 ^ 32 = 64 ∧
    (s.srcS 1).toNat + 64 ≤ s.curTeam.scratchSize ∧ 8 + 8 ≤ s.curTeam.scratchSize ∧ (s.srcS 2).toNat < 2 ^ 57 ∧
    Admits (.cpy .g 1 2 3 .l) s ∧ Admits (.cpyc .g 1 2 3 .l) s ∧ s.checkTarget s.iss.gid (pcSucc s.iss.pc) = (s, none) ∧
    Admits (.cpyq 1 2) q ∧ q.freeCopy q.coreKey = some 0 ∧ (q.srcS 1).toNat = 2 ^ 56 ∧ (q.srcS 2).toNat = 64 := by
  simp only [Admits]; decide +kernel

/-- The clauses of CopyChecks: no lane, a reserved bit, a length of zero, a barrier of 4, a run past the scratch. -/
theorem witness_copy_checks :
    let e := { base with iss := { base.iss with lanes := 0 } }
    Admits (.cpy .g 1 2 3 .l) e ∧ e.lanes = [] ∧ Admits (.cpy .g 1 2 3 .l) (copying (2 ^ 56)) ∧
    Admits (.cpy .g 1 2 3 .l) (copying 0) ∧ ((copying (2 ^ 56)).srcS 3).toNat / 2 ^ 56 % 2 ^ 6 ≠ 0 ∧
    ((copying 0).srcS 3).toNat % 2 ^ 32 = 0 ∧ Admits (.cpy .g 1 2 3 .l) (copying (64 + 4 * 2 ^ 32)) ∧
    Admits (.cpy .g 1 2 3 .l) (copying 4096) ∧ (copying 4096).curTeam.scratchSize < ((copying 4096).srcS 1).toNat + 4096 ∧
    Admits (.cpyq 1 2) (withS [(1, 8), (2, 65)]) ∧ Admits (.cpyq 1 2) (withS [(1, 8), (2, 1)]) := by
  simp only [Admits]; decide +kernel

theorem test_cpy_faults :
    after (.cpy .g 1 2 3 .l) (copying (2 ^ 56)) (fun t => t.cur.cp == 0 && (t.cur.slice 0).halted) ∧
    after (.cpy .g 1 2 3 .l) (copying 64) (fun t => t.cur.cp == 1 && !(t.cur.slice 0).halted) := by decide +kernel

/-- A granted storage channel of 4,096-byte blocks. -/
def withChannel : State :=
  { withS [(1, 64), (2, 5), (3, 4096)] with
    teams := [(0, { team0 with scratchSize := 8192 })], ctxs := [(0, { ctx0 with ld := 3 })], lds := [(3, { featOn := 0x20, regs := Memory.writeLE [] 0x6004 4 3 })] }

/-- Copy 0 of the core, of 64 bytes from the device half into AB, 1: faulted, 2: with its source read. -/
def record (r : CopyRec) (l : Tab W64) : State :=
  { coded { s := l } with cores := [(0, { copies := [(0, { r with seq := 5, src := .flat .g (2 ^ 56), dst := .flat .ab 32, len := 64 })] })],
                          gangs := [(0, { gang0 with regs := { s := l }, cp := 2, lastCopy := 5 * 1024 })] }

/-- Hypotheses of StorageCopies. -/
theorem witness_storage_copies :
    let s := withChannel; let n := withS [(1, 64), (2, 5), (3, 4096)]
    let l : Tab W64 := [(1, 64), (2, 2 ^ 63), (3, 7)]
    let f := record { state := .faulted } l; let r := record { state := .running } l
    let x := record { state := .running, tslot := 3 } l
    Admits (.cpys .l 1 2 3) s ∧ s.lanes ≠ [] ∧ (s.srcS 3).toNat = 4096 ∧ (s.srcS 2).toNat = 5 ∧ barOk s 0 ∧
    sideOk s .l 64 4096 ∧ s.freeCopy s.coreKey = some 0 ∧
    (s.channelEntry s.curTeam.ctx 0).map channelBlock = some 4096 ∧ Admits (.cpys .l 1 2 3) n ∧ n.channelEntry n.curTeam.ctx 0 = none ∧
    f.lanes ≠ [] ∧ gidCore f.iss.gid ≠ 388 ∧ (match f.namedCopy 2 with
      | .ok x => x == (5120, some 0)
      | _ => false) = true ∧ (match f.namedCopy 3 with
      | .ok x => x == (7, none)
      | _ => false) = true ∧ (f.srcS 1).toNat + 64 ≤ f.curTeam.scratchSize ∧
    (f.copyRec f.coreKey 0).state = .faulted ∧ (r.copyRec r.coreKey 0).state = .running ∧
    x.recordName 2 = some 5120 ∧ x.copyById x.coreKey 5120 = some 0 ∧ (x.copyRec x.coreKey 0).tslot ≠ gidSlot x.iss.gid ∧ (f.copyRec f.coreKey 0).missing ≠ [] := by
  simp only [Admits, barOk, sideOk]; decide +kernel

/-- Hypotheses of CopyEvents: a running copy whose first sector has not been written, one that is finished, and one that
waits for a drive. -/
theorem witness_copy_events :
    let q := record { state := .running } []; let c := q.copyRec 0 0; let r := (q.srcBytes 0 c (c.sectorBytes 2)).1
    let d := record { state := .running, pos := 0, sectors := [2, 3, 4, 5], delivered := 64 } []
    let n : NvmeRead := { core := 0, id := 5120, pos := 0, bytes := 64, channel := 0, block := 0 }
    let w := { r with nvme := [n] }
    c.state = .running ∧ c.stop = none ∧ r.cutPauses (gidTeam c.gid) = false ∧ c.dst = .flat .ab 32 ∧ c.bar = 0 ∧ c.sectorBytes 2 ≠ [] ∧
    2 ∉ c.sectors ∧ 2 ∉ c.sent ∧ (∀ x ∈ c.sectorBytes 2, r.copyHeld 0 c x.2 = false) ∧
    ((r.srcBytes 0 c (c.sectorBytes 2)).2.toOption).isSome = true ∧ (r.srcBytes 0 c (c.sectorBytes 2)).1 = r ∧
    (d.copyRec 0 0).finished = true ∧ c.finished = false ∧ c.dst ≠ .metadata ∧
    w.nvme.find? (fun n => n.core == 0 && n.id == 5120 && n.pos == 0) = some n ∧ w.copyById 0 5120 = some 0 ∧
    c.sent = [] ∧ (record {} []).copyRec 0 1 ≠ c ∧ ((record {} []).copyRec 0 1).state ≠ .running ∧
    (let x := record { state := .running, sent := [2] } []; (x.copyRec 0 0).sent ≠ [] ∧ (x.copyRec 0 0).state = .running) := by
  decide +kernel

/-- R243 to R245: a sector reaches AB; R246: an error stops the copy. -/
theorem test_copy_sector :
    let r := record { state := .running } []
    let m := { r with dmem := r.dmem.writeLE 0x2000000 4 0x01020304 }
    after (.copySectorWrite 0 0 2) m (fun t => (t.team 0).ab.readLE 32 4 == 0x01020304 && (t.copyRec 0 0).delivered == 16) ∧
    after (.copyFault 0 0 2 true) m (fun t => (t.copyRec 0 0).state == .faulted && t.cur.cp == 1) := by decide +kernel

/-- The part once the source of the sector has been translated, and the record. -/
def pieced : State × CopyRec :=
  let q := record { state := .running } []
  let c := q.copyRec 0 0
  ({ (q.srcBytes 0 c (c.sectorBytes 2)).1 with hostWho := none }, c)

/-- The other hypotheses of CopyEvents: a sector whose engine nothing holds; a source byte not read yet. -/
theorem witness_copy_pieces :
    let s := pieced.1; let r := pieced.2; let q := record { state := .running } []; let c := q.copyRec 0 0
    s.copyRec 0 0 = r ∧ r.state = .running ∧ s.copyPauses 0 r = false ∧ s.engineHeld r.gid r.gseq = false ∧ r.dst = .flat .ab 32 ∧
    r.bar = 0 ∧ r.sectorBytes 2 ≠ [] ∧ 2 ∉ r.sectors ∧ 2 ∉ r.sent ∧ (∀ x ∈ r.sectorBytes 2, s.copyHeld 0 r x.2 = false) ∧
    (let u := s.asking (s.copyAsker 0 0)
     (match u.readPiece 0 r with
      | (t, .ok x) => t == u && x == r
      | _ => false) = true ∧ (match u.sectorSource 0 r 2 with
      | (t, .ok vs) => t == u && vs.length == 16
      | _ => false) = true) ∧ r.stop = none ∧ c.stop = none ∧ c.sent = [] ∧ q.copyPauses 0 c = false ∧ q.engineHeld c.gid c.gseq = false ∧ c.gotPos ≠ some c.pos ∧
    (c.sectorBytes 2).any (fun x => (c.src.byteAt x.1).isSome) = true ∧
    after (.copySectorWrite 0 0 2) s (fun t => (t.copyRec 0 0).delivered == 16) := by decide +kernel

/-- CopyRecordWords: `off` and a record with bytes missing, or that is another's. -/
theorem witness_record_words :
    let f := record { state := .faulted } [(1, 64), (2, 2 ^ 63), (3, 7)]
    (f.copyRec 0 0).missing ≠ [] ∧ ((64 : W64).toNat % 64 = 0 ∧ 64 + 64 ≤ f.curTeam.scratchSize) ∧
    after (.cpyst 1 2) f (fun t => t.cur.st == 1 && t.cur.sq.length == 1) ∧
    after (.cpyres 2) f (fun t => (t.copyRec 0 0).state == .running && t.cur.cp == 3) := by decide +kernel

/-! ### Control flow -/

/-- A mask stack entry whose lanes wait at the second block. -/
def pending (pend : BitVec 4) : MaskEntry := ⟨pend, 2 ^ 56 + 64, 15, some (pcIndex (2 ^ 56))⟩

/-- R107, R136: the target of a branch by 5 packets is the next block; a mixed slice pushes its taken lanes and goes on
with the others. -/
theorem test_branches :
    let s := coded { p := [(1, 0x3)] }
    s.target 5 = 2 ^ 56 + 64 ∧ s.target (-1 : BitVec 19) = 2 ^ 56 - 16 ∧
    after (.brc 1 5) s (fun t => (t.cur.slice 0).mask == 0xc && (t.cur.slice 0).stack == [⟨3, 2 ^ 56 + 64, 15, none⟩] &&
      (t.cur.slice 0).pc == 2 ^ 56 && (t.cur.slice 1).stack == []) ∧
    after (.br 5) s (fun t => (t.cur.slice 7).pc == 2 ^ 56 + 64) := by decide +kernel

/-- Hypotheses of BranchesAndAddresses. -/
theorem witness_branches :
    let s := coded { p := [(1, 0x3)] }; let d := withSlices s fun _ x => { x with stack := List.replicate 8 (pending 1) }
    let m := base
    s.iss.slices.Nodup ∧ s.checkTarget s.iss.gid (s.target 5) = (s, none) ∧ d.checkTarget d.iss.gid (d.target 5) = (d, none) ∧
    (∃ j ∈ s.iss.slices, (s.cur.slice j).mask &&& (s.cur.slice j).live &&& laneNibble (s.srcP 1) j ≠ 0) ∧
    (∀ j ∈ s.iss.slices, (s.cur.slice j).stack.length < 8) ∧ 8 ≤ (d.cur.slice 0).stack.length ∧
    (∃ f, (m.checkTarget m.iss.gid (m.target 5)).2 = some f) ∧ laneNibble (m.srcP 1) 0 = 0 ∧ validPc (s.target 5) = true ∧
    validPc ({ base with iss := { base.iss with pc := 2 ^ 57 - 16 } } : State).iss.pc = true ∧
    validPc (({ base with iss := { base.iss with pc := 2 ^ 57 - 16 } } : State).target 5) = false ∧
    (pcIndex (2 ^ 56) : Int) + (5 : BitVec 19).toInt ≥ 0 := by
  refine ⟨?_, ?_, ?_, ?_, ?_, ?_, ⟨_, rfl⟩, ?_, ?_, ?_, ?_, ?_⟩ <;> decide +kernel

/-- R140: a call and its return; R137, R138: pending lanes resume at a join and at an exit. -/
theorem test_calls_join_exit :
    let s := coded {}
    let r := withSlices s fun _ x => { x with rstack := [pcIndex (2 ^ 56 + 64)], rdepth := 1 }
    let j := withSlices s fun _ x => { x with mask := 3, stack := [pending 12] }
    after (.call 5) s (fun t => (t.cur.slice 2).pc == 2 ^ 56 + 64 && (t.cur.slice 2).rstack == [pcIndex (2 ^ 56 + 12)] &&
      (t.cur.slice 2).rdepth == 1) ∧
    after .ret r (fun t => (t.cur.slice 2).pc == 2 ^ 56 + 64 && (t.cur.slice 2).rdepth == 0) ∧
    after .join j (fun t => (t.cur.slice 1).mask == 12 && (t.cur.slice 1).pc == 2 ^ 56 + 64 && (t.cur.slice 1).stack == [pending 0]) ∧
    after .exit j (fun t => (t.cur.slice 1).live == 12 && (t.cur.slice 1).mask == 12 && (t.cur.slice 1).pc == 2 ^ 56 + 64) ∧
    after .exit s (fun t => t.cur.ended && t.dmem == s.dmem) := by decide +kernel

/-- Hypotheses of CallsJoinExit. -/
theorem witness_calls_join_exit :
    let s := coded {}
    let r := withSlices s fun _ x => { x with rstack := [pcIndex (2 ^ 56 + 64)], rdepth := 1 }
    let j := withSlices s fun _ x => { x with mask := 3, stack := [pending 12] }
    let k := withSlices s fun _ x => { x with mask := 3, stack := [pending 0] }
    let e := withSlices s fun _ x => { x with mask := 3, stack := [⟨0, 0, 15, none⟩] }
    let w := withSlices s fun _ x => { x with mask := 3, stack := [⟨1, 0, 15, some 7⟩] }
    s.iss.slices.Nodup ∧ (∀ j ∈ s.iss.slices, (s.cur.slice j).rstack.length < 16 ∧ (s.cur.slice j).rdepth < 65535) ∧
    s.checkTarget s.iss.gid (s.target 5) = (s, none) ∧ s.checkTarget s.iss.gid (pcSucc s.iss.pc) = (s, none) ∧
    (∀ j ∈ r.iss.slices, 0 < (r.cur.slice j).rdepth ∧ (r.cur.slice j).rstack.head? = some (pcIndex (2 ^ 56 + 64))) ∧
    r.checkTarget r.iss.gid (pcOf (pcIndex (2 ^ 56 + 64))) = (r, none) ∧ (s.cur.slice 0).rdepth = 0 ∧
    (s.cur.slice 0).stack = [] ∧ (j.cur.slice 0).stack = [pending 12] ∧ (pending 12).jp = some (pcIndex j.iss.pc) ∧
    (pending 12).pend &&& (j.cur.slice 0).live ≠ 0 ∧ (k.cur.slice 0).stack = [pending 0] ∧
    (w.cur.slice 0).stack = [⟨1, 0, 15, some 7⟩] ∧ some 7 ≠ some (pcIndex w.iss.pc) ∧
    (pending 12).pend &&& ((j.cur.slice 0).live &&& ~~~(j.cur.slice 0).mask) ≠ 0 ∧ s.cur.resident = true ∧
    (e.cur.slice 0).stack = [⟨0, 0, 15, none⟩] ∧ (15 : BitVec 4) &&& ((e.cur.slice 0).live &&& ~~~(e.cur.slice 0).mask) ≠ 0 := by
  decide +kernel

/-- Every lane of `v4` holds the second block's offset from the code base. -/
def jumping : State :=
  { coded { v := [(4, (List.range 32).map fun i => (i, 64))] } with
    grids := [(0, { valid := true, lr := Memory.writeLE [] 8 8 (2 ^ 56) })] }

/-- Hypotheses of JumpsAndRegang: every lane names the second block; slices 1 to 7 stand apart from slice 0's split. -/
theorem witness_jumps_regang :
    let s := jumping
    let r : State := { base with iss := { base.iss with slices := [0], lanes := 15 } }
    s.iss.slices.Nodup ∧ (4 : VReg64).val < s.cur.vregs ∧ s.lanes ≠ [] ∧
    (∀ i ∈ s.lanes, s.srcV ((4 : VReg64).castLE (by decide)) i = 64) ∧ (s.codeBase + 64) % 2 ^ 64 = 2 ^ 56 + 64 ∧
    s.checkTarget s.iss.gid ((s.codeBase + 64) % 2 ^ 64) = (s, none) ∧ (∀ j ∈ s.iss.slices, (s.cur.slice j).stack.length ≤ 8) ∧
    (3 : BitVec 8) ≠ 0 ∧ 0 ∈ r.iss.slices ∧ (3 : BitVec 8).getLsbD 0 = true ∧ (3 : BitVec 8).getLsbD 1 = true ∧
    1 ∈ r.cur.sliceKeys ∧ 1 ∉ r.iss.slices ∧ (r.cur.slice 1).ended = false ∧ (r.cur.slice 1).park ≠ .regang 3 := by
  decide +kernel

/-- R139, R141. -/
theorem test_jmp_regang :
    let s := jumping
    after (.jmp 4) s (fun t => (t.cur.slice 3).pc == 2 ^ 56 + 64 && (t.cur.slice 3).mask == 15) ∧
    after (.regang 3) s (fun t => (t.cur.slice 1).split == (t.cur.slice 0).split && (t.cur.slice 2).split != (t.cur.slice 0).split) := by
  decide +kernel

/-- A target that lands; a split whose mixed slices' stacks are full; calls that have no room; two targets of a `jmp`. -/
theorem witness_targets :
    let s := coded { p := [(1, 0x3)] }; let T := s.target 5
    let d := withSlices s fun _ x => { x with stack := List.replicate 8 (pending 1) }
    let m := (base.checkTarget 0 (base.target 5))
    let full := withSlices s fun _ x => { x with rdepth := 65535 }
    let deep := withSlices s fun _ x => { x with rstack := List.replicate 16 0, rdepth := 16 }
    let j := jumping
    validPc T = true ∧ (match s.fetch 0 T with
      | (u, .ok b) => u == s && trailerOk b && landBit b (T % 64 / 12)
      | _ => false) = true ∧
    (let k := (d.cur.slice 0).mask &&& (d.cur.slice 0).live
     k &&& laneNibble (d.srcP 1) 0 ≠ 0 ∧ k &&& ~~~(k &&& laneNibble (d.srcP 1) 0) ≠ 0 ∧ 8 ≤ (d.cur.slice 0).stack.length) ∧
    (m.1.fault (m.2.getD ⟨.illegal, 0, 0, 0, 0⟩)).hostNeed = base.hostNeed ∧ (full.cur.slice 0).rdepth = 65535 ∧
    (16 ≤ (deep.cur.slice 0).rstack.length ∧ deep.iss.src.spill.get 0 0 = 0) ∧
    j.jumpLanes 4 j.lanes = (j, j.lanes.map fun i => (i, (j.codeBase + (j.iss.readV 4 i).toNat) % 2 ^ 64, none)) ∧
    (∀ i ∈ j.lanes, i / 4 ∈ j.iss.slices) ∧
    (∀ k ∈ j.iss.slices, (j.cur.slice k).stack.length +
      ((rising ((j.lanes.filter fun i => i / 4 == k).map fun i => (j.codeBase + (j.iss.readV 4 i).toNat) % 2 ^ 64)).length - 1) ≤ 8) := by
  decide +kernel

/-- R139: even lanes name the second block, odd lanes the first: the lowest target goes on, the other waits in PEND. -/
theorem test_jmp_two :
    let r : Regs := { v := [(4, (List.range 32).map fun i => (i, if i % 2 = 0 then 64 else 0))] }
    after (.jmp 4) { coded r with grids := [(0, { valid := true, lr := Memory.writeLE [] 8 8 (2 ^ 56) })] } (fun t =>
      let x := t.cur.slice 3
      x.pc == 2 ^ 56 && x.mask == 10 && x.stack.map (·.pendpc) == [2 ^ 56 + 64] && x.stack.map (·.pend) == [5]) := by decide +kernel

/-- Slice 0 issues a `regang` of slices 0 and 1; slice 1 stands at the packet, a split of its own, with `w`. -/
def regrouping (w : Park) : State :=
  let s : State := { base with iss := { base.iss with slices := [0], lanes := 15 } }
  withSlices s fun k x => { x with split := min k 2, park := if k = 1 then w else .none }

/-- Hypotheses of the clauses of `regang` that join splits. -/
theorem witness_regang :
    let s := regrouping .none; let w := regrouping (.regang 3)
    1 ∈ s.cur.sliceKeys ∧ 1 ∉ s.iss.slices ∧ (s.cur.slice 1).live ≠ 0 ∧ (s.cur.slice 1).halted = false ∧ (s.cur.slice 1).park = .none ∧
    (s.cur.slice 1).pc = s.iss.pc ∧ (∀ i ∈ s.cur.splitOf 1, i < 8 ∧ (3 : BitVec 8).getLsbD i = true) ∧
    (∀ j ∈ w.iss.slices, j ∈ w.cur.sliceKeys ∧ (w.cur.slice j).ended = false) ∧
    (∀ k ∈ w.cur.sliceKeys, k < 8 ∧ (3 : BitVec 8).getLsbD k = true → k ∉ w.iss.slices →
      (w.cur.slice k).ended = true ∨ ((w.cur.slice k).park = .regang 3 ∧ (w.cur.slice k).pc = w.iss.pc)) ∧
    after (.regang 3) s (fun t => (t.cur.slice 1).split == (t.cur.slice 0).split && (t.cur.slice 1).pc == 2 ^ 56 + 12) ∧
    after (.regangWait 3) w (fun t => (t.cur.slice 1).park == .none && (t.cur.slice 1).pc == 2 ^ 56 + 12) ∧
    after (.regangWait 3) s (fun t => (t.cur.slice 0).park == .regang 3) := by decide +kernel

/-! ### Election, child grids, power, windows -/

/-- R155, R107, R363: boundary places of RegisterWindowWords, BranchesAndAddresses and HandlerWords. -/
theorem witness_boundaries :
    ({} : Regs).kRead 8 2 0x400 = 0 ∧ ({} : Regs).kRead 8 2 0x700 = 255 ∧ ({} : Regs).kRead 8 2 0x701 = 0 ∧
    ({} : Regs).kWrite 8 2 0x6fc 7 = {} ∧ ({} : Regs).kWrite 8 2 0x761 7 = {} ∧
    (({} : Regs).kWriteN 8 2 0x6f8 (2 ^ 64 - 1) 8).a.get {} 15 = ⟨0, 0xffffffff⟩ ∧
    (({} : Regs).kWrite 8 2 0x3ff 9).kRead 8 2 0x3ff = 9 ∧
    pcSucc (64 + 48) = 128 ∧ pcSucc 64 = 76 ∧
    (decode [0x700e0004]).toOption = none ∧ (decode [0x700e07ff]).toOption = none ∧
    (decode [0x700e0803]).toOption = some (.fltrd 1 3, []) := by decide +kernel


/-- R142 to R144, R127: lane 0 of the role is elected; a gang that yields is to leave, and a ready pending gang then takes its
place. -/
def twoGangs : State :=
  { base with gangs := [(0, gang0), (1, { gang0 with active := none, age := 1 })], teams := [(0, { team0 with gangs := 2 })] }

theorem test_elect_yield :
    after (.elect 1) base (fun t => t.cur.regs.p.get 0 1 == 1) ∧
    after .yield twoGangs (fun t => t.cur.leaving == [.always] &&
      (t.swapOne 0 0).cur.active == none && ((t.swapOne 0 0).gang 1).active == some 0) ∧
    after .yield base (fun t => (t.swapOne 0 0).cur.active == some 0) := by decide +kernel

/-- Hypotheses of ElectNopYieldWords. -/
theorem witness_elect_yield :
    let y := twoGangs.modCur fun g => { g with leaving := [.always] }; let z := base.modCur fun g => { g with leaving := [.always] }
    twoGangs.cur.active = some 0 ∧ y.cur.active = some 0 ∧ y.cur.leaving = [.always] ∧ y.readyPending y.coreKey = [1] ∧
    (1 : Nat) ≠ y.iss.gid ∧ z.cur.active = some 0 ∧ z.cur.leaving = [.always] ∧ z.readyPending z.coreKey = [] ∧
    base.elected 0 0 = some (0, 0) ∧
    (let s : State := { base with gangs := [(0, { gang0 with slices := [] }), (1, gang0)] }
     s.elected 0 0 = some (1, 0) ∧ gidTeam 0 = 0 ∧ (s.gang 0).resident = true ∧ (s.gang 0).role = 0 ∧ (s.gang 0).ended = false) ∧
    ({ base with gangs := [(0, { gang0 with slices := [] })] } : State).elected 0 0 = none := by decide +kernel

/-- A launch record of one team of one gang of one slice at 2^56 + 0x1000, with `v` in its format field. -/
def launching (v : Nat) (k : Grid) (g : Gang) : State :=
  let r : Regs := { s := [(1, 2 ^ 56 + 0x1000)] }
  let m := (((((mapped r).dmem.writeLE 0x2001000 1 v).writeLE 0x2001008 8 (2 ^ 56)).writeLE 0x2001010 8 0x100010001).writeLE
    0x2001018 8 0x101).writeLE 0x2001020 8 0x110
  let s : State := { mapped r with dmem := m, gangs := [(0, { g with regs := r })], grids := [(0, { k with valid := true })] }
  (s.readVa s.coreKey (s.accessCtx s.teamKey) (2 ^ 56 + 0x1000) 512).1

/-- R45, R146: a good record starts a child, one of another format is counted as rejected with reason 1. -/
theorem test_launch :
    after (.launch 1) (launching 2 {} gang0) (fun t => t.cur.children.length == 1 && t.pending.length == 1 && t.cur.rejected == 0) ∧
    after (.launch 1) (launching 3 {} gang0) (fun t => t.cur.children == [] && t.cur.rejected == 1 && t.cur.reason == 1) := by
  decide +kernel

/-- Hypotheses of LaunchAndLaunchJoin. -/
theorem witness_launch :
    let s := launching 2 {} gang0; let r := launching 3 {} gang0; let d := launching 2 { depth := 10 } gang0
    let f := launching 2 {} { gang0 with children := List.range 16 }
    ([s, r, d, f].all fun s => !s.lanes.isEmpty && (s.srcS 1).toNat % 64 == 0 && decide ((s.srcS 1).toNat < 2 ^ 57)) = true ∧
    (withS [(1, 8)]).lanes ≠ [] ∧ ((withS [(1, 8)]).srcS 1).toNat % 64 ≠ 0 ∧
    ({ base with iss := { base.iss with lanes := 0 } } : State).lanes = [] ∧ 10 ≤ d.curGrid.depth ∧ s.curGrid.depth < 10 ∧
    16 ≤ f.cur.children.length ∧ f.curGrid.depth < 10 ∧ f.iss.slices.Nodup ∧ s.cur.children.length < 16 ∧ s.pending.length < 2048 ∧
    (let u := s.readLoad s.iss.gid (s.accessCtx s.teamKey) (s.srcS 1).toNat 512
     let v := u.1.checkLaunch u.1.coreKey u.1.childFrom (u.2.toOption.getD [])
     u.2.toOption.isSome = true ∧ v.2.toOption.isSome = true ∧ Answered s v.1) ∧
    (let u := r.readLoad r.iss.gid (r.accessCtx r.teamKey) (r.srcS 1).toNat 512
     let v := u.1.checkLaunch u.1.coreKey u.1.childFrom (u.2.toOption.getD [])
     u.2.toOption.isSome = true ∧ v.2.toOption.isSome = false ∧ Answered r v.1) ∧ r.pending.length < 2048 ∧
    r.curGrid.depth < 10 ∧ r.cur.children.length < 16 ∧ base.cur.children = [] ∧ f.cur.children ≠ [] := by
  simp only [Answered]; decide +kernel

/-- Hypotheses of PowerWordsAndEvents: no grant, a grant of class 2, a request that fits the pool and one that does not. -/
theorem witness_power :
    let g := { base with teams := [(0, { team0 with grant := some 2 })] }
    let f := { base with power := { base.power with fifo := [(0, 1)] } }
    let n := { f with power := { f.power with pool := 0 } }
    (1 : PReg).val ≠ 0 ∧ base.lanes ≠ [] ∧ base.curTeam.grant = none ∧ base.curTeam.request = none ∧
    (g.curTeam.grant = some 2 ∧ (2 : PReg).val ≤ 2) ∧ (g.curTeam.grant = some 2 ∧ 2 < (3 : PReg).val) ∧
    base.power.fifo = [] ∧ f.power.fifo = [(0, 1)] ∧
    (({ f with power := { f.power with pool := allowance 1 } } : State).granted + allowance 1 ≤ allowance 1) ∧
    n.power.pool < n.granted + allowance 1 := by decide +kernel

/-- R98, R148: a request parks, its grant lets the split go on. -/
theorem test_power :
    let s := { base with power := { base.power with pool := 100000 } }
    after (.pwreq 2) s (fun t => (t.cur.slice 0).park == .pwreq 2 && t.power.fifo == [(0, 2)]) ∧
    after .powerGrant (next (.pwreq 2) s) (fun t => (t.team 0).grant == some 2) := by decide +kernel

/-- A team that is member 0 of a window of two, the second in state `k`. -/
def inWindow (k : Nat) (a : W64) : State :=
  { withS [(1, a)] with teams := [(0, { team0 with
      window := some { key := 2, size := 4096, entries := [⟨0, 0, 0, 0⟩, ⟨k, 0, 0, 1⟩] }, member := some 0 })] }

/-- Hypotheses of WindowWords. -/
theorem witness_windows :
    let s := inWindow 0 1; let d := inWindow 3 1; let w := s.curTeam.window.getD {}
    let b : State := { s with cores := [(0, { copies := [(0, { state := .running, src := .flat .w 0 })] })] }
    gidCore s.iss.gid ≠ 388 ∧ 256 ≤ ((inWindow 0 256).srcS 1).toNat ∧ (s.srcS 1).toNat < 256 ∧ base.curTeam.window = none ∧
    s.curTeam.window = some w ∧ s.curTeam.member = some 0 ∧ (w.entries.getD 0 {}).state ≠ 2 ∧ s.windowBusy s.teamKey = false ∧
    b.windowBusy b.teamKey = true ∧ s.iss.slices.Nodup ∧ s.curTeam.valid = true ∧ (w.entries.getD 0 {}).state ≠ 3 ∧
    0 < w.entries.length ∧ s.isTwin s.curTeam.ctx = false ∧ (∃ e ∈ (d.curTeam.window.getD {}).entries, e.state = 3) ∧
    d.isTwin d.curTeam.ctx = false ∧ (∀ e ∈ w.entries, e.state ≠ 3) := by decide +kernel

theorem test_windows :
    after (.wmember 1) (inWindow 2 1) (fun t => t.cur.regs.s.get 0 1 == 2) ∧
    after (.wmember 1) (inWindow 2 9) (fun t => t.cur.regs.s.get 0 1 == 0xffffffffffffffff) ∧
    after .wdetach (inWindow 0 1) (fun t => (((t.team 0).window.getD {}).entries.getD 0 {}).state == 2) := by decide +kernel

/-! ### Counters, barriers, timelines -/

/-- Hypotheses of CountersAndBarriers: `ld` at 3; a barrier of 17, of one with the one split, and with another split running. -/
theorem witness_counters_barriers :
    let s := { base with gangs := [(0, { gang0 with ld := 3 })] }; let b := withS [(1, 1)]
    let o := { b with iss := { b.iss with slices := [0], lanes := 15 } }
    s.cur.sliceKeys.Pairwise (· < ·) ∧ s.iss.slices.Nodup ∧ ((3 : Fin 32).val = 31 ∨ s.cur.ld ≤ (3 : Fin 32).val) ∧
    ¬((2 : Fin 32).val = 31 ∨ s.cur.ld ≤ (2 : Fin 32).val) ∧ 16 < ((withS [(1, 17)]).srcS 1).toNat % 32 ∧
    (b.srcS 1).toNat % 32 = 1 ∧ b.cur.sq = [] ∧ b.curTeam.bar 3 = {} ∧
    (∃ j ∈ b.iss.slices, (b.cur.slice j).live ≠ 0 ∧ (b.cur.slice j).halted = false) ∧ (∀ x ∈ b.cur.slices, x.1 ∈ b.iss.slices) ∧
    (∀ j ∈ b.iss.slices, (b.cur.slice j).others = none) ∧ o.cur.sq = [] ∧ o.cur.sliceKeys.Pairwise (· < ·) ∧
    (∃ x ∈ o.cur.slices, x.1 ∉ o.iss.slices ∧ x.2.live ≠ 0 ∧ x.2.halted = false ∧ x.2.park = .none) := by decide +kernel

theorem test_waitcnt_bar :
    let s := { base with gangs := [(0, { gang0 with ld := 3 })] }
    after (.waitcnt 2 31 31 31 false) s (fun t => (t.cur.slice 0).park == .waitcnt 2 31 31 31) ∧
    after (.waitcnt 3 31 31 31 false) s (fun t => t == s) ∧
    after (.bar 1 3) (withS [(1, 1)]) (fun t => (t.cur.slice 0).pc == 2 ^ 56 + 12 && t.curTeam.bar 3 == {}) ∧
    after (.bar 1 3) (withS [(1, 2)]) (fun t => (t.cur.slice 0).park == .bar 3 2) := by decide +kernel

/-- Scratch with a phase-bit word at 8 that awaits `arr` of 2 arrivals, with flags `f`. -/
def phase (arr f : Nat) : State :=
  { withRegs { a := [(1, ⟨8, 0⟩)], s := [(1, 5)] } with
    teams := [(0, { team0 with scratch := Memory.writeLE [] 8 8 (f * 2 ^ 61 + arr * 2 ^ 54 + 2 * 2 ^ 47) })] }

/-- R258: the last arrival turns the phase and renews the count. -/
theorem test_phase :
    after (.phbarr 1) (phase 1 0) (fun t => (t.team 0).scratch.readLE 8 8 == 2 ^ 63 + 2 * 2 ^ 54 + 2 * 2 ^ 47) ∧
    after (.phbexp 1 1) (phase 2 0) (fun t => (t.team 0).scratch.readLE 8 8 == 2 ^ 54 + 2 * 2 ^ 47 + 5) ∧
    after (.phbinit 1 3) (phase 0 7) (fun t => (t.team 0).scratch.readLE 8 8 == 3 * 2 ^ 54 + 3 * 2 ^ 47) := by decide +kernel

/-- Hypotheses of PhaseBarriers. -/
theorem witness_phase :
    let off := fun (s : State) => ((s.srcA 1).base + BitVec.ofNat 64 0 * BitVec.ofInt 64 (s.srcA 1).stride.toInt).toNat
    let at9 := fun (b : W64) => withRegs { a := [(1, ⟨b, 0⟩)], s := [(1, 2 ^ 46)] }
    let s := phase 1 0; let w := fun (s : State) => s.curTeam.scratch.readLE (off s) 8
    (3 : Fin 128).val ≠ 0 ∧ s.lanes = 0 :: (List.range 32).tail ∧ off (at9 9) % 8 ≠ 0 ∧ off (at9 4096) % 8 = 0 ∧
    (at9 4096).curTeam.scratchSize < off (at9 4096) + 8 ∧ off s % 8 = 0 ∧ off s + 8 ≤ s.curTeam.scratchSize ∧ s.cur.sq = [] ∧
    (s.core s.coreKey).wp = [] ∧ (s.srcS 1).toNat < 2 ^ 46 ∧ bit (w s) 63 = false ∧ bit (w s) 62 = false ∧
    bit (w (phase 1 2)) 62 = true ∧ bit (w (phase 1 4)) 63 = true ∧ 2 ^ 46 ≤ ((at9 8).srcS 1).toNat ∧ s.iss.slices.Nodup ∧
    ({ base with iss := { base.iss with lanes := 0 } } : State).lanes = [] := by decide +kernel

/-- A logical device with timelines 8 to 11 and queues 4 and 5, queue 4 accepting, and registers `a`, `b`. -/
def posting (a b : W64) : State :=
  let r : Regs := { s := [(1, a), (2, b)] }
  let s : State := { mapped r with
    lds := [(0, { tlfirst := 8, tlcount := 4, qfirst := 4, qcount := 2 })], timelines := [(8, 5)]
    queues := [(4, { state := 1, base := 2 ^ 56 + 0x40, logsize := 2 })] }
  ((s.translateIn s.coreKey (s.accessCtx s.teamKey) (2 ^ 56 + 0x100) 0).1.translateIn s.coreKey (s.accessCtx s.teamKey) (2 ^ 56 + 0xc0) 1).1

/-- Hypotheses of TimelinesAndPosting. -/
theorem witness_timelines :
    let s := posting 8 5; let q := posting (4 + 2 * 2 ^ 32) (2 ^ 56 + 0x100); let twin := { s with ctxs := [(0, { ctx0 with parent := some 1 })] }
    let L := fun (s : State) => s.ldev (s.ctx s.curTeam.ctx).ld; let c := q.accessCtx q.teamKey
    let r : State := { s with raises := [{ tl := 8, value := 9, who := .none, seen := true }] }
    twin.isTwin twin.curTeam.ctx = true ∧ s.isTwin s.curTeam.ctx = false ∧ 2 ^ 12 ≤ ((posting 4096 0).srcS 1).toNat ∧
    ((posting 12 0).srcS 1).toNat < 2 ^ 12 ∧ (L s).tlfirst + (L s).tlcount ≤ ((posting 12 0).srcS 1).toNat ∧
    (L s).tlfirst ≤ (s.srcS 1).toNat ∧ (s.srcS 1).toNat < (L s).tlfirst + (L s).tlcount ∧ s.iss.slices.Nodup ∧
    0 ≤ ((s.timelines.get 0 8 : W64) - s.srcS 2).toInt ∧ ((s.timelines.get 0 8 : W64) - (posting 8 6).srcS 2).toInt < 0 ∧
    (L s).qfirst ≤ ((posting 4 6).srcS 1).toNat ∧ ((posting 4 6).srcS 1).toNat < (L s).qfirst + (L s).qcount ∧
    ((posting 4 6).srcS 2).toNat < 2 ^ 32 ∧ ((posting 6 6).srcS 1).toNat ≥ (L s).qfirst + (L s).qcount ∧
    bits (q.srcS 1).toNat 10 22 = 0 ∧ (q.srcS 2).toNat % 64 = 0 ∧ (q.srcS 2).toNat < 2 ^ 57 ∧ (q.srcS 1).toNat % 2 ^ 10 = 4 ∧
    (q.queue 4).state = 1 ∧ (q.queue 5).state ≠ 1 ∧ (L q).qfirst ≤ 5 ∧ 5 < (L q).qfirst + (L q).qcount ∧
    ((q.queue 4).base + 64 * ((q.srcS 1).toNat / 2 ^ 32 % 2 ^ 32 % (q.queue 4).size)) % 2 ^ 57 = 2 ^ 56 + 0xc0 ∧
    (q.translateIn q.coreKey c (q.srcS 2).toNat 0).1 = q ∧ (q.translateIn q.coreKey c (q.srcS 2).toNat 0).2.toOption.isSome = true ∧
    (q.translateIn q.coreKey c (2 ^ 56 + 0xc0) 1).1 = q ∧ (q.translateIn q.coreKey c (2 ^ 56 + 0xc0) 1).2.toOption.isSome = true ∧
    s.raises.find? (fun r => r.tl == 8) = none ∧ (∃ x, r.raises.find? (fun r => r.tl == 8) = some x ∧ r.raiseHeld x = false ∧ x.seen = true) := by
  simp only []
  refine ⟨?_, ?_, ?_, ?_, ?_, ?_, ?_, ?_, ?_, ?_, ?_, ?_, ?_, ?_, ?_, ?_, ?_, ?_, ?_, ?_, ?_, ?_, ?_, ?_, ?_, ?_, ?_, ?_, ⟨_, rfl, ?_⟩⟩ <;>
    decide +kernel

/-- R79, R262: a raise of 9 lifts timeline 8 from 5; an older one leaves it; `tlwait` of a value not reached stays. -/
theorem test_timelines :
    after (.timelineRaiseWrite 8) { posting 8 5 with raises := [{ tl := 8, value := 9, who := .none, seen := true }] } (fun t => t.timelines.get 0 8 == 9) ∧
    after (.timelineRaiseWrite 8) { posting 8 5 with raises := [{ tl := 8, value := 4, who := .none, seen := true }] } (fun t => t.timelines.get 0 8 == 5) ∧
    after (.tlwait 1 2) (posting 8 6) (fun t => (t.cur.slice 0).pc == 2 ^ 56) := by decide +kernel

/-- WindowWords and PhaseBarriers: a member on another part that is up, and on one that is down; a word whose line a copy owns. -/
theorem witness_window_parts :
    let far := fun (down : List Nat) => let s := inWindow 0 1; { s with down := down, teams := [(0, { team0 with
      window := some { key := 2, size := 4096, reel := true, entries := [⟨0, 0, 0, 0⟩, ⟨0, 9, 0, 1⟩] }, member := some 0 })] }
    let w := fun (s : State) => s.curTeam.window.getD {}
    let q : CopyRec := { state := .running, seq := 5, src := .flat .g (2 ^ 56), dst := .flat .l 0, len := 64, order := 0 }
    let s : State := { phase 1 0 with cores := [(0, { copies := [(0, q)] })], copyOrder := 1 }
    (∃ p ∈ (w (far [])).parts 0, (far []).down.contains p = false) ∧ (∀ p ∈ (w (far [9])).parts 0, (far [9]).down.contains p = true) ∧
    s.recalled 0 (.buf s.teamKey .l 8) (s.copyOrder + 1) = true ∧ (phase 1 0).recalled 0 (.buf 0 .l 8) 1 = false ∧
    after .wdetach (far []) (fun t => (t.cur.slice 0).park == .wdetach && ((w t).entries.getD 0 {}).state == 2) ∧
    after .wdetach (far [9]) (fun t => (t.cur.slice 0).park == .none) ∧
    after (.phbarr 1) s (fun t => (t.cur.slice 0).pc == 2 ^ 56 && (t.team 0).scratch == s.curTeam.scratch) := by decide +kernel

/-! ### The matrix engine -/

/-- Registers, and a grid with slot 0 for `.i8`, slot 1 for `.f32` unscaled, slot 2 for an `.f32` scale on the side of A. -/
def engines (l : Tab W64) : State :=
  { coded { s := l } with
    grids := [(0, { valid := true, lr := ((Memory.writeLE [] 0x80 8 0x0a).writeLE 0x88 8 0x11).writeLE 0x90 8 0x51 })] }

/-- A region of 16 by 16 at 64 with `kg` granules. -/
def region (kg : Nat) : W64 := BitVec.ofNat 64 (kg * 2 ^ 48 + 2 ^ 40 + 2 ^ 32 + 64)

/-- Hypotheses of TileIssue. -/
theorem witness_tile_issue :
    let m := engines [(1, 0x1000), (2, region 1), (3, 0)]; let z := fun x => engines [(1, x)]
    let e := fun (x y : W64) => engines [(1, region 0), (2, x), (3, y)]; let R := regionOf (region 1)
    let r := engines [(1, 0x1000 * 2 ^ 32), (2, 3 * 2 ^ 32 + 8 * 2 ^ 16 + 8)]
    m.lanes ≠ [] ∧ m.slotUnused 0 = false ∧ (FmtSlot.ofBits (m.slotBits 0)).isSome = true ∧ granuleOf .i8 .i8 = some 32 ∧
    (R.m = 16 ∧ R.n = 16 ∧ R.off % 16 = 0 ∧ R.kg = 1) ∧ R.off + 4 * R.m * R.n ≤ m.curTeam.extent .cb ∧
    0x1000 + R.m * 32 ≤ m.curTeam.extent .ab ∧ 32 * R.n ≤ m.curTeam.extent .wb ∧ Admits (.tmm 0 1 2 3) m ∧ Admits (.tmms 0 1 2 3) m ∧
    (let u := engines [(1, 0x1000), (2, region 1), (3, 3)]; u.slotUnused 3 = true ∧ Admits (.tmm 0 1 2 3) u ∧ Admits (.tmms 0 1 2 3) u) ∧
    Admits (.tzero 1) (z (region 0)) ∧ Admits (.tzero 1) (z 0) ∧ (regionOf 0).m = 0 ∧ Admits (.tzero 1) (z (region 0 + 8)) ∧
    (regionOf (region 0 + 8)).off % 16 ≠ 0 ∧ Admits (.tzero 1) (z (region 0 + 524288)) ∧
    (z 0).curTeam.extent .cb < (regionOf (region 0 + 524288)).off + 4 * 16 * 16 ∧
    Admits (.tepi 1 1 2 3) (e 0 0) ∧ bits ((e 0 0).srcS 2).toNat 32 20 = 0 ∧ (FmtSlot.ofBits ((e 0 0).slotBits 1)).isSome = true ∧
    bits ((e 0 0).slotBits 1).toNat 6 2 < 2 ∧ bit ((e 0 (2 ^ 32 + 4)).srcS 3).toNat 32 = true ∧
    64 + 16 * 16 * 4 ≤ (e 0 0).curTeam.extent .ab ∧ 4 + 4 * (regionOf (region 0)).n ≤ (e 0 0).curTeam.extent .ab ∧
    (let x := e (2 ^ 39 + 2 ^ 36 + 2 * 2 ^ 32) 0; let sb := (x.srcS 2).toNat
      bit sb 39 = true ∧ bit sb 35 = false ∧ bits sb 32 3 = 2 ∧ bits sb 36 3 = 1 ∧ x.slotUnused 2 = false ∧ x.slotUnused 1 = false ∧
      bits (x.slotBits 2).toNat 6 2 ≠ 3 ∧ bits (x.slotBits 1).toNat 6 2 ≠ 2 ∧ (x.scaleOf (x.slotBits 2) 2).toOption.isSome = true ∧
      (x.scaleOf (x.slotBits 1) 3).toOption.isSome = true ∧ x.scaleShape (x.slotBits 2) 2 = true ∧ x.scaleShape (x.slotBits 1) 3 = true) ∧
    Admits (.ttrn 1 2) r ∧ (r.srcS 2).toNat % 2 ^ 16 = 8 ∧ (r.srcS 2).toNat / 2 ^ 32 = 3 ∧ 8 * 8 ≤ 0x1000 ∧ (r.srcS 1).toNat % 2 ^ 32 = 0 ∧
    0x1000 + 64 ≤ r.curTeam.extent .ab := by
  simp only [Admits]; decide +kernel

/-- A team with one tile operation. -/
def tiled (k : TileKind) (t : Team) : State :=
  { base with gangs := [(0, { gang0 with tm := 1 })], teams := [(0, { t with tiles := [{ gid := 0, pc := 2 ^ 56, word := 0, kind := k }] })] }

/-- R199: the sum of 32 products of one. -/
theorem test_granule : shapeF32.rne (granuleSum (List.replicate 32 ((Machine.Num.fin false 1 0).mul (.fin false 1 0)))) = 0x42000000 := by
  decide +kernel
theorem test_tzero :
    let t := tiled (.tzero { off := 16, m := 16, n := 16 }) { team0 with cb := Memory.writeLE [] 12 8 0xffffffffffffffff }
    after (.tileOpComplete 0) t (fun u => (u.team 0).cb.readLE 12 8 == 0xffffffff) := by decide +kernel

/-- Hypotheses of TileCompletion. -/
theorem witness_tile_completion :
    let z := tiled (.tzero { off := 16, m := 16, n := 16 }) team0
    let m := tiled (.tmm false 0 0 { off := 0, m := 16, n := 16, kg := 1 } 0x0a 0x0a) team0
    let h : State := { z with ctxs := [(0, { ctx0 with state := .stepping })] }; let saved := fun (o : TileOp) => { o with saved := true }
    z.tileHeld 0 ((z.team 0).tiles.headD ⟨0, 0, 0, .tzero {}, 0, [], 0, false, false, 0⟩) = false ∧
    m.tileHeld 0 ((m.team 0).tiles.headD ⟨0, 0, 0, .tzero {}, 0, [], 0, false, false, 0⟩) = false ∧ z.cutPauses 0 = false ∧
    h.tileHeld 0 (saved ((z.team 0).tiles.headD ⟨0, 0, 0, .tzero {}, 0, [], 0, false, false, 0⟩)) = true ∧
    (FmtSlot.ofBits 0x0a).isSome = true ∧ granuleOf .i8 .i8 = some 32 ∧ (z.ctx (z.team 0).ctx).state ≠ .stepping := by decide +kernel

/-! ### The stream engine -/

/-- A row of 32 elements. -/
def row32 : Row := { len := 32, off := 0, e := 0, n := List.replicate 32 0, q := 0 }
def streaming (l : Tab W64) (v : Tab (Tab W32)) : State :=
  let r : Regs := { s := l, v := v }
  { engines l with iss := { base.iss with src := r }, gangs := [(0, { gang0 with regs := r })]
                   teams := [(0, { team0 with rows := [(3, row32)] })] }

/-- Hypotheses of StreamIssue, of its checks and of the words on a row that is there. -/
theorem witness_stream_issue :
    let s := streaming [(1, 5), (2, 2 ^ 39 + 64), (3, 0)] []; let q := streaming [(1, 3), (2, 64), (3, 2 ^ 56 + 128)] []
    let bad := streaming [(1, 2 ^ 41), (2, 0), (3, 0)] []; let none' := streaming [(1, 5), (2, 64), (3, 0)] []
    let n := streaming [(1, 3), (2, 0), (3, 2 ^ 32)] []; let ab := streaming [(1, 3), (2, 32 * 2 ^ 32), (3, 0)] []
    s.lanes ≠ [] ∧ 2 ^ 41 ≤ (bad.srcS 1).toNat ∧ Admits (.rsinit 1 2 3) bad ∧ Admits (.rsq 1 2) bad ∧ Admits (.rssave true 1 2) bad ∧
    (s.srcS 1).toNat < s.curTeam.rowCount ∧ Admits (.rsinit 1 2 3) s ∧ (s.srcS 2).toNat % 2 ^ 16 = 64 ∧ (s.srcS 2).toNat / 2 ^ 32 = 128 ∧
    (s.srcS 2).toNat / 2 ^ 16 % 2 ^ 16 = 0 ∧ (s.srcS 3).toInt = 0 ∧ s.curTeam.overlapsRow 5 128 64 = false ∧ 128 + 4 * 64 ≤ s.curTeam.sbExtent ∧
    Admits (.rsq 1 2) q ∧ (q.srcS 2).toNat % 16 = 0 ∧ 64 + 32 ≤ q.curTeam.extent .ab ∧ Admits (.rsload false 1 2 1) q ∧
    Admits (.rssave true 1 2) none' ∧ none'.curTeam.row 5 = none ∧ q.curTeam.row 3 = some row32 ∧ Admits (.rssave true 1 2) q ∧
    Admits (.rsaddVector .f32 1 3 2) n ∧ (n.srcS 0).toNat + 32 ≤ row32.len ∧ Admits (.rsaddAb .f32 1 2 3) ab ∧
    (ab.srcS 2).toNat / 2 ^ 32 = 32 ∧ 32 * deltaSize .f32 ≤ ab.curTeam.extent .ab ∧ Admits (.rsnorm 1 1 2 3) n ∧
    (n.srcS 3).toNat / 2 ^ 32 = 1 ∧ (n.srcS 2).toNat = 0 ∧ (FmtSlot.ofBits (n.slotBits 1)).isSome = true ∧
    bits (n.slotBits 1).toNat 6 2 < 2 ∧ row32.len * 32 / 8 ≤ n.curTeam.extent .ab := by
  simp only [Admits]; decide +kernel

/-- Its clauses on spans and fences: row 3 is span 0, whose members are 0 and 1; an add is outstanding. -/
theorem witness_stream_span :
    let l : Tab W64 := [(1, 3), (2, 0), (3, 2 ^ 32)]; let b := streaming l []
    let s : State := { b with
      grids := [(0, { b.grid 0 with smap := ((Memory.writeLE [] 0 1 1).writeLE 0x40 1 3).writeLE 0x60 2 3 })]
      teams := [(0, { b.team 0 with member := some 0 })] }
    let o : StreamOp := { seq := 0, gid := 0, pc := 0, word := 0, row := 3, kind := .add .f32 (.ab 0 0 1) }
    let f : State := { b with teams := [(0, { b.team 0 with streams := [o], streamSeq := 1 })] }
    Admits (.rsnormReel 1 1 2 3) s ∧ s.curGrid.span 0 = some (3, 3) ∧ s.curTeam.member = some 0 ∧ bit 3 0 = true ∧
    s.isTwin s.curTeam.ctx = false ∧ Admits .rsfenceTeam b ∧ Admits .rsfenceSet b ∧ Admits .rsfenceReel b ∧ b.curTeam.streams = [] ∧
    f.iss.slices.Nodup ∧ f.curTeam.streams = [o] ∧ o.seq < f.curTeam.streamSeq ∧ Admits .rsfenceTeam f ∧ Admits .rsfenceSet f ∧
    Admits .rsfenceReel f := by
  simp only [Admits]; decide +kernel

/-- A team whose one stream operation is `k`, and one REMOTE add with its answer in the part's own loop. -/
def streamed (k : StreamKind) : State :=
  let o : StreamOp := { seq := 7, gid := 0, pc := 0, word := 0, row := 3, kind := k }
  { base with gangs := [(0, { gang0 with tm := 1 })], teams := [(0, { team0 with rows := [(3, row32)], streams := [o] })] }
def pairsAnswer : Rx := { port := 32, lseq := 0, cell := { type := 0x09, dst := 0, src := 0, body := .pairsAck 0 0 7 0 } }

/-- Hypotheses of StreamCompletion. -/
theorem witness_stream_completion :
    let r := { streamed (.addRemote .f32 1 0 (.ab 0 0 1) true) with loop := [pairsAnswer.cell] }
    let hd := fun (k : StreamKind) => (((streamed k).team 0).streams.headD ⟨0, 0, 0, 0, 0, k, 0, none, 0, 0, false, false, 0⟩)
    (streamed (.init 32 128 0)).streamHeld 0 (hd (.init 32 128 0)) = false ∧ (streamed (.rsq 64)).streamHeld 0 (hd (.rsq 64)) = false ∧
    (hd (.rsq 64)).snap = none ∧ row32.q = sumSquares row32.n ∧ 0 < row32.n.length ∧ (∀ x ∈ row32.n, -(2 ^ 31 - 1) ≤ x ∧ x ≤ 2 ^ 31 - 1) ∧
    (base.team 0).streamOp 7 = none ∧ ((streamed (.init 32 128 0)).team 0).streams.length = 1 ∧
    ((streamed (.rsq 64)).team 0).streams.length = 1 ∧ (base.accept pairsAnswer).2 = false ∧ (r.accept pairsAnswer).2 = true ∧
    ((r.accept pairsAnswer).1.team (0 * 16 + 0)).streams.length = 1 := by decide +kernel

/-- R287, R298, R303: a new row; the record of a row; saturation at 2^31 - 1. -/
theorem test_streams :
    after (.streamOpComplete 0 7) (streamed (.init 32 128 (-3))) (fun t => ((t.team 0).row 3).any fun r => r.off == 128 && r.e == -3 && r.n.length == 32) ∧
    after (.streamReceive pairsAnswer) { streamed (.addRemote .f32 1 0 (.ab 0 0 1) true) with loop := [pairsAnswer.cell] }
      (fun t => t.cur.tm == 0 && (t.team 0).streams == []) ∧
    ((row32.apply 0 (2 ^ 31 - 1) false).apply 0 5 false).n.getD 0 0 = 2 ^ 31 - 1 := by decide +kernel

/-! ### The search engine and collectives -/

/-- Descriptor 1 of a table of two: a matrix of 32-bit floats, 4 by 4, at 2^56 + 0x400. -/
def searching (l : Tab W64) : State :=
  let s := engines l
  { s with dmem := (((s.dmem.writeLE 0x40 8 (2 ^ 56 + 0x400)).writeLE 0x48 8 (2 ^ 44 + 5 * 2 ^ 16 + 0x11 * 2 ^ 8 + 1)).writeLE
             0x50 4 4).writeLE 0x54 4 4 |>.writeLE 0x58 4 1 |>.writeLE 0x5c 4 1 |>.writeLE 0x60 4 1 |>.writeLE 0x68 4 16
           ctxs := [(0, { s.ctx 0 with desc := 0, dsize := 1 })] }

/-- Hypotheses of SearchEngine. -/
theorem witness_search :
    let s := engines [(1, 0x100 * 2 ^ 32), (2, 0x40), (3, 2 * 2 ^ 16 + 4)]; let z := engines [(1, 0), (2, 0), (3, 4)]
    let m := engines [(1, 0x100 * 2 ^ 32), (2, 0x40), (3, 2)]
    let v := searching [(1, 0x100 * 2 ^ 32), (2, 0x200 * 2 ^ 32 + 1), (3, 2)]
    let q := fun (k : SearchKind) => ({ base with gangs := [(0, { gang0 with tm := 1 })], cores := [(0, { searches := [⟨0, 0, 0, k, false, 0⟩] })] } : State)
    let f := q (.vdist 0x11 0 0x100 0x200 (2 ^ 56) 4 1 1 1 0)
    s.lanes ≠ [] ∧ Admits (.topk 1 2 3) s ∧ 0x100 + 8 * 2 ≤ s.curTeam.extent .ab ∧ (s.srcS 3).toNat / 2 ^ 16 % 2 ^ 16 = 2 ∧
    (s.srcS 3).toNat % 2 ^ 16 = 4 ∧ Admits (.topk 1 2 3) z ∧ (z.srcS 3).toNat / 2 ^ 16 % 2 ^ 16 = 0 ∧ Admits (.topkm 1 2 3) m ∧
    (0 + 8 * 2 ≤ 0x100 ∧ 0x40 + 8 * 2 ≤ 0x100) ∧ Admits (.topkr 1 2 3) m ∧ 0x40 + 8 * 2 ≤ m.curTeam.extent .l ∧
    Admits (.vdist 1 1 2 3) v ∧ (v.slotBits 1).toNat = 0x11 ∧ distFormat .f32 = true ∧ (v.srcS 3).toNat = 2 ∧
    (match v.descriptor v.curTeam.ctx 1 with
      | .ok d => d.rank == 1 && d.efmt == 0x11 && d.sizes.headD 0 == 4
      | _ => false) = true ∧
    ((q (.topk 0 0x100 0 4 2)).core 0).searches.length = 1 ∧ ((q (.topkr 0 0 2)).core 0).searches.length = 1 ∧
    (f.vdistRun ⟨0, 0, 0, .vdist 0x11 0 0x100 0x200 (2 ^ 56) 4 1 1 1 0, false, 0⟩).2.2.isSome = true ∧
    Answered f (f.vdistRun ⟨0, 0, 0, .vdist 0x11 0 0x100 0x200 (2 ^ 56) 4 1 1 1 0, false, 0⟩).1 ∧ f.engineHeld 0 0 = false ∧
    (f.modGang 0 fun g => { g with ops := [{ seq := 0, kind := .fence 0 .dev, lanes := [] }] }).engineHeld 0 1 = true := by
  simp only [Admits, Answered]; decide +kernel

/-- R234: the two least of 9, 3, 7, 3 with their numbers, equal keys in order of number. -/
theorem test_topk :
    let t : Team := { team0 with ab := (((Memory.writeLE [] 0 4 9).writeLE 4 4 3).writeLE 8 4 7).writeLE 12 4 3 }
    let s : State := { base with gangs := [(0, { gang0 with tm := 1 })], teams := [(0, t)]
                                 cores := [(0, { searches := [⟨0, 0, 0, .topk 0 0x100 10 4 2, false, 0⟩] })] }
    after (.searchOpComplete 0) s (fun u => (u.team 0).ab.readLE 0x100 16 == 3 + 11 * 2 ^ 32 + 3 * 2 ^ 64 + 13 * 2 ^ 96) := by decide +kernel

/-- A team that is member 0 of a set of two, with slot 1 for `.f32`. -/
def collecting (l : Tab W64) : State :=
  { engines l with teams := [(0, { team0 with member := some 0, window := some { key := 2, size := 4096, entries := [⟨0, 0, 0, 0⟩, ⟨0, 0, 0, 1⟩] } })] }
def collCell : Rx := { port := 32, lseq := 0, cell := { type := 0x08, dst := 0, src := 0, body := .coll 2 1 0 0 [1, 2] none } }

/-- Hypotheses of Collectives. -/
theorem witness_collectives :
    let s := collecting [(1, 0x100 * 2 ^ 32), (2, 4), (3, 9)]; let n := engines [(1, 0), (2, 4), (3, 0)]
    let o : CollOp := ⟨0, 0, 0, 3, 0x11, 0, 2, 1, 0, 0, [0, 1], false, false, false, 0⟩
    let c : State := { s with teams := [(0, { s.team 0 with colls := [o], early := [collCell.cell.body] })], loop := [collCell.cell] }
    s.lanes ≠ [] ∧ n.curTeam.window = none ∧ Admits (.cred 1 1 2 3 .add) n ∧ Admits (.cbc 1 1 2 3) n ∧ Admits (.cgat 1 1 2 3) n ∧
    s.curTeam.window.isSome = true ∧ s.curTeam.member = some 0 ∧ (s.slotBits 1).toNat = 0x11 ∧ (s.srcS 2).toNat = 4 ∧ (s.srcS 3).toNat = 9 ∧
    (s.curTeam.window.getD {}).attached = [0, 1] ∧ 0x100 + (2 * 4 * 32 + 7) / 8 ≤ s.curTeam.extent .ab ∧ s.isTwin s.curTeam.ctx = false ∧
    Admits (.cred 1 1 2 3 .add) s ∧ Admits (.cbc 1 1 2 3) s ∧ Admits (.cgat 1 1 2 3) s ∧
    (c.team 0).colls.find? (fun o => o.tag == 0 && o.k == 0) = some o ∧ ((c.team 0).collData 0 0).map (·.1) = [1] ∧ (c.team 0).tooLate collCell.cell.body = false ∧ (c.team 0).member.isSome = true ∧
    (∀ r ∈ o.ranks, (((c.team 0).window.getD {}).entries.getD r {}).state ≠ 3) ∧ (c.accept collCell).2 = true ∧
    0 ∈ (c.accept collCell).1.windowTeams 2 := by
  simp only [Admits]; decide +kernel

/-- R327: a broadcast copies the root's elements into AB. -/
theorem test_collective :
    let s := collecting [(1, 0x100 * 2 ^ 32), (2, 4), (3, 9)]
    let o : CollOp := ⟨0, 0, 0, 3, 0x11, 16, 2, 1, 0, 0, [0, 1], false, false, false, 0⟩
    let c : State := { s with teams := [(0, { s.team 0 with colls := [o], early := [collCell.cell.body] })] }
    after (.collectiveComplete 0 0 0) c (fun t => (t.team 0).ab.readLE 16 8 == 1 + 2 * 2 ^ 32 && (t.team 0).colls == []) := by decide +kernel

/-! ### System registers, faults, the handler, services, pages -/

/-- The part with its issuing split in supervisor mode. -/
def supervising (s : State) : State := withSlices { s with iss := { s.iss with sup := true } } fun _ x => { x with sup := true }

/-- Hypotheses of SystemRegisters. -/
theorem witness_system :
    let s := supervising (withS [(1, 7)]); let c : TCommit := { due := 2, reg := 3, val := 9, gid := 0, pos := 0 }
    let t := fun (n : W64) => ({ base with cycle := n, teams := [(0, { team0 with commits := [c] })] } : State)
    ¬((0x00c : Fin 2048).val ≤ 0x00b ∨ (0x010 ≤ (0x00c : Fin 2048).val ∧ (0x00c : Fin 2048).val ≤ 0x01f)) ∧
    ¬(0x140 ≤ (0x00c : Fin 2048).val ∧ (0x00c : Fin 2048).val ≤ 0x143) ∧ base.iss.sup = false ∧ s.iss.sup = true ∧
    (0x100 ≤ (0x103 : Fin 2048).val ∧ (0x103 : Fin 2048).val ≤ 0x103) ∧
    ((t 2).team 0).commits = [c] ∧ c.after = none ∧ c.due < (t 3).cycle.toNat ∧ (t 2).cycle.toNat ≤ c.due ∧
    (let d : TCommit := { due := 2, reg := 3, val := 8, gid := 1, pos := 1 }
     let u : State := { base with cycle := 4, teams := [(0, { team0 with commits := [c, d] })] }
     (u.team 0).commits = [c, d] ∧ d.after = none ∧ c.due < u.cycle.toNat ∧ d.due < u.cycle.toNat ∧ c.reg = d.reg ∧ c.gid ≠ d.gid ∧
     max c.due 3 = max d.due 3 ∧ c.pos < d.pos) := by decide +kernel

/-- R160, R163, R164: registers as they read and write. -/
theorem test_system :
    after (.sysrd 1 0x1) base (fun t => t.cur.regs.s.get 0 1 == 0x800) ∧
    after (.syswr 1 0x13) (withS [(1, 7)]) (fun t => (t.team 0).tregs == [] && (t.team 0).commits.length == 1) ∧
    after (.syswr 1 0x9) (withS [(1, 7)]) (fun t => t.cur.regs.sxf == 3) ∧
    after (.sysrd 1 0x100) base (fun t => (t.cur.slice 0).halted) := by decide +kernel

/-- A context with a fault queue of 4 records at 0x3000 that holds `n`, and no handler. -/
def queued (n : Nat) : State := { base with ctxs := [(0, { ctx0 with fq := 0x3000, fqn := 3, fqProd := n, fqVec := 2 })] }

/-- A part whose core has fetched the handler's block, at 64. -/
def handled : State :=
  { base with cores := [(0, { fetched := [(0, 64, 0x3f * 2 ^ 480)] })], ctxs := [(0, { ctx0 with handler := 64 })] }

set_option exponentiation.threshold 600 in
theorem handled_target (g : Iss) : ({ handled with iss := g } : State).checkTarget 0 64 = ({ handled with iss := g }, none) := by
  have f : ({ handled with iss := g } : State).fetch 0 64 = ({ handled with iss := g }, .ok (0x3f * 2 ^ 480)) := by
    unfold State.fetch; rfl
  simp only [State.checkTarget, f]; rfl

/-- Hypotheses of TakingFaults. -/
theorem witness_faults :
    let f : FInfo := { code := .illegal }; let p : FInfo := { code := .pageDev }; let q := queued 1; let full := queued 4
    q.iss.slices.Nodup ∧ q.iss.sup = false ∧ f.code ≠ .pageDev ∧ (q.ctx 0).bound = true ∧ (q.ctx 0).handler = 0 ∧
    ((q.ctx 0).fqProd + 2 ^ 32 - (q.ctx 0).fqCons % 2 ^ 32) % 2 ^ 32 < (q.ctx 0).fqn + 1 ∧
    (full.ctx 0).fqn + 1 ≤ ((full.ctx 0).fqProd + 2 ^ 32 - (full.ctx 0).fqCons % 2 ^ 32) % 2 ^ 32 ∧ (full.ctx 0).bound = true ∧
    handled.iss.sup = false ∧ p.code = .pageDev ∧ p.detail = 0 ∧ (handled.ctx handled.curTeam.ctx).handler = 64 ∧
    handled.cur.handler = none ∧ handled.iss.gid = 0 ∧
    (∀ g : Iss, ({ handled with iss := g } : State).checkTarget 0 64 = ({ handled with iss := g }, none)) ∧ p.lanes = 0xffffffff ∧
    (supervising base).iss.sup = true ∧ 0 ∈ (supervising base).cur.sliceKeys ∧ ((supervising base).cur.slice 0).live ≠ 0 := by
  refine ⟨?_, ?_, ?_, ?_, ?_, ?_, ?_, ?_, ?_, ?_, ?_, ?_, ?_, ?_, handled_target, ?_, ?_, ?_, ?_⟩ <;> decide +kernel

/-- R354, R355: the record of an ILLEGAL at 2^56 in the second slot, code first. -/
theorem test_fault_record :
    let t := (queued 1).fault { code := .illegal, detail := 7 }
    t.dmem.readLE 0x3020 8 = 1 + 7 * 2 ^ 36 ∧ t.dmem.readLE 0x3028 8 = 2 ^ 56 ∧ (t.ctx 0).fqProd = 2 ∧ t.msix = [(0, 2)] ∧
    (t.cur.slice 0).halted = true ∧ ((queued 4).fault { code := .illegal }).dmem = [] := by decide +kernel

/-- In the handler: what it saved, with mask stacks as deep as they were, or not. -/
def inHandler (depth : Nat) (a : W64) : State :=
  supervising { withS [(1, a)] with gangs := [(0, { gang0 with regs := { s := [(1, a)] }, handler := some {
    slices := List.range 8, pc := 2 ^ 56 + 12, mask := 0xffffffff, savedPc := [], savedMask := (List.range 8).map fun k => (k, 15),
    depths := (List.range 8).map fun k => (k, (depth, 0)), record := { code := 5, addr := 9 } } })] }

/-- Hypotheses of HandlerWords. -/
theorem witness_handler :
    let s := inHandler 0 0; let h := s.cur.handler.getD {}; let b := inHandler 1 0
    base.iss.sup = false ∧ s.iss.sup = true ∧ s.cur.handler = some h ∧ h.slices = s.iss.slices ∧ s.iss.slices.Nodup ∧ s.iss.slices ≠ [] ∧
    (∀ k ∈ h.slices, ((s.cur.slice k).stack.length, (s.cur.slice k).rdepth) = h.depths.get (0, 0) k) ∧ s.srcS 1 = 0 ∧
    (inHandler 0 1).srcS 1 ≠ 0 ∧ h.jmp = false ∧
    (let j := (inHandler 0 1).modCur fun g => { g with handler := g.handler.map fun h => { h with jmp := true, mask := 1 } }
     let h := j.cur.handler.getD {}
     j.iss.sup = true ∧ j.cur.handler = some h ∧ h.jmp = true ∧ h.slices = j.iss.slices ∧ j.srcS 1 ≠ 0 ∧
     (∀ k ∈ h.slices, ((j.cur.slice k).stack.length, (j.cur.slice k).rdepth) = h.depths.get (0, 0) k) ∧
     ∀ k ∈ h.slices, (j.cur.slice k).stack = [] ∨ BitVec.ofNat 4 (h.savedMask.get 0 k) &&& (j.cur.slice k).live &&&
       ~~~(laneNibble (if h.record.lanes = 0xffffffff then h.mask else h.record.lanes) k) ≠ 0) ∧
    (∃ k ∈ (b.cur.handler.getD {}).slices, ((b.cur.slice k).stack.length, (b.cur.slice k).rdepth) ≠ (b.cur.handler.getD {}).depths.get (0, 0) k) := by
  decide +kernel

theorem test_handler :
    after (.hret 1) (inHandler 0 0) (fun t => (t.cur.slice 3).pc == 2 ^ 56 + 12 && !(t.cur.slice 3).sup && t.cur.handler == none) ∧
    after (.hret 1) (inHandler 0 1) (fun t => (t.cur.slice 3).halted) ∧
    after (.fltrd 1 2) (inHandler 0 0) (fun t => t.cur.regs.s.get 0 1 == 9) := by decide +kernel

/-- A batch in slot 2 of a service core's ring whose answer has come; gang 0 waits for it. -/
def serving : State :=
  { withSlices base fun _ x => { x with park := .service 3 2 } with
    teams := [(0, team0), (384 * 16, { team0 with ctx := 0, service := true })]
    cores := [(384, { svcRing := 64, svcEnding := [2], svcSlots := [(2, { gid := 0, ctx := 0, slice := 0, vb := 3, lanes := [] })] })] }

/-- Hypotheses of ServiceCalls. -/
theorem witness_services :
    let l := { base with gangs := [(0, { gang0 with ops := [{ seq := 0, kind := .load 1 false .gang, lanes := [] }], seq := 1 })] }
    Admits (.svc 3) base ∧ Admits (.svc 3) (supervising base) ∧ (supervising base).iss.sup = true ∧ base.iss.sup = false ∧
    ({ base with iss := { base.iss with lanes := 0 } } : State).lanes = [] ∧ Admits (.svc 3) { base with iss := { base.iss with lanes := 0 } } ∧
    base.lanes ≠ [] ∧ base.iss.slices ≠ [] ∧ base.cur.sq = [] ∧ Admits (.svc 3) l ∧ l.released l.iss.gid l.cur.seq = false ∧
    base.released base.iss.gid base.cur.seq = true ∧ (base.core (svcCoreOf base.coreKey)).svcRing = 0 ∧ base.iss.slices.Nodup ∧
    base.iss.lanes.toNat = base.cur.laneMask base.iss.slices (fun x => x.mask &&& x.live) ∧
    (∀ j ∈ base.iss.slices, (base.cur.slice j).others = none) ∧
    (∀ i ∈ base.lanes, (vreg base 3 i).toNat / 2 ^ 27 = 0 ∧ bit (vreg base 3 i).toNat 14 = false ∧ bit (vreg base 3 i).toNat 15 = false) ∧
    (serving.core 384).svcEnding.contains 2 = true ∧ (serving.core 384).svcEnding.contains 1 = false ∧
    ((serving.core 384).svcSlots.find 2).isSome = true ∧ serving.ringCtx 384 = some 0 ∧ isLifted 0 = false ∧
    serving.cutPauses (gidTeam 0) = false ∧ (serving.gang 0).sliceKeys.Pairwise (· < ·) ∧ 0 ∈ (serving.gang 0).sliceKeys ∧
    ((serving.gang 0).slice 0).park = .service 3 2 ∧ ((serving.gang 0).slice 0).others = none ∧
    Answered serving ((serving.asking ⟨2 ^ 32, 8, 384 * 1024 + 2⟩).svcDeliver 384 2) := by
  simp only [Admits, Answered]; decide +kernel

/-- R370, R374: no service on the die; an answer lets the split go on. -/
theorem test_services :
    after (.svc 3) base (fun t => vreg t 3 5 == 0xffffffff && (t.cur.slice 0).pc == 2 ^ 56 + 12) ∧
    after (.svcDone 384 2) serving (fun t => (t.cur.slice 0).pc == 2 ^ 56 + 12 && (t.core 384).svcSlots == []) := by decide +kernel

/-- A handler that maps `va`, with flags; a level-1 table under the page at 2^57 - 2^25, and a pool of one frame, 0x4000000. -/
def mapping (va flags : W64) (x : Ctx) : State :=
  let r : Regs := { s := [(1, va), (2, flags)] }
  let m := (((Memory.writeLE [] 0x10000 8 0x20001).writeLE 0x20000 8 0x21001).writeLE 0x21000 8 0x22001).writeLE 0x22008 8 0x5000003
  supervising { withRegs r with
    dmem := ((m.writeLE 0x30024 4 1).writeLE 0x40000 8 0x4000000)
    ctxs := [(0, { x with bound := true, state := .running, pt := 0x10000, hint := 0x30000, pool := 0x40000, poolLog := 4 })] }

/-- Hypotheses of PageWords. -/
theorem witness_pages :
    let va : W64 := 0x100000000000000; let s := mapping va 4 {}; let h := mapping va 4 { hints := [(2 ^ 56, 65536, 1)] }; let m := mapping (va + 65536) 4 {}
    let o : Op := { seq := 0, kind := .load 1 false .gang, lanes := [{ lane := 0, loc := .dev 0x5000000, addr := 2 ^ 56 + 65536, size := 4 }] }
    let w : State := { m with gangs := [(0, { m.cur with ops := [o] })] }
    s.iss.sup = true ∧ Admits (.pgmap 1) s ∧ Admits (.pginv 1) s ∧ (s.srcS 1).toNat = 2 ^ 56 ∧ (s.srcS 2).toNat ∈ [0, 4, 8, 12] ∧
    (mapping 8 4 {}).iss.sup = true ∧ Admits (.pgmap 1) (mapping 8 4 {}) ∧ Admits (.pginv 1) (mapping 8 4 {}) ∧ 8 % 65536 ≠ 0 ∧
    (2 : SReg).val = (1 : SReg).val + 1 ∧ s.isTwin s.curTeam.ctx = false ∧ 256 ≤ ((mapping va 256 {}).srcS 2).toNat ∧
    (h.ctx h.curTeam.ctx).home 0x100000000000000 = 1 ∧ (s.ctx s.curTeam.ctx).home 0x100000000000000 ≠ 1 ∧
    pteNext (s.devRead 0x10000 8) = some 0x20000 ∧ pteNext (s.devRead 0x20000 8) = some 0x21000 ∧
    pteNext (s.devRead 0x21000 8) = some 0x22000 ∧ bit (s.devRead 0x10000 8) 0 = true ∧ bit (s.devRead 0x20000 8) 0 = true ∧
    bit (s.devRead 0x21000 8) 0 = true ∧ bit (s.devRead 0x21000 8) 1 = false ∧ bit (s.devRead 0x22000 8) 0 = false ∧
    bits ((m.srcS 1).toNat % 2 ^ 56) 16 9 = 1 ∧ bit (m.devRead 0x22008 8) 0 = true ∧ pteLeaf (m.devRead 0x22008 8) (2 ^ 16) ≠ none ∧
    bit (m.devRead 0x22008 8) 7 = false ∧ (s.zeroFrame s.curTeam.ctx 65536).2 = some 0x4000000 ∧
    s.released s.iss.gid s.cur.seq = true ∧ (let y : State := { s with gangs := [(0, { s.cur with ops := [o], seq := 1 })] }
      y.released y.iss.gid y.cur.seq = false ∧ y.iss.slices.Nodup ∧ Admits (.pgmap 1) y) ∧ (mapping 1 0 {}).srcS 1 = 1 ∧ s.translatedThrough 0 (s.dropped 0 (2 ^ 56)) = [] ∧
    w.translatedThrough 0 (w.dropped 0 (2 ^ 56 + 65536)) ≠ [] := by
  simp only [Admits]; decide +kernel

/-- R361: a frame enters the level-1 entry; a page that is mapped answers 1. -/
theorem test_pgmap :
    after (.pgmap 1) (mapping (2 ^ 56) 4 {}) (fun t => t.dmem.readLE 0x22000 8 == 0x4000007) ∧
    after (.pgmap 1) (mapping (2 ^ 56 + 65536) 4 {}) (fun t => t.cur.regs.s.get 0 2 == 1) := by decide +kernel

/-! ### Gangs and teams between instructions -/

/-- A context whose GS.SEL names gang 0, which is halted; `x` is what the gang's slices wait for. -/
def selecting (x : Park) (ld : Nat) : State :=
  withSlices { base with gangs := [(0, { gang0 with ld := ld })] } fun _ y => { y with park := x, halted := x == .none }

/-- Hypotheses of GangEvents. -/
theorem witness_gang_events :
    let w := selecting (.waitcnt 2 31 31 31) 2; let b := selecting (.waitcnt 2 31 31 31) 3; let h := selecting .none 0
    let s := selecting (.service 3 2) 0
    let o := withSlices { base with gangs := [(0, { gang0 with swapped := true, active := none })] } fun _ x => x
    let ok := fun (s : State) => (s.gang 0).resident = true ∧ ((s.gang 0).slice 0).live ≠ 0 ∧ ((s.gang 0).slice 0).halted = false ∧
      s.beforeCut 0 = false ∧ s.brkHolds 0 = false ∧ s.ctxRuns 0 = true ∧ ((s.gang 0).slice 0).park = .waitcnt 2 31 31 31
    ok w ∧ ok b ∧ (w.gang 0).countsOk 2 31 31 31 = true ∧ (b.gang 0).countsOk 2 31 31 31 = false ∧ ((w.gang 0).splitOf 0).Nodup ∧
    0 ∈ (w.gang 0).splitOf 0 ∧ (∀ j ∈ (w.gang 0).splitOf 0, ((w.gang 0).slice j).others = none) ∧
    (h.ctx 0).bound = true ∧ (h.ctx 0).ld = 0 ∧ h.selected 0 = some 0 ∧ (h.ctx 1).bound = false ∧
    (∀ j ∈ (h.gang 0).sliceKeys, ((h.gang 0).slice j).hg = []) ∧ (s.gang 0).maySwap = true ∧ (h.gang 0).maySwap = false ∧
    (h.gang 0).wantsBack = false ∧ (o.gang 0).wantsBack = true ∧ (o.team (gidTeam 0)).scratchOut = false ∧
    ((o.seats (gidCore 0)).map (·.occ)).sum + (128 * (o.gang 0).vregs + 1024) ≤ 458752 ∧
    ((o.seats (gidCore 0)).map (·.gangs)).sum < 64 ∧
    (s.modCtx 0 fun x => { x with save := 0x100000, saven := 0x100000 }).swapPlace 0 ≠ none := by decide +kernel

/-- R126, R356: a wait that is over goes on past its packet; RESUME lets halted splits go on. -/
theorem test_gang_events :
    after (.splitUnpark 0 0) (selecting (.waitcnt 2 31 31 31) 2) (fun t => (t.cur.slice 0).pc == 2 ^ 56 + 12 && (t.cur.slice 0).park == .none) ∧
    after (.splitUnpark 0 0) (selecting (.waitcnt 2 31 31 31) 3) (fun t => (t.cur.slice 0).pc == 2 ^ 56) ∧
    after (.gangResume 0 0) (selecting .none 0) (fun t => !(t.cur.slice 7).halted) ∧
    after (.gangEnd 0 0) (selecting .none 0) (fun t => t.cur.ended) := by decide +kernel

/-! ### Queues and the firmware core -/

/-- Queue 4 of logical device 1, running on context 0 at 2^56 + 0x40, with packets in its table; the firmware core runs. -/
def queueing (x : Queue) : State :=
  { launching 2 {} gang0 with
    iss := { gid := fwGid, slices := List.range 16, lanes := 1 }
    lds := [(1, { bound := true, tlfirst := 8, tlcount := 4, qfirst := 4, qcount := 2, featDone := true })], fw := { state := 2 }
    queues := [(4, { x with state := 1, base := 0x100000000001000, logsize := 4, ctx := some 0 })], timelines := [(8, 5)] }

/-- The same with one packet of these words, not started. -/
def packet (w : List Nat) : State := queueing { table := [{ words := w ++ List.replicate (8 - w.length) 0, index := 7 }] }

/-- R57 to R59, R78: packets as they start. -/
theorem test_packets :
    after (.signalPacket 4) (packet [4, 8, 9]) (fun t => t.timelines.get 0 8 == 9 && (t.queue 4).table == []) ∧
    after (.waitPacket 4) (packet [3, 8, 5]) (fun t => (t.queue 4).table == []) ∧
    after (.waitPacket 4) (packet [3, 8, 6]) (fun t => (t.queue 4).table != []) ∧
    after (.launchPacket 4) (packet [2, 0x100000000001000]) (fun t => t.pending.length == 1) ∧
    after (.launchPacket 4) (packet [2, 0x100000000001001]) (fun t => t.pending.length == 0 && (t.queue 4).reject == 0x11) := by decide +kernel

/-- Hypotheses of PacketsAndFirmware: packets of every kind, then `qfetch`, `qdisp` and `qcomp` of a lane. -/
theorem witness_packets :
    let ok := fun (w : List Nat) => let s := packet w; let p := (s.queue 4).held.getD ⟨[], 0, false, none⟩
      (s.queue 4).held.isSome = true ∧ s.fw.state = 2 ∧ (s.queue 4).state = 1 ∧ s.mayStart 4 p = true ∧ pktOp p = w.headD 0 ∧
      s.raises = [] ∧ s.pending.length < 2048
    let z := fun (w : List Nat) => { (packet w).asking (packetAsker 4) with fw := { (packet w).fw with group := 0, taken := [4] } }
    let m := fun (w : List Nat) => (z w).markStarted 4 7
    let f := fun (n : W64) (x : Queue) => let r : Regs := { s := [(1, n)] }; { queueing x with
      iss := { (queueing x).iss with src := r }, gangs := [(0, gang0), (fwGid, { gang0 with vregs := 128, regs := r })] }
    let q := f 0 { tail := 1 }; let u : State := { q with fw := { q.fw with fetched := 0 } }
    let g : State := { q with iss := { q.iss with lanes := 0x10 } }
    ok [1] ∧ ok [5] ∧ ok [3, 8, 5] ∧ ok [4, 8, 9] ∧ ok [6, 0x100000000000008, 1] ∧ ok [2, 0x100000000001000] ∧
    (packet [4, 8, 9]).triggered 8 9 = [] ∧ 8 ∉ (packet [4, 8, 9]).tlShared ∧
    0 ≤ (((packet [3, 8, 5]).timelines.get 0 8 : W64) - 5).toInt ∧ (((packet [3, 8, 6]).timelines.get 0 8 : W64) - 6).toInt < 0 ∧
    ((z [6, 0x100000000000008, 1]).storeVa fwCore 0 0x100000000000008 8 1).2 = none ∧
    ((m [2, 1]).readLaunch fwCore ((m [2, 1]).launchFrom 4 0) 0x100000000001000).2.toOption.isSome = true ∧
    ((m [2, 1]).readLaunch fwCore ((m [2, 1]).launchFrom 4 0) 1).2.toOption.isSome = false ∧ gidCore base.iss.gid ≠ 388 ∧
    gidCore q.iss.gid = 388 ∧ 16 ≤ ((f 16 {}).srcS 1).toNat ∧ (g.srcS 1).toNat = 0 ∧ g.lanes = [4] ∧ u.mayRead 4 = true ∧
    (u.readSlot 4).2.isSome = true ∧ u.mayRead 5 = false ∧
    (u.packetBad 4 [1, 0, 0, 0, 0, 0, 0, 0] = none) ∧ g.laneQueue 4 = 4 := by decide +kernel

/-- A STOP takes effect where a visit would begin. -/
theorem witness_stop :
    let k := fun (s : State) => { s with fw := { s.fw with stopping := true, group := 1 } }; let p := k (packet [1])
    let r : Regs := { s := [(1, 0)] }; let q := k { queueing {} with iss := { (queueing {}).iss with src := r } }
    (queueing {}).fw.stopping = false ∧ (p.queue 4).held.isSome = true ∧ p.newVisit 4 = true ∧ p.laneOp 4 = some 1 ∧
    p.laneTurn 4 1 ≠ none ∧ q.fw.stopping = true ∧ gidCore q.iss.gid = 388 ∧ (q.srcS 1).toNat = 0 ∧ 0 ≠ q.fw.group ∧
    after (.nopPacket 4) p (fun t => t.fw.state == 3 && (t.queue 4).table.length == 1) := by decide +kernel

/-- More of them: a lane whose turn has not come; `qdisp` of a waiting LAUNCH, and of a lane with none. -/
theorem witness_dispatch :
    let c := (packet [5]).setQueue 5 ((packet [1]).queue 4); let q := queueing { tail := 1 }
    let d : State := { packet [2, 0x100000000001000] with
      iss := { q.iss with lanes := 0x10, src := { v := [(114, [(4, 0x1000)]), (115, [(4, 0x1000000)])] } } }
    let w := (d.srcV 114 4).toNat + (d.srcV 115 4).toNat * 2 ^ 32; let e := d.setQueue 4 { d.queue 4 with table := [] }
    let h := d.handOver 4 ((d.queue 4).held.getD ⟨[], 0, false, none⟩) w
    (∀ w ∈ [[1], [5], [3, 8, 5], [4, 8, 9], [6, 0x100000000000008, 1], [2, 0x100000000001000]],
      (packet w).laneTurn 4 (w.headD 0) = some []) ∧ 4 ∉ q.fw.taken ∧
    c.laneTurn 4 5 = none ∧ d.lanes = [4] ∧ d.laneQueue 4 = 4 ∧ h.2.isSome = true ∧ h.1.hostNeed = d.hostNeed ∧
    (e.queue 4).held = none ∧ (e.readLaunch fwCore (e.launchFrom 4 0) (w + 1)).2.toOption.isNone = true := by
  decide +kernel

/-- R64: `qfetch` of the lane of queue 4 takes its head packet. -/
theorem test_qfetch :
    let r : Regs := { s := [(1, 0)] }
    let s := { queueing { tail := 1 } with
      iss := { gid := fwGid, slices := List.range 16, lanes := 0x10, src := r }
      dmem := (queueing {}).dmem.writeLE 0x2001000 8 1 |>.writeLE 0x2001008 8 0 |>.writeLE 0x2001010 8 0 |>.writeLE 0x2001018 8 0 |>.writeLE 0x2001020 8 0
      gangs := [(0, gang0), (fwGid, { gang0 with vregs := 128, regs := r })] }
    after (.qfetch 1) s (fun t => (t.queue 4).head == 1 && (t.queue 4).table.length == 1 && vreg t 112 4 == 1 &&
      t.cur.regs.p.get 0 7 == 0x10) := by decide +kernel

/-- Hypotheses of QueueRegisters. -/
theorem witness_queue_registers :
    let s := queueing { tail := 3, head := 1 }; let x := s.queue 4
    let e := { queueing {} with queues := [(4, { ctx := some 0 })] }; let w := queueing { wbDue := true, headwb := 0x100000000000008 }
    let c := queueing { entries := [1], cqctl := 4 * 2 ^ 12, cqindex := 16, cqbase := 0x100000000000100, cqfresh := 1 }
    let d := queueing { entries := [1], cqctl := 4 * 2 ^ 12, cqindex := 3, cqbase := 0x100000000000100 }
    let q := queued 1
    s.queueOwner 4 = some 1 ∧ s.queueOwner 4 ≠ some 2 ∧ x.state = 1 ∧ 0 < ((17 : W32) - x.tail).toInt ∧ ((17 : W32) - x.head).toNat ≤ 2 ^ x.logsize ∧
    ((3 : W32) - x.tail).toInt ≤ 0 ∧ 2 ^ x.logsize < ((18 : W32) - x.head).toNat ∧ (e.queue 4).state ≠ 1 ∧
    (let v := 2 ^ 31 + 4 * 2 ^ 16 + 8;
      (e.queue 4).enable = false ∧ bit v 31 = true ∧ bit v 30 = false ∧ bits v 16 5 = 4 ∧ bits v 0 12 = 8 ∧ (e.queue 4).base % 4096 = 0 ∧
      (e.queue 4).headwb % 4 = 0 ∧ (e.queue 4).ctx.isSome = true ∧ (e.ldev 1).featDone = true ∧ (e.ldev 1).tlfirst ≤ 8 ∧
      8 < (e.ldev 1).tlfirst + (e.ldev 1).tlcount ∧ (e.ldev 1).tlfirst + (e.ldev 1).tlcount ≤ 12) ∧
    (let n := queueing { enable := true }; (n.queue 4).enable = true ∧ bit 0 31 = false ∧ n.withdrawable 4 = []) ∧
    bits (128 + 1) 52 12 ≠ 0x10 ∧ 2 ^ bits (c.queue 4).cqctl 12 5 < ((c.queue 4).cqindex - 4294967295).toNat ∧
    ((c.queue 4).cqindex - 0).toNat ≤ 2 ^ bits (c.queue 4).cqctl 12 5 ∧ (w.queue 4).ctx = some 0 ∧ (w.queue 4).wbDue = true ∧
    (((w.asking ⟨2 ^ 32, 10, 4⟩).setQueue 4 { w.queue 4 with wbDue := false }).storeVa fwCore 0 0x100000000000008 4 0).2 = none ∧ (s.queue 4).wbDue = false ∧
    (c.queue 4).entries = [1] ∧ ((c.queue 4).cqindex - (c.queue 4).cqhead).toNat = 2 ^ bits (c.queue 4).cqctl 12 5 ∧
    (d.queue 4).entries = [1] ∧ ((d.queue 4).cqindex - (d.queue 4).cqhead).toNat ≠ 2 ^ bits (d.queue 4).cqctl 12 5 ∧
    (((d.asking ⟨2 ^ 32, 11, 4⟩).setQueue 4 { d.queue 4 with entries := [] }).storeVa fwCore 0 0x100000000000130 16 (1 + 0)).2 = none ∧
    (s.queue 4).cqfresh = 0 ∧ (c.queue 4).cqfresh ≠ 0 ∧ s.fw.state = 2 ∧ base.fw.state ≠ 2 ∧ (q.ctx 0).bound = true ∧ (q.ctx 0).ld = 0 ∧
    (let r : State := { queueing {} with queues := [], dmem := ((((((queueing {}).dmem.writeLE 0x5000008 8
        0x100000000010000).writeLE 0x5000010 8 0x100000000020000).writeLE 0x5000030 8 0x100000000030000).writeLE 0x5000038 8 15).writeLE
        0x5000040 8 0x100000000040000).writeLE 0x5000050 8 0x100000000050000 }
     let a := 0x5000000; (r.queue 4).enable = false ∧ bits (2 ^ 56 + a) 52 12 = 0x10 ∧ r.ctxFor 1 a ≠ none ∧
     (r.readRecord (r.ctx 1) 1 1 a).isSome = true ∧ (r.readRecord (r.ctx 1) 1 1 (a + 128)).isSome = false ∧ r.ctxFor 1 (a + 128) ≠ none ∧
     r.isResident 1 = false ∧ base.isResident 0 = true) ∧
    0 < 388 ∧ (let z : State := { coded {} with hostWho := none }; let m := (z.translateIn 0 0 0x100000000000000 3).2.toOption
      m.isSome = true ∧ (m.any fun m => (coded {}).atomicHeld m) = false) ∧
    (let n : State := { base with hmem := [], atomics := [⟨1, 0x80, 0, 0, [0]⟩] }; n.atomicHeld (.host 1 0x80) = true) ∧ (q.translateIn 0 0 0x100000000000000 3).2.toOption.isSome = false := by
  decide +kernel

/-- R62, R67: a tail within the ring is taken, one beyond it is counted stale; the count reads and clears. -/
theorem test_queue_registers :
    after (.tailWrite 1 4 4 17) (queueing { tail := 3, head := 1 }) (fun t => (t.queue 4).tail == 17) ∧
    after (.tailWrite 1 4 4 18) (queueing { tail := 3, head := 1 }) (fun t => (t.queue 4).tail == 3 && (t.queue 4).stale == 1) ∧
    after (.qStaleRead 1 4) (queueing { stale := 6 }) (fun t => t.hostRead == 6 && (t.queue 4).stale == 0) ∧
    after (.queueEnable 1 4 0x80040008) { queueing {} with queues := [(4, { ctx := some 0 })] } (fun t => (t.queue 4).state == 1 && (t.queue 4).logsize == 4) := by
  decide +kernel

/-! ### Placement, the ends of teams and grids -/

/-- A launch record of one team of one gang of one slice, 16 vector registers, at 2^56. -/
def oneGang : Memory :=
  (((Memory.writeLE [] 0 1 2).writeLE 8 8 (2 ^ 56)).writeLE 0x10 8 0x100010001).writeLE 0x18 8 0x101 |>.writeLE 0x20 8 0x110

/-- A part with grid 5 to place. -/
def placing : State :=
  { base with pending := [5], fw := { state := 2 }, tenants := [(0, { enabled := true })]
              grids := [(0, { valid := true }), (5, { valid := true, lr := oneGang, teams := 1, queue := some 4 })] }

/-- A control cell of the part to itself, and the part about to receive it. -/
def toSelf (type : Nat) (xs : List Nat) : Rx := { port := 32, lseq := 0, cell := { type := type, dst := 0, src := 0, body := .control xs } }
def facing (s : State) (r : Rx) : State := { s with loop := [r.cell] }

def got (s : State) (type : Nat) (xs : List Nat) : Bool :=
  let z := (facing s (toSelf type xs)).accept (toSelf type xs)
  z.2 && z.1.holds == s.holds && z.1.reels == s.reels

/-- A reel that this part coordinates for grid 5, and the room it holds for it. -/
def reel7 : ReelHold := { grid := some 5, key := 7, ctx := 0, places := [0], parts := [0], lr := oneGang, smap := [], asked := [0] }
def hold7 : Hold := { key := 7, coord := 0, ctx := 0, teams := 1, index := 0, places := [0], lr := oneGang, smap := [] }

/-- R84, R86: the team takes the lowest free slot of its core, its gang starts at its entry. -/
theorem test_placement :
    after (.placementDecision false 5 0 3) placing (fun t => (t.team 48).valid && (t.gang (48 * 16)).resident &&
      ((t.gang (48 * 16)).slice 0).pc == 2 ^ 56 && (t.gang (48 * 16)).vregs == 16 && t.pending == []) := by decide +kernel

/-- Hypotheses of Placement: a decision that may be made, and one of each cell of R91. -/
theorem witness_placement :
    let c := { placing with holds := [hold7] }; let g := { placing with holds := [{ hold7 with granted := true, cores := [3] }] }
    let m := { placing with holds := [{ hold7 with granted := true, committed := true, cores := [3] }] }
    let r := { placing with reels := [reel7] }; let d := { placing with reels := [{ reel7 with committed := true }] }
    let q := { placing with reels := [{ reel7 with retrying := true, silent := [(0, 7)] }] }
    let w := { placing with teams := [(0, { team0 with started := false, grid := 5 })]
                            grids := [(5, { valid := true, lr := oneGang, reel := some 7, partsLeft := [0] })] }
    placing.mayPlace 5 = true ∧ placing.mayPlace 6 = false ∧ lrService (placing.grid 5).lr = false ∧ lrReel (placing.grid 5).lr = false ∧
    lrSet (placing.grid 5).lr = false ∧ placing.fits 3 (placing.grid 5).lr (placing.grid 5).tenant 1 = true ∧ 0 < lrGangs (placing.grid 5).lr ∧
    got placing 0x10 [7, 1, 0, 0, 0, 0, 0] ∧ (placing.ctx 0).state = .running ∧ placing.accepts 0 0 = true ∧
    ({ placing with ctxs := [] } : State).ctxs = [] ∧ ((({ placing with ctxs := [] } : State)).ctx 0).state = .unbound ∧
    got { placing with ctxs := [] } 0x10 [7, 1, 0, 0, 0, 0, 0] ∧ placing.grantCores { hold7 with lr := oneGang } ≠ none ∧
    (let z := { placing with tenants := [] }; z.grantCores hold7 = none ∧ got z 0x10 [7, 1, 0, 0, 0, 0, 0]) ∧
    got placing 0x11 [7] ∧ placing.reel 7 = none ∧ got r 0x11 [7] ∧ r.reel 7 = some reel7 ∧ 0 ∈ reel7.parts ∧ got g 0x12 [7] ∧
    g.holds.find? (fun h => h.key == 7) = some { hold7 with granted := true, cores := [3] } ∧ got d 0x13 [7, 0] ∧ got w 0x14 [7, 0] ∧
    w.waitingTeams 7 = [0] ∧ got r 0x15 [7] ∧ got r 0x16 [7] ∧ got r 0x17 [7] ∧ (r.grid 5).queue = some 4 ∧ got c 0x18 [7] ∧ c.reserveQ = [] ∧
    got w 0x18 [7, 1] ∧ (w.grid 5).reel = some 7 ∧ m.holds.find? (fun h => h.key == 7) = some { hold7 with granted := true, committed := true, cores := [3] } ∧
    (0 ∈ reel7.asked ∧ 1 ∉ reel7.asked) ∧ reel7.silent.get 0 0 < 7 ∧ (q.reel 7).isSome = true ∧
    7 ≤ ({ reel7 with retrying := true, silent := [(0, 7)] } : ReelHold).silent.get 0 0 ∧ reel7.retrying = false := by decide +kernel

/-- More of them: a weight that lets a decision be made, or not; a COMMIT that acts at once, and one that waits for a child of the
tenant; an answer that is due, and a retry that waits. -/
theorem witness_placement_waits :
    let g : State := { placing with holds := [{ hold7 with granted := true, cores := [3] }] }
    let c : State := { g with pending := [5, 6], grids := [(5, placing.grid 5), (6, { valid := true, parent := some 0, lr := oneGang, teams := 1 })] }
    let d := fun (s : State) => s.mayCommitHold { hold7 with granted := true, cores := [3], due := true }
    let r : State := { placing with reels := [{ reel7 with retrying := true }] }; let x : State := { r with pending := c.pending, grids := c.grids }
    let b : State := { placing with tenants := [(0, { enabled := true, weight := 1 }), (1, { enabled := true, weight := 255 })]
                                    decided := 254, decisions := [(0, 254)], pending := [5, 6]
                                    grids := c.grids.set 6 { valid := true, lr := oneGang, teams := 1, tenant := 1 } }
    placing.weightLets (placing.grid 5).tenant = true ∧ b.weightLets (b.grid 5).tenant = false ∧ lrService (b.grid 5).lr = false ∧
    d g = true ∧ d c = false ∧ ({ hold7 with granted := true, cores := [3] } : Hold).holds = true ∧
    (r.childWaits (r.ctx 0).tenant = false ∧ x.childWaits (x.ctx 0).tenant = true) := by decide +kernel

/-- Hypotheses of TeamsAndGridsEnd: two gangs with one to enter, a team that has ended, a grid that may retire. -/
theorem witness_ends :
    let e := { base with gangs := [(0, { gang0 with ended := true })] }
    let w := { e with teams := [(0, { team0 with member := some 0, window := some { entries := [⟨0, 0, 0, 0⟩, ⟨0, 0, 0, 1⟩] } })] }
    let q := { base with grids := [(3, { valid := true, queue := some 4, timeline := 8, value := 9 })] }
    let p := { base with gangs := [(0, { gang0 with children := [3] })], grids := [(3, { valid := true, parent := some 0 })] }
    let t := { base with gangs := [(0, gang0), (1, { gang0 with active := none, age := 1 })], teams := [(0, { team0 with gangs := 2 })] }
    t.pendingGangs (gidCore 0) = [1] ∧ (t.gang 1).runnable = true ∧ (t.gang 0).active = some 0 ∧ (t.core 0).swaps = [] ∧
    base.pendingGangs (gidCore 0) = [] ∧ base.teamIdle 0 = false ∧ e.teamIdle 0 = true ∧ e.windowLets 0 = true ∧ w.windowLets 0 = false ∧
    q.mayRetire 3 = true ∧ (q.grid 3).parent = none ∧ q.isTwin (q.grid 3).ctx = false ∧ q.raises = [] ∧ q.triggered 8 9 = [] ∧
    8 ∉ q.tlShared ∧ q.mayRetire 4 = false ∧ p.mayRetire 3 = true ∧ isLifted 0 = false ∧ (p.grid 3).queue = none ∧ (p.grid 3).reel = none ∧
    3 ∈ (p.gang 0).children ∧ (∀ j ∈ e.freedWith 0, e.teamIdle j = true ∧ e.windowLets j = true) ∧ (e.freedWith 0).Nodup ∧
    (∃ j ∈ w.freedWith 0, w.teamIdle j = false ∨ w.windowLets j = false) := by decide +kernel

/-- R78, R407, R408. -/
theorem test_ends :
    let e := { base with gangs := [(0, { gang0 with ended := true })] }
    let q := { base with grids := [(3, { valid := true, queue := some 4, timeline := 8, value := 9 })] }
    after (.teamSlotFree 0) e (fun t => !(t.team 0).valid && !(t.gang 0).resident && (t.grid 0).freed == 1) ∧
    after (.gridRetire 3) q (fun t => t.timelines.get 0 8 == 9 && !(t.grid 3).valid) := by decide +kernel

/-! ### Cuts, twins and breaks -/

/-- Context 0 of the part as `x`, with every feature on. -/
def inCtx (x : Ctx) : State := { base with ctxs := [(0, { x with bound := true, partners := [(0, 0x80)] })], lds := [(0, { featOn := 0x7f })] }

/-- A good context record at 0x50000: a save area of 16 MB at 0x100000. -/
def withRecord (s : State) : State :=
  { s with dmem := ([(8, 2 ^ 56 + 0x10000), (16, 2 ^ 56 + 0x40000), (48, 2 ^ 56 + 0x60000), (56, 15), (64, 2 ^ 56 + 0x100000),
      (72, 0x1000000), (80, 2 ^ 56 + 0x70000)] : List (Nat × Nat)).foldl (fun m x => Memory.writeLE m (0x50000 + x.1) 8 x.2) s.dmem }

/-- A saved team of one gang of one slice, and the twin that holds it, with an area that agrees with it. -/
def savedTeam : SavedTeam :=
  { core := 0, tslot := 0, team := { valid := true, grid := 9, ctx := 2, gangs := 1, divisor := 16 }
    gangs := [(0, { nslices := 1, vregs := 1, slices := [(0, { mask := 1, live := 1 })] })] }
def frozen (lost : Nat) : State :=
  let g : Grid := { valid := true, ctx := 2, lr := oneGang.writeLE 0x20 8 0x101, teams := 1, nextTeam := 1 }
  let (s, ts) := State.writeArea { base with lds := [(0, { featOn := 0x7f })], grids := [(9, g)] } 0x100000 { twin := true } false [savedTeam]
    (fun _ => g) fun _ => true
  { s with ctxs := [(0, ctx0), (2, { bound := true, state := .frozen, parent := some 0, saved := ts, save := 0x100000, lost := lost
                                     mema := 0x100000000000008, view := { priv := [(2 ^ 40, 0x3000000)] } })] }

/-- Hypotheses of CutsAndTwins: the operations of the control block, from each state they ask for. -/
theorem witness_control_block :
    let r := inCtx { state := .running, saven := 0x1000000 }; let cut := inCtx { state := .running, cut := some { kind := .preempt } }
    let v := withRecord (inCtx { state := .saved, recAddr := 0x50000 })
    let t := withRecord (inCtx { state := .running, twrec := 2 ^ 56 + 0x50000, ret := 0x80000 }); let f := frozen 0
    let w := f.setBrk 2 true; let x := f.ctx 2; let z := f.asking ⟨2 ^ 32, 12, 2⟩
    (base.ctx 1).bound = false ∧ (r.ctx 0).runs = true ∧ (v.ctx 0).runs = false ∧ (cut.ctx 0).runs = true ∧ (cut.ctx 0).cut ≠ none ∧
    (r.ctx 0).cut = none ∧ (r.ctx 0).preempting = false ∧ (r.ctx 0).preemptAgain = false ∧ (r.ctx 0).preemptSmall = false ∧ r.memberParts 0 = [] ∧ r.areaSmall 0 = false ∧
    (r.ctx 0).state ≠ .saved ∧ (v.ctx 0).state = .saved ∧ (v.ctx 0).snap.state ≠ 4 ∧ (v.ctx 0).want = 0 ∧
    ((v.setBrk 0 false).rereadRecord 0).any (fun y => y.parent == none && y.snap.state != 4 && y.snap.restored == none) = true ∧
    ((v.setBrk 0 false).readArea 0 true).isNone = true ∧
    (let e : State := { v with dmem := v.dmem.writeLE 0x100000 8 1 }
     let e := e.modCtx 0 fun y => { y with save := 0x100000 }
     ((e.setBrk 0 false).readArea 0 true).any (fun y => y.2.isEmpty) = true ∧ ((e.setBrk 0 false).rereadRecord 0).isSome = true) ∧
    r.feature 0 3 = true ∧ ((r.setBrk 0 false).formTwin 0).toOption.isSome = false ∧ t.feature 0 3 = true ∧ (t.ctx 0).runs = true ∧
    ((t.setBrk 0 false).formTwin 0).toOption.isSome = true ∧ (r.ctx 0).state ≠ .frozen ∧ x.state = .frozen ∧ x.bound = true ∧ x.ld = 0 ∧
    (w.readArea 2 false).any (fun y => !y.2.isEmpty && (Ctx.selectedSaved { x with saved := y.2 }).isSome) = true ∧
    (({ w with dmem := [] } : State).readArea 2 false).isNone = true ∧ x.lost = 0 ∧ ((frozen 1).ctx 2).lost ≠ 0 ∧
    (r.ctx 0).parent = none ∧ x.parent ≠ none ∧ x.cut = none ∧ f.ctxTeams 2 = [] ∧
    (inCtx { state := .cutting, parent := some 1 }).feature 0 3 = true ∧
    (match (z.viewPlace 2 x.mema).2 with
      | .ok l => l == some (.dev 0x3000008)
      | _ => false) = true ∧ bit x.mema 56 = true ∧ bit (x.view.perms.get 0 (x.mema / 65536)) 7 = false ∧ f.atomicHeld (.dev 0x3000008) = false ∧ x.view.shared.contains (x.mema / 65536) = false ∧
    x.view.priv.find (x.mema / 65536) = some 0x3000000 ∧ f.sharers 2 (x.mema / 65536) = [] ∧ x.snap.view.shared.contains (x.mema / 65536) = false ∧
    (match (z.viewPlace 2 (2 ^ 57)).2 with
      | .error () => true
      | _ => false) = true ∧ (z.viewPlace 2 (2 ^ 57)).1.hostNeed = f.hostNeed ∧
    (match (z.viewPlace 2 64).2 with
      | .error () => true
      | _ => false) = true ∧ (z.viewPlace 2 64).1.hostNeed ≠ f.hostNeed ∧
    (let q := inCtx { state := .running, saven := 0 }; let z := { q with teams := [(0, team0)] }
     z.memberParts 0 = [] ∧ z.areaSmall 0 = true ∧ (z.ctx 0).cut = none) ∧
    (let q := inCtx { state := .saved, want := 2 }; (q.ctx 0).want ≠ 0) ∧
    (inCtx { state := .saved, recAddr := 0x50000 }).rereadRecord 0 = none := by decide +kernel

/-- The clauses on cuts as they go, on granules and on breaks. -/
theorem witness_cuts :
    let p := inCtx { state := .running, cut := some { kind := .preempt, cores := [0], marked := true }, cutNo := 3 }
    let t := inCtx { state := .running, cut := some { kind := .twin, cores := [0], captured := true, twin := some 3 } }
    let s := inCtx { state := .stepping }; let a := inCtx { state := .running, preempting := true, preemptAwait := [0, 5] }
    let r : Ctx := { bound := true, state := .running, pt := 0x10000, hint := 0x30000, pool := 0x40000, poolLog := 4 }
    let e : SqEntry := { seq := 0, kind := .store .gang, lanes := [{ lane := 0, loc := .dev 0x2000040, addr := 0x100000000000040, size := 4, data := 1 }] }
    let w : State := { mapped {} with
      dmem := ((mapped {}).dmem.writeLE 0x30024 4 1).writeLE 0x40000 8 0x4000000, gangs := [(0, { gang0 with sq := [e] })]
      ctxs := [(0, r), (3, { bound := true, parent := some 0, view := { shared := [2 ^ 40] } })] }
    let f := inCtx { state := .running, returning := [0x5000000], hint := 0x30000, ret := 0x80000, retLog := 4 }
    let b := inCtx { state := .running, brkmode := true }; let bc := inCtx { state := .running, brkmode := true, cut := some { kind := .twin } }
    let bt := withRecord (inCtx { state := .running, brkmode := true, twrec := 2 ^ 56 + 0x50000, ret := 0x80000 })
    (base.ctx 0).cut = none ∧ (p.ctx 0).cut = some { kind := .preempt, cores := [0], marked := true } ∧ p.cutReady 0 { kind := .preempt, cores := [0], marked := true } = true ∧
    (t.ctx 0).cut = some { kind := .twin, cores := [0], captured := true, twin := some 3 } ∧ (s.ctx 0).state = .stepping ∧
    (s.ctx 0).want = 0 ∧ s.stepDone 0 = true ∧ (s.ctx 0).discarding = false ∧ (base.ctx 0).state ≠ .stepping ∧
    got p 0x20 [0, 3, 0] = true ∧ (p.ctx 0).cutNo = 3 ∧ got a 0x20 [1, 1, 1] = true ∧ (a.ctx 0).cutNo + 1 = 1 ∧ (a.ctx 0).runs = true ∧
    (5 ∈ (a.ctx 0).preemptAwait ∧ 5 ≠ 0 ∧ 5 ∉ a.down) ∧ base.writeComing 0 (2 ^ 40) = false ∧ w.writeComing 0 (2 ^ 40) = true ∧ w.isTwin 0 = false ∧
    (match w.walk 0 (w.ctx 0).pt (2 ^ 56) with
      | .leaf e => e.pbase == 0x2000000 && e.vbase == 2 ^ 56
      | _ => false) = true ∧ w.sharers 0 (2 ^ 40) = [3] ∧ (w.copyFor 0 0x2000000).2 = some 0x4000000 ∧
    ((w.copyFor 0 0x2000000).1.ctx 0).snap.view.shared.contains (2 ^ 40) = false ∧
    (f.ctx 0).returning = [0x5000000] ∧ (f.ctx 0).discarding = false ∧ (f.devRead 0x30038 4 + 2 ^ 32 - f.devRead 0x3003c 4 % 2 ^ 32) % 2 ^ 32 < 2 ^ 4 ∧
    ({ base with iss := { base.iss with lanes := 0 } } : State).lanes = [] ∧ base.lanes ≠ [] ∧ (base.ctx base.curTeam.ctx).brkmode = false ∧
    (b.ctx b.curTeam.ctx).brkmode = true ∧ (bc.ctx bc.curTeam.ctx).cut = some { kind := .twin } ∧ (bt.ctx bt.curTeam.ctx).cut = none ∧
    (bt.formTwin bt.curTeam.ctx).toOption.isSome = true ∧ (t.ctx 3).discarding = false := by decide +kernel

/-- R378, R383, R389, R394. -/
theorem test_control_block :
    let f := frozen 0
    after (.preempt 0 0 false) (inCtx { state := .running, saven := 0x1000000 }) (fun t => (t.ctx 0).state == .cutting && (t.ctx 0).cutNo == 1) ∧
    after (.ccMemdWrite 0 2 0x1122) f (fun t => t.dmem.readLE 0x3000008 8 == 0x1122 && (t.ctx 2).mema == 2 ^ 56 + 16) ∧
    after (.step 0 2 false) f (fun t => (t.ctx 2).state == .stepping && (t.ctx 2).want == 3) ∧
    after (.step 0 0 false) f (fun t => (t.ctx 0).err == 1 && (t.ctx 0).state == .running) ∧
    after (.brk 7) base (fun t => (t.cur.slice 0).halted) := by decide +kernel

/-- R247, R354, R388: the driver's edits of a copy's image and of a fault record; a reserved or zero field is malformed. -/
theorem test_save_area_edits :
    let r : CopyRec := { state := .running, seq := 5, src := .flat .g (2 ^ 56), dst := .flat .l 0, len := 64, order := 0 }
    let m := Memory.writeLE [] 0x1000 64 (r.image 0)
    let on (m : Memory) : State := { base with dmem := m }
    (on m).readCopy 0x1000 0 r = some r ∧ ((on (m.writeLE 0x1008 4 16)).readCopy 0x1000 0 r).map (·.delivered) = some 16 ∧
    ((on (m.writeLE 0x1020 1 0x0e)).readCopy 0x1000 0 r).map (·.sectors) = some [0] ∧
    (on (m.writeLE 0x101c 4 1)).readCopy 0x1000 0 r = none ∧
    (FaultRec.ofWords 0x1012 8 16 (3 * 2 ^ 32 + 5)).map (fun f => (f.code, f.core, f.lanes, f.word)) = some (0x12, 0x10, 5, 3) ∧
    FaultRec.ofWords (2 ^ 34) 0 0 0 = none := by decide +kernel

/-! ### Snapshots -/

/-- Hypotheses of Snapshots. -/
theorem witness_snapshots :
    let s := inCtx { state := .running, ret := 0x80000, snap := { area := 2 ^ 56 + 0x10000, size := 0x10000 } }
    let b := inCtx { state := .running, snap := { state := 2 } }; let v := inCtx { state := .saved, saven := 0x10000, snap := { target := 5, area := 1 } }
    let i : SnapImage := { num := 5 }; let z := (s.snapWrite 0 (·.setCtl 0x100)).modSnap 0 fun y => { y with asked := true }
    let w := fun (n : Nat) (l : List Nat) => inCtx { state := .running, snap := { state := 2, size := n, taking := some i, view := { lost := l } } }
    let h := inCtx { state := .running, snap := { trigger := some (8, 9), holding := true } }
    let r := inCtx { state := .running, snap := { state := 3, begun := 6, cutNo := 1, recv := 2 ^ 56 + 0x10000, size := 0x10000 } }
    let l := { inCtx { state := .saved, snap := { state := 4, loading := some i } } with teams := [] }
    (base.ctx 1).bound = false ∧ (b.ctx 0).snap.state ≠ 0 ∧ (s.ctx 0).snap.state = 0 ∧ (s.ctx 0).runs = true ∧ bit 0x100 8 = true ∧ bit 0 8 = false ∧
    s.feature 0 4 = true ∧ (s.ctx 0).snap.wanted = false ∧ (s.ctx 0).brkWaits = [] ∧ (s.ctx 0).discarding = false ∧ (s.ctx 0).preemptAgain = false ∧
    z.snapMay 0 = true ∧ z.snapBad 0 = false ∧
    (v.ctx 0).state = .saved ∧ bit (2 ^ 26) 26 = true ∧ bit 0 26 = false ∧ physOk (v.ctx 0).snap.area 65536 = false ∧ i.num = (v.ctx 0).snap.target ∧ v.declared 0 = some [] ∧
    requiredSize i.teams ≤ (v.ctx 0).saven ∧ (s.ctx 0).snap.taking = none ∧ ((w 0 []).ctx 0).snap.taking = some i ∧
    ((w 0 []).ctx 0).snap.size < i.used [] ∧ i.used [] ≤ ((w 0x100000 [1]).ctx 0).snap.size ∧ ((w 0x100000 [1]).ctx 0).snap.view.lost ≠ [] ∧
    ((w 0x100000 []).ctx 0).snap.view.priv = [] ∧ ((w 0x100000 []).ctx 0).snap.written = false ∧ ((w 0x100000 []).ctx 0).returning = [] ∧
    (h.ctx 0).snap.trigger = some (8, 9) ∧ (h.ctx 0).snap.holding = true ∧ (h.ctx 0).snap.wanted = false ∧ (h.ctx 0).cut = none ∧ h.raises = [] ∧
    got r 0x21 [3, 6, 2, 1] = true ∧ (r.ctx 0).snap.cutNo = 1 ∧ (r.ctx 0).snap.cutNo < 2 ∧ got r 0x21 [3, 6, 2, 2] = true ∧ (r.ctx 0).snap.begun = 6 ∧ (r.ctx 0).snap.state = 3 ∧ got r 0x21 [4, 6] = true ∧ got r 0x21 [0, 6, 200, 128, 1, 1] = true ∧ (r.ctx 0).snap.recv ≠ 0 ∧
    physOk (r.ctx 0).snap.recv 1 = true ∧ 200 ≤ (r.ctx 0).snap.size ∧ got r 0x21 [2, 6, 1] = true ∧ (l.ctx 0).snap.loading = some i ∧
    (l.ctx 0).snap.state = 4 ∧ (l.ctx 0).want = 0 ∧ l.ctxTeams 0 = [] := by decide +kernel

/-- R401, R404: SNAP begins a cut; a copy's acknowledgement ends the snapshot. -/
theorem test_snapshots :
    let s := inCtx { state := .running, ret := 0x80000, snap := { area := 2 ^ 56 + 0x10000, size := 0x10000 } }
    let r := inCtx { state := .running, snap := { state := 3, begun := 6, cutNo := 1 } }; let c := toSelf 0x21 [2, 6, 1]
    after (.snap 0 0 0x100) s (fun t => (t.ctx 0).snap.state == 1 && (t.ctx 0).snap.begun == 1 && (t.ctx 0).cut.isSome) ∧
    after (.snapshotCopyAck c) (facing r c) (fun t => (t.ctx 0).snap.done == 6 && (t.ctx 0).snap.state == 0) := by decide +kernel

/-! ### Links -/

/-- A cell of a flow, a control cell, and a part whose port 5 has sent and queued some. -/
def flowCell (f : Nat) : Cell := { type := 0x04, dst := 0, src := 0, flow := f, body := .replies [] }
def linked (p : Port) : State := { base with ports := [(5, p)] }

/-- A cell of the part to itself with this body, and the part about to take it. -/
def cellOf (type : Nat) (b : CellBody) : Rx := { port := 32, lseq := 0, cell :=
  { type := type, dst := 0, src := 0, sp := if type = 4 then 0 else if type < 4 then 1 else 2, body := b } }
def takes (s : State) (r : Rx) : Bool :=
  let z := (facing s r).accept r
  !(facing s r).cellHeld r.cell && z.2 && !z.1.cellHeld r.cell

/-- A load of four bytes at offset 8 of team 0's scratch, as another part asks for it. -/
def askScratch (eop : Nat) : ReqEntry := { addr := 2, win := true, eop := eop, size := 4, data := 5 }

/-- Hypotheses of Links: slots, acknowledgements and resends, then one cell of each kind, taken and not. -/
theorem witness_links :
    let c := toSelf 0x10 []; let p := linked { queue := [flowCell 3, flowCell 2, c.cell], table := [(1, 256 + 2)] }
    let r := linked { replay := [(4, flowCell 1), (5, flowCell 2)] }; let d := linked { up := false }
    let xc : Cell := { type := 0x04, dst := 0, src := 9, body := .replies [] }
    let x : Rx := { port := 5, lseq := 0, cell := xc, wire := cellWire xc }
    let one : RepEntry := { data := 0xab, rseq := 0 }; let m := fun (w : RemoteFor) => { base with remotes := [⟨0, 0, 0, 0, w⟩] }
    let l := next (.ldGlobal .n32 3 1 none .gang) (mapped (at1 (2 ^ 56))); let lr := { l with remotes := [⟨0, 0, 0, 0, .load 0 0 0⟩] }
    let far := { base with teams := [(0, { team0 with window := some { key := 7, entries := [⟨0, 0, 0, 0⟩] } })] }
    ((p.port 5).pick 0 = some (flowCell 3) ∧ (p.port 5).up = true ∧ (p.port 5).replay.length < 256) ∧ (linked {}).port 5 = {} ∧
    ((linked {}).port 5).pick 0 = none ∧ (p.port 5).pick 63 = some c.cell ∧ isControlCell c.cell = true ∧ bit ((p.port 5).table.get 0 1) 8 = true ∧ bits ((p.port 5).table.get 0 1) 0 8 = 2 ∧
    (p.port 5).pick 1 = some (flowCell 2) ∧ (r.port 5).replay = [(4, flowCell 1)] ++ (5, flowCell 2) :: [] ∧ (d.port 5).up = false ∧
    ((linked { resentAt := 4, resends := 7 }).port 5).resends + 1 = 8 ∧ (base.accept x).2 = (!base.badCell x.cell) ∧
    takes base (cellOf 0x04 (.requests [askScratch 1])) = true ∧ takes base (cellOf 0x04 (.requests [askScratch 2])) = true ∧
    takes base (cellOf 0x04 (.requests [{ askScratch 3 with aop := AtomOp.add.code }])) = true ∧
    (let e := askScratch 1; bits e.addr 0 22 * 4 + e.low = 8 ∧ bits e.addr 26 9 * 16 + bits e.addr 22 4 = 0 ∧ 8 + e.size ≤ (base.team 0).scratchSize) ∧
    (base.team 0).valid = true ∧ (base.team 0).ctx = 0 ∧ (base.team 1).valid = false ∧
    takes (m (.svcRead 0 0 0)) (cellOf 0x04 (.replies [one])) = true ∧
    (m (.svcRead 0 0 0)).remoteFor (cellOf 0x04 (.replies [one])).cell one = some ⟨0, 0, 0, 0, .svcRead 0 0 0⟩ ∧
    takes lr (cellOf 0x04 (.replies [one])) = true ∧ lr.lateCell (cellOf 0x04 (.replies [one])).cell = false ∧ (l.findOp 0 0 0).isSome = true ∧
    (let w := cellOf 0x01 (.line [(3, 7)] 0); let w : Rx := { w with cell := { w.cell with arg := 1 } }
      takes base w = true ∧ ([(3, 7)].filter fun y => bit w.cell.arg (y.1 / 16)) = [(3, 7)]) ∧ 0 + 3 < (base.team 0).scratchSize ∧ ([(3, 7)].map (·.1)).Nodup ∧
    takes base (cellOf 0x02 (.requests [{ askScratch 6 with data := 2 ^ 56 }])) = true ∧
    (base.requestPlace 0 { askScratch 1 with low := 0, size := 1 }).2.toOption.isSome = true ∧
    (base.requestPlace 0 { askScratch 1 with addr := 2 ^ 22, low := 0, size := 1 }).2.toOption.isSome = false ∧
    9 ∉ base.down ∧ (∀ k, k < 4 → unpackRequest (packRequest (askScratch k)) = askScratch k) ∧ goesOn (cellOf 0x04 (.requests [askScratch 1])).cell = false ∧
    base.gathered (cellOf 0x04 (.requests [askScratch 1])).cell = [] ∧ 9 ≠ base.part ∧ (m (.load 0 0 0)).remotes.find? (fun x => x.part == 0 && x.plane == 0 && x.seq == 0 && x.idx == 0) =
      some ⟨0, 0, 0, 0, .load 0 0 0⟩ ∧ base.remotes = [] ∧ (takes far (cellOf 0x0a (.wbar 7 0 3)) = true ∧ (far.teams.map (·.1)).Nodup) ∧
    takes far (cellOf 0x0b (.wstate 7 0 2)) = true ∧ (far.team 0).valid = true := by decide +kernel

/-- Its clauses on cells whose beats do not hold, and on a `cas` of eight bytes. -/
theorem witness_wire :
    let c : Cell := { type := 0x04, dst := 0, src := 9, body := .requests [askScratch 1] }; let w := cellWire c
    let e := { askScratch 3 with aop := AtomOp.cas.code, size := 8, wide := true }; let d := { askScratch 0 with addr := 0, win := false, size := 4, data := 7 }
    wireFramed w = true ∧ wireHeadOk w = true ∧ wireBodyOk w = true ∧ wireCarries w c = true ∧ (base.port 5).up = true ∧
    wireHeadOk { w with head := w.head + 1 } = false ∧ wireBodyOk { w with crcs := List.replicate 8 0 } = false ∧ (base.port 5).expect ≠ 3 ∧
    unpackRequest (packRequest e) = e ∧ takes base (cellOf 0x04 (.requests [e, d])) = true ∧ 8 + 8 ≤ (base.team 0).scratchSize := by
  decide +kernel

/-- R316: the line of a copy that reads another member's scratch is asked for, and comes. -/
theorem witness_line_data :
    let w : Window := { reel := true, key := 7, size := 4096, entries := [⟨0, 0, 0, 0⟩, ⟨0, 9, 0, 1⟩] }
    let q : CopyRec := { state := .running, seq := 5, src := .flat .w (2 ^ 24), dst := .flat .ab 0, len := 16 }
    let s : State := { base with
      teams := [(0, { team0 with window := some w, member := some 0 })], cores := [(0, { copies := [(0, q)] })]
      remotes := [⟨0, 0, 0, 0, .copyRead 0 5120 [0]⟩] }
    (s.askedLine 0 5120 [0]).isSome = true ∧ s.copyById 0 5120 = some 0 ∧ q.src.byteAt 0 = some (2 ^ 24) ∧
    takes s (cellOf 0x03 (.line [(0, 7)] 0)) = true := by decide +kernel

/-- R319's own example: the bytes of the entry of `rst.n32` of 7 to 0x0100_0000_0008_0040. -/
theorem test_entry_bytes :
    let e := packRequest { eop := 2, addr := bits 0x0100000000080040 2 54, data := 7 }
    (List.range 16).map (fun k => e / 256 ^ k % 256) = [0x02, 0x40, 0x00, 0x08, 0, 0, 0, 0, 0x07, 0, 0, 0, 0, 0, 0, 0] := by decide +kernel

/-- R317, R319, R320. -/
theorem test_links :
    let c := toSelf 0x10 []; let e := cellOf 0x04 (.requests [askScratch 2])
    after (.fabricSlot 5 63) (linked { queue := [flowCell 3, c.cell] }) (fun t => (t.port 5).queue == [flowCell 3] && (t.port 5).lseq == 1) ∧
    after (.linkAck 5 4) (linked { replay := [(4, flowCell 1), (5, flowCell 2)] }) (fun t => (t.port 5).replay == [(5, flowCell 2)]) ∧
    after (.linkReplayTimeout 5) (linked { replay := [(4, flowCell 1)], resentAt := 4, resends := 7 }) (fun t => !(t.port 5).up) ∧
    after (.smallReceive e) (facing base e) (fun t => (t.team 0).scratch.readLE 8 4 == 5 && t.loop.length == 1) := by decide +kernel

/-! ### Hosts -/

/-- Hypotheses of HostSide. -/
theorem witness_hosts :
    let m : HostMap := ⟨0, 0x1000, 0x1000, 0x5000, true, true, true⟩; let s := { base with hostMaps := [m] }
    let d := { base with lds := [(2, { bound := true, host := 4, tlfirst := 8, tlcount := 4, qfirst := 4, qcount := 2, link := 1 })] }
    let n := { base with lds := [(2, { bound := true, atBusy := some false, featAsked := true })], fw := { state := 2 }, hostMaps := [{ m with ld := 2, vbase := 0 }] }
    m.ok? = true ∧ ({ m with size := 0x3000 } : HostMap).ok? = false ∧
    s.hostMaps.find? (fun x => x.ld == 0 && decide (x.vbase ≤ 0x1fff) && decide (0x1fff < x.vbase + x.size)) = some m ∧
    s.hostMaps.find? (fun x => x.ld == 0 && decide (x.vbase ≤ 0x2000) && decide (0x2000 < x.vbase + x.size)) = none ∧
    (d.ldev 2).bound = true ∧ (d.ldev 3).bound = false ∧ 64 * (d.ldev 2).tlcount ≤ 256 ∧ 255 < 64 * (d.ldev 2).tlcount ∧ (d.ldev 2).link = 1 ∧
    d.bindOk 3 5 { bound := true, host := 5, tlfirst := 12, tlcount := 4 } = true ∧ d.bindOk 3 4 { bound := true, host := 4 } = false ∧
    (∃ k, k = 2 ∧ (k, d.ldev k) ∈ d.lds ∧ (d.ldev k).host = 4) ∧ (State.reset.fw.zeroing = true) ∧ base.fw.zeroing = false ∧
    base.fw.state ≠ 1 ∧ n.fw.state = 2 ∧ (match (({ base with fw := { state := 1 } } : State).asking ⟨2 ^ 32, 13, 0⟩).imageBad.2 with
      | .error _ => true
      | _ => false) = true ∧ (n.ldev 2).atBusy = some false ∧ ((n.asking ⟨2 ^ 32, 14, 2⟩).hostPages 2 0 1).2.isSome = true ∧ (n.ldev 2).featAsked = true ∧
    (n.ldev 2).featDone = false ∧ (d.ldev 2).atBusy = none := by
  refine ⟨?_, ?_, ?_, ?_, ?_, ?_, ?_, ?_, ?_, ?_, ?_, ⟨2, ?_⟩, ?_, ?_, ?_, ?_, ?_, ?_, ?_, ?_, ?_, ?_⟩ <;> decide +kernel

/-- More of them: a link that trains, and one that cannot; a page of a report whose answer has not come; an answer that refuses it. -/
theorem witness_host_answers :
    let n : State := { base with lds := [(2, { bound := true, atBusy := some false })] }; let z := (n.asking ⟨2 ^ 32, 14, 2⟩).hostPages 2 0 1
    let w : State := { base with hostAsked := [(0, 1)], hostWaits := [(⟨0, 1, 0⟩, (0, 1))] }
    trainedOk 16 1 = true ∧ trainedOk 3 6 = false ∧ z.2.isNone = true ∧ z.1.hostNeed ≠ n.hostNeed ∧ (0, 1) ∈ w.hostAsked ∧
    after (.hostTranslationAnswer ⟨0, 0x1000, 0x1000, 0, false, false, false⟩) w (fun t => t.hostDenied == w.hostWaits && t.hostAsked == []) ∧
    after (.hostLinkDown ⟨0, 8, 2⟩) { base with lds := [(2, { bound := true, width := 16, rate := 0 })] }
      (fun t => (t.ldev 2).link == 1 && (t.ldev 2).width == 8 && (t.ldev 2).rate == 2) := by decide +kernel

/-- R343, R409, R412, R415. -/
theorem test_hosts :
    let d := { base with lds := [(2, { bound := true, tlfirst := 8, tlcount := 4 })], timelines := [(9, 77)] }
    after (.timelineHostRead 2 64) d (fun t => t.hostRead == 77 && t.tlShared == [9]) ∧
    after (.timelineHostStore 2 255) d (fun t => (t.ldev 2).tlStale == 1) ∧ after (.timelineHostStore 2 256) d (fun t => t == d) ∧
    after (.ldBind 3 5 0 16 0 12 4 4 2 true) d (fun t => (t.ldev 3).bound && (t.ldev 3).qfirst == 4) ∧
    after .coldReset d (fun t => !(t.ldev 2).bound && t.gangs == [] && t.fw.zeroing) := by decide +kernel

/-! ### Issue and steps -/

/-- Hypotheses of IssueFaults: a word for each reason that makes it ILLEGAL, one past the role's registers, and privileged ones. -/
theorem witness_issue_faults :
    let fw := { base with iss := { base.iss with gid := fwGid } }
    Instr.wf (.sadd 0 0 0) = false ∧ isControlMode (.qfetch 1) = true ∧ base.coreKey ≠ fwCore ∧ fw.coreKey = fwCore ∧
    notInControlMode .wbar = true ∧ base.slotBits 1 = 0 ∧ slotsOf (.cvt .f32 1 2 .slot 1) = [1] ∧ sysKind 0 0x00c = .unassigned ∧
    sysWritable 0 = false ∧ (FmtSlot.ofBits ((withSlot 0x11).slotBits 1)).isSome = true ∧ Fmt.width .f32 > 16 ∧
    wordFault (.vaddVv 1 2 16) base = some (6, { code := .regRange }) ∧ wordFault (.vaddVv 1 2 15) base = none ∧
    base.iss.sup = false ∧ privilegedForm (.hret 1) = true ∧ sysKind 0 0x100 = .privileged ∧ Instr.isWord (.hret 1) = true := by
  decide +kernel

/-- `sadd s3, s1, s2` in the first word of the block at 2^56, and core 0 about to issue. -/
def aboutToIssue : State :=
  let w := match encode (.sadd 3 1 2) with
    | x :: _ => x.toNat
    | [] => 0
  let s : State := coded { s := [(1, 5), (2, 6)] }
  let s : State := { s with dmem := (s.dmem.writeLE 0x2000000 4 w), cores := [], tenants := [(0, { enabled := true })], agenda := [.issue 0] }
  (s.fetch 0 (2 ^ 56)).1

/-- Hypotheses of StepRunsDecoded. -/
theorem witness_step :
    let s := aboutToIssue; let c := State.choose { s with agenda := [] } 0
    let z := (((c.1.modGang 0 fun g => { g with turn := (0 + 1) % 8 }).tookStep 0).beginIssue 0 0).modSlices fun _ x => { x with awaits := [] }
    s.agenda = .issue 0 :: [] ∧ c.2 = some 0 ∧ c.1.readySplit 0 = some 0 ∧
    (∀ j ∈ z.iss.slices, (z.cur.slice j).haltDue = false ∧ (z.cur.slice j).replays = [] ∧ (z.cur.slice j).did = []) ∧ z.iss.pc = 2 ^ 56 ∧
    validPc z.iss.pc = true ∧ (match z.fetch 0 z.iss.pc with
      | (_, .ok b) => trailerOk b && landBit b 0 && !chained (blockWord b 0 0) &&
          (match decodeWord (blockWord b 0 0).toNat 0 with
            | .ok i => i == .sadd 3 1 2
            | _ => false)
      | _ => false) = true ∧ Instr.isWord .coldReset = false := by decide +kernel

/-- R102, R109, R124: a step issues the packet at the split's PC, and the split goes on to the next one. -/
theorem test_step :
    (match step aboutToIssue with
      | .next t => t.cur.regs.s.get 0 3 == 11 && (t.cur.slice 0).pc == 2 ^ 56 + 12 && t.agenda == []
      | _ => false) = true := by decide +kernel

/-- Log 5: the first step after reset with an instruction placed runs it. -/
theorem test_first_step :
    (match encode (.slit 3 0x1234) with
      | [a, b] => (match step (State.reset.withFetchWord 64 (a.toNat + b.toNat * 2 ^ 32)) with
        | .next t => t.cur.regs.s.get 0 3 == 0x1234
        | _ => false)
      | _ => false) = true := by decide +kernel

/-- Hypotheses of DecodeEncode and EncodingsRead: a well-formed instruction of one word and of two, and a word that decodes. -/
theorem witness_encodings :
    (Instr.sadd 1 2 3).Encodable ∧ (Instr.slit 16 0x00010101).Encodable ∧ isSL 0x04020000 = true ∧
    (match decodeWord 0x10666004 0 with
      | .ok i => i == .amul 3 3 0 4
      | _ => false) = true ∧ fld 0x7e000000 25 6 = 0x3f ∧ fld 0x06000000 25 6 = 3 := by decide +kernel

/-- MemoryCanonical and ResetState. -/
theorem witness_canonical : Canonical State.reset ∧ ¬Canonical { State.reset with dmem := [(0, 0)] } := by
  simp only [Canonical]; decide +kernel

/-- SHAKE256 of the three bytes `abc`, whose first 64 bytes are 48 33 66 13 60 a8 77 1c 68 63 08 0c … (FIPS 202; log 109). -/
theorem test_digest : shake256 0x636261 3 = 11958085090069052847067264861451566457194735770906240591705431370557456506012642682568202647849421627831441148900160933665582469943367649374661014987354952 := by
  decide +kernel

end Sys2Proof.Tests
end

section
/-! ## Frames of the shared memory operations

What settling a gang's fences, returning its lanes, acknowledging a store and writing a fault record leave unchanged. -/

namespace Sys2Proof.Machine

open Sys2Proof.Claims

/-! ### Orders among a gang's operations: no register changes -/

/-- `t` is `s` but for the gangs and the cores, and no gang's registers differ. -/
def RegsKept (s t : State) : Prop :=
  (∃ gangs cores, t = { s with gangs := gangs, cores := cores }) ∧ ∀ k, (t.gang k).regs = (s.gang k).regs

theorem RegsKept.refl (s : State) : RegsKept s s := ⟨⟨_, _, rfl⟩, fun _ => rfl⟩

theorem RegsKept.trans {s t u : State} (h : RegsKept s t) (k : RegsKept t u) : RegsKept s u := by
  obtain ⟨⟨_, _, rfl⟩, hr⟩ := h
  obtain ⟨⟨_, _, rfl⟩, kr⟩ := k
  exact ⟨⟨_, _, rfl⟩, fun j => (kr j).trans (hr j)⟩

theorem RegsKept.regs {s t : State} (h : RegsKept s t) (k : Nat) : (t.gang k).regs = (s.gang k).regs := h.2 k

theorem RegsKept.dmem {s t : State} (h : RegsKept s t) : t.dmem = s.dmem := by obtain ⟨⟨_, _, rfl⟩, _⟩ := h; rfl

theorem RegsKept.hmem {s t : State} (h : RegsKept s t) : t.hmem = s.hmem := by obtain ⟨⟨_, _, rfl⟩, _⟩ := h; rfl

theorem RegsKept.teams {s t : State} (h : RegsKept s t) : t.teams = s.teams := by obtain ⟨⟨_, _, rfl⟩, _⟩ := h; rfl

theorem RegsKept.queues {s t : State} (h : RegsKept s t) : t.queues = s.queues := by obtain ⟨⟨_, _, rfl⟩, _⟩ := h; rfl

theorem RegsKept.atomics {s t : State} (h : RegsKept s t) : t.atomics = s.atomics := by obtain ⟨⟨_, _, rfl⟩, _⟩ := h; rfl

theorem RegsKept.lds {s t : State} (h : RegsKept s t) : t.lds = s.lds := by obtain ⟨⟨_, _, rfl⟩, _⟩ := h; rfl

theorem RegsKept.team {s t : State} (h : RegsKept s t) (k : Nat) : t.team k = s.team k := by obtain ⟨⟨_, _, rfl⟩, _⟩ := h; rfl

theorem RegsKept.setGang (s : State) (k : Nat) (x : Gang) (h : x.regs = (s.gang k).regs) : RegsKept s (s.setGang k x) := by
  refine ⟨⟨_, _, rfl⟩, fun j => ?_⟩
  by_cases e : j = k
  · subst e; simpa using h
  · rw [State.gang_setGang_ne _ _ _ _ e]

theorem RegsKept.setCore (s : State) (k : Nat) (x : Core) : RegsKept s (s.setCore k x) := ⟨⟨_, _, rfl⟩, fun _ => rfl⟩

theorem State.invalidateL1_regsKept (s : State) (core : Nat) : RegsKept s (s.invalidateL1 core) := RegsKept.setCore _ _ _

theorem State.settleOnce_regsKept (s : State) (gid : Nat) : RegsKept s (s.settleOnce gid) := by
  have drop (o : Op) : RegsKept s (s.modGang gid fun g => { g with ops := g.ops.filter fun p => p.seq != o.seq }) :=
    RegsKept.setGang _ _ _ rfl
  rw [State.settleOnce]
  split
  · exact RegsKept.refl s
  · next o _ =>
    dsimp only
    split
    · split
      · exact (drop o).trans (State.invalidateL1_regsKept _ _)
      · exact drop o
    · exact drop o

theorem State.settleN_regsKept (s : State) (gid n : Nat) : RegsKept s (s.settleN gid n) := by
  induction n generalizing s with
  | zero => exact RegsKept.refl s
  | succ n ih => exact (s.settleOnce_regsKept gid).trans (ih _)

theorem State.settle_regsKept (s : State) (gid : Nat) : RegsKept s (s.settle gid) := s.settleN_regsKept _ _

theorem State.finishLanes_regsKept (s : State) (gid : Nat) (o : Op) (lanes : List Nat) : RegsKept s (s.finishLanes gid o lanes) := by
  rw [State.finishLanes]
  dsimp only
  split
  · have drop := RegsKept.setGang s gid
      { s.gang gid with ops := (s.gang gid).ops.filter fun p => p.seq != o.seq, ld := (s.gang gid).ld - 1 } rfl
    refine RegsKept.trans ?_ (State.settle_regsKept _ gid)
    refine RegsKept.trans drop ?_
    cases o.kind with
    | load d sg sc => dsimp only; split; exacts [State.invalidateL1_regsKept _ _, RegsKept.refl _]
    | atomic d op sc => dsimp only; split; exacts [State.invalidateL1_regsKept _ _, RegsKept.refl _]
    | tlread d b k => exact State.invalidateL1_regsKept _ _
    | fence order sc => exact RegsKept.refl _
    | qpost => exact RegsKept.refl _
  · exact RegsKept.setGang _ _ _ rfl

theorem State.ackLane_regsKept (s : State) (core : Nat) (e : SqEntry) (lane : Nat) : RegsKept s (s.ackLane core e lane) := by
  have count : RegsKept s (if e.lastOf lane then s.modGang e.gid fun g => { g with st := g.st - 1 } else s) := by
    split
    · exact RegsKept.setGang _ _ _ rfl
    · exact RegsKept.refl s
  unfold State.ackLane
  dsimp only
  split
  · exact (count.trans (RegsKept.setCore _ _ _)).trans (State.settle_regsKept _ _)
  · exact count.trans (RegsKept.setCore _ _ _)

end Sys2Proof.Machine
end

section
/-! ## Frames of faults, cells, windows and discarded contexts -/

namespace Sys2Proof.Machine

open Sys2Proof.Claims

/-! ### Tables and folds -/

/-- What every step of a fold keeps, the fold keeps. -/
theorem foldl_keeps {σ β γ : Type} (p : σ → γ) (f : σ → β → σ) (h : ∀ s x, p (f s x) = p s) (l : List β) (s : σ) :
    p (l.foldl f s) = p s := by
  induction l generalizing s with
  | nil => rfl
  | cons x l ih => exact (ih _).trans (h s x)

theorem Tab.get_mapVals {α β : Type} (f : α → β) (d : α) (t : Tab α) (k : Nat) :
    Tab.get (f d) (Tab.mapVals t f) k = f (Tab.get d t k) := by
  induction t with
  | nil => rfl
  | cons p t ih =>
    simp only [Tab.mapVals, List.map_cons, Tab.get] at ih ⊢
    split
    · rfl
    · exact ih

theorem Tab.get_of_forall_ne {α : Type} (d : α) (t : Tab α) (k : Nat) (h : ∀ x ∈ t, x.1 ≠ k) : Tab.get d t k = d := by
  induction t with
  | nil => rfl
  | cons p t ih =>
    rw [Tab.get, if_neg (h p List.mem_cons_self)]
    exact ih fun x hx => h x (List.mem_cons_of_mem _ hx)

/-! ### Fault records and lanes that fail -/

theorem State.devWrites_frame (s : State) (l : List Nat) (a v : Nat → Nat) :
    ∃ dmem, l.foldl (fun s i => s.devWrite (a i) 8 (v i)) s = { s with dmem := dmem } := by
  induction l generalizing s with
  | nil => exact ⟨_, rfl⟩
  | cons i l ih => exact ih (s.devWrite (a i) 8 (v i))

/-- A fault record goes to its context's queue in memory, and may send a message (R355). -/
theorem State.putFault_frame (s : State) (c : Nat) (r : FaultRec) :
    ∃ ctxs dmem msix, s.putFault c r = { s with ctxs := ctxs, dmem := dmem, msix := msix } := by
  obtain ⟨dmem, hw⟩ := s.devWrites_frame (List.range 4)
    (fun i => (s.ctx c).fq + 32 * ((s.ctx c).fqProd % ((s.ctx c).fqn + 1)) + 8 * i) (fun i => r.words.getD i 0)
  unfold State.putFault
  dsimp only
  rw [hw]
  split
  · exact ⟨_, _, _, rfl⟩
  · split
    · exact ⟨_, _, _, rfl⟩
    · split
      · exact ⟨_, _, _, rfl⟩
      · exact ⟨_, _, _, rfl⟩

theorem State.report_frame (s : State) (gid : Nat) (sup : Bool) (pc word : Nat) (f : FInfo) :
    ∃ ctxs dmem msix, s.report gid sup pc word f = { s with ctxs := ctxs, dmem := dmem, msix := msix } := s.putFault_frame _ _

@[simp] theorem State.report_queues (s : State) (gid : Nat) (sup : Bool) (pc word : Nat) (f : FInfo) :
    (s.report gid sup pc word f).queues = s.queues := by
  obtain ⟨_, _, _, h⟩ := s.report_frame gid sup pc word f
  rw [h]

theorem State.lateFault_frame (s : State) (gid : Nat) (sup : Bool) (slices : List Nat) (pc word : Nat) (f : FInfo) :
    ∃ gangs ctxs dmem msix, s.lateFault gid sup slices pc word f = { s with gangs := gangs, ctxs := ctxs, dmem := dmem, msix := msix } := by
  unfold State.lateFault
  dsimp only
  split
  · obtain ⟨_, _, _, h⟩ := State.report_frame (s.modGang gid _) gid true pc word _
    exact ⟨_, _, _, _, h⟩
  · obtain ⟨_, _, _, h⟩ := State.report_frame (s.modGang gid _) gid false pc word _
    exact ⟨_, _, _, _, h⟩

/-- Lanes that fail leave their record, and change gangs and cores; AtomicOps and logical devices stay. -/
theorem State.failLanes_frame (s : State) (gid : Nat) (o : Op) (lanes : List Nat) (f : FInfo) (again : Bool) :
    (s.failLanes gid o lanes f again).atomics = s.atomics ∧ (s.failLanes gid o lanes f again).lds = s.lds := by
  obtain ⟨_, _, _, _, h⟩ := s.lateFault_frame gid o.sup o.slices o.pc o.word { f with lanes := maskOf lanes }
  unfold State.failLanes
  dsimp only
  rw [h, (State.finishLanes_regsKept _ _ _ _).atomics, (State.finishLanes_regsKept _ _ _ _).lds]
  split
  · exact ⟨rfl, rfl⟩
  · exact ⟨rfl, rfl⟩

/-- R411: an AtomicOp that is lost is on its way no more; the others and the logical devices stay. -/
theorem State.loseAtomicOp_frame (s : State) (x : AtomicOp) :
    (s.loseAtomicOp x).atomics = s.atomics.filter (· != x) ∧ (s.loseAtomicOp x).lds = s.lds := by
  unfold State.loseAtomicOp
  dsimp only
  split
  · exact ⟨rfl, rfl⟩
  · exact State.failLanes_frame _ _ _ _ _ _

theorem State.loseAtomicOps_lds (s : State) (l : List AtomicOp) : (l.foldl (fun s x => s.loseAtomicOp x) s).lds = s.lds :=
  foldl_keeps State.lds _ (fun s x => (s.loseAtomicOp_frame x).2) l s

theorem State.mem_atomics_of_loseAtomicOps (s : State) (l : List AtomicOp) (x : AtomicOp)
    (h : x ∈ (l.foldl (fun s x => s.loseAtomicOp x) s).atomics) : x ∈ s.atomics ∧ x ∉ l := by
  induction l generalizing s with
  | nil => exact ⟨h, by simp⟩
  | cons y l ih =>
    obtain ⟨hx, hl⟩ := ih _ h
    rw [(s.loseAtomicOp_frame y).1, List.mem_filter] at hx
    exact ⟨hx.1, by simp_all⟩

/-! ### Queues are no part of windows, gangs and views -/

@[simp] theorem State.modWindow_queues (s : State) (team : Nat) (f : Window → Window) : (s.modWindow team f).queues = s.queues := rfl

@[simp] theorem State.sendCell_queues (s : State) (c : Cell) : (s.sendCell c).queues = s.queues := by
  obtain ⟨_, _, _, h⟩ := s.sendCell_frame c
  rw [h]

@[simp] theorem State.sendControl_queues (s : State) (c type arg dst : Nat) (body : CellBody) :
    (s.sendControl c type arg dst body).queues = s.queues := s.sendCell_queues _

@[simp] theorem State.haltWbars_queues (s : State) (team : Nat) : (s.haltWbars team).queues = s.queues := by
  refine foldl_keeps State.queues _ (fun s x => foldl_keeps State.queues _ (fun s k => ?_) _ s) _ s
  dsimp only
  split
  · exact State.report_queues _ _ _ _ _ _
  · rfl

@[simp] theorem State.applyMember_queues (s : State) (key rank st : Nat) : (s.applyMember key rank st).queues = s.queues := by
  refine foldl_keeps State.queues _ (fun s t => ?_) _ s
  dsimp only
  split
  · rw [State.haltWbars_queues]; rfl
  · rfl

@[simp] theorem State.setMember_queues (s : State) (team rank st : Nat) : (s.setMember team rank st).queues = s.queues := by
  unfold State.setMember
  split
  · rfl
  · dsimp only
    rw [foldl_keeps State.queues _ fun s p => s.sendControl_queues _ _ _ _ _]
    exact State.applyMember_queues _ _ _ _

@[simp] theorem State.departCtx_queues (s : State) (c : Nat) : (s.departCtx c).queues = s.queues := by
  refine foldl_keeps State.queues _ (fun s t => ?_) _ s
  split
  · split
    · exact State.setMember_queues _ _ _ _
    · rfl
  · rfl

@[simp] theorem State.endIfDone_queues (s : State) (gid : Nat) : (s.endIfDone gid).queues = s.queues := by
  unfold State.endIfDone
  dsimp only
  split
  · rfl
  · split
    · split
      · split
        · exact State.setMember_queues _ _ _ _
        · rfl
      · rfl
    · rfl

@[simp] theorem State.endGang_queues (s : State) (gid : Nat) : (s.endGang gid).queues = s.queues := State.endIfDone_queues _ _

@[simp] theorem State.takeFrom_queues (s : State) (hint pool log n : Nat) : (s.takeFrom hint pool log n).1.queues = s.queues := by
  induction n generalizing s with
  | zero => rfl
  | succ n ih =>
    unfold State.takeFrom
    dsimp only
    split
    · rfl
    · exact ih _

@[simp] theorem State.takeFrame_queues (s : State) (c : Nat) : (s.takeFrame c).1.queues = s.queues := by
  unfold State.takeFrame
  dsimp only
  split
  · rfl
  · exact State.takeFrom_queues _ _ _ _ _

@[simp] theorem State.copyFor_queues (s : State) (c f : Nat) : (s.copyFor c f).1.queues = s.queues := by
  rw [← s.takeFrame_queues c]
  unfold State.copyFor
  dsimp only
  split <;> rfl

@[simp] theorem State.takeCopy_queues (s : State) (t g f : Nat) (fr : Option Nat) : (s.takeCopy t g f fr).queues = s.queues := by
  cases fr <;> rfl

@[simp] theorem State.ownCopy_queues (s : State) (t g f : Nat) : (s.ownCopy t g f).queues = s.queues := by
  unfold State.ownCopy
  split
  · rfl
  · simp

@[simp] theorem State.leaveChildren_queues (s : State) (c : Nat) : (s.leaveChildren c).queues = s.queues := by
  refine foldl_keeps State.queues _ (fun s t => ?_) _ s
  exact foldl_keeps State.queues _ (fun s x => s.ownCopy_queues _ _ _) _ s

@[simp] theorem State.freeCtx_queues (s : State) (c : Nat) : (s.freeCtx c).queues = s.queues := by
  unfold State.freeCtx
  dsimp only
  split
  · rfl
  · split
    · split <;> rfl
    · rfl

@[simp] theorem State.endDiscard_queues (s : State) (c : Nat) : (s.endDiscard c).queues = s.queues := by
  unfold State.endDiscard
  dsimp only
  split
  · rfl
  · rw [State.freeCtx_queues]
    exact State.leaveChildren_queues _ _

@[simp] theorem State.startDiscard_queues (s : State) (c : Nat) : (s.startDiscard c).queues = s.queues := by
  unfold State.startDiscard
  dsimp only
  rw [State.endDiscard_queues]
  exact foldl_keeps State.queues _ (fun s g => s.endGang_queues g) _ s

@[simp] theorem State.giveUp_queues (s : State) (c : Nat) : (s.giveUp c).queues = s.queues := by
  unfold State.giveUp
  dsimp only
  rw [State.startDiscard_queues]
  exact State.departCtx_queues _ _

/-! ### Queues that are off stay off -/

/-- Every queue that is not enabled in `s` is not enabled in `t`. -/
def KeepsOff (s t : State) : Prop := ∀ q, (s.queue q).enable = false → (t.queue q).enable = false

theorem KeepsOff.of_queues {s t : State} (h : t.queues = s.queues) : KeepsOff s t := fun q hq => by
  rw [State.queue, h]; exact hq

theorem KeepsOff.trans {s t u : State} (h : KeepsOff s t) (k : KeepsOff t u) : KeepsOff s u := fun q hq => k q (h q hq)

theorem KeepsOff.foldl {β : Type} (f : State → β → State) (h : ∀ s x, KeepsOff s (f s x)) (l : List β) (s : State) :
    KeepsOff s (l.foldl f s) := by
  induction l generalizing s with
  | nil => exact .of_queues rfl
  | cons x l ih => exact (h s x).trans (ih _)

theorem KeepsOff.setQueue (s : State) (q : Nat) (x : Queue) (h : (s.queue q).enable = false → x.enable = false) :
    KeepsOff s (s.setQueue q x) := fun j hj => by
  by_cases e : j = q
  · subst e; rw [State.queue_setQueue]; exact h hj
  · rw [State.queue_setQueue_ne _ _ _ _ e]; exact hj

theorem State.completePacket_keepsOff (s : State) (q index status : Nat) (k : Option Nat) :
    KeepsOff s (s.completePacket q index status k) := by
  unfold State.completePacket
  dsimp only
  split
  · exact .of_queues rfl
  · exact .setQueue _ _ _ id

theorem State.raised_keepsOff (s : State) (k : Nat) (who : Raiser) : KeepsOff s (s.raised k who) := by
  cases who with
  | none => exact .of_queues rfl
  | gang gid seq =>
    exact .of_queues (State.settle_regsKept (s.modGang gid fun g => { g with st := g.st - 1 }) gid).queues
  | packet q i => exact s.completePacket_keepsOff _ _ _ _
  | launch q i st => exact s.completePacket_keepsOff _ _ _ _

theorem State.applyRaise_keepsOff (s : State) (k : Nat) (v : W64) (who : Raiser) : KeepsOff s (s.applyRaise k v who) := by
  unfold State.applyRaise
  dsimp only
  split
  · have lifted : KeepsOff s { s with timelines := s.timelines.set k v } := .of_queues rfl
    exact lifted.trans (State.raised_keepsOff _ _ _)
  · exact s.raised_keepsOff _ _

@[simp] theorem State.trigger_queues (s : State) (k : Nat) (v : W64) : (s.trigger k v).queues = s.queues := by
  unfold State.trigger
  exact foldl_keeps State.queues _ (fun _ _ => by rfl) _ s

theorem State.raise_keepsOff (s : State) (k : Nat) (v : W64) (who : Raiser) : KeepsOff s (s.raise k v who) := by
  unfold State.raise
  dsimp only
  split
  · exact .of_queues rfl
  · split
    · exact .of_queues (s.trigger_queues k v)
    · exact s.applyRaise_keepsOff _ _ _

theorem State.rejectGrid_keepsOff (s : State) (k r : Nat) : KeepsOff s (s.rejectGrid k r) := by
  unfold State.rejectGrid
  dsimp only
  split
  · refine KeepsOff.trans ?_ (State.raise_keepsOff _ _ _ _)
    exact KeepsOff.trans (.of_queues rfl) (.setQueue _ _ _ id)
  · exact .of_queues rfl

@[simp] theorem State.failReel_queues (s : State) (key : Nat) : (s.failReel key).queues = s.queues := by
  unfold State.failReel
  split
  · rfl
  · exact foldl_keeps State.queues _ (fun s p => s.sendControl_queues _ _ _ _ _) _ s

theorem State.endReel_keepsOff (s : State) (key r : Nat) : KeepsOff s (s.endReel key r) := by
  unfold State.endReel
  split
  · exact .of_queues rfl
  · dsimp only
    split
    · exact KeepsOff.trans (.of_queues (s.failReel_queues key)) (State.rejectGrid_keepsOff _ _ _)
    · exact .of_queues (s.failReel_queues key)

theorem State.disableQueue_keepsOff (s : State) (q : Nat) : KeepsOff s (s.disableQueue q) := by
  unfold State.disableQueue
  refine KeepsOff.trans (.setQueue _ _ _ fun _ => rfl) (KeepsOff.foldl _ (fun s k => ?_) _ _)
  split
  · split
    · exact s.endReel_keepsOff _ _
    · exact s.rejectGrid_keepsOff _ _
  · exact s.rejectGrid_keepsOff _ _

/-- Queues emptied one after another are off. -/
theorem State.queue_enable_setQueues (s : State) (l : List Nat) (q : Nat) (h : q ∈ l ∨ (s.queue q).enable = false) :
    ((l.foldl (fun s q => s.setQueue q {}) s).queue q).enable = false := by
  induction l generalizing s with
  | nil => simpa using h
  | cons p l ih =>
    refine ih _ ?_
    by_cases e : q = p
    · subst e; right; rw [State.queue_setQueue]
    · rw [State.queue_setQueue_ne _ _ _ _ e]; simpa [e] using h

end Sys2Proof.Machine
end

section
/-! ## StorePerformed -/

namespace Sys2Proof.Machine

open Sys2Proof.Claims

@[simp] theorem Team.buf_setBuf (t : Team) (sp : BufSpace) (m : Memory) : (t.setBuf sp m).buf sp = m := by
  cases sp <;> rfl

/-- R387: nothing is copied first where no twin and no snapshot shares the granule. -/
theorem State.cow_of_unshared (s : State) (c g f : Nat) (hs : s.sharers c g = [])
    (hn : (s.ctx c).snap.view.shared.contains g = false) : s.cow c g f = s := by
  simp only [State.cow, State.cowBut, hs, List.filter_nil, List.foldl_nil, hn]
  simp

theorem State.gangWrite_dev_of_unshared (s : State) (c gid va pa n v : Nat) (hs : s.sharers c (va / 65536) = [])
    (hn : (s.ctx c).snap.view.shared.contains (va / 65536) = false) (hb : s.beforeCut gid = false) :
    s.gangWrite c gid va (.dev pa) n v = s.writeLoc (.dev pa) n v := by
  simp only [State.gangWrite, State.writeVa, hb, State.cow_of_unshared s c _ _ hs hn]
  simp

theorem State.holdLine_of_not_host (s : State) (core : Nat) (own : Bool) {l : Loc} (h : ∀ ld ha, l ≠ .host ld ha) :
    s.holdLine core l own = s := by
  cases l with
  | host ld ha => exact absurd rfl (h ld ha)
  | _ => rfl

theorem State.post_of_not_host (s : State) (w : RemoteFor) {l : Loc} (h : ∀ ld ha, l ≠ .host ld ha) : s.post l w = none := by
  cases l with
  | host ld ha => exact absurd rfl (h ld ha)
  | _ => rfl

/-- R224: a lane of this part that may be performed, and that no posted write has performed, is written at its place and
acknowledged. -/
theorem State.performStore_of_mayAck (s : State) {gid seq lane : Nat} {e : SqEntry} {a : LaneAcc}
    (hf : s.findStore gid seq lane = some (e, a)) (hm : s.mayAck (gidCore gid) e a = true)
    (hp : ∀ p ∈ s.posted, p.what ≠ .store gid seq lane) (hr : a.loc.isRemote = false) (hh : ∀ ld ha, a.loc ≠ .host ld ha) :
    s.performStore gid seq lane = (s.gangWrite e.actx gid a.addr a.loc a.size a.data).ackLane (gidCore gid) e lane := by
  have hposted : (s.posted.any fun p => p.what == .store gid seq lane) = false := by simpa using hp
  simp [State.performStore, hf, hm, hr, hposted, State.holdLine_of_not_host _ _ _ hh, State.post_of_not_host _ _ hh]

/-- What a store's lane leaves once it is performed, whichever event performs it. -/
theorem completes_of_performStore {s : State} {gid seq lane : Nat} {i : Instr} {P : State → Prop}
    (hi : i = .storeAck gid seq lane ∨ i = .recallComplete gid seq lane true) (h : P (s.performStore gid seq lane)) :
    Completes i s P := by
  rcases hi with rfl | rfl
  · exact Completes.intro rfl h
  · exact Completes.intro rfl h

/-- A store in device memory, its granule unshared: the write at its place is `Memory.writeLE`, and the acknowledgement changes only gangs
and cores. -/
theorem State.performStore_dev (s : State) {gid seq lane pa : Nat} {e : SqEntry} {a : LaneAcc}
    (hf : s.findStore gid seq lane = some (e, a)) (hm : s.mayAck (gidCore gid) e a = true)
    (hp : ∀ p ∈ s.posted, p.what ≠ .store gid seq lane) (hl : a.loc = .dev pa) (hs : s.sharers e.actx (a.addr / 65536) = [])
    (hn : (s.ctx e.actx).snap.view.shared.contains (a.addr / 65536) = false) (hb : s.beforeCut gid = false) :
    RegsKept { s with dmem := s.dmem.writeLE pa a.size a.data } (s.performStore gid seq lane) := by
  rw [s.performStore_of_mayAck hf hm hp (by rw [hl]; rfl) (by simp [hl]), hl, s.gangWrite_dev_of_unshared _ _ _ _ _ _ hs hn hb]
  exact State.ackLane_regsKept _ _ _ _

/-- The same for a store in a team's buffer. -/
theorem State.performStore_buf (s : State) {gid seq lane k off : Nat} {sp : BufSpace} {e : SqEntry} {a : LaneAcc}
    (hf : s.findStore gid seq lane = some (e, a)) (hm : s.mayAck (gidCore gid) e a = true)
    (hp : ∀ p ∈ s.posted, p.what ≠ .store gid seq lane) (hl : a.loc = .buf k sp off) :
    RegsKept (s.setTeam k ((s.team k).setBuf sp (((s.team k).buf sp).writeLE off a.size a.data))) (s.performStore gid seq lane) := by
  rw [s.performStore_of_mayAck hf hm hp (by rw [hl]; rfl) (by simp [hl]), hl]
  exact State.ackLane_regsKept _ _ _ _

/-- Settles O20: what a performed store leaves is read back by `Memory.readLE_writeLE`, and the rest by the frames. -/
theorem storePerformed : Obligations.StorePerformed := by
  unfold Obligations.StorePerformed
  intro s gid seq lane e a hf hm hp hd i hi
  constructor
  · intro pa hl c g hs hn hb
    have h := s.performStore_dev hf hm hp hl hs hn hb
    refine completes_of_performStore hi ⟨?_, fun x hx => ?_, h.teams, h.hmem, h.regs gid⟩
    · rw [h.dmem, Memory.readLE_writeLE, Nat.mod_eq_of_lt hd]
    · rw [h.dmem, Memory.read_writeLE_ne _ _ _ _ _ hx]
  · intro k sp off hl
    have h := s.performStore_buf hf hm hp hl
    refine completes_of_performStore hi ⟨?_, fun x hx => ?_, fun j hj => ?_, h.dmem, h.hmem, h.regs gid⟩
    · rw [h.team, State.team_setTeam, Team.buf_setBuf, Memory.readLE_writeLE, Nat.mod_eq_of_lt hd]
    · rw [h.team, State.team_setTeam, Team.buf_setBuf, Memory.read_writeLE_ne _ _ _ _ _ hx]
    · rw [h.team, State.team_setTeam_ne _ _ _ _ hj]

end Sys2Proof.Machine
end

section
/-! ## HostSide: what hosts and the fabric manager do to the part -/

namespace Sys2Proof.Machine

open Sys2Proof.Claims

/-! ### Pages of a host (R348) -/

/-- A host-half translation changes nothing but the pages that the access needs answers for. -/
theorem State.translateHost_frame (s : State) (ld va acc : Nat) :
    ∃ need, (s.translateHost ld va acc).1 = { s with hostNeed := need } := by
  unfold State.translateHost
  dsimp only
  split
  · split
    · exact ⟨_, rfl⟩
    · exact ⟨_, rfl⟩
  · exact ⟨_, rfl⟩

theorem State.hostPages_frame (s : State) (ld va n : Nat) : ∃ need, (s.hostPages ld va n).1 = { s with hostNeed := need } := by
  induction n with
  | zero => exact ⟨_, rfl⟩
  | succ n ih =>
    obtain ⟨need, ih⟩ := ih
    rw [State.hostPages]
    rcases hp : s.hostPages ld va n with ⟨t, _ | m⟩
    · rw [hp] at ih; exact ⟨need, ih⟩
    · rw [hp] at ih
      obtain ⟨need', ht⟩ := t.translateHost_frame ld (va + 4096 * n) 0
      have h : (t.translateHost ld (va + 4096 * n) 0).1 = { s with hostNeed := need' } := by rw [ht, show t = _ from ih]
      dsimp only
      split
      · next hx => rw [hx] at h; exact ⟨need', h⟩
      · next hx => rw [hx] at h; exact ⟨need', h⟩

/-- Writing pages of a host's memory changes that memory and the pages needed. -/
theorem State.putHostPages_frame (s : State) (ld va : Nat) (m : Memory) (n : Nat) :
    ∃ hmem need, s.putHostPages ld va m n = { s with hmem := hmem, hostNeed := need } := by
  unfold State.putHostPages
  induction List.range ((n + 4095) / 4096) generalizing s with
  | nil => exact ⟨_, _, rfl⟩
  | cons i l ih =>
    obtain ⟨need, ht⟩ := s.translateHost_frame ld (va + 4096 * i) 1
    rw [List.foldl_cons]
    split
    · next t l ha hx =>
      rw [hx] at ht
      obtain ⟨_, _, h⟩ := ih _
      rw [h, show t = _ from ht]
      exact ⟨_, _, rfl⟩
    · next t _ _ hx =>
      rw [hx] at ht
      obtain ⟨_, _, h⟩ := ih t
      rw [h, show t = _ from ht]
      exact ⟨_, _, rfl⟩

/-- An access whose answers have all come is performed, and is over. -/
theorem State.accessing_of_answered (s : State) (w : Asker) (f : State → State) {t : State} (hf : f (s.asking w) = t)
    (hn : t.hostNeed = s.hostNeed) : s.accessing w f = { t.heard w with hostWho := s.hostWho } := by
  simp only [State.accessing, hf, hn, if_true]

/-- Until then it only asks. -/
theorem State.accessing_of_unanswered (s : State) (w : Asker) (f : State → State) {t : State} (hf : f (s.asking w) = t)
    (hn : t.hostNeed ≠ s.hostNeed) : s.accessing w f = { (s.asking w).askHost t.hostNeed with hostWho := s.hostWho } := by
  simp only [State.accessing, hf, hn, if_false]

/-! ### Answers and invalidations of translations (R348) -/

/-- The page a pair of logical device and number names lies in the page of an answer. -/
def HostMap.covers (m : HostMap) (p : Nat × Nat) : Prop := p.1 = m.ld ∧ m.vbase ≤ p.2 * 4096 ∧ p.2 * 4096 < m.vbase + m.size

theorem HostMap.covers_iff (m : HostMap) (p : Nat × Nat) :
    (p.1 == m.ld && decide (m.vbase ≤ p.2 * 4096) && decide (p.2 * 4096 < m.vbase + m.size)) = true ↔ m.covers p := by
  simp [HostMap.covers, and_assoc]

theorem HostMap.mem_filter_not_covers {α : Type} (m : HostMap) (f : α → Nat × Nat) (l : List α) (x : α) :
    (x ∈ l.filter fun x => !((f x).1 == m.ld && decide (m.vbase ≤ (f x).2 * 4096) && decide ((f x).2 * 4096 < m.vbase + m.size))) ↔
      x ∈ l ∧ ¬m.covers (f x) := by
  rw [List.mem_filter, Bool.not_eq_true', ← Bool.not_eq_true, m.covers_iff]

/-- Two answers of one logical device that share an address. -/
def HostMap.apart (x m : HostMap) : Prop := x.ld ≠ m.ld ∨ x.vbase + x.size ≤ m.vbase ∨ m.vbase + m.size ≤ x.vbase

/-- Look-aheads that are dropped count in their context and core alone (R357). -/
theorem State.specMisses_frame (s : State) (l : List (Asker × Nat × Nat)) :
    ∃ ctxs cores, l.foldl (fun s w => s.specMiss (w.1.team - 2 ^ 32) w.1.n) s = { s with ctxs := ctxs, cores := cores } := by
  induction l generalizing s with
  | nil => exact ⟨_, _, rfl⟩
  | cons w l ih => exact ih (s.specMiss (w.1.team - 2 ^ 32) w.1.n)

theorem hostTranslationAnswer_of_malformed (s : State) (m : HostMap) (h : m.ok? = false) :
    exec (.hostTranslationAnswer m) s = .next s := by
  show execHostTranslationAnswer m s = _
  simp [execHostTranslationAnswer, h]

/-- R348, R376: an answer ends the requests for its page; a refusal is kept for those who wait, any other answer takes the place of
what it overlaps. -/
theorem hostTranslationAnswer_completes (s : State) (m : HostMap) (h : m.ok? = true) :
    Completes (.hostTranslationAnswer m) s fun t =>
      t.gangs = s.gangs ∧ t.teams = s.teams ∧ t.dmem = s.dmem ∧ t.hmem = s.hmem ∧
      (∀ p, p ∈ t.hostAsked ↔ p ∈ s.hostAsked ∧ ¬m.covers p) ∧ (∀ w, w ∈ t.hostWaits ↔ w ∈ s.hostWaits ∧ ¬m.covers w.2) ∧
      (m.r = false → m.w = false → m.x = false → t.hostMaps = s.hostMaps ∧
        ∀ w, w ∈ t.hostDenied ↔ w ∈ s.hostDenied ∨ w ∈ s.hostWaits ∧ m.covers w.2 ∧ w.1.kind ≠ 3) ∧
      (m.r = true ∨ m.w = true ∨ m.x = true → m ∈ t.hostMaps ∧ (∀ w, w ∈ t.hostDenied ↔ w ∈ s.hostDenied ∧ ¬m.covers w.2) ∧
        ∀ x ∈ t.hostMaps, x = m ∨ x ∈ s.hostMaps ∧ x.apart m) := by
  have hok : (!m.ok?) = false := by rw [h]; rfl
  refine Completes.intro rfl ?_
  simp only [hok]
  by_cases hg : (!m.r && !m.w && !m.x) = true
  · rw [if_neg (by simp), if_pos hg]
    obtain ⟨_, _, hs⟩ := State.specMisses_frame _ _
    rw [hs]
    clear hs
    refine ⟨rfl, rfl, rfl, rfl, fun p => m.mem_filter_not_covers id _ p, fun w => m.mem_filter_not_covers Prod.snd _ w,
      fun _ _ _ => ⟨rfl, fun w => ?_⟩, fun hgrant => ?_⟩
    · simp only [List.mem_append, List.mem_filter, m.covers_iff, and_assoc, bne_iff_ne]
    · rcases hgrant with e | e | e <;> simp [e] at hg
  · rw [if_neg (by simp), if_neg hg]
    refine ⟨rfl, rfl, rfl, rfl, fun p => m.mem_filter_not_covers id _ p, fun w => m.mem_filter_not_covers Prod.snd _ w,
      fun hr hw hx => ?_, fun _ => ⟨?_, fun w => m.mem_filter_not_covers Prod.snd _ w, fun x hx => ?_⟩⟩
    · simp [hr, hw, hx] at hg
    · exact List.mem_append_right _ (List.mem_singleton_self m)
    · simp only [List.mem_append, List.mem_filter, List.mem_singleton, Bool.or_eq_true, bne_iff_ne, decide_eq_true_eq, or_assoc] at hx
      exact hx.symm

/-- The translation that an invalidation names: the one cached for its address. -/
def State.hostMapAt (s : State) (ld va : Nat) : Option HostMap :=
  s.hostMaps.find? fun x => x.ld == ld && decide (x.vbase ≤ va) && decide (va < x.vbase + x.size)

theorem hostTranslationInvalidate_of_none (s : State) (ld va : Nat) (h : s.hostMapAt ld va = none) :
    exec (.hostTranslationInvalidate ld va) s = .next s := by
  rw [State.hostMapAt] at h
  show execHostTranslationInvalidate ld va s = _
  rw [execHostTranslationInvalidate, h]

theorem hostTranslationInvalidate_of_some (s : State) (ld va : Nat) (x : HostMap) (h : s.hostMapAt ld va = some x) :
    Completes (.hostTranslationInvalidate ld va) s fun t =>
      t = { s with hostMaps := if s.hostPending x then s.hostMaps else s.hostMaps.erase x } := by
  rw [State.hostMapAt] at h
  refine Completes.intro rfl ?_
  rw [h]
  dsimp only
  split
  · rfl
  · rfl

/-! ### The timeline region (R343) -/

theorem State.timelineAt_of_outside (s : State) (ld off : Nat) (h : (s.ldev ld).bound = false ∨ 64 * (s.ldev ld).tlcount ≤ off) :
    s.timelineAt ld off = none := by
  rw [State.timelineAt]
  rw [if_neg]
  rintro ⟨hb, hlt⟩
  rcases h with h | h
  · rw [h] at hb; cases hb
  · omega

theorem State.timelineAt_of_inside (s : State) (ld off : Nat) (h : ¬((s.ldev ld).bound = false ∨ 64 * (s.ldev ld).tlcount ≤ off)) :
    s.timelineAt ld off = some ((s.ldev ld).tlfirst + off / 64) := by
  rw [not_or, Bool.not_eq_false, not_le] at h
  rw [State.timelineAt]
  rw [if_pos h]

theorem timelineHost_of_outside (s : State) (ld off : Nat) (h : (s.ldev ld).bound = false ∨ 64 * (s.ldev ld).tlcount ≤ off) :
    exec (.timelineHostRead ld off) s = .next s ∧ exec (.timelineHostStore ld off) s = .next s := by
  constructor
  · show execTimelineHostRead ld off s = _
    rw [execTimelineHostRead, s.timelineAt_of_outside _ _ h]
  · show execTimelineHostStore ld off s = _
    rw [execTimelineHostStore, s.timelineAt_of_outside _ _ h]

theorem timelineHostRead_of_inside (s : State) (ld off : Nat) (h : ¬((s.ldev ld).bound = false ∨ 64 * (s.ldev ld).tlcount ≤ off)) :
    Completes (.timelineHostRead ld off) s fun t => (s.ldev ld).tlfirst + off / 64 ∈ t.tlShared ∧ t.timelines = s.timelines ∧
      t.hostRead = if off % 64 < 8 then Tab.get 0 s.timelines ((s.ldev ld).tlfirst + off / 64) else 0 := by
  refine Completes.intro rfl ?_
  rw [s.timelineAt_of_inside _ _ h]
  refine ⟨?_, rfl, ?_⟩
  · show _ ∈ if s.tlShared.contains _ then s.tlShared else _
    split
    · next hc => exact List.contains_iff_mem.1 hc
    · simp
  · by_cases hlt : off % 64 < 8
    · simp [State.answer, hlt, Nat.div_eq_of_lt hlt]
    · have : ¬off % 64 / 8 = 0 := by omega
      simp [State.answer, hlt, this]

theorem timelineHostStore_of_inside (s : State) (ld off : Nat) (h : ¬((s.ldev ld).bound = false ∨ 64 * (s.ldev ld).tlcount ≤ off)) :
    Completes (.timelineHostStore ld off) s fun t =>
      t = s.setLdev ld { s.ldev ld with tlStale := min ((s.ldev ld).tlStale + 1) (2 ^ 32 - 1) } := by
  refine Completes.intro rfl ?_
  rw [s.timelineAt_of_inside _ _ h]
  rfl

/-! ### Links and binding (R409, R411, R412) -/

/-- A logical device when link `down` has failed: a bound one is on the other link, with its lanes and rate. -/
def LogDev.relinked (l : LinkDown) (d : LogDev) : LogDev :=
  if d.bound then { d with link := 1 - l.down.val, width := l.width, rate := l.rate } else d

theorem hostLinkDown_of_untrained (s : State) (l : LinkDown) (h : trainedOk l.width l.rate = false) :
    exec (.hostLinkDown l) s = .next s := by
  show execHostLinkDown l s = _
  rw [execHostLinkDown, h]
  rfl

theorem hostLinkDown_completes (s : State) (l : LinkDown) (h : trainedOk l.width l.rate = true) :
    Completes (.hostLinkDown l) s fun t => ∀ k, (s.ldev k).bound = true →
      t.ldev k = { s.ldev k with link := 1 - l.down.val, width := l.width, rate := l.rate } ∧
        ((s.ldev k).link = l.down.val → ∀ x ∈ t.atomics, x.ld ≠ k) := by
  refine Completes.intro rfl ?_
  rw [if_neg (by simp [h])]
  intro k hb
  constructor
  · have hmap : (s.lds.map fun (k, d) => if d.bound then
        (k, { d with link := 1 - l.down.val, width := l.width, rate := l.rate }) else (k, d)) = s.lds.mapVals (LogDev.relinked l) := by
      refine List.map_congr_left fun x _ => ?_
      simp only [LogDev.relinked]
      split <;> rfl
    rw [State.ldev, State.loseAtomicOps_lds]
    refine (congrArg (fun t => Tab.get {} t k) hmap).trans ((Tab.get_mapVals (LogDev.relinked l) {} s.lds k).trans ?_)
    exact if_pos hb
  · intro hl x hx hk
    obtain ⟨hx, hlost⟩ := State.mem_atomics_of_loseAtomicOps _ _ x hx
    refine hlost (List.mem_filter.2 ⟨hx, ?_⟩)
    simp [hk, hb, hl]

/-- A logical device as a bind makes it. -/
def LogDev.bindTo (d : LogDev) (host link width rate tlfirst tlcount qfirst qcount : Nat) (cache : Bool) : LogDev :=
  { d with bound := true, host := host, link := link, width := width, rate := rate, tlfirst := tlfirst, tlcount := tlcount
           qfirst := qfirst, qcount := qcount, cacheBound := cache }

theorem ldBind_completes (s : State) (ld host : Nat) (link : Fin 2) (width rate tlfirst tlcount qfirst qcount : Nat) (b : Bool) :
    Completes (.ldBind ld host link width rate tlfirst tlcount qfirst qcount b) s fun t =>
      let d := (s.ldev ld).bindTo host link.val width rate tlfirst tlcount qfirst qcount b
      t = if s.bindOk ld host d then s.setLdev ld d else s := Completes.intro rfl rfl

/-- R409: a bind is refused for a device that is bound or does not exist, for ranges past the part's, and for a host that has a device. -/
theorem State.bindOk_eq_false (s : State) (ld host : Nat) (d : LogDev) (h : (s.ldev ld).bound = true ∨ 16 ≤ ld ∨
    1024 < d.qfirst + d.qcount ∨ 4096 < d.tlfirst + d.tlcount ∨
    ∃ k, (k, s.ldev k) ∈ s.lds ∧ (s.ldev k).bound = true ∧ (s.ldev k).host = host) : s.bindOk ld host d = false := by
  rcases h with h | h | h | h | ⟨k, hk, hb, hh⟩
  · simp [State.bindOk, h]
  · simp [State.bindOk, Nat.not_lt.2 h]
  · simp [State.bindOk, Nat.not_le.2 h]
  · simp [State.bindOk, Nat.not_le.2 h]
  · have taken : ((s.lds.filter fun x => x.2.bound).any fun x => x.2.host == host) = true :=
      List.any_eq_true.2 ⟨(k, s.ldev k), List.mem_filter.2 ⟨hk, hb⟩, by simp [hh]⟩
    simp only [State.bindOk, taken]
    simp

theorem ldBind_of_refused (s : State) (ld host : Nat) (link : Fin 2) (width rate tlfirst tlcount qfirst qcount : Nat) (b : Bool)
    (h : (s.ldev ld).bound = true ∨ 16 ≤ ld ∨ 1024 < qfirst + qcount ∨ 4096 < tlfirst + tlcount ∨
      ∃ k, (k, s.ldev k) ∈ s.lds ∧ (s.ldev k).bound = true ∧ (s.ldev k).host = host) :
    exec (.ldBind ld host link width rate tlfirst tlcount qfirst qcount b) s = .next s := by
  obtain ⟨t, he, rfl⟩ := ldBind_completes s ld host link width rate tlfirst tlcount qfirst qcount b
  rw [he, s.bindOk_eq_false ld host _ h]
  rfl

/-! ### Resets (R415) -/

/-- What every reset of the whole part leaves; of a device that is bound afterwards, the host stays. -/
theorem reset_completes (s : State) (i : Instr) (h : i = .coldReset ∨ ∃ v, v % 2 = 1 ∧ i = .warmReset 0 v) :
    Completes i s fun t => t.dmem = [] ∧ t.gangs = [] ∧ t.ctxs = [] ∧ t.queues = [] ∧
      t.timelines = [] ∧ t.fw.zeroing = true ∧ t.fw.state = 0 ∧ t.part = s.part ∧ t.hmem = s.hmem ∧
      ∀ k, (t.ldev k).bound = true → i ≠ .coldReset ∧ (t.ldev k).host = (s.ldev k).host ∧ (s.ldev k).bound = true := by
  rcases h with rfl | ⟨v, hv, rfl⟩
  · exact Completes.intro rfl ⟨rfl, rfl, rfl, rfl, rfl, rfl, rfl, rfl, rfl, fun k hk => by cases hk⟩
  · refine Completes.intro rfl ?_
    rw [if_pos ⟨rfl, by simp [bit, hv]⟩]
    refine ⟨rfl, rfl, rfl, rfl, rfl, rfl, rfl, rfl, rfl, fun k hk => ?_⟩
    have hld : State.ldev { s.coldState with lds := s.lds.mapVals LogDev.afterReset } k = (s.ldev k).afterReset :=
      Tab.get_mapVals LogDev.afterReset {} s.lds k
    rw [hld] at hk ⊢
    exact ⟨nofun, rfl, hk⟩

theorem warmReset_of_ignored (s : State) (ld v : Nat) (h : ld ≠ 0 ∨ v % 2 = 0) : exec (.warmReset ld v) s = .next s := by
  show execWarmReset ld v s = _
  rw [execWarmReset, if_neg]
  rintro ⟨h0, hv⟩
  rcases h with h | h
  · exact h h0
  · simp [bit, h] at hv

theorem logicalDeviceReset_of_unbound (s : State) (ld : Nat) (h : (s.ldev ld).bound = false) :
    exec (.logicalDeviceReset ld) s = .next s := by
  show execLogicalDeviceReset ld s = _
  rw [execLogicalDeviceReset, h]
  rfl

/-- R415: after its device's reset a queue of the device is off. -/
theorem State.resetLd_queue_enable (s : State) (ld q : Nat) (h : (s.ldev ld).qfirst ≤ q)
    (h' : q < (s.ldev ld).qfirst + (s.ldev ld).qcount) : ((s.resetLd ld).queue q).enable = false := by
  have last (u : State) (d : LogDev) : KeepsOff u ((if ld = 0 then u.resetMgmt else u).setLdev ld d) := by
    split
    · exact .of_queues rfl
    · exact .of_queues rfl
  have disabled (u : State) (p : Nat) : KeepsOff u (if (u.queue p).enable then u.disableQueue p else u) := by
    split
    · exact u.disableQueue_keepsOff p
    · exact .of_queues rfl
  have given (l : List Nat) (u : State) : KeepsOff u (l.foldl (fun s c => s.giveUp c) u) :=
    KeepsOff.foldl _ (fun s c => .of_queues (s.giveUp_queues c)) l u
  unfold State.resetLd
  refine last _ _ q (State.queue_enable_setQueues _ _ q ?_)
  by_cases hq : ∃ x ∈ s.queues, x.1 = q
  · obtain ⟨x, hx, rfl⟩ := hq
    exact .inl (List.mem_map.2 ⟨x, List.mem_filter.2 ⟨hx, by simp [h, h']⟩, rfl⟩)
  · refine .inr (given _ _ q (given _ _ q (KeepsOff.foldl _ disabled _ _ q ?_)))
    rw [State.queue, Tab.get_of_forall_ne _ _ _ fun x hx e => hq ⟨x, hx, e⟩]

theorem State.resetLd_timeline (s : State) (ld k : Nat) (h : (s.ldev ld).ownsTl k = true) :
    (s.resetLd ld).timelines.get 0 k = 0 := by
  have last (u : State) (d : LogDev) : ((if ld = 0 then u.resetMgmt else u).setLdev ld d).timelines = u.timelines := by
    split <;> rfl
  unfold State.resetLd
  refine (congrArg (fun t => Tab.get 0 t k) (last _ _)).trans (Tab.get_of_forall_ne _ _ _ fun x hx e => ?_)
  have hx := (List.mem_filter.1 hx).2
  simp [e, h] at hx

theorem State.resetLd_ldev (s : State) (ld : Nat) : (s.resetLd ld).ldev ld = (s.ldev ld).afterReset := State.ldev_setLdev _ _ _

theorem logicalDeviceReset_completes (s : State) (ld : Nat) (h : (s.ldev ld).bound = true) :
    Completes (.logicalDeviceReset ld) s fun t => t.ldev ld = (s.ldev ld).afterReset ∧ (t.ldev ld).featDone = false ∧
      (∀ q, (s.ldev ld).qfirst ≤ q → q < (s.ldev ld).qfirst + (s.ldev ld).qcount → (t.queue q).enable = false) ∧
      (∀ k, (s.ldev ld).ownsTl k = true → t.timelines.get 0 k = 0) := by
  refine Completes.intro rfl ?_
  rw [if_pos h]
  exact ⟨s.resetLd_ldev ld, by rw [s.resetLd_ldev]; rfl, s.resetLd_queue_enable ld, s.resetLd_timeline ld⟩

/-! ### Firmware (R417) -/

theorem firmware_of_other (s : State) (ld : Nat) (h : ld ≠ 0) :
    exec (.firmwareLoad ld) s = .next s ∧ exec (.firmwareStop ld) s = .next s := by
  constructor
  · show execFirmwareLoad ld s = _
    rw [execFirmwareLoad, if_pos h]
  · show execFirmwareStop ld s = _
    rw [execFirmwareStop, if_pos h]

theorem firmwareLoad_completes (s : State) :
    let busy := s.fw.zeroing = true ∨ s.fw.state = 1 ∨ s.fw.state = 2
    Completes (.firmwareLoad 0) s fun t => (busy → t = { s with fw := { s.fw with err := 5 } }) ∧
      (¬busy → t = { s with fw := { s.fw with state := 1 } }) := by
  refine Completes.intro rfl ⟨fun h => ?_, fun h => ?_⟩
  · rw [if_neg (by simp), if_pos h]; rfl
  · rw [if_neg (by simp), if_neg h]

theorem firmwareStop_completes (s : State) :
    Completes (.firmwareStop 0) s fun t => (s.fw.state ≠ 2 → t = { s with fw := { s.fw with err := 5 } }) ∧
      (s.fw.state = 2 → t = { s with fw := { s.fw with stopping := true } }) := by
  refine Completes.intro rfl ⟨fun h => ?_, fun h => ?_⟩
  · rw [if_neg (by simp), if_pos h]; rfl
  · rw [if_neg (by simp), if_neg (by simpa using h)]

theorem firmwareLoadComplete_of_not_loading (s : State) (h : s.fw.state ≠ 1) : exec .firmwareLoadComplete s = .next s := by
  show execFirmwareLoadComplete s = _
  rw [execFirmwareLoadComplete, if_pos h]

/-- Who asks for the pages of an image (R348, R417). -/
def loadAsker : Asker := ⟨2 ^ 32, 13, 0⟩

theorem firmwareLoadComplete_of_loading (s : State) (h : s.fw.state = 1) :
    exec .firmwareLoadComplete s = .next (s.accessing loadAsker State.runImage) := by
  show execFirmwareLoadComplete s = _
  rw [execFirmwareLoadComplete, if_neg (by simp [h])]
  rfl

/-- Reading an image changes nothing but the pages needed. -/
theorem State.imageBad_frame (s : State) : ∃ need, s.imageBad.1 = { s with hostNeed := need } := by
  obtain ⟨need, h1⟩ := s.hostPages_frame 0 s.fw.addr 1
  unfold State.imageBad
  split
  · next t hp => rw [hp] at h1; exact ⟨need, h1⟩
  · next t m hp =>
    rw [hp] at h1
    split
    · exact ⟨need, h1⟩
    · next len sig _ =>
      obtain ⟨need', h2⟩ := t.hostPages_frame 0 t.fw.addr ((0x600 + len + 4095) / 4096)
      have h : (t.hostPages 0 t.fw.addr ((0x600 + len + 4095) / 4096)).1 = { s with hostNeed := need' } := by
        rw [h2, show t = _ from h1]
      split
      · next hq => rw [hq] at h; exact ⟨need', h⟩
      · next hq => rw [hq] at h; exact ⟨need', h⟩

theorem State.runImage_of_error {s u : State} {e : Nat} (h : s.imageBad = (u, .error e)) :
    s.runImage = { u with imem := [], fw := { u.fw with state := 4, err := e } } := by
  rw [State.runImage, h]

theorem State.runImage_of_ok {s u : State} {y : Memory × Nat × Nat} (h : s.imageBad = (u, .ok y)) :
    s.runImage = { u.setGang fwGid fwGang with
      imem := y.1
      fw := { u.fw with state := 2, version := y.2.2, errValid := false, group := 0, taken := [], fetched := 0, stopping := false
                        digest := y.2.1 } } := by
  rw [State.runImage, h]

theorem State.runImage_hostNeed {s u : State} {x : Except Nat (Memory × Nat × Nat)} (h : s.imageBad = (u, x)) :
    s.runImage.hostNeed = u.hostNeed := by
  cases x with
  | error e => rw [State.runImage_of_error h]
  | ok y => rw [State.runImage_of_ok h]; rfl

theorem fwGang_slice (k : Nat) (h : k < 16) : fwGang.slice k = { mask := 15, live := 15 } := by
  have all : ∀ k, k < 16 → fwGang.slice k = { mask := 15, live := 15 } := by decide
  exact all k h

/-- R348, R417: the image is verified once the host has answered for its pages; until then they are asked for. -/
theorem firmwareLoadComplete_completes (s u : State) (x : Except Nat (Memory × Nat × Nat)) (h : s.fw.state = 1)
    (hx : (s.asking loadAsker).imageBad = (u, x)) :
    (u.hostNeed ≠ s.hostNeed → exec .firmwareLoadComplete s =
      .next { (s.asking loadAsker).askHost u.hostNeed with hostWho := s.hostWho }) ∧
    (u.hostNeed = s.hostNeed → Completes .firmwareLoadComplete s fun t => t.dmem = s.dmem ∧
      (∀ e, x = .error e → t.fw.state = 4 ∧ t.fw.err = e ∧ t.imem = [] ∧ t.gangs = s.gangs) ∧
      (∀ y, x = .ok y → t.fw.state = 2 ∧ t.fw.group = 0 ∧ t.imem = y.1 ∧
        ∀ k, k < 16 → (t.gang fwGid).slice k = { mask := 15, live := 15 })) := by
  have hneed := State.runImage_hostNeed hx
  obtain ⟨need, hu⟩ := (s.asking loadAsker).imageBad_frame
  rw [hx] at hu
  dsimp only at hu
  rw [firmwareLoadComplete_of_loading s h]
  constructor
  · intro hn
    rw [State.accessing_of_unanswered _ _ _ rfl (by rw [hneed]; exact hn), hneed]
  · intro hn
    refine Completes.intro (firmwareLoadComplete_of_loading s h) ?_
    cases x with
    | error e =>
      rw [State.accessing_of_answered _ _ _ (State.runImage_of_error hx) hn]
      refine ⟨?_, fun e' he => ?_, nofun⟩
      · rw [hu]; rfl
      · cases he; rw [hu]; exact ⟨rfl, rfl, rfl, rfl⟩
    | ok y =>
      rw [State.accessing_of_answered _ _ _ (State.runImage_of_ok hx) hn]
      refine ⟨?_, nofun, fun y' hy => ?_⟩
      · rw [hu]; rfl
      · cases hy
        refine ⟨rfl, rfl, rfl, fun k hk => ?_⟩
        exact (congrArg (fun g => Gang.slice g k) (State.gang_setGang u fwGid fwGang)).trans (fwGang_slice k hk)

/-! ### Attestation and features (R418, R419) -/

theorem bit_zero_of_even {v : Nat} (h : v % 2 = 0) : bit v 0 = false := by simp [bit, h]
theorem bit_zero_of_odd {v : Nat} (h : v % 2 = 1) : bit v 0 = true := by simp [bit, h]

theorem attest_of_ignored (s : State) (ld v : Nat) (h : v % 2 = 0 ∨ (s.ldev ld).bound = false) :
    exec (.attest ld v) s = .next s ∧ exec (.featureRequest ld v) s = .next s := by
  constructor
  · show execAttest ld v s = _
    rw [execAttest, if_neg]
    rintro ⟨hv, -, hb⟩
    rcases h with h | h
    · rw [bit_zero_of_even h] at hv; cases hv
    · rw [h] at hb; cases hb
  · show execFeatureRequest ld v s = _
    rw [execFeatureRequest, if_neg]
    rintro ⟨hv, hb⟩
    rcases h with h | h
    · rw [bit_zero_of_even h] at hv; cases hv
    · rw [h] at hb; cases hb

theorem attest_completes (s : State) (ld v : Nat) (hv : v % 2 = 1) (hb : (s.ldev ld).bound = true) :
    Completes (.attest ld v) s fun t =>
      t = if (s.ldev ld).atBusy.isSome then s else s.setLdev ld { s.ldev ld with atBusy := some (bit v 1), atDone := false } := by
  refine Completes.intro rfl ?_
  cases hbusy : (s.ldev ld).atBusy with
  | some x => rw [if_neg (by simp)]; rfl
  | none => rw [if_pos ⟨bit_zero_of_odd hv, rfl, hb⟩]; rfl

theorem featureRequest_completes (s : State) (ld v : Nat) (hv : v % 2 = 1) (hb : (s.ldev ld).bound = true) :
    Completes (.featureRequest ld v) s fun t => t = s.setLdev ld { s.ldev ld with featAsked := true } := by
  refine Completes.intro rfl ?_
  rw [if_pos ⟨bit_zero_of_odd hv, hb⟩]
  rfl

theorem attestReportDone_of_idle (s : State) (ld : Nat) (h : (s.ldev ld).atBusy = none) :
    exec (.attestReportDone ld) s = .next s := by
  show execAttestReportDone ld s = _
  simp only [execAttestReportDone, h]

/-- The state in which a report's buffer is looked for: nothing is in progress any more. -/
def State.reportBegun (s : State) (ld : Nat) : State := s.modLdev ld fun d => { d with atBusy := none }
/-- Who asks for the pages of a report's buffer, and the buffer's first page. -/
def reportAsker (ld : Nat) : Asker := ⟨2 ^ 32, 14, ld⟩
def LogDev.reportPage (d : LogDev) : Nat := d.atAddr / 4096 * 4096
/-- The bytes of a report, with its certificate when that was asked for. -/
def reportBytes (cert : Bool) : Nat := 0x800 + if cert then Config.certificateBytes % 2561 else 0

/-- An attempt to write a report. -/
def State.writeReport (s : State) (ld va : Nat) (cert : Bool) : State :=
  match (s.reportBegun ld).hostPages ld va 1 with
  | (s, some page) =>
    (s.putHostPages ld va (s.attestReport ld (page.slice 8 32) cert) (reportBytes cert)).modLdev ld fun d => { d with atDone := true }
  | (s, none) => s

theorem State.writeReport_of_no_page {s u : State} {ld va : Nat} (h : (s.reportBegun ld).hostPages ld va 1 = (u, none)) (cert : Bool) :
    s.writeReport ld va cert = u := by
  rw [State.writeReport, h]

theorem State.writeReport_of_page {s u : State} {ld va : Nat} {page : Memory}
    (h : (s.reportBegun ld).hostPages ld va 1 = (u, some page)) (cert : Bool) : s.writeReport ld va cert =
      (u.putHostPages ld va (u.attestReport ld (page.slice 8 32) cert) (reportBytes cert)).modLdev ld
        fun d => { d with atDone := true } := by
  rw [State.writeReport, h]

theorem attestReportDone_of_busy (s : State) (ld : Nat) (cert : Bool) (h : (s.ldev ld).atBusy = some cert) :
    exec (.attestReportDone ld) s =
      .next (s.accessing (reportAsker ld) fun s' => s'.writeReport ld (s.ldev ld).reportPage cert) := by
  show execAttestReportDone ld s = _
  simp only [execAttestReportDone, h]
  rfl

theorem State.reportBegun_hostPages_frame (s : State) (ld va : Nat) :
    ∃ need, ((s.reportBegun ld).hostPages ld va 1).1 = { s.reportBegun ld with hostNeed := need } := State.hostPages_frame _ _ _ _

/-- What an attempt that the host has answered leaves of the device and of device memory. -/
def State.reportOver (s : State) (ld : Nat) (done : Bool) (t : State) : Prop :=
  (t.ldev ld).atBusy = none ∧ (t.ldev ld).atDone = done ∧ t.dmem = s.dmem

theorem attestReportDone_without_page (s : State) (ld : Nat) (cert : Bool) (h : (s.ldev ld).atBusy = some cert) {u : State}
    (hu : ((s.asking (reportAsker ld)).reportBegun ld).hostPages ld (s.ldev ld).reportPage 1 = (u, none)) :
    (u.hostNeed ≠ s.hostNeed → exec (.attestReportDone ld) s =
      .next { (s.asking (reportAsker ld)).askHost u.hostNeed with hostWho := s.hostWho }) ∧
    (u.hostNeed = s.hostNeed → Completes (.attestReportDone ld) s (s.reportOver ld (s.ldev ld).atDone)) := by
  have hw := State.writeReport_of_no_page hu cert
  constructor
  · intro hn
    rw [attestReportDone_of_busy s ld cert h, State.accessing_of_unanswered _ _ _ hw hn]
  · intro hn
    refine Completes.intro (attestReportDone_of_busy s ld cert h) ?_
    rw [State.accessing_of_answered _ _ _ hw hn]
    obtain ⟨need, hf⟩ := (s.asking (reportAsker ld)).reportBegun_hostPages_frame ld (s.ldev ld).reportPage
    rw [hu] at hf
    dsimp only at hf
    have hl : u.ldev ld = { s.ldev ld with atBusy := none } := by rw [hf]; exact State.ldev_setLdev _ _ _
    have hd : u.dmem = s.dmem := by rw [hf]; rfl
    exact ⟨(congrArg LogDev.atBusy hl :), (congrArg LogDev.atDone hl :), hd⟩

theorem attestReportDone_with_page (s : State) (ld : Nat) (cert : Bool) (h : (s.ldev ld).atBusy = some cert) {u : State} {page : Memory}
    (hu : ((s.asking (reportAsker ld)).reportBegun ld).hostPages ld (s.ldev ld).reportPage 1 = (u, some page))
    (hn : (u.putHostPages ld (s.ldev ld).reportPage (u.attestReport ld (page.slice 8 32) cert) (reportBytes cert)).hostNeed =
      s.hostNeed) :
    Completes (.attestReportDone ld) s (s.reportOver ld true) := by
  refine Completes.intro (attestReportDone_of_busy s ld cert h) ?_
  rw [State.accessing_of_answered _ _ _ (State.writeReport_of_page hu cert) (by exact hn)]
  obtain ⟨need, hf⟩ := (s.asking (reportAsker ld)).reportBegun_hostPages_frame ld (s.ldev ld).reportPage
  rw [hu] at hf
  dsimp only at hf
  have hl : u.ldev ld = { s.ldev ld with atBusy := none } := by rw [hf]; exact State.ldev_setLdev _ _ _
  have hd : u.dmem = s.dmem := by rw [hf]; rfl
  obtain ⟨_, _, hp⟩ := u.putHostPages_frame ld (s.ldev ld).reportPage (u.attestReport ld (page.slice 8 32) cert) (reportBytes cert)
  rw [hp]
  refine ⟨?_, ?_, hd⟩
  · exact (congrArg LogDev.atBusy (State.ldev_setLdev _ _ _)).trans (congrArg LogDev.atBusy hl :)
  · exact congrArg LogDev.atDone (State.ldev_setLdev _ _ _)

/-- R418: a report whose buffer cannot be read is over and not done, one whose buffer is written is done; until the host has answered for
the pages it needs they are asked for (R348). -/
theorem attestReportDone_completes (s : State) (ld : Nat) (cert : Bool) (h : (s.ldev ld).atBusy = some cert) :
    let z := ((s.asking (reportAsker ld)).reportBegun ld).hostPages ld (s.ldev ld).reportPage 1
    (z.2 = none →
      (z.1.hostNeed ≠ s.hostNeed → exec (.attestReportDone ld) s =
        .next { (s.asking (reportAsker ld)).askHost z.1.hostNeed with hostWho := s.hostWho }) ∧
      (z.1.hostNeed = s.hostNeed → Completes (.attestReportDone ld) s (s.reportOver ld (s.ldev ld).atDone))) ∧
    (∀ page, z.2 = some page →
      (z.1.putHostPages ld (s.ldev ld).reportPage (z.1.attestReport ld (page.slice 8 32) cert) (reportBytes cert)).hostNeed =
        s.hostNeed → Completes (.attestReportDone ld) s (s.reportOver ld true)) :=
  ⟨fun hz => attestReportDone_without_page s ld cert h (Prod.ext rfl hz),
    fun _ hz hn => attestReportDone_with_page s ld cert h (Prod.ext rfl hz) hn⟩

theorem featureNegotiationDone_of_ignored (s : State) (ld : Nat)
    (h : s.fw.state ≠ 2 ∨ (s.ldev ld).featAsked = false ∨ (s.ldev ld).featDone = true) :
    exec (.featureNegotiationDone ld) s = .next s := by
  show execFeatureNegotiationDone ld s = _
  rw [execFeatureNegotiationDone, if_pos (by simpa using h)]

theorem featureNegotiationDone_completes (s : State) (ld : Nat) (hs : s.fw.state = 2) (ha : (s.ldev ld).featAsked = true)
    (hd : (s.ldev ld).featDone = false) :
    Completes (.featureNegotiationDone ld) s fun t => t = s.setLdev ld
      { s.ldev ld with featOn := featCap &&& (s.ldev ld).featReq, featDone := true
                       cache := (s.ldev ld).cacheBound && bit (featCap &&& (s.ldev ld).featReq) 0 } := by
  refine Completes.intro rfl ?_
  rw [if_neg (by simp [hs, ha, hd])]

/-! ### Power, routes and port counters (R320, R333, R420) -/

theorem arouteWrite_completes (s : State) (ld v : Nat) :
    Completes (.arouteWrite ld v) s fun t => t = s.setLdev ld
      (if v % 4 = 3 ∨ v % 4 = 1 ∧ (s.ldev ld).cache = false then s.ldev ld else { s.ldev ld with aroute := v % 4 }) := by
  refine Completes.intro rfl ?_
  rw [State.modLdev_eq]
  simp [bits]

theorem portCounterRead_of_no_port (s : State) (port : Nat) (h : 32 ≤ port) :
    exec (.portCounterRead port) s = .next { s with hostRead := 0 } := by
  show execPortCounterRead port s = _
  rw [execPortCounterRead, if_pos h]
  rfl

theorem portCounterRead_of_port (s : State) (port : Nat) (h : ¬32 ≤ port) :
    exec (.portCounterRead port) s = .next ((s.setPort port
      { s.port port with hdrerr := 0, bodyerr := 0, replays := 0, poison := 0, badcell := 0 }).answer (s.port port).counters) := by
  show execPortCounterRead port s = _
  rw [execPortCounterRead, if_neg h]
  rfl

@[simp] theorem State.answer_hostRead (s : State) (v : Nat) : (s.answer v).hostRead = BitVec.ofNat 64 v := rfl
@[simp] theorem State.answer_gangs (s : State) (v : Nat) : (s.answer v).gangs = s.gangs := rfl
@[simp] theorem State.port_answer (s : State) (v k : Nat) : (s.answer v).port k = s.port k := rfl

theorem portCounterRead_completes (s : State) (port : Nat) :
    Completes (.portCounterRead port) s fun t => if 32 ≤ port then t = { s with hostRead := 0 } else
      t.hostRead = BitVec.ofNat 64 (s.port port).counters ∧
      t.port port = { s.port port with hdrerr := 0, bodyerr := 0, replays := 0, poison := 0, badcell := 0 } ∧ t.gangs = s.gangs := by
  by_cases h : 32 ≤ port
  · refine Completes.intro (portCounterRead_of_no_port s port h) ?_
    rw [if_pos h]
  · refine Completes.intro (portCounterRead_of_port s port h) ?_
    rw [if_neg h]
    exact ⟨State.answer_hostRead _ _, by rw [State.port_answer, State.port_setPort], by rw [State.answer_gangs, State.setPort_gangs]⟩

/-! ### Register writes (R13) -/

/-- `t` has the gangs, the teams and the device memory of `s`. -/
def WorkKept (s t : State) : Prop := t.gangs = s.gangs ∧ t.teams = s.teams ∧ t.dmem = s.dmem

theorem WorkKept.refl (s : State) : WorkKept s s := ⟨rfl, rfl, rfl⟩

theorem WorkKept.trans {s t u : State} (h : WorkKept s t) (k : WorkKept t u) : WorkKept s u :=
  ⟨k.1.trans h.1, k.2.1.trans h.2.1, k.2.2.trans h.2.2⟩

theorem State.mgmtDword_workKept (s : State) (fw : Bool) (off : Nat) (f : Nat → Nat) : WorkKept s (s.mgmtDword fw off f) := by
  unfold State.mgmtDword
  split
  · dsimp only
    split
    · exact .refl s
    · exact .refl s
  · split
    · exact .refl s
    · exact .refl s

theorem State.ctxDword_workKept (s : State) (ld off : Nat) (f : Nat → Nat) : WorkKept s (s.ctxDword ld off f) := by
  have on (c : Nat) (g : Ctx → Ctx) : WorkKept s (if s.ownsCtx ld c then s.modCtx c g else s) := by
    split
    · exact .refl s
    · exact .refl s
  unfold State.ctxDword
  split
  · exact on _ _
  · split
    · exact on _ _
    · exact on _ _

/-- 32 bits written outside the queues' blocks reach no gang, no team and no device memory. -/
theorem State.writeDword_workKept (s : State) (ld off : Nat) (more : Bool) (f : Nat → Nat) (h : off < 0x100000 ∨ 0x500000 ≤ off) :
    WorkKept s (s.writeDword ld off more f) := by
  unfold State.writeDword
  dsimp only
  split
  · split
    · exact s.mgmtDword_workKept _ _ _
    · exact .refl s
  · split
    · exact .refl s
    · split
      · omega
      · split
        · exact s.ctxDword_workKept _ _ _
        · repeat' split
          all_goals exact .refl s

theorem State.writeRegs_workKept (s : State) (ld off v n : Nat) (h : off + n ≤ 0x100000 ∨ 0x500000 ≤ off) :
    WorkKept s (s.writeRegs ld off v n) := by
  cases n with
  | zero => exact .refl s
  | succ n =>
    have dword {t : State} (ht : WorkKept s t) (o : Nat) (more : Bool) (f : Nat → Nat) (ho : o < 0x100000 ∨ 0x500000 ≤ o) :
        WorkKept s (t.writeDword ld o more f) := ht.trans (t.writeDword_workKept ld o more f ho)
    unfold State.writeRegs
    dsimp only
    split
    · exact dword (.refl s) _ _ _ (by omega)
    · split
      · exact dword (dword (.refl s) _ _ _ (by omega)) _ _ _ (by omega)
      · exact dword (dword (dword (.refl s) _ _ _ (by omega)) _ _ _ (by omega)) _ _ _ (by omega)

theorem registerWrite_workKept (s : State) (ld off n v : Nat) (h : off + n ≤ 0x100000 ∨ 0x500000 ≤ off) :
    Completes (.registerWrite ld off n v) s (WorkKept s) :=
  Completes.intro rfl (s.writeRegs_workKept _ _ _ _ (by omega))

theorem setBits_low_all (old v n : Nat) (ho : old < 2 ^ n) (hv : v < 2 ^ n) : setBits old 0 n v = v := by
  simp [setBits, bits, Nat.mod_eq_of_lt ho, Nat.mod_eq_of_lt hv]

theorem Memory.readLE_lt (m : Memory) (a n : Nat) : m.readLE a n < 256 ^ n := by
  induction n generalizing a with
  | zero => simp [Memory.readLE]
  | succ n ih =>
    have h := ih (a + 1)
    have hb := (m.read a).isLt
    rw [Memory.readLE, pow_succ]
    omega

/-- A logical device with 32 bits written in a register that has no behaviour of its own. -/
def LogDev.putPlain (d : LogDev) (off v : Nat) : LogDev := { d with regs := d.regs.writeLE off 4 (v &&& plainMask off) }

theorem State.writeRegs_plain (s : State) (ld x v : Nat) (hx : x < 32) (hl : ld < 16) (hv : v < 2 ^ 32) :
    s.writeRegs ld (0x6000 + 4 * x) v 4 = s.setLdev ld ((s.ldev ld).putPlain (0x6000 + 4 * x) v) := by
  have haligned : (0x6000 + 4 * x) % 4 = 0 := by omega
  have hset (m : Memory) (a : Nat) : setBits (m.readLE a 4) 0 32 v % 2 ^ 32 = v := by
    rw [setBits_low_all _ _ _ (m.readLE_lt a 4) hv, Nat.mod_eq_of_lt hv]
  rw [State.writeRegs]
  simp only [haligned, Nat.sub_zero, Nat.reduceAdd, Nat.min_self, Nat.mul_zero, Nat.le_refl, if_true, Nat.reduceMul]
  unfold State.writeDword
  dsimp only
  rw [if_neg (by omega), if_neg (by omega), if_neg (by omega), if_neg (by omega), if_pos (by omega), State.modLdev_eq, hset]
  rfl

theorem registerWrite_plain_completes (s : State) (ld x v : Nat) (hx : x < 32) (hl : ld < 16) (hv : v < 2 ^ 32) :
    Completes (.registerWrite ld (0x6000 + 4 * x) 4 v) s fun t =>
      (t.ldev ld).regs.readLE (0x6000 + 4 * x) 4 = v &&& plainMask (0x6000 + 4 * x) ∧ t.regWord ld 0x130 = s.regWord ld 0x130 := by
  refine Completes.intro (congrArg Host.Outcome.next (s.writeRegs_plain ld x v hx hl hv)) ⟨?_, ?_⟩
  · rw [State.ldev_setLdev, LogDev.putPlain, Memory.readLE_writeLE]
    exact Nat.mod_eq_of_lt (Nat.lt_of_le_of_lt Nat.and_le_left hv)
  · have word (t : State) : t.regWord ld 0x130 = (t.ldev ld).ldCfg ld := rfl
    rw [word, word, State.ldev_setLdev]
    rfl

/-- Settles O56: its clauses are the lemmas above, one for each event. -/
theorem hostSide : Obligations.HostSide := by
  unfold Obligations.HostSide
  intro s m ld off v va n host width rate tlfirst tlcount qfirst qcount port link b d p
  exact ⟨hostTranslationAnswer_of_malformed s m, hostTranslationAnswer_completes s m,
    ⟨hostTranslationInvalidate_of_none s ld va, hostTranslationInvalidate_of_some s ld va⟩,
    ⟨timelineHost_of_outside s ld off, fun h => ⟨timelineHostRead_of_inside s ld off h, timelineHostStore_of_inside s ld off h⟩⟩,
    hostLinkDown_of_untrained s ⟨link, width, rate⟩, hostLinkDown_completes s ⟨link, width, rate⟩,
    ldBind_completes s ld host link width rate tlfirst tlcount qfirst qcount b,
    ldBind_of_refused s ld host link width rate tlfirst tlcount qfirst qcount b,
    reset_completes s, warmReset_of_ignored s ld v, logicalDeviceReset_of_unbound s ld, logicalDeviceReset_completes s ld,
    Completes.intro rfl rfl, firmware_of_other s ld, firmwareLoad_completes s, firmwareStop_completes s,
    firmwareLoadComplete_of_not_loading s, fun u x => firmwareLoadComplete_completes s u x,
    attest_of_ignored s ld v, fun hv hb => ⟨attest_completes s ld v hv hb, featureRequest_completes s ld v hv hb⟩,
    attestReportDone_of_idle s ld, fun x hx => attestReportDone_completes s ld x hx,
    featureNegotiationDone_of_ignored s ld, featureNegotiationDone_completes s ld,
    Completes.intro rfl rfl, arouteWrite_completes s ld v, Completes.intro rfl rfl,
    registerWrite_workKept s ld off n v, fun x hx hl hv => registerWrite_plain_completes s ld x v hx hl hv,
    portCounterRead_completes s port⟩

end Sys2Proof.Machine
end

section
/-! ## QueueRegisters: tails, ENABLE, binding, completion queues, the firmware core's visits, reads that clear, fetching ahead -/

namespace Sys2Proof.Machine

open Sys2Proof.Claims

/-! ### Writes to a queue's block come from its owner (R441) -/

theorem State.onQueue_of_owner {s : State} {ld q : Nat} (h : s.queueOwner q = some ld) (f : State → State) :
    s.onQueue ld q f = f s := if_pos h

theorem State.onQueue_of_other {s : State} {ld q : Nat} (h : s.queueOwner q ≠ some ld) (f : State → State) :
    s.onQueue ld q f = s := if_neg h

@[simp] theorem State.setQueue_setQueue (s : State) (q : Nat) (x y : Queue) : (s.setQueue q x).setQueue q y = s.setQueue q y :=
  congrArg (fun t => { s with queues := t }) (Tab.set_set s.queues q x y)

theorem queueWrite_of_other {s : State} {ld q : Nat} (h : s.queueOwner q ≠ some ld) (n v : Nat) (i : Instr)
    (hi : i ∈ [Instr.tailWrite ld q n v, .queueEnable ld q v, .queueDisable ld q v, .contextBind ld q v, .cqheadWrite ld q v]) :
    exec i s = .next s := by
  have ignored (f : State → State) : (.next (s.onQueue ld q f) : Res) = .next s := congrArg _ (State.onQueue_of_other h f)
  simp only [List.mem_cons, List.not_mem_nil, or_false] at hi
  rcases hi with rfl | rfl | rfl | rfl | rfl
  exacts [ignored _, ignored _, ignored _, ignored _, ignored _]

/-! ### Tails (R62) -/

theorem Queue.tailWrite_of_taken (x : Queue) (d : W32) (hs : x.state = 1) (hf : 0 < (d - x.tail).toInt)
    (hr : (d - x.head).toNat ≤ 2 ^ x.logsize) : x.tailWrite d = { x with tail := d } :=
  if_pos ⟨hs, by simpa [BitVec.slt_iff_toInt_lt] using hf, hr⟩

theorem Queue.tailWrite_of_stale (x : Queue) (d : W32)
    (h : x.state ≠ 1 ∨ (d - x.tail).toInt ≤ 0 ∨ 2 ^ x.logsize < (d - x.head).toNat) : x.tailWrite d = x.countStale := by
  refine if_neg ?_
  rintro ⟨hs, hf, hr⟩
  rw [BitVec.slt_iff_toInt_lt, BitVec.toInt_zero] at hf
  rw [Queue.size] at hr
  rcases h with h | h | h
  · exact h hs
  · omega
  · omega

theorem tailWrite_of_taken {s : State} {ld q v : Nat} (ho : s.queueOwner q = some ld) (hs : (s.queue q).state = 1)
    (hf : 0 < (BitVec.ofNat 32 v - (s.queue q).tail).toInt)
    (hr : (BitVec.ofNat 32 v - (s.queue q).head).toNat ≤ 2 ^ (s.queue q).logsize) :
    Completes (.tailWrite ld q 4 v) s (· = s.setQueue q { s.queue q with tail := BitVec.ofNat 32 v }) := by
  refine Completes.intro rfl ?_
  rw [State.onQueue_of_owner ho, State.modQueue_eq, if_pos rfl, Queue.tailWrite_of_taken _ _ hs hf hr]

theorem tailWrite_of_stale {s : State} {ld q v : Nat} (ho : s.queueOwner q = some ld) (n : Nat)
    (h : n ≠ 4 ∨ (s.queue q).state ≠ 1 ∨ (BitVec.ofNat 32 v - (s.queue q).tail).toInt ≤ 0 ∨
      2 ^ (s.queue q).logsize < (BitVec.ofNat 32 v - (s.queue q).head).toNat) :
    Completes (.tailWrite ld q n v) s (· = s.setQueue q (s.queue q).countStale) := by
  refine Completes.intro rfl ?_
  rw [State.onQueue_of_owner ho, State.modQueue_eq]
  by_cases hn : n = 4
  · rw [if_pos hn, Queue.tailWrite_of_stale _ _ (h.resolve_left (not_not.2 hn))]
  · rw [if_neg hn]

/-! ### ENABLE (R61, R67) -/

theorem State.queueLd_of_owner {s : State} {ld q : Nat} (h : s.queueOwner q = some ld) : s.queueLd q = s.ldev ld := by
  rw [State.queueLd, h]
  rfl

@[simp] theorem State.queueLd_setQueue (s : State) (q j : Nat) (x : Queue) : (s.setQueue q x).queueLd j = s.queueLd j := rfl

theorem LogDev.ownsTl_iff (d : LogDev) (k : Nat) : d.ownsTl k = true ↔ d.tlfirst ≤ k ∧ k < d.tlfirst + d.tlcount := by
  simp [LogDev.ownsTl]

/-- A queue's ring, write-back address and context are in order for ENABLE, and it keeps no completion queue (R67, R419). -/
def State.WellSet (s : State) (q : Nat) : Prop :=
  let x := s.queue q
  x.compat = false ∧ (4 ≤ x.logsize ∧ x.logsize ≤ 16) ∧ x.base % 4096 = 0 ∧ x.headwb % 4 = 0 ∧ x.ctx.isSome = true ∧
    (s.queueLd q).featDone = true

/-- Nothing but its timeline speaks against the ENABLE of a well-set queue. -/
theorem State.enableBad_of_wellSet {s : State} {q : Nat} (h : s.WellSet q) :
    s.enableBad q = if (s.queueLd q).ownsTl (s.queue q).tl then none else some 0x42 := by
  obtain ⟨hc, ⟨hl, hl'⟩, hb, hw, hx, hf⟩ := h
  cases ht : (s.queueLd q).ownsTl (s.queue q).tl with
  | false => simp [State.enableBad, hc, hl, hl', hb, hw, ht]
  | true => simp [State.enableBad, hc, hl, hl', hb, hw, ht, hf, Option.isSome_iff_ne_none.1 hx]

theorem State.enableQueue_of_wellSet {s : State} {q : Nat} (h : s.WellSet q) :
    s.enableQueue q = if (s.queueLd q).ownsTl (s.queue q).tl then s.setQueue q { s.queue q with enable := true, state := 1, halt := 0 }
      else s.setQueue q { s.queue q with enable := true, state := 2, halt := 0x42 } := by
  have hset : (s.setQueue q { s.queue q with enable := true, state := 1, halt := 0 }).WellSet q := by
    simpa only [State.WellSet, State.queue_setQueue, State.queueLd_setQueue] using h
  have hbad := State.enableBad_of_wellSet hset
  rw [State.queue_setQueue, State.queueLd_setQueue] at hbad
  rw [State.enableQueue, State.modQueue_eq]
  dsimp only at hbad ⊢
  rw [hbad]
  cases (s.queueLd q).ownsTl (s.queue q).tl with
  | false => simp [State.haltQueue]
  | true => rfl

/-- A queue with the fields of Q.CTL taken from `v`, COMPAT clear. -/
def Queue.configured (x : Queue) (v : Nat) : Queue := { x with compat := false, logsize := bits v 16 5, tl := bits v 0 12 }

/-- While ENABLE is 0 a write of Q.CTL takes every field of it, ENABLE last. -/
theorem State.ctlWrite_of_disabled {s : State} {q v : Nat} (he : (s.queue q).enable = false) (h31 : bit v 31 = true)
    (h30 : bit v 30 = false) : s.ctlWrite q v = (s.setQueue q ((s.queue q).configured v)).enableQueue q := by
  rw [State.ctlWrite]
  dsimp only
  rw [if_neg (by simp [he]), if_pos h31, h30]
  rfl

section

variable {s : State} {ld q v : Nat} (ho : s.queueOwner q = some ld) (he : (s.queue q).enable = false) (h31 : bit v 31 = true)
  (h30 : bit v 30 = false) (hl : 4 ≤ bits v 16 5 ∧ bits v 16 5 ≤ 16) (hb : (s.queue q).base % 4096 = 0)
  (hw : (s.queue q).headwb % 4 = 0) (hx : (s.queue q).ctx.isSome = true) (hf : (s.ldev ld).featDone = true)

include ho he h31 h30 hl hb hw hx hf

/-- A write of Q.CTL that sets ENABLE, and leaves COMPAT clear, on a queue that is off. -/
theorem State.ctlWrite_of_enabling : s.ctlWrite q v =
    if (s.ldev ld).ownsTl (bits v 0 12) then s.setQueue q { (s.queue q).configured v with enable := true, state := 1, halt := 0 }
    else s.setQueue q { (s.queue q).configured v with enable := true, state := 2, halt := 0x42 } := by
  have hset : (s.setQueue q ((s.queue q).configured v)).WellSet q := by
    simp only [State.WellSet, State.queue_setQueue, State.queueLd_setQueue, State.queueLd_of_owner ho]
    exact ⟨rfl, hl, hb, hw, hx, hf⟩
  rw [State.ctlWrite_of_disabled he h31 h30, State.enableQueue_of_wellSet hset, State.queueLd_setQueue, State.queueLd_of_owner ho,
    State.queue_setQueue, State.setQueue_setQueue, State.setQueue_setQueue]
  rfl

theorem queueEnable_of_own_timeline (ht : (s.ldev ld).ownsTl (bits v 0 12) = true) :
    Completes (.queueEnable ld q v) s (· = s.setQueue q { s.queue q with
      compat := false, logsize := bits v 16 5, tl := bits v 0 12, enable := true, state := 1, halt := 0 }) := by
  refine Completes.intro rfl ?_
  rw [State.onQueue_of_owner ho, State.ctlWrite_of_enabling ho he h31 h30 hl hb hw hx hf, if_pos ht]
  rfl

theorem queueEnable_of_other_timeline (ht : (s.ldev ld).ownsTl (bits v 0 12) = false) :
    Completes (.queueEnable ld q v) s fun t => (t.queue q).state = 2 ∧ (t.queue q).halt = 0x42 ∧ (t.queue q).enable = true := by
  refine Completes.intro rfl ?_
  rw [State.onQueue_of_owner ho, State.ctlWrite_of_enabling ho he h31 h30 hl hb hw hx hf, if_neg (by simp [ht]), State.queue_setQueue]
  exact ⟨rfl, rfl, rfl⟩

end

/-! ### ENABLE cleared (R67) -/

@[simp] theorem State.withdrawable_setQueue (s : State) (q j : Nat) (x : Queue) : (s.setQueue q x).withdrawable j = s.withdrawable j := rfl

/-- A queue as clearing ENABLE leaves it. -/
def Queue.disabled (x : Queue) : Queue :=
  { x with enable := false, state := 0, head := 0, tail := 0, cqhead := 0, cqindex := 0, wbDue := false
           table := x.table.filter (·.started) }

theorem State.disableQueue_of_none {s : State} {q : Nat} (h : s.withdrawable q = []) :
    s.disableQueue q = s.setQueue q (s.queue q).disabled := by
  simp only [State.disableQueue, State.modQueue_eq, State.withdrawable_setQueue, h, List.foldl_nil]
  rfl

/-- While ENABLE is 1 a write that changes another field counts as stale; one that clears ENABLE empties the queue all the same. -/
theorem State.ctlWrite_of_disabling {s : State} {q v : Nat} (he : (s.queue q).enable = true) (h31 : bit v 31 = false)
    (hw : s.withdrawable q = []) :
    s.ctlWrite q v = s.setQueue q (s.queue q).disabled ∨ s.ctlWrite q v = s.setQueue q (s.queue q).countStale.disabled := by
  simp only [State.ctlWrite, he, h31, if_true, Bool.false_eq_true, if_false, State.modQueue_eq]
  split
  · right
    rw [State.disableQueue_of_none ((s.withdrawable_setQueue _ _ _).trans hw), State.queue_setQueue, State.setQueue_setQueue]
  · left
    exact State.disableQueue_of_none hw

theorem queueDisable_completes {s : State} {ld q v : Nat} (ho : s.queueOwner q = some ld) (he : (s.queue q).enable = true)
    (h31 : bit v 31 = false) (hw : s.withdrawable q = []) :
    Completes (.queueDisable ld q v) s fun t => (t.queue q).enable = false ∧ (t.queue q).state = 0 ∧ (t.queue q).head = 0 ∧
      (t.queue q).tail = 0 ∧ (t.queue q).table = (s.queue q).table.filter (·.started) ∧ t.gangs = s.gangs := by
  refine Completes.intro rfl ?_
  rw [State.onQueue_of_owner ho]
  rcases State.ctlWrite_of_disabling he h31 hw with h | h
  all_goals
    rw [h, State.queue_setQueue]
    exact ⟨rfl, rfl, rfl, rfl, rfl, rfl⟩

/-! ### Binding a context (R55, R439) -/

/-- A queue whose bind to `v` failed: it has no context. -/
def Queue.unbound (x : Queue) (v : Nat) : Queue := { x with cxb := v, ctx := none }

theorem physOk_iff (a low : Nat) : physOk a low = true ↔ bits a 52 12 = 0x10 ∧ a % low = 0 := by simp [physOk]

theorem State.bindContext_of_bad_address (s : State) (ld q v : Nat) (h : bits v 52 12 ≠ 0x10 ∨ v % 128 ≠ 0) :
    s.bindContext ld q v = s.setQueue q ((s.queue q).unbound v) := by
  have hv : ¬physOk v 128 = true := by rw [physOk_iff]; tauto
  simp only [State.bindContext, if_neg hv]
  rfl

theorem State.bindContext_of_no_record {s : State} {ld v k : Nat} (q : Nat) (ha : bits v 52 12 = 0x10) (hv : v % 128 = 0)
    (hk : s.ctxFor ld (v % 2 ^ 52) = some k) (hy : s.readRecord (s.ctx k) ld k (v % 2 ^ 52) = none) :
    s.bindContext ld q v = s.setQueue q ((s.queue q).unbound v) := by
  simp only [State.bindContext, if_pos ((physOk_iff v 128).2 ⟨ha, hv⟩), physAddr, hk, hy]
  rfl

/-- A context as its record makes it when a queue is bound to it. -/
def Ctx.bindTo (y : Ctx) : Ctx := { y with bound := true, state := if y.state = .unbound then .running else y.state }

theorem State.bindContext_of_record {s : State} {ld v k : Nat} {y : Ctx} (q : Nat) (ha : bits v 52 12 = 0x10) (hv : v % 128 = 0)
    (hk : s.ctxFor ld (v % 2 ^ 52) = some k) (hy : s.readRecord (s.ctx k) ld k (v % 2 ^ 52) = some y) :
    s.bindContext ld q v =
      (if s.isResident k then s else s.setCtx k y.bindTo).setQueue q { s.queue q with cxb := v, ctx := some k } := by
  simp only [State.bindContext, if_pos ((physOk_iff v 128).2 ⟨ha, hv⟩), physAddr, hk, hy]
  cases s.isResident k
  · rfl
  · rfl

theorem contextBind_of_enabled {s : State} {ld q : Nat} (ho : s.queueOwner q = some ld) (he : (s.queue q).enable = true) (v : Nat) :
    Completes (.contextBind ld q v) s (· = s.setQueue q (s.queue q).countStale) := by
  refine Completes.intro rfl ?_
  rw [State.onQueue_of_owner ho, if_pos he, State.modQueue_eq]

theorem contextBind_of_disabled {s : State} {ld q : Nat} (ho : s.queueOwner q = some ld) (he : (s.queue q).enable = false) (v : Nat) :
    exec (.contextBind ld q v) s = .next (s.bindContext ld q v) := by
  show execContextBind ld q v s = _
  rw [execContextBind, State.onQueue_of_owner ho, if_neg (by simp [he])]

theorem contextBind_of_bad_address {s : State} {ld q v : Nat} (ho : s.queueOwner q = some ld) (he : (s.queue q).enable = false)
    (h : bits v 52 12 ≠ 0x10 ∨ v % 128 ≠ 0) : Completes (.contextBind ld q v) s (· = s.setQueue q ((s.queue q).unbound v)) :=
  Completes.intro (contextBind_of_disabled ho he v) (s.bindContext_of_bad_address ld q v h)

theorem contextBind_of_no_record {s : State} {ld q v k : Nat} (ho : s.queueOwner q = some ld) (he : (s.queue q).enable = false)
    (ha : bits v 52 12 = 0x10) (hv : v % 128 = 0) (hk : s.ctxFor ld (v % 2 ^ 52) = some k)
    (hy : s.readRecord (s.ctx k) ld k (v % 2 ^ 52) = none) :
    Completes (.contextBind ld q v) s (· = s.setQueue q ((s.queue q).unbound v)) :=
  Completes.intro (contextBind_of_disabled ho he v) (State.bindContext_of_no_record q ha hv hk hy)

theorem contextBind_of_record {s : State} {ld q v k : Nat} {y : Ctx} (ho : s.queueOwner q = some ld) (he : (s.queue q).enable = false)
    (ha : bits v 52 12 = 0x10) (hv : v % 128 = 0) (hk : s.ctxFor ld (v % 2 ^ 52) = some k)
    (hy : s.readRecord (s.ctx k) ld k (v % 2 ^ 52) = some y) :
    Completes (.contextBind ld q v) s fun t => t.queue q = { s.queue q with cxb := v, ctx := some k } ∧ t.dmem = s.dmem ∧
      t.gangs = s.gangs ∧ (s.isResident k = true → t.ctxs = s.ctxs) ∧ (s.isResident k = false → t.ctx k = y.bindTo) := by
  refine Completes.intro ((contextBind_of_disabled ho he v).trans
    (congrArg Host.Outcome.next (State.bindContext_of_record q ha hv hk hy))) ?_
  cases hr : s.isResident k with
  | false => simp
  | true => simp

/-! ### Completion queues and head write-backs (R64, R80 to R82) -/

theorem cqheadWrite_of_stale {s : State} {ld q v : Nat} (ho : s.queueOwner q = some ld)
    (h : 2 ^ bits (s.queue q).cqctl 12 5 < ((s.queue q).cqindex - BitVec.ofNat 32 v).toNat) :
    Completes (.cqheadWrite ld q v) s (· = s.setQueue q (s.queue q).countStale) := by
  refine Completes.intro rfl ?_
  rw [State.onQueue_of_owner ho, State.modQueue_eq]
  exact congrArg _ (if_pos h)

theorem cqheadWrite_of_taken {s : State} {ld q v : Nat} (ho : s.queueOwner q = some ld)
    (h : ((s.queue q).cqindex - BitVec.ofNat 32 v).toNat ≤ 2 ^ bits (s.queue q).cqctl 12 5) :
    Completes (.cqheadWrite ld q v) s (· = s.setQueue q { s.queue q with cqhead := BitVec.ofNat 32 v }) := by
  refine Completes.intro rfl ?_
  rw [State.onQueue_of_owner ho, State.modQueue_eq]
  exact congrArg _ (if_neg (Nat.not_lt.2 h))

/-- An attempt that needs no answer of a host happens. -/
theorem State.attempting_of_answered (s : State) (w : Asker) (f : State → State) {t : State} (hf : f (s.asking w) = t)
    (hn : Answered s t) : s.attempting w f = { t with hostWho := s.hostWho } := by
  rw [Answered] at hn
  simp only [State.attempting, hf, hn, if_true]

/-- An attempt of nothing changes nothing. -/
theorem State.attempting_of_idle (s : State) (w : Asker) (f : State → State) (hf : f (s.asking w) = s.asking w) :
    s.attempting w f = s := s.attempting_of_answered w f (t := s.asking w) hf rfl

theorem headWriteback_of_stored {s u : State} {q w : Nat} (hw : (s.queue q).ctx = some w) (hd : (s.queue q).wbDue = true)
    (hu : ((s.asking ⟨2 ^ 32, 10, q⟩).modQueue q fun x => { x with wbDue := false }).storeVa fwCore w ((s.queue q).headwb % 2 ^ 57) 4
      (s.queue q).head.toNat = (u, none)) (hn : Answered s u) :
    exec (.headWriteback q) s = .next { u.heard ⟨2 ^ 32, 10, q⟩ with hostWho := s.hostWho } := by
  refine congrArg Host.Outcome.next (s.attempting_of_answered _ _ (t := u.heard ⟨2 ^ 32, 10, q⟩) ?_ hn)
  have hq : (s.asking ⟨2 ^ 32, 10, q⟩).queue q = s.queue q := rfl
  simp only [hq, hw, hd, hu, Bool.not_true, Bool.false_eq_true, if_false]

theorem headWriteback_of_none_due {s : State} {q : Nat} (h : (s.queue q).wbDue = false) : exec (.headWriteback q) s = .next s := by
  refine congrArg Host.Outcome.next (s.attempting_of_idle _ _ ?_)
  have hq : (s.asking ⟨2 ^ 32, 10, q⟩).queue q = s.queue q := rfl
  simp only [hq, h]
  cases (s.queue q).ctx with
  | none => rfl
  | some c => rfl

theorem completionEntryWrite_of_full {s : State} {q e w : Nat} {rest : List Nat} (he : (s.queue q).entries = e :: rest)
    (hw : (s.queue q).ctx = some w)
    (hf : ((s.queue q).cqindex - (s.queue q).cqhead).toNat = 2 ^ bits (s.queue q).cqctl 12 5) :
    exec (.completionEntryWrite q) s = .next s := by
  refine congrArg Host.Outcome.next (s.attempting_of_idle _ _ ?_)
  have hq : (s.asking ⟨2 ^ 32, 11, q⟩).queue q = s.queue q := rfl
  simp only [hq, he, hw]
  exact if_pos hf

/-- A completion entry counted in, and the vector fired once enough are (R82). -/
def State.countEntry (s : State) (q count : Nat) : State :=
  let t := s.modQueue q fun x => { x with cqindex := x.cqindex + 1, cqfresh := x.cqfresh + 1 }
  if count + 1 ≤ (t.queue q).cqfresh then t.fireCq q else t

theorem State.fireCq_spec (s : State) (q : Nat) : (s.fireCq q).queue q = { s.queue q with cqfresh := 0 } ∧
    ((s.fireCq q).dmem = s.dmem ∧ (s.fireCq q).hmem = s.hmem ∧ Answered s (s.fireCq q)) ∧ (s.fireCq q).msix =
      if bits (s.queue q).cqctl 37 11 = 0 then s.msix else s.msix ++ [((s.queueOwner q).getD 16, bits (s.queue q).cqctl 37 11)] := by
  unfold State.fireCq
  dsimp only
  rw [cqVec]
  split
  · exact ⟨s.queue_setQueue q _, ⟨rfl, rfl, rfl⟩, rfl⟩
  · exact ⟨s.queue_setQueue q _, ⟨rfl, rfl, rfl⟩, rfl⟩

theorem State.countEntry_spec (s : State) (q count : Nat) : ((s.countEntry q count).queue q).cqindex = (s.queue q).cqindex + 1 ∧
    (s.countEntry q count).dmem = s.dmem ∧ (s.countEntry q count).hmem = s.hmem ∧ Answered s (s.countEntry q count) := by
  have counted : ((s.modQueue q fun x => { x with cqindex := x.cqindex + 1, cqfresh := x.cqfresh + 1 }).queue q).cqindex =
      (s.queue q).cqindex + 1 := congrArg Queue.cqindex (s.queue_setQueue q _)
  unfold State.countEntry
  dsimp only
  split
  · obtain ⟨hq, hkept, -⟩ := State.fireCq_spec (s.modQueue q fun x => { x with cqindex := x.cqindex + 1, cqfresh := x.cqfresh + 1 }) q
    exact ⟨(congrArg Queue.cqindex hq).trans counted, hkept⟩
  · exact ⟨counted, rfl, rfl, rfl⟩

section

variable {s u : State} {q e w : Nat} {rest : List Nat} (he : (s.queue q).entries = e :: rest) (hw : (s.queue q).ctx = some w)
  (hf : ((s.queue q).cqindex - (s.queue q).cqhead).toNat ≠ 2 ^ bits (s.queue q).cqctl 12 5)
  (hu : ((s.asking ⟨2 ^ 32, 11, q⟩).setQueue q { s.queue q with entries := rest }).storeVa fwCore w
    (((s.queue q).cqbase + 16 * ((s.queue q).cqindex.toNat % 2 ^ bits (s.queue q).cqctl 12 5)) % 2 ^ 57) 16
    (e + if (s.queue q).cqindex.toNat / 2 ^ bits (s.queue q).cqctl 12 5 % 2 = 0 then 2 ^ 127 else 0) = (u, none)) (hn : Answered s u)

include he hw hf hu hn

theorem completionEntryWrite_of_stored : exec (.completionEntryWrite q) s =
    .next { (u.countEntry q (cqCount (s.queue q))).heard ⟨2 ^ 32, 11, q⟩ with hostWho := s.hostWho } := by
  obtain ⟨-, -, -, ha⟩ := u.countEntry_spec q (cqCount (s.queue q))
  have answered : Answered s ((u.countEntry q (cqCount (s.queue q))).heard ⟨2 ^ 32, 11, q⟩) := Eq.trans ha hn
  refine congrArg Host.Outcome.next (s.attempting_of_answered _ _ ?_ answered)
  have hq : (s.asking ⟨2 ^ 32, 11, q⟩).queue q = s.queue q := rfl
  simp only [hw] at hu
  simp only [hq, he, hw, cqLog, if_neg hf, hu]
  rfl

theorem completionEntryWrite_completes : Completes (.completionEntryWrite q) s fun t =>
    (t.queue q).cqindex = (u.queue q).cqindex + 1 ∧ t.dmem = u.dmem ∧ t.hmem = u.hmem := by
  obtain ⟨hi, hd, hh, -⟩ := u.countEntry_spec q (cqCount (s.queue q))
  exact Completes.intro (completionEntryWrite_of_stored he hw hf hu hn) ⟨hi, hd, hh⟩

end

theorem cqCoalesceTimer_of_none {s : State} {q : Nat} (h : (s.queue q).cqfresh = 0) : exec (.cqCoalesceTimer q) s = .next s :=
  congrArg Host.Outcome.next (if_pos h)

theorem cqCoalesceTimer_of_some {s : State} {q : Nat} (h : (s.queue q).cqfresh ≠ 0) :
    Completes (.cqCoalesceTimer q) s fun t => t.queue q = { s.queue q with cqfresh := 0 } ∧ t.msix =
      if bits (s.queue q).cqctl 37 11 = 0 then s.msix else s.msix ++ [((s.queueOwner q).getD 16, bits (s.queue q).cqctl 37 11)] := by
  obtain ⟨hq, -, hm⟩ := s.fireCq_spec q
  exact Completes.intro (congrArg Host.Outcome.next (if_neg h)) ⟨hq, hm⟩

/-! ### The firmware core (R68, R73, R75, R417) -/

theorem fwVisitTimeout_of_running {s : State} (h : s.fw.state = 2) : Completes .fwVisitTimeout s fun t =>
    t.fw.group = (s.fw.group + 1) % 16 ∧ t.fw.taken = [] ∧ t.fw.state = (if s.fw.stopping then 3 else 2) ∧ t.queues = s.queues := by
  refine Completes.intro rfl ?_
  rw [if_neg (not_not.2 h)]
  dsimp only
  split
  · exact ⟨rfl, rfl, rfl, rfl⟩
  · exact ⟨rfl, rfl, h, rfl⟩

theorem fwImemUncorrectable_of_running {s : State} (h : s.fw.state = 2) (addr : Nat) : Completes (.fwImemUncorrectable addr) s fun t =>
    t.fw.state = 3 ∧ t.fw.errValid = true ∧ t.fw.errAddr = if s.fw.errValid then s.fw.errAddr else addr % 2 ^ 18 := by
  refine Completes.intro rfl ?_
  rw [if_neg (not_not.2 h)]
  cases hv : s.fw.errValid with
  | false => exact ⟨rfl, rfl, rfl⟩
  | true => exact ⟨rfl, hv, rfl⟩

theorem fwEvents_of_not_running {s : State} (h : s.fw.state ≠ 2) (addr : Nat) :
    exec .fwVisitTimeout s = .next s ∧ exec (.fwImemUncorrectable addr) s = .next s :=
  ⟨congrArg Host.Outcome.next (if_pos h), congrArg Host.Outcome.next (if_pos h)⟩

theorem queueTableUncorrectable_completes (s : State) (q : Nat) : Completes (.queueTableUncorrectable q) s fun t =>
    (t.queue q).state = 3 ∧ t.grids = s.grids ∧
      ∀ p ∈ (t.queue q).table, p ∈ (s.queue q).table ∧ p.started = true ∧ pktOp p = 2 := by
  refine Completes.intro rfl ?_
  rw [State.modQueue_eq, State.queue_setQueue]
  exact ⟨rfl, rfl, fun p hp => by simpa using hp⟩

/-! ### Reads that clear (R13, R65, R66) -/

@[simp] theorem State.queue_answer (s : State) (v k : Nat) : (s.answer v).queue k = s.queue k := rfl
@[simp] theorem State.ldev_answer (s : State) (v k : Nat) : (s.answer v).ldev k = s.ldev k := rfl
@[simp] theorem State.ctx_answer (s : State) (v k : Nat) : (s.answer v).ctx k = s.ctx k := rfl

theorem qStaleRead_of_owner {s : State} {ld q : Nat} (ho : s.queueOwner q = some ld) : Completes (.qStaleRead ld q) s fun t =>
    t.hostRead = BitVec.ofNat 64 (s.queue q).stale ∧ t.queue q = { s.queue q with stale := 0 } := by
  refine Completes.intro rfl ?_
  rw [if_neg (not_not.2 ho)]
  exact ⟨rfl, s.queue_setQueue q _⟩

theorem nrejRead_eq {s : State} {ld q : Nat} (ho : s.queueOwner q = some ld) :
    exec (.nrejRead ld q) s = .next ((s.setQueue q { s.queue q with nrej := 0 }).answer (s.queue q).stat) := by
  show execNrejRead ld q s = _
  rw [execNrejRead, if_neg (not_not.2 ho)]
  rfl

theorem nrejRead_of_owner {s : State} {ld q : Nat} (ho : s.queueOwner q = some ld) : Completes (.nrejRead ld q) s fun t =>
    t.queue q = { s.queue q with nrej := 0 } ∧ t.hostRead = BitVec.ofNat 64 (s.queue q).stat := by
  refine Completes.intro (nrejRead_eq ho) ⟨?_, State.answer_hostRead _ _⟩
  rw [State.queue_answer, State.queue_setQueue]

theorem tlStaleRead_completes (s : State) (ld : Nat) : Completes (.tlStaleRead ld) s fun t =>
    t.hostRead = BitVec.ofNat 64 (s.ldev ld).tlStale ∧ t.ldev ld = { s.ldev ld with tlStale := 0 } :=
  Completes.intro rfl ⟨rfl, s.ldev_setLdev ld _⟩

theorem LogDev.astat_lt (d : LogDev) : d.astat < 2 ^ 64 := by
  rw [LogDev.astat]
  omega

theorem hostAstatRead_eq (s : State) (ld : Nat) : exec (.hostAstatRead ld) s =
    .next ((s.setLdev ld { s.ldev ld with ur := 0, fallback := 0, unsup := 0, abort := 0 }).answer (s.ldev ld).astat) := by
  show execHostAstatRead ld s = _
  rw [execHostAstatRead, State.modLdev_eq]

theorem hostAstatRead_completes (s : State) (ld : Nat) : Completes (.hostAstatRead ld) s fun t =>
    t.ldev ld = { s.ldev ld with ur := 0, fallback := 0, unsup := 0, abort := 0 } ∧ t.hostRead.toNat = (s.ldev ld).astat := by
  refine Completes.intro (hostAstatRead_eq s ld) ⟨?_, ?_⟩
  · rw [State.ldev_answer, State.ldev_setLdev]
  · rw [State.answer_hostRead, BitVec.toNat_ofNat, Nat.mod_eq_of_lt (s.ldev ld).astat_lt]

theorem State.ownsCtx_of_bound {s : State} {ld c : Nat} (hb : (s.ctx c).bound = true) (hl : (s.ctx c).ld = ld) :
    s.ownsCtx ld c = true := by simp [State.ownsCtx, hb, hl]

theorem fqLostRead_of_owner {s : State} {ld c : Nat} (h : s.ownsCtx ld c = true) : Completes (.fqLostRead ld c) s fun t =>
    t.hostRead = BitVec.ofNat 64 (s.ctx c).fqLost ∧ t.ctx c = { s.ctx c with fqLost := 0 } :=
  Completes.intro (congrArg Host.Outcome.next (if_pos h)) ⟨rfl, s.ctx_setCtx c _⟩

theorem fqSpecRead_of_owner {s : State} {ld c : Nat} (h : s.ownsCtx ld c = true) : Completes (.fqSpecRead ld c) s fun t =>
    t.hostRead = BitVec.ofNat 64 (s.ctx c).fqSpec ∧ t.ctx c = { s.ctx c with fqSpec := 0 } :=
  Completes.intro (congrArg Host.Outcome.next (if_pos h)) ⟨rfl, s.ctx_setCtx c _⟩

theorem notwinRead_eq {s : State} {ld c : Nat} (hb : (s.ctx c).bound = true) (hl : (s.ctx c).ld = ld) :
    exec (.notwinRead ld c) s = .next ((s.setCtx c { s.ctx c with notwin := 0 }).answer (s.ccStat c)) := by
  show execNotwinRead ld c s = _
  rw [execNotwinRead, if_pos ⟨hb, hl⟩]
  rfl

theorem notwinRead_of_owner {s : State} {ld c : Nat} (hb : (s.ctx c).bound = true) (hl : (s.ctx c).ld = ld) :
    Completes (.notwinRead ld c) s fun t =>
      t.hostRead = BitVec.ofNat 64 (s.ccStat c) ∧ t.ctx c = { s.ctx c with notwin := 0 } := by
  refine Completes.intro (notwinRead_eq hb hl) ⟨State.answer_hostRead _ _, ?_⟩
  rw [State.ctx_answer, State.ctx_setCtx]

/-! ### Fetching ahead (R109, R357) -/

section

variable {s u : State} {core c va : Nat} (hk : core < 388) (hb : (s.ctx c).bound = true)

include hk hb

/-- Where the block's address translates, a core fetches it unless an AtomicOp is on its way to its line. -/
theorem State.fetchAhead_of_ok {m : Loc} (ht : State.translateIn { s with hostWho := none } core c (va % 2 ^ 57 / 64 * 64) 3 = (u, .ok m)) :
    s.fetchAhead core c va = if s.atomicHeld m then s else s.modCore core fun k =>
      { k with fetched := k.fetched.filter (fun (x : Nat × Nat × Nat) => x.1 != c || x.2.1 != va % 2 ^ 57 / 64 * 64) ++
        [(c, va % 2 ^ 57 / 64 * 64, s.readLoc m 64)] } := by
  rw [State.fetchAhead, if_neg (by simp [hb, hk]), ht]

/-- Where it does not, and no host is asked, the look-ahead is counted as a miss. -/
theorem State.fetchAhead_of_error {e : FCode × Nat}
    (ht : State.translateIn { s with hostWho := none } core c (va % 2 ^ 57 / 64 * 64) 3 = (u, .error e)) (hn : Answered s u) :
    s.fetchAhead core c va = s.specMiss core c := by
  rw [State.fetchAhead, if_neg (by simp [hb, hk]), ht]
  exact if_pos hn

theorem fetchBlock_of_held {m : Loc} (ht : State.translateIn { s with hostWho := none } core c (va % 2 ^ 57 / 64 * 64) 3 = (u, .ok m))
    (hm : s.atomicHeld m = true) : exec (.fetchBlock core c va) s = .next s :=
  congrArg Host.Outcome.next ((State.fetchAhead_of_ok hk hb ht).trans (if_pos hm))

theorem fetchBlock_of_free {m : Loc} (ht : State.translateIn { s with hostWho := none } core c (va % 2 ^ 57 / 64 * 64) 3 = (u, .ok m))
    (hm : s.atomicHeld m = false) : Completes (.fetchBlock core c va) s fun t =>
      (c, va % 2 ^ 57 / 64 * 64, s.readLoc m 64) ∈ (t.core core).fetched ∧ t.dmem = s.dmem ∧ t.gangs = s.gangs := by
  refine Completes.intro (congrArg Host.Outcome.next ((State.fetchAhead_of_ok hk hb ht).trans (if_neg (by simp [hm])))) ⟨?_, rfl, rfl⟩
  rw [State.modCore_eq, State.core_setCore]
  exact List.mem_append_right _ List.mem_cons_self

theorem fetchBlock_of_error {e : FCode × Nat}
    (ht : State.translateIn { s with hostWho := none } core c (va % 2 ^ 57 / 64 * 64) 3 = (u, .error e)) (hn : Answered s u) :
    Completes (.fetchBlock core c va) s fun t =>
      (t.ctx c).fqSpec = min ((s.ctx c).fqSpec + 1) (2 ^ 32 - 1) ∧ t.dmem = s.dmem ∧ t.gangs = s.gangs :=
  Completes.intro (congrArg Host.Outcome.next (State.fetchAhead_of_error hk hb ht hn))
    ⟨congrArg Ctx.fqSpec (s.ctx_setCtx c _), rfl, rfl⟩

end

/-- Settles O50: its clauses are the lemmas above, one for each event. -/
theorem queueRegisters : Obligations.QueueRegisters := by
  unfold Obligations.QueueRegisters
  intro s ld q v core c va addr
  refine ⟨fun h n => queueWrite_of_other h n v, fun ho => ⟨tailWrite_of_taken ho, tailWrite_of_stale ho, ?enable,
      queueDisable_completes ho, fun he => contextBind_of_enabled ho he v, fun he => contextBind_of_bad_address ho he, ?bind,
      cqheadWrite_of_stale ho, cqheadWrite_of_taken ho, qStaleRead_of_owner ho, nrejRead_of_owner ho⟩,
    fun w u => headWriteback_of_stored, headWriteback_of_none_due,
    fun e rest w => completionEntryWrite_of_full, fun e rest w u => completionEntryWrite_completes,
    cqCoalesceTimer_of_none, cqCoalesceTimer_of_some,
    fun h => ⟨fwVisitTimeout_of_running h, fwImemUncorrectable_of_running h addr⟩, fun h => fwEvents_of_not_running h addr,
    queueTableUncorrectable_completes s q, tlStaleRead_completes s ld, hostAstatRead_completes s ld,
    fun hb hl => ⟨fqLostRead_of_owner (State.ownsCtx_of_bound hb hl), fqSpecRead_of_owner (State.ownsCtx_of_bound hb hl),
      notwinRead_of_owner hb hl⟩,
    fun hk hb => ⟨fun u m ht => ⟨fetchBlock_of_held hk hb ht, fetchBlock_of_free hk hb ht⟩, fun u e => fetchBlock_of_error hk hb⟩⟩
  case enable =>
    intro n k he h31 h30 hl hl' hb hw hx hf
    refine ⟨fun h h' => ?_, fun h => ?_⟩
    · exact queueEnable_of_own_timeline ho he h31 h30 ⟨hl, hl'⟩ hb hw hx hf ((LogDev.ownsTl_iff _ _).2 ⟨h, h'⟩)
    · refine queueEnable_of_other_timeline ho he h31 h30 ⟨hl, hl'⟩ hb hw hx hf (Bool.eq_false_iff.2 fun ht => ?_)
      obtain ⟨h₁, h₂⟩ := (LogDev.ownsTl_iff _ _).1 ht
      omega
  case bind =>
    intro k y he ha hv hk
    exact ⟨contextBind_of_record ho he ha hv hk, contextBind_of_no_record ho he ha hv hk⟩

end Sys2Proof.Machine
end

section
/-! ## PowerWordsAndEvents: requests and returns of power grants, and the controller's events -/

namespace Sys2Proof.Machine

open Sys2Proof.Claims

/-! ### Parking the issuing split, and leaving the active set (R126, R127) -/

/-- A fact that every change of the list sets up holds of each slice listed, named twice or not. -/
theorem Gang.slice_modSlices_of_mem {P : Slice → Prop} (g : Gang) {ks : List Nat} {f : Nat → Slice → Slice}
    (hf : ∀ k x, P (f k x)) {j : Nat} (hj : j ∈ ks) : P ((g.modSlices ks f).slice j) := by
  have later : ∀ (ks : List Nat) (h : Gang), P (h.slice j) → P ((h.modSlices ks f).slice j) := by
    intro ks
    induction ks with
    | nil => exact fun _ h => h
    | cons k ks ih =>
      intro h hp
      refine ih (h.modSlice k (f k)) ?_
      rw [Gang.slice_modSlice]
      split
      · exact hf _ _
      · exact hp
  induction ks generalizing g with
  | nil => cases hj
  | cons k ks ih =>
    rcases List.mem_cons.1 hj with rfl | h
    · refine later ks (g.modSlice j (f j)) ?_
      rw [Gang.slice_modSlice, if_pos rfl]
      exact hf _ _
    · exact ih (g.modSlice k (f k)) h

@[simp] theorem Gang.modSlices_regs (g : Gang) (ks : List Nat) (f : Nat → Slice → Slice) : (g.modSlices ks f).regs = g.regs := by
  induction ks generalizing g with
  | nil => rfl
  | cons k ks ih => exact ih (g.modSlice k (f k))

/-- `t` is `s` with the issuing split parked on `p` at its packet; nothing but the issuing gang has changed, and no register. -/
structure Parks (s t : State) (p : Park) : Prop where
  only : t = s.modCur fun _ => t.cur
  regs : t.cur.regs = s.cur.regs
  parked : ∀ j ∈ s.iss.slices, (t.cur.slice j).park = p ∧ (t.cur.slice j).pc = s.iss.pc

theorem Parks.iss {s t : State} {p : Park} (h : Parks s t p) : t.iss = s.iss := by rw [h.only]; rfl
theorem Parks.teams {s t : State} {p : Park} (h : Parks s t p) : t.teams = s.teams := by rw [h.only]; rfl
theorem Parks.dmem {s t : State} {p : Park} (h : Parks s t p) : t.dmem = s.dmem := by rw [h.only]; rfl
theorem Parks.power {s t : State} {p : Park} (h : Parks s t p) : t.power = s.power := by rw [h.only]; rfl
theorem Parks.hostNeed {s t : State} {p : Park} (h : Parks s t p) : t.hostNeed = s.hostNeed := by rw [h.only]; rfl

theorem Parks.curTeam {s t : State} {p : Park} (h : Parks s t p) : t.curTeam = s.curTeam := by
  rw [State.curTeam, State.teamKey, State.team, h.iss, h.teams]
  rfl

theorem State.parkSplit_parks (s : State) (p : Park) : Parks s (s.parkSplit p) p := by
  rw [State.parkSplit, State.modSlices]
  refine ⟨?_, ?_, fun j hj => ?_⟩
  · rw [State.cur_modCur]
    exact State.modCur_congr _ _ _ rfl
  · rw [State.cur_modCur, Gang.modSlices_regs]
  · rw [State.cur_modCur]
    exact Gang.slice_modSlices_of_mem (P := fun x => x.park = p ∧ x.pc = s.iss.pc) _ (fun _ _ => ⟨rfl, rfl⟩) hj

/-- An event of R127 only adds to what the gang leaves for. -/
theorem State.leaveActive_frame (s : State) (gid : Nat) (why : Leave) :
    ∃ l, s.leaveActive gid why = s.setGang gid { s.gang gid with leaving := l } := by
  rw [State.leaveActive, State.modGang_eq]
  split
  · exact ⟨_, rfl⟩
  · exact ⟨_, rfl⟩

theorem Parks.leaveActive {s t : State} {p : Park} (h : Parks s t p) (why : Leave) :
    Parks s (t.leaveActive s.iss.gid why) p := by
  obtain ⟨l, hl⟩ := t.leaveActive_frame s.iss.gid why
  have he : t.leaveActive s.iss.gid why = s.modCur fun _ => { t.cur with leaving := l } := calc
    _ = t.modCur fun _ => { t.cur with leaving := l } := by rw [hl, ← h.iss]; rfl
    _ = s.modCur fun _ => { t.cur with leaving := l } := by rw [h.only, State.modCur_modCur, ← h.only]
  have hc : (t.leaveActive s.iss.gid why).cur = { t.cur with leaving := l } := by rw [he, State.cur_modCur]
  refine ⟨?_, ?_, fun j hj => ?_⟩
  · rw [hc, he]
  · rw [hc]
    exact h.regs
  · rw [hc]
    exact h.parked j hj

/-! ### Requests (R98, R148) -/

theorem Team.holds_of_grant {t : Team} {g cls : Nat} (h : t.grant = some g) : t.holds cls = decide (cls ≤ g) := by
  simp only [Team.holds, h]

theorem Team.holds_eq_false {t : Team} {cls : Nat} (h : ∀ g, t.grant = some g → g < cls) : t.holds cls = false := by
  cases hg : t.grant with
  | none => simp only [Team.holds, hg]
  | some g => simpa [Team.holds_of_grant hg] using h g hg

/-- A request changes the teams and the controller alone. -/
theorem State.askPower_frame (s : State) (team cls : Nat) :
    ∃ teams power, s.askPower team cls = { s with teams := teams, power := power } := by
  rw [State.askPower]
  split
  · exact ⟨_, _, rfl⟩
  · exact ⟨_, _, rfl⟩

theorem State.askPower_request (s : State) (team cls : Nat) :
    ((s.askPower team cls).team team).request = some (max cls ((s.team team).request.getD 0)) := by
  rw [State.askPower]
  split
  · next c hc =>
    rw [hc, Option.getD_some, max_comm]
    exact congrArg Team.request (s.team_setTeam team _)
  · next hc =>
    rw [hc, Option.getD_none, Nat.max_zero]
    exact congrArg Team.request (s.team_setTeam team _)

/-- A team with no request pending gives up its grant and comes last in the controller's list. -/
theorem State.askPower_of_none {s : State} {team : Nat} (h : (s.team team).request = none) (cls : Nat) :
    ((s.askPower team cls).team team).grant = none ∧ (s.askPower team cls).power.fifo = s.power.fifo ++ [(team, cls)] := by
  rw [State.askPower, h]
  exact ⟨congrArg Team.grant (s.team_setTeam team _), rfl⟩

theorem State.requestPower_of_no_lanes {s : State} (h : s.lanes = []) (cls : Nat) (yield : Bool) :
    s.requestPower cls yield = s := by
  rw [State.requestPower, if_pos (.inl (by simp [h]))]

theorem State.requestPower_of_holds {s : State} {cls : Nat} (h : s.curTeam.holds cls = true) (yield : Bool) :
    s.requestPower cls yield = s := by
  rw [State.requestPower, if_pos (.inr h)]

theorem State.requestPower_parks {s : State} {cls : Nat} (hl : s.lanes ≠ []) (hh : s.curTeam.holds cls = false) (yield : Bool) :
    Parks (s.askPower s.teamKey cls) (s.requestPower cls yield) (.pwreq cls) := by
  have hp := (s.askPower s.teamKey cls).parkSplit_parks (.pwreq cls)
  rw [State.requestPower, if_neg (by simp [hl, hh])]
  cases yield with
  | false => exact hp
  | true =>
    simp only [if_true]
    rw [hp.iss]
    exact hp.leaveActive _

/-! ### The words (R148, R149) -/

theorem admits_of_checks {i : Instr} {s : State} (hi : illegalAt i s = false) (hv : vregsOf i = []) (hs : spaceFault i s = none) :
    Admits i s := by
  simp [Admits, wordFault, regRangeAt, hi, hv, hs]

/-- `p0` alone, which names no class, makes a request illegal; the firmware core may make one like any other (R71, R148). -/
theorem illegalAt_pwreq {c : PReg} (h : c.val ≠ 0) (s : State) :
    illegalAt (.pwreq c) s = false ∧ illegalAt (.pwreqYield c) s = false := by
  have hc : (!(c.val != 0) || false || (s.coreKey == fwCore && false) || false || false) = false := by simp [h]
  exact ⟨hc, hc⟩

theorem illegalAt_pwrel (s : State) : illegalAt .pwrel s = false := by
  show (!true || false || (s.coreKey == fwCore && false) || false || false) = false
  simp

/-- No word of the power controller is privileged or names a space (R120, R212). -/
theorem spaceFault_power (c : PReg) (s : State) :
    spaceFault (.pwreq c) s = none ∧ spaceFault (.pwreqYield c) s = none ∧ spaceFault .pwrel s = none := by
  have hn : (if false = true ∧ (!s.iss.sup) = true then some { code := .protect } else none : Option FInfo) = none :=
    if_neg fun p => Bool.false_ne_true p.1
  exact ⟨hn, hn, hn⟩

theorem admits_pwreq {c : PReg} (h : c.val ≠ 0) (s : State) : Admits (.pwreq c) s ∧ Admits (.pwreqYield c) s := by
  obtain ⟨hi, hi'⟩ := illegalAt_pwreq h s
  obtain ⟨hs, hs', -⟩ := spaceFault_power c s
  exact ⟨admits_of_checks hi rfl hs, admits_of_checks hi' rfl hs'⟩

theorem admits_pwrel (s : State) : Admits .pwrel s := by
  obtain ⟨-, -, hs⟩ := spaceFault_power 0 s
  exact admits_of_checks (illegalAt_pwrel s) rfl hs

theorem State.requestPower_answered (s : State) (cls : Nat) (yield : Bool) : Answered s (s.requestPower cls yield) := by
  rw [Answered]
  by_cases hl : s.lanes = []
  · rw [State.requestPower_of_no_lanes hl]
  · cases hh : s.curTeam.holds cls with
    | true => rw [State.requestPower_of_holds hh]
    | false =>
      obtain ⟨teams, power, e⟩ := s.askPower_frame s.teamKey cls
      rw [(State.requestPower_parks hl hh yield).hostNeed, e]

theorem exec_pwreq {c : PReg} (h : c.val ≠ 0) (s : State) : exec (.pwreq c) s = .next (s.requestPower c.val false) ∧
    exec (.pwreqYield c) s = .next (s.requestPower c.val true) := by
  obtain ⟨ha, ha'⟩ := admits_pwreq h s
  exact ⟨guard_of_admits ha (·.requestPower c.val false) (s.requestPower_answered _ _),
    guard_of_admits ha' (·.requestPower c.val true) (s.requestPower_answered _ _)⟩

/-- A team that holds the class goes on at once, and so does a split with no active lane. -/
theorem State.requestPower_goes_on {s : State} {cls : Nat} (h : s.lanes = [] ∨ ∃ g, s.curTeam.grant = some g ∧ cls ≤ g)
    (yield : Bool) : s.requestPower cls yield = s := by
  obtain hl | ⟨g, hg, hc⟩ := h
  · exact State.requestPower_of_no_lanes hl cls yield
  · exact State.requestPower_of_holds ((Team.holds_of_grant hg).trans (decide_eq_true hc)) yield

/-- A team that does not hold the class asks and parks, by `pwreq` and by its yielding form alike. -/
theorem completes_of_requestPower {s : State} {i : Instr} {cls : Nat} {yield : Bool}
    (hi : exec i s = .next (s.requestPower cls yield)) (hl : s.lanes ≠ []) (hg : ∀ g, s.curTeam.grant = some g → g < cls) :
    Completes i s fun t =>
      (∀ j ∈ s.iss.slices, (t.cur.slice j).park = .pwreq cls ∧ (t.cur.slice j).pc = s.iss.pc) ∧
      t.curTeam.request = some (max cls (s.curTeam.request.getD 0)) ∧ t.cur.regs = s.cur.regs ∧ t.dmem = s.dmem ∧
      (s.curTeam.request = none → t.curTeam.grant = none ∧ t.power.fifo = s.power.fifo ++ [(s.teamKey, cls)]) := by
  have hp := State.requestPower_parks hl (Team.holds_eq_false hg) yield
  obtain ⟨teams, power, e⟩ := s.askPower_frame s.teamKey cls
  have hi' : (s.askPower s.teamKey cls).iss = s.iss := by rw [e]
  have hc : (s.askPower s.teamKey cls).cur = s.cur := by rw [e]; rfl
  have ht : (s.requestPower cls yield).curTeam = (s.askPower s.teamKey cls).team s.teamKey := by
    rw [hp.curTeam, State.curTeam]
    exact congrArg (fun q => (s.askPower s.teamKey cls).team (gidTeam q.gid)) hi'
  refine Completes.intro hi ⟨?_, ?_, ?_, ?_, fun hn => ?_⟩
  · have hs := hp.parked
    rwa [hi'] at hs
  · rw [ht]
    exact s.askPower_request _ _
  · rw [hp.regs, hc]
  · rw [hp.dmem, e]
  · rw [ht, hp.power]
    exact State.askPower_of_none hn cls

theorem pwrel_completes {s : State} (hl : s.lanes ≠ []) :
    Completes .pwrel s fun t => t = s.modTeam s.teamKey fun x => { x with grant := none } := by
  refine Completes.intro ?_ rfl
  show execPwrel s = _
  rw [execPwrel, guard_of_admits (admits_pwrel s)]
  · exact congrArg Host.Outcome.next (if_neg (by simp [hl]))
  · exact (congrArg State.hostNeed (if_neg (by simp [hl]))).trans rfl

theorem powerRequests : Claims.PowerRequests := by
  intro s c hc
  obtain ⟨he, he'⟩ := exec_pwreq hc s
  refine ⟨fun h => ⟨?_, ?_⟩, fun hl hg i hi => ?_, pwrel_completes⟩
  · rw [he, State.requestPower_goes_on h]
  · rw [he', State.requestPower_goes_on h]
  · rcases List.mem_pair.1 hi with rfl | rfl
    · exact completes_of_requestPower he hl hg
    · exact completes_of_requestPower he' hl hg

/-! ### The controller's events (R97 to R99) -/

theorem powerGrant_of_empty {s : State} (h : s.power.fifo = []) : exec .powerGrant s = .next s := by
  show execPowerGrant s = _
  rw [execPowerGrant, h]

section

variable {s : State} {team c : Nat} {rest : List (Nat × Nat)} (h : s.power.fifo = (team, c) :: rest)

include h

theorem powerGrant_of_oldest : exec .powerGrant s = .next (if s.power.pool < s.granted + allowance c then s else
    ({ s with power := { s.power with fifo := rest } } : State).modTeam team fun t => { t with grant := some c, request := none }) := by
  show execPowerGrant s = _
  rw [execPowerGrant, h]

theorem powerGrant_of_over (ho : s.power.pool < s.granted + allowance c) : exec .powerGrant s = .next s := by
  rw [powerGrant_of_oldest h, if_pos ho]

theorem powerGrant_of_fits (hf : s.granted + allowance c ≤ s.power.pool) : Completes .powerGrant s fun t =>
    t.power.fifo = rest ∧ (t.team team).grant = some c ∧ (t.team team).request = none ∧ t.gangs = s.gangs ∧ t.dmem = s.dmem := by
  refine Completes.intro (powerGrant_of_oldest h) ?_
  rw [if_neg (Nat.not_lt.2 hf), State.modTeam_eq, State.team_setTeam]
  exact ⟨rfl, rfl, rfl, rfl, rfl⟩

end

theorem powerEvents : Claims.PowerEvents := fun _ _ _ _ =>
  ⟨powerGrant_of_empty, powerGrant_of_fits, powerGrant_of_over, Completes.intro rfl rfl, Completes.intro rfl rfl⟩

/-- Settles O32: requests and returns by the one lemma on `State.requestPower`, the grants by whether the oldest request fits. -/
theorem powerWordsAndEvents : Obligations.PowerWordsAndEvents := ⟨powerRequests, powerEvents⟩

end Sys2Proof.Machine
end

section
/-! ## Fields of instruction words

How the fields of a word make it up, and what the fields of a word put together in one of the formats of R110 hold. -/

namespace Sys2Proof

/-! ### Fields of any word -/

theorem fld_lt (w lo n : Nat) : fld w lo n < 2 ^ n := Nat.mod_lt _ (Nat.two_pow_pos n)

/-- The low bits of a field. -/
theorem fld_low {w lo m v : Nat} (n : Nat) (h : fld w lo m = v) (hn : n ≤ m) : fld w lo n = v % 2 ^ n := by
  rw [← h, fld, fld, Nat.mod_mod_of_dvd _ (Nat.pow_dvd_pow 2 hn)]

/-- The bits of a field above its low `n`. -/
theorem fld_high {w lo m v : Nat} (n : Nat) (h : fld w lo m = v) (hn : n ≤ m) : fld w (lo + n) (m - n) = v / 2 ^ n := by
  rw [← h, fld, fld, Nat.pow_add, ← Nat.div_div_eq_div_mul, ← Nat.mod_mul_right_div_self, ← Nat.pow_add, Nat.add_sub_cancel' hn]

/-- Two fields side by side. -/
theorem fld_join {w lo n m u v : Nat} (h : fld w lo n = u) (h' : fld w (lo + n) m = v) : fld w lo (n + m) = u + 2 ^ n * v := by
  rw [← h, ← h', fld, fld, fld, Nat.pow_add, Nat.mod_mul, Nat.pow_add, Nat.div_div_eq_div_mul]

@[simp] theorem fS_val (w lo : Nat) : (fS w lo).val = fld w lo 6 := by simp [fS, fld, Fin.ofNat]
@[simp] theorem fV_val (w lo : Nat) : (fV w lo).val = fld w lo 7 := by simp [fV, fld, Fin.ofNat]
@[simp] theorem fA_val (w lo : Nat) : (fA w lo).val = fld w lo 4 := by simp [fA, fld, Fin.ofNat]
@[simp] theorem fP_val (w lo : Nat) : (fP w lo).val = fld w lo 3 := by simp [fP, fld, Fin.ofNat]

theorem fS_eq {w lo : Nat} {x : Fin 64} (h : fld w lo 6 = x.val) : fS w lo = x := Fin.ext ((fS_val w lo).trans h)
theorem fV_eq {w lo : Nat} {x : VReg} (h : fld w lo 7 = x.val) : fV w lo = x := Fin.ext ((fV_val w lo).trans h)
theorem fA_eq {w lo : Nat} {x : AReg} (h : fld w lo 4 = x.val) : fA w lo = x := Fin.ext ((fA_val w lo).trans h)
theorem fP_eq {w lo : Nat} {x : Fin 8} (h : fld w lo 3 = x.val) : fP w lo = x := Fin.ext ((fP_val w lo).trans h)

/-- A predicate that stands in a wider field. -/
theorem fP_eq_of_field {w lo m : Nat} {x : Fin 8} (h : fld w lo m = x.val) (hm : 3 ≤ m) : fP w lo = x :=
  fP_eq ((fld_low 3 h hm).trans (Nat.mod_eq_of_lt x.isLt))

/-- The rest of a field that holds a predicate is zero. -/
theorem fld_above_pred {w lo m : Nat} {x : Fin 8} (h : fld w lo m = x.val) (hm : 3 ≤ m) : fld w (lo + 3) (m - 3) = 0 :=
  (fld_high 3 h hm).trans (Nat.div_eq_of_lt x.isLt)

/-! ### A word put together in a format of R110, and its fields

`c` is the part that no operand stands in: the major opcode with the function, flags or codes. -/

/-- VV and VX (R114 to R116). -/
theorem fields_VV {w c : Nat} (d a b : Nat) (hw : c + d * 0x4000 + a * 0x80 + b = w) (hc : c % 0x200000 = 0)
    (hd : d < 128 := by omega) (ha : a < 128 := by omega) (hb : b < 128 := by omega) :
    fld w 25 6 = c / 0x2000000 % 64 ∧ fld w 21 4 = c / 0x200000 % 16 ∧ fld w 14 7 = d ∧ fld w 7 7 = a ∧ fld w 0 7 = b := by
  unfold fld; omega

/-- VV and VX with a code `k` for the function. -/
theorem fields_VV_code {w c : Nat} (k d a b : Nat) (hw : c + k * 0x200000 + d * 0x4000 + a * 0x80 + b = w)
    (hc : c % 0x2000000 = 0) (hk : k < 16 := by omega) (hd : d < 128 := by omega) (ha : a < 128 := by omega)
    (hb : b < 128 := by omega) :
    fld w 25 6 = c / 0x2000000 % 64 ∧ fld w 21 4 = k ∧ fld w 14 7 = d ∧ fld w 7 7 = a ∧ fld w 0 7 = b := by
  unfold fld; omega

/-- SS and SL, and the timeline words (R113, R119). -/
theorem fields_SS {w c : Nat} (d a b : Nat) (hw : c + d * 0x2000 + a * 0x80 + b * 0x2 = w) (hc : c % 0x80000 = 0)
    (hd : d < 64 := by omega) (ha : a < 64 := by omega) (hb : b < 64 := by omega) :
    fld w 25 6 = c / 0x2000000 % 64 ∧ fld w 19 6 = c / 0x80000 % 64 ∧ fld w 13 6 = d ∧ fld w 7 6 = a ∧ fld w 1 6 = b ∧
    fld w 0 1 = 0 ∧ fld w 0 7 = b * 2 ∧ fld w 0 13 = a * 0x80 + b * 2 := by
  unfold fld; omega

/-- AF, and the predicate words (R113). -/
theorem fields_AF {w c : Nat} (d a b i : Nat) (hw : c + d * 0x20000 + a * 0x2000 + b * 0x80 + i = w) (hc : c % 0x200000 = 0)
    (hd : d < 16 := by omega) (ha : a < 16 := by omega) (hb : b < 64 := by omega) (hi : i < 128 := by omega) :
    fld w 25 6 = c / 0x2000000 % 64 ∧ fld w 21 4 = c / 0x200000 % 16 ∧ fld w 17 4 = d ∧ fld w 13 4 = a ∧ fld w 7 6 = b ∧
    fld w 0 7 = i := by
  unfold fld; omega

/-- MM (R117). -/
theorem fields_MM {w c : Nat} (d a v s : Nat) (hw : c + d * 0x4000 + a * 0x400 + v * 0x8 + s = w) (hc : c % 0x200000 = 0)
    (hd : d < 128 := by omega) (ha : a < 16 := by omega) (hv : v < 128 := by omega) (hs : s < 8 := by omega) :
    fld w 25 6 = c / 0x2000000 % 64 ∧ fld w 21 4 = c / 0x200000 % 16 ∧ fld w 14 7 = d ∧ fld w 10 4 = a ∧ fld w 3 7 = v ∧
    fld w 0 3 = s := by
  unfold fld; omega

/-- MM with a code `k` for the function. -/
theorem fields_MM_code {w c : Nat} (k d a v s : Nat) (hw : c + k * 0x200000 + d * 0x4000 + a * 0x400 + v * 0x8 + s = w)
    (hc : c % 0x2000000 = 0) (hk : k < 16 := by omega) (hd : d < 128 := by omega) (ha : a < 16 := by omega)
    (hv : v < 128 := by omega) (hs : s < 8 := by omega) :
    fld w 25 6 = c / 0x2000000 % 64 ∧ fld w 21 4 = k ∧ fld w 14 7 = d ∧ fld w 10 4 = a ∧ fld w 3 7 = v ∧ fld w 0 3 = s := by
  unfold fld; omega

/-- EN (R118); `c` holds the flags too, but for those in `k`. -/
theorem fields_EN {w c : Nat} (x a b e k : Nat) (hw : c + x * 0x400000 + a * 0x10000 + b * 0x400 + e * 0x10 + k = w)
    (hc : c % 0x2000000 + k < 16 := by omega) (hx : x < 8 := by omega) (ha : a < 64 := by omega) (hb : b < 64 := by omega)
    (he : e < 64 := by omega) :
    fld w 25 6 = c / 0x2000000 % 64 ∧ fld w 22 3 = x ∧ fld w 16 6 = a ∧ fld w 10 6 = b ∧ fld w 4 6 = e ∧
    fld w 0 4 = c % 0x2000000 + k := by
  unfold fld; omega

/-- BR (R119). -/
theorem fields_BR {w c : Nat} (p o : Nat) (hw : c + p * 0x80000 + o = w) (hc : c % 0x400000 = 0) (hp : p < 8 := by omega)
    (ho : o < 0x80000 := by omega) :
    fld w 25 6 = c / 0x2000000 % 64 ∧ fld w 22 3 = c / 0x400000 % 8 ∧ fld w 19 3 = p ∧ fld w 0 19 = o := by
  unfold fld; omega

/-- SY (R119, R120). -/
theorem fields_SY {w c : Nat} (s i : Nat) (hw : c + s * 0x800 + i = w) (hc : c % 0x20000 = 0) (hs : s < 64 := by omega)
    (hi : i < 0x800 := by omega) :
    fld w 25 6 = c / 0x2000000 % 64 ∧ fld w 17 8 = c / 0x20000 % 256 ∧ fld w 11 6 = s ∧ fld w 0 11 = i ∧
    fld w 0 17 = i + s * 0x800 := by
  unfold fld; omega

end Sys2Proof
end

section
/-! ## Encoding, then decoding

Each constructor's word is put together in its format, and the decoder reads its fields back. -/

namespace Sys2Proof

/-! ### The decoder's tables by major opcode (R112) -/

theorem decodeWord_scalarRegister {w : Nat} (lit : W32) (h : fld w 25 6 = 0x00) : decodeWord w lit = decodeScalarRegister w := by
  delta decodeWord; rw [h]; rfl

theorem decodeWord_sli {w : Nat} (lit : W32) (h : fld w 25 6 = 0x01) : decodeWord w lit = decodeSli w := by
  delta decodeWord; rw [h]; rfl

theorem decodeWord_slit {w : Nat} (lit : W32) (h : fld w 25 6 = 0x02) : decodeWord w lit = decodeSlit w lit := by
  delta decodeWord; rw [h]; rfl

theorem decodeWord_affine {w : Nat} (lit : W32) (h : fld w 25 6 = 0x08) : decodeWord w lit = decodeAffine w := by
  delta decodeWord; rw [h]; rfl

theorem decodeWord_predicate {w : Nat} (lit : W32) (h : fld w 25 6 = 0x09) : decodeWord w lit = decodePredicate w := by
  delta decodeWord; rw [h]; rfl

theorem decodeWord_vectorArithVV {w : Nat} (lit : W32) (h : fld w 25 6 = 0x10) : decodeWord w lit = decodeVectorArithVV w := by
  delta decodeWord; rw [h]; rfl

theorem decodeWord_vectorArithVX {w : Nat} (lit : W32) (h : fld w 25 6 = 0x11) : decodeWord w lit = decodeVectorArithVX w := by
  delta decodeWord; rw [h]; rfl

theorem decodeWord_vectorLogicVV {w : Nat} (lit : W32) (h : fld w 25 6 = 0x12) : decodeWord w lit = decodeVectorLogicVV w := by
  delta decodeWord; rw [h]; rfl

theorem decodeWord_vectorLogicVX {w : Nat} (lit : W32) (h : fld w 25 6 = 0x13) : decodeWord w lit = decodeVectorLogicVX w := by
  delta decodeWord; rw [h]; rfl

theorem decodeWord_vcmpVV {w : Nat} (lit : W32) (h : fld w 25 6 = 0x14) : decodeWord w lit = decodeVcmpVV w := by
  delta decodeWord; rw [h]; rfl

theorem decodeWord_vcmpVX {w : Nat} (lit : W32) (h : fld w 25 6 = 0x15) : decodeWord w lit = decodeVcmpVX w := by
  delta decodeWord; rw [h]; rfl

theorem decodeWord_crossLaneVV {w : Nat} (lit : W32) (h : fld w 25 6 = 0x16) : decodeWord w lit = decodeCrossLaneVV w := by
  delta decodeWord; rw [h]; rfl

theorem decodeWord_crossLaneVX {w : Nat} (lit : W32) (h : fld w 25 6 = 0x17) : decodeWord w lit = decodeCrossLaneVX w := by
  delta decodeWord; rw [h]; rfl

theorem decodeWord_float {w : Nat} (lit : W32) (h : fld w 25 6 ∈ [0x18, 0x19, 0x1a]) : decodeWord w lit = decodeFloat w := by
  simp only [List.mem_cons, List.not_mem_nil, or_false] at h
  rcases h with h | h | h <;> delta decodeWord <;> rw [h] <;> rfl

theorem decodeWord_fcmp {w : Nat} (lit : W32) (h : fld w 25 6 = 0x1b) : decodeWord w lit = decodeFcmp w := by
  delta decodeWord; rw [h]; rfl

theorem decodeWord_cvt {w : Nat} (lit : W32) (h : fld w 25 6 = 0x1c) : decodeWord w lit = decodeCvt w := by
  delta decodeWord; rw [h]; rfl

theorem decodeWord_cvtp {w : Nat} (lit : W32) (h : fld w 25 6 = 0x1d) : decodeWord w lit = decodeCvtp w := by
  delta decodeWord; rw [h]; rfl

theorem decodeWord_global {w : Nat} (lit : W32) (h : fld w 25 6 = 0x20) : decodeWord w lit = decodeGlobal w := by
  delta decodeWord; rw [h]; rfl

theorem decodeWord_window {w : Nat} (lit : W32) (h : fld w 25 6 = 0x21) : decodeWord w lit = decodeWindow w := by
  delta decodeWord; rw [h]; rfl

theorem decodeWord_local {w : Nat} (lit : W32) (h : fld w 25 6 = 0x22) : decodeWord w lit = decodeLocal w := by
  delta decodeWord; rw [h]; rfl

theorem decodeWord_atomGlobal32 {w : Nat} (lit : W32) (h : fld w 25 6 = 0x23) : decodeWord w lit = decodeAtomGlobal32 w := by
  delta decodeWord; rw [h]; rfl

theorem decodeWord_atomGlobal64 {w : Nat} (lit : W32) (h : fld w 25 6 = 0x24) : decodeWord w lit = decodeAtomGlobal64 w := by
  delta decodeWord; rw [h]; rfl

theorem decodeWord_atomLocal32 {w : Nat} (lit : W32) (h : fld w 25 6 = 0x25) : decodeWord w lit = decodeAtomLocal32 w := by
  delta decodeWord; rw [h]; rfl

theorem decodeWord_atomLocal64 {w : Nat} (lit : W32) (h : fld w 25 6 = 0x26) : decodeWord w lit = decodeAtomLocal64 w := by
  delta decodeWord; rw [h]; rfl

theorem decodeWord_fabric {w : Nat} (lit : W32) (h : fld w 25 6 = 0x27) : decodeWord w lit = decodeFabric w := by
  delta decodeWord; rw [h]; rfl

theorem decodeWord_copy {w : Nat} (lit : W32) (h : fld w 25 6 = 0x28) : decodeWord w lit = decodeCopy w := by
  delta decodeWord; rw [h]; rfl

theorem decodeWord_copyOther {w : Nat} (lit : W32) (h : fld w 25 6 = 0x29) : decodeWord w lit = decodeCopyOther w := by
  delta decodeWord; rw [h]; rfl

theorem decodeWord_matrix {w : Nat} (lit : W32) (h : fld w 25 6 = 0x2a) : decodeWord w lit = decodeMatrix w := by
  delta decodeWord; rw [h]; rfl

theorem decodeWord_stream {w : Nat} (lit : W32) (h : fld w 25 6 = 0x2b) : decodeWord w lit = decodeStream w := by
  delta decodeWord; rw [h]; rfl

theorem decodeWord_collective {w : Nat} (lit : W32) (h : fld w 25 6 = 0x2c) : decodeWord w lit = decodeCollective w := by
  delta decodeWord; rw [h]; rfl

theorem decodeWord_search {w : Nat} (lit : W32) (h : fld w 25 6 = 0x2d) : decodeWord w lit = decodeSearch w := by
  delta decodeWord; rw [h]; rfl

theorem decodeWord_control {w : Nat} (lit : W32) (h : fld w 25 6 = 0x30) : decodeWord w lit = decodeControl w := by
  delta decodeWord; rw [h]; rfl

theorem decodeWord_waitcnt {w : Nat} (lit : W32) (h : fld w 25 6 = 0x31) : decodeWord w lit = decodeWaitcnt w := by
  delta decodeWord; rw [h]; rfl

theorem decodeWord_branch {w : Nat} (lit : W32) (h : fld w 25 6 = 0x32) : decodeWord w lit = decodeBranch w := by
  delta decodeWord; rw [h]; rfl

theorem decodeWord_barrier {w : Nat} (lit : W32) (h : fld w 25 6 = 0x33) : decodeWord w lit = decodeBarrier w := by
  delta decodeWord; rw [h]; rfl

theorem decodeWord_timeline {w : Nat} (lit : W32) (h : fld w 25 6 = 0x34) : decodeWord w lit = decodeTimeline w := by
  delta decodeWord; rw [h]; rfl

theorem decodeWord_system {w : Nat} (lit : W32) (h : fld w 25 6 = 0x38) : decodeWord w lit = decodeSystem w := by
  delta decodeWord; rw [h]; rfl

theorem decodeWord_firmware {w : Nat} (lit : W32) (h : fld w 25 6 = 0x3e) : decodeWord w lit = decodeFirmware w := by
  delta decodeWord; rw [h]; rfl

/-! ### Forms and literals -/

theorem formed_of_wf {i : Instr} (h : i.wf = true) : formed i = .ok i := if_pos h

/-- The literal of an SL word (R103). -/
def Instr.literals : Instr → List W32
  | .slit _ l | .slitN32 _ l => [l]
  | _ => []

end Sys2Proof
end

section
/-! ## Encoding, then decoding: words with a layout of their own -/

namespace Sys2Proof

theorem decodeWord_encodeWord_sadd {w : Nat} (d a b : SReg) (lit : W32) (wf : (Instr.sadd d a b).wf = true)
    (hw : encodeWord (.sadd d a b) = w) : decodeWord w lit = .ok (.sadd d a b) := by
  obtain ⟨hm, hf, hd, ha, hb, hz, -⟩ := fields_SS d a b hw rfl
  have hv : ¬(d.val = 0 ∧ a.val = 0 ∧ b.val = 0) := by
    simpa only [Bool.not_eq_true', Bool.and_eq_false_iff, beq_eq_false_iff_ne, ← not_and_or, and_assoc] using
      (show (!(d.val == 0 && a.val == 0 && b.val == 0)) = true from wf)
  have hne : fld w 0 31 ≠ 0 := fun h0 => hv
    ⟨hd.symm.trans (by unfold fld at *; omega), ha.symm.trans (by unfold fld at *; omega), hb.symm.trans (by unfold fld at *; omega)⟩
  rw [decodeWord_scalarRegister lit hm, decodeScalarRegister, hf, hz, fS_eq hd, fS_eq ha, fS_eq hb]
  exact if_neg hne

theorem decodeWord_encodeWord_sli {w : Nat} (d : SReg) (i : BitVec 13) (lit : W32) (hw : encodeWord (.sli d i) = w) :
    decodeWord w lit = .ok (.sli d i) := by
  replace hw : 0x2000000 + d.val * 0x80000 + i.toNat = w := hw
  obtain ⟨hm, hd, hz, hi⟩ : fld w 25 6 = 0x01 ∧ fld w 19 6 = d ∧ fld w 13 6 = 0 ∧ fld w 0 13 = i.toNat := by unfold fld; omega
  rw [decodeWord_sli lit hm, decodeSli, hz, fS_eq hd, hi, BitVec.ofNat_toNat, BitVec.setWidth_eq]
  rfl

theorem decodeVectorLogicVV_vsel {w : Nat} (h : 9 ≤ fld w 21 4) :
    decodeVectorLogicVV w = .ok (.vsel (fP w 21) (fV w 14) (fV w 7) (fV w 0)) := by
  have hlt := fld_lt w 21 4
  unfold decodeVectorLogicVV
  generalize fld w 21 4 = n at h hlt
  interval_cases n <;> rfl

theorem decodeWord_encodeWord_vsel {w : Nat} (p : PReg) (d a b : VReg) (lit : W32) (wf : (Instr.vsel p d a b).wf = true)
    (hw : encodeWord (.vsel p d a b) = w) : decodeWord w lit = .ok (.vsel p d a b) := by
  have hp : p.val ≠ 0 := by simpa using (show (p.val != 0) = true from wf)
  replace hw : 0x25000000 + p.val * 0x200000 + d.val * 0x4000 + a.val * 0x80 + b.val = w := hw
  obtain ⟨hm, hf, hp, hd, ha, hb⟩ : fld w 25 6 = 0x12 ∧ 9 ≤ fld w 21 4 ∧ fld w 21 3 = p ∧ fld w 14 7 = d ∧ fld w 7 7 = a ∧
      fld w 0 7 = b := by unfold fld; omega
  rw [decodeWord_vectorLogicVV lit hm, decodeVectorLogicVV_vsel hf, fP_eq hp, fV_eq hd, fV_eq ha, fV_eq hb]

theorem decodeWord_encodeWord_fcmp {w : Nat} (c : FCond) (t : FType) (p : PReg) (a b : VReg) (lit : W32)
    (hw : encodeWord (.fcmp c t p a b) = w) : decodeWord w lit = .ok (.fcmp c t p a b) := by
  replace hw : 0x36000000 + c.code * 0x200000 + t.code * 0x20000 + p.val * 0x4000 + a.val * 0x80 + b.val = w := hw
  have hc := c.code_le
  have ht := t.code_le
  obtain ⟨hm, hc, hz, ht, hp, ha, hb⟩ : fld w 25 6 = 0x1b ∧ fld w 21 4 = c.code ∧ fld w 19 2 = 0 ∧ fld w 17 2 = t.code ∧
      fld w 14 3 = p ∧ fld w 7 7 = a ∧ fld w 0 7 = b := by unfold fld; omega
  rw [decodeWord_fcmp lit hm, decodeFcmp, hz, hc, ht, fP_eq hp, fV_eq ha, fV_eq hb, FCond.ofCode_code, FType.ofCode_code]
  rfl

theorem decodeWord_encodeWord_cvt {w : Nat} (y : CvtType) (d a : VReg) (x : CvtType) (s : FSlot) (lit : W32)
    (wf : (Instr.cvt y d a x s).wf = true) (hw : encodeWord (.cvt y d a x s) = w) :
    decodeWord w lit = .ok (.cvt y d a x s) := by
  replace hw : 0x38000000 + y.code * 0x200000 + d.val * 0x4000 + a.val * 0x80 + x.code * 0x8 + s.val = w := hw
  have hy := y.code_le
  have hx := x.code_le
  obtain ⟨hm, hz, hy, hd, ha, hx, hs⟩ : fld w 25 6 = 0x1c ∧ fld w 24 1 = 0 ∧ fld w 21 3 = y.code ∧ fld w 14 7 = d ∧ fld w 7 7 = a ∧
      fld w 3 4 = x.code ∧ fld w 0 3 = s := by unfold fld; omega
  rw [decodeWord_cvt lit hm, decodeCvt, hz, hy, hx, fV_eq hd, fV_eq ha, fP_eq hs, CvtType.ofCode_code, CvtType.ofCode_code]
  exact formed_of_wf wf

theorem decodeWord_encodeWord_cvtp {w : Nat} (s : FSlot) (d a b : VReg) (lit : W32) (hw : encodeWord (.cvtp s d a b) = w) :
    decodeWord w lit = .ok (.cvtp s d a b) := by
  replace hw : 0x3a000000 + s.val * 0x200000 + d.val * 0x4000 + a.val * 0x80 + b.val = w := hw
  obtain ⟨hm, hz, hs, hd, ha, hb⟩ : fld w 25 6 = 0x1d ∧ fld w 24 1 = 0 ∧ fld w 21 3 = s ∧ fld w 14 7 = d ∧ fld w 7 7 = a ∧
      fld w 0 7 = b := by unfold fld; omega
  rw [decodeWord_cvtp lit hm, decodeCvtp, hz, fP_eq hs, fV_eq hd, fV_eq ha, fV_eq hb]
  rfl

theorem decodeWord_encodeWord_waitcnt {w : Nat} (l s c t : Fin 32) (y : Bool) (lit : W32)
    (hw : encodeWord (.waitcnt l s c t y) = w) : decodeWord w lit = .ok (.waitcnt l s c t y) := by
  replace hw : 0x62000000 + l.val * 0x100000 + s.val * 0x8000 + c.val * 0x400 + t.val * 0x20 + y.toNat * 0x10 = w := hw
  have hy : y.toNat < 2 := y.toNat_lt
  obtain ⟨hm, hl, hs, hc, ht, hy, hz⟩ : fld w 25 6 = 0x31 ∧ fld w 20 5 = l ∧ fld w 15 5 = s ∧ fld w 10 5 = c ∧ fld w 5 5 = t ∧
      fld w 4 1 = y.toNat ∧ fld w 0 4 = 0 := by unfold fld; omega
  rw [decodeWord_waitcnt lit hm, decodeWaitcnt, hz, hl, hs, hc, ht, hy]
  cases y <;> simp [zeroBits]

theorem decodeWord_encodeWord_regang {w : Nat} (m : BitVec 8) (lit : W32) (wf : (Instr.regang m).wf = true)
    (hw : encodeWord (.regang m) = w) : decodeWord w lit = .ok (.regang m) := by
  replace hw : 0x600c0000 + m.toNat = w := hw
  have hlt := m.isLt
  obtain ⟨hm, hf, hk, hz, hv⟩ : fld w 25 6 = 0x30 ∧ fld w 17 8 = 6 ∧ fld w 8 1 = 0 ∧ fld w 9 8 = 0 ∧ fld w 0 8 = m.toNat := by
    unfold fld; omega
  rw [decodeWord_control lit hm, decodeControl, hf, hz, hk, hv, BitVec.ofNat_toNat, BitVec.setWidth_eq]
  exact formed_of_wf wf

theorem decodeWord_encodeWord_regangWait {w : Nat} (m : BitVec 8) (lit : W32) (wf : (Instr.regangWait m).wf = true)
    (hw : encodeWord (.regangWait m) = w) : decodeWord w lit = .ok (.regangWait m) := by
  replace hw : 0x600c0100 + m.toNat = w := hw
  have hlt := m.isLt
  obtain ⟨hm, hf, hk, hz, hv⟩ : fld w 25 6 = 0x30 ∧ fld w 17 8 = 6 ∧ fld w 8 1 = 1 ∧ fld w 9 8 = 0 ∧ fld w 0 8 = m.toNat := by
    unfold fld; omega
  rw [decodeWord_control lit hm, decodeControl, hf, hz, hk, hv, BitVec.ofNat_toNat, BitVec.setWidth_eq]
  exact formed_of_wf wf

theorem decodeWord_encodeWord_pwreq {w : Nat} (c : PReg) (lit : W32) (wf : (Instr.pwreq c).wf = true)
    (hw : encodeWord (.pwreq c) = w) : decodeWord w lit = .ok (.pwreq c) := by
  replace hw : 0x601a0000 + c.val = w := hw
  obtain ⟨hm, hf, hk, hz, hc⟩ : fld w 25 6 = 0x30 ∧ fld w 17 8 = 13 ∧ fld w 3 1 = 0 ∧ fld w 4 13 = 0 ∧ fld w 0 3 = c := by
    unfold fld; omega
  rw [decodeWord_control lit hm, decodeControl, hf, hz, hk, fP_eq hc]
  exact formed_of_wf wf

theorem decodeWord_encodeWord_pwreqYield {w : Nat} (c : PReg) (lit : W32) (wf : (Instr.pwreqYield c).wf = true)
    (hw : encodeWord (.pwreqYield c) = w) : decodeWord w lit = .ok (.pwreqYield c) := by
  replace hw : 0x601a0008 + c.val = w := hw
  obtain ⟨hm, hf, hk, hz, hc⟩ : fld w 25 6 = 0x30 ∧ fld w 17 8 = 13 ∧ fld w 3 1 = 1 ∧ fld w 4 13 = 0 ∧ fld w 0 3 = c := by
    unfold fld; omega
  rw [decodeWord_control lit hm, decodeControl, hf, hz, hk, fP_eq hc]
  exact formed_of_wf wf

theorem decodeWord_encodeWord_fence {w : Nat} (o : Fin 4) (c : Scope) (lit : W32) (wf : (Instr.fence o c).wf = true)
    (hw : encodeWord (.fence o c) = w) : decodeWord w lit = .ok (.fence o c) := by
  replace hw : 0x601e0000 + o.val * 0x8 + c.code = w := hw
  have hc := c.code_le
  obtain ⟨hm, hf, hz, ho, hc⟩ : fld w 25 6 = 0x30 ∧ fld w 17 8 = 15 ∧ fld w 5 12 = 0 ∧ fld w 3 2 = o ∧ fld w 0 3 = c.code := by
    unfold fld; omega
  rw [decodeWord_control lit hm, decodeControl, hf, hz, ho, hc, Scope.ofCode_code, Fin.ofNat_val_eq_self]
  exact formed_of_wf wf

theorem decodeWord_encodeWord_phbinit {w : Nat} (a : AReg) (n : Fin 128) (lit : W32) (wf : (Instr.phbinit a n).wf = true)
    (hw : encodeWord (.phbinit a n) = w) : decodeWord w lit = .ok (.phbinit a n) := by
  replace hw : 0x66020000 + a.val * 0x80 + n.val = w := hw
  obtain ⟨hm, hf, hz, ha, hn⟩ : fld w 25 6 = 0x33 ∧ fld w 17 8 = 1 ∧ fld w 11 6 = 0 ∧ fld w 7 4 = a ∧ fld w 0 7 = n := by
    unfold fld; omega
  rw [decodeWord_barrier lit hm, decodeBarrier, hf, hz, hn, fA_eq ha, Fin.ofNat_val_eq_self]
  exact formed_of_wf wf

theorem decodeWord_encodeWord_phbtest {w : Nat} (a : AReg) (d : PReg) (h : Bool) (lit : W32)
    (hw : encodeWord (.phbtest a d h) = w) : decodeWord w lit = .ok (.phbtest a d h) := by
  replace hw : 0x66080000 + a.val * 0x80 + d.val * 0x10 + h.toNat = w := hw
  have hlt : h.toNat < 2 := h.toNat_lt
  obtain ⟨hm, hf, hz, hz', ha, hd, hv⟩ : fld w 25 6 = 0x33 ∧ fld w 17 8 = 4 ∧ fld w 1 3 = 0 ∧ fld w 11 6 = 0 ∧ fld w 7 4 = a ∧
      fld w 4 3 = d ∧ fld w 0 1 = h.toNat := by unfold fld; omega
  rw [decodeWord_barrier lit hm, decodeBarrier, hf, hz, hz', hv, fA_eq ha, fP_eq hd]
  cases h <;> rfl

theorem decodeWord_encodeWord_phbwait {w : Nat} (a : AReg) (h : Bool) (lit : W32) (hw : encodeWord (.phbwait a h) = w) :
    decodeWord w lit = .ok (.phbwait a h) := by
  replace hw : 0x660a0000 + a.val * 0x80 + h.toNat = w := hw
  have hlt : h.toNat < 2 := h.toNat_lt
  obtain ⟨hm, hf, hz, hz', ha, hv⟩ : fld w 25 6 = 0x33 ∧ fld w 17 8 = 5 ∧ fld w 1 6 = 0 ∧ fld w 11 6 = 0 ∧ fld w 7 4 = a ∧
      fld w 0 1 = h.toNat := by unfold fld; omega
  rw [decodeWord_barrier lit hm, decodeBarrier, hf, hz, hz', hv, fA_eq ha]
  cases h <;> rfl

end Sys2Proof
end

section
/-! ## Encoding, then decoding: every instruction -/

namespace Sys2Proof

theorem ne_of_bne_wf {v : Option VReg} (h : (v != some 127) = true) : v ≠ some 127 := by simpa using h

/-- Every word decodes to the instruction it was made of: `fields_…` gives the fields of its format, the table of its major opcode
reads them. Constructors of one format and one table share a case. -/
theorem decodeWord_encodeWord (i : Instr) (h : i.Encodable) (lit : W32) (hlit : ∀ l ∈ i.literals, l = lit) :
    decodeWord (encodeWord i) lit = .ok i := by
  obtain ⟨wf, word⟩ := h
  generalize hw : encodeWord i = w
  cases i with
  -- scalar words (R113)
  | sadd d a b => exact decodeWord_encodeWord_sadd d a b lit wf hw
  | ssub d a b | smul d a b | smulhI64 d a b | smulhN64 d a b | sdivI64 d a b | sdivN64 d a b | sremI64 d a b | sremN64 d a b
  | sand d a b | sor d a b | sxor d a b | sshl d a b | sshr d a b | ssra d a b | smin d a b | smax d a b | sminn d a b
  | smaxn d a b | ssel d a b | sbfxI64 d a b | sbfxN64 d a b | sbfi d a b =>
    obtain ⟨hm, hf, hd, ha, hb, hz, -⟩ := fields_SS d a b hw rfl
    rw [← fS_eq hd, ← fS_eq ha, ← fS_eq hb, decodeWord_scalarRegister lit hm, decodeScalarRegister, hf, hz]; rfl
  | snot d a | smov d a | sclz d a | spopc d a =>
    obtain ⟨hm, hf, hd, ha, -, -, hz, -⟩ := fields_SS d a 0 hw rfl
    rw [← fS_eq hd, ← fS_eq ha, decodeWord_scalarRegister lit hm, decodeScalarRegister, hf, hz]; rfl
  | scmp c d a b =>
    cases c <;>
    · obtain ⟨hm, hf, hd, ha, hb, hz, -⟩ := fields_SS d a b hw rfl
      rw [← fS_eq hd, ← fS_eq ha, ← fS_eq hb, decodeWord_scalarRegister lit hm, decodeScalarRegister, hf, hz,
        fld_low 4 hf (by decide)]
      rfl
  | sli d i => exact decodeWord_encodeWord_sli d i lit hw
  | slit d l | slitN32 d l =>
    obtain ⟨hm, hf, hd, -, -, -, -, hz⟩ := fields_SS d 0 0 hw rfl
    rw [← fS_eq hd, decodeWord_slit lit hm, decodeSlit, hf, hz, ← hlit l (List.mem_singleton_self l)]; rfl
  -- affine and predicate words (R113)
  | aset d b i =>
    obtain ⟨hm, hf, hd, hz, hb, hi⟩ := fields_AF d 0 b i.toNat hw rfl
    rw [← fA_eq hd, ← fS_eq hb, decodeWord_affine lit hm, decodeAffine, hf, hz, hi, BitVec.ofNat_toNat, BitVec.setWidth_eq]; rfl
  | aadd d a b i | amul d a b i =>
    obtain ⟨hm, hf, hd, ha, hb, hi⟩ := fields_AF d a b i.toNat hw rfl
    rw [← fA_eq hd, ← fA_eq ha, ← fS_eq hb, decodeWord_affine lit hm, decodeAffine, hf, hi, BitVec.ofNat_toNat,
      BitVec.setWidth_eq]; rfl
  | astr d a b =>
    obtain ⟨hm, hf, hd, ha, hb, hz⟩ := fields_AF d a b 0 hw rfl
    rw [← fA_eq hd, ← fA_eq ha, ← fS_eq hb, decodeWord_affine lit hm, decodeAffine, hf, hz]; rfl
  | aidx d a i =>
    obtain ⟨hm, hf, hd, ha, hz, hi⟩ := fields_AF d a 0 i.toNat hw rfl
    rw [← fA_eq hd, ← fA_eq ha, decodeWord_affine lit hm, decodeAffine, hf, hz, hi, BitVec.ofNat_toNat, BitVec.setWidth_eq]; rfl
  | aget a v =>
    obtain ⟨hm, hf, hz, ha, hv, hz'⟩ := fields_AF 0 a v 0 hw rfl
    rw [← fA_eq ha, ← fS_eq hv, decodeWord_affine lit hm, decodeAffine, hf, hz, hz']; rfl
  | pand d a b | por d a b | pxor d a b =>
    obtain ⟨hm, hf, hd, ha, hb, hz⟩ := fields_AF d a b 0 hw rfl
    rw [← fP_eq_of_field hd (by decide), ← fP_eq_of_field ha (by decide), ← fP_eq_of_field hb (by decide),
      decodeWord_predicate lit hm, decodePredicate, hf, hz, fld_above_pred hd (by decide), fld_above_pred ha (by decide),
      fld_above_pred hb (by decide)]; rfl
  | vaddVv d a b | vsubVv d a b | vmulVv d a b | vmulhI32Vv d a b | vmulhN32Vv d a b | vmadVv d a b | vsaddI32Vv d a b
  | vsaddN32Vv d a b | vssubI32Vv d a b | vssubN32Vv d a b | vminVv d a b | vmaxVv d a b | vminnVv d a b | vmaxnVv d a b =>
    obtain ⟨hm, hf, hd, ha, hb⟩ := fields_VV d a b hw rfl
    rw [← fV_eq hd, ← fV_eq ha, ← fV_eq hb, decodeWord_vectorArithVV lit hm, decodeVectorArithVV, hf]; rfl
  | vaddVx d a x | vsubVx d a x | vmulVx d a x | vmulhI32Vx d a x | vmulhN32Vx d a x | vmadVx d a x | vsaddI32Vx d a x
  | vsaddN32Vx d a x | vssubI32Vx d a x | vssubN32Vx d a x | vminVx d a x | vmaxVx d a x | vminnVx d a x | vmaxnVx d a x =>
    obtain ⟨hm, hf, hd, ha, hb⟩ := fields_VV d a x.code hw rfl (hb := x.code_lt)
    rw [← fV_eq hd, ← fV_eq ha, decodeWord_vectorArithVX lit hm, decodeVectorArithVX, hf, hb, Src2.ofCode_code]; rfl
  | vandVv d a b | vorVv d a b | vxorVv d a b | vshlVv d a b | vshrVv d a b | vsraVv d a b | vbfxI32Vv d a b | vbfxN32Vv d a b
  | vbfiVv d a b =>
    obtain ⟨hm, hf, hd, ha, hb⟩ := fields_VV d a b hw rfl
    rw [← fV_eq hd, ← fV_eq ha, ← fV_eq hb, decodeWord_vectorLogicVV lit hm, decodeVectorLogicVV, hf]; rfl
  | vandVx d a x | vorVx d a x | vxorVx d a x | vshlVx d a x | vshrVx d a x | vsraVx d a x | vbfxI32Vx d a x | vbfxN32Vx d a x
  | vbfiVx d a x =>
    obtain ⟨hm, hf, hd, ha, hb⟩ := fields_VV d a x.code hw rfl (hb := x.code_lt)
    rw [← fV_eq hd, ← fV_eq ha, decodeWord_vectorLogicVX lit hm, decodeVectorLogicVX, hf, hb, Src2.ofCode_code]; rfl
  | vsel p d a b => exact decodeWord_encodeWord_vsel p d a b lit wf hw
  | vnot d a | vabs d a | vneg d a | vclz d a | vpopc d a | vmov d a =>
    obtain ⟨hm, hf, hd, ha, hb⟩ := fields_VV d a 0 hw rfl
    rw [← fV_eq hd, ← fV_eq ha, decodeWord_vectorLogicVX lit hm, decodeVectorLogicVX, hf, hb]; rfl
  | vli d x =>
    obtain ⟨hm, hf, hd, ha, hb⟩ := fields_VV d 0 x.code hw rfl (hb := x.code_lt)
    rw [← fV_eq hd, decodeWord_vectorLogicVX lit hm, decodeVectorLogicVX, hf, hb, ha, Src2.ofCode_code]; rfl
  | pnot d a | pmov d a =>
    obtain ⟨hm, hf, hd, ha, hb, hz⟩ := fields_AF d a 0 0 hw rfl
    rw [← fP_eq_of_field hd (by decide), ← fP_eq_of_field ha (by decide), decodeWord_predicate lit hm, decodePredicate, hf,
      fld_join hz hb, fld_above_pred hd (by decide), fld_above_pred ha (by decide)]
    rfl
  | pcnt a s =>
    obtain ⟨hm, hf, hd, ha, hb, hz⟩ := fields_AF 0 a s 0 hw rfl
    rw [← fP_eq_of_field ha (by decide), ← fS_eq hb, decodeWord_predicate lit hm, decodePredicate, hf, hz,
      fld_join (fld_above_pred ha (by decide)) hd]
    rfl
  | vcmpVv c p a b =>
    obtain ⟨hm, hf, hp, ha, hb⟩ := fields_VV_code c.code p a b hw rfl (hk := by have := c.code_le; omega)
    rw [← fP_eq_of_field hp (by decide), ← fV_eq ha, ← fV_eq hb, decodeWord_vcmpVV lit hm, decodeVcmpVV, hf,
      fld_above_pred hp (by decide), Cond.ofCode_code]
    rfl
  | vcmpVx c p a x =>
    obtain ⟨hm, hf, hp, ha, hb⟩ := fields_VV_code c.code p a x.code hw rfl (hk := by have := c.code_le; omega) (hb := x.code_lt)
    rw [← fP_eq_of_field hp (by decide), ← fV_eq ha, decodeWord_vcmpVX lit hm, decodeVcmpVX, hf,
      fld_above_pred hp (by decide), hb, Cond.ofCode_code, Src2.ofCode_code]
    rfl
  -- words between lanes (R115)
  | vshflIdx d a b | vshflIdxChk d a b =>
    obtain ⟨hm, hf, hd, ha, hb⟩ := fields_VV d a b hw rfl
    rw [← fV_eq hd, ← fV_eq ha, ← fV_eq hb, decodeWord_crossLaneVV lit hm, decodeCrossLaneVV, hf]; rfl
  | vredAdd d a | vredMin d a | vredMax d a | vscanAdd d a =>
    obtain ⟨hm, hf, hd, ha, hb⟩ := fields_VV d a 0 hw rfl
    rw [← fV_eq hd, ← fV_eq ha, decodeWord_crossLaneVV lit hm, decodeCrossLaneVV, hf, hb]; rfl
  | vballot d p =>
    obtain ⟨hm, hf, hd, hp, hb⟩ := fields_VV d p 0 hw rfl
    rw [← fV_eq hd, ← fP_eq_of_field hp (by decide), decodeWord_crossLaneVV lit hm, decodeCrossLaneVV, hf, hb,
      fld_above_pred hp (by decide)]
    rfl
  | vvoteAny d p | vvoteAll d p =>
    obtain ⟨hm, hf, hd, hp, hb⟩ := fields_VV d p 0 hw rfl
    rw [← fP_eq_of_field hd (by decide), ← fP_eq_of_field hp (by decide), decodeWord_crossLaneVV lit hm, decodeCrossLaneVV,
      hf, hb, fld_above_pred hd (by decide), fld_above_pred hp (by decide)]
    rfl
  | vshflUp d a x | vshflUpChk d a x | vshflDn d a x | vshflDnChk d a x | vshflXor d a x | vshflXorChk d a x | vbcast d a x
  | vbcastChk d a x =>
    obtain ⟨hm, hf, hd, ha, hb⟩ := fields_VV d a x.code hw rfl (hb := x.code_lt)
    rw [← fV_eq hd, ← fV_eq ha, decodeWord_crossLaneVX lit hm, decodeCrossLaneVX, hf, hb, Src2.ofCode_code]; rfl
  -- float words (R116)
  | fadd t d a b | fsub t d a b | fmul t d a b | ffma t d a b | fmin t d a b | fmax t d a b =>
    obtain ⟨hm, hf, hd, ha, hb⟩ := fields_VV d a b (c := _ + t.code * 0x2000000) hw (by omega)
    cases t <;>
    · rw [← fV_eq hd, ← fV_eq ha, ← fV_eq hb, decodeWord_float lit (by rw [hm]; decide), decodeFloat, hf,
        fld_low 2 hm (by decide)]
      rfl
  | fabs t d a | fneg t d a | frcp t d a | frsq t d a | fsqrt t d a | fexp2 t d a | flog2 t d a =>
    obtain ⟨hm, hf, hd, ha, hb⟩ := fields_VV d a 0 (c := _ + t.code * 0x2000000) hw (by omega)
    cases t <;>
    · rw [← fV_eq hd, ← fV_eq ha, decodeWord_float lit (by rw [hm]; decide), decodeFloat, hf, fld_low 2 hm (by decide), hb]
      rfl
  | fround t d a r =>
    obtain ⟨hm, hf, hd, ha, hb⟩ := fields_VV d a r.code (c := _ + t.code * 0x2000000) hw (by omega)
      (hb := by have := r.code_le; omega)
    cases t <;>
    · rw [← fV_eq hd, ← fV_eq ha, decodeWord_float lit (by rw [hm]; decide), decodeFloat, hf, fld_low 2 hm (by decide),
        fld_low 3 hb (by decide), fld_high 3 hb (by decide)]
      cases r <;> rfl
  | fcmp c t p a b => exact decodeWord_encodeWord_fcmp c t p a b lit hw
  | cvt y d a x s => exact decodeWord_encodeWord_cvt y d a x s lit wf hw
  | cvtp s d a b => exact decodeWord_encodeWord_cvtp s d a b lit hw
  -- memory words (R117)
  | ldGlobal z d a v c | stGlobal z d a v c =>
    cases z <;>
    · obtain ⟨hm, hf, hd, ha, hv, hc⟩ := fields_MM d a (voffCode v) c.code hw rfl (hv := voffCode_lt v) (hs := by have := c.code_le; omega)
      rw [← fV_eq hd, ← fA_eq ha, decodeWord_global lit hm, decodeGlobal, hf, hc, hv, fld_low 3 hf (by decide),
        Scope.ofCode_code, voffOfCode_voffCode v (ne_of_bne_wf wf)]
      rfl
  | pf a v =>
    obtain ⟨hm, hf, hz, ha, hv, hz'⟩ := fields_MM 0 a (voffCode v) 0 hw rfl (hv := voffCode_lt v)
    rw [← fA_eq ha, decodeWord_global lit hm, decodeGlobal, hf, hz, hz', hv, voffOfCode_voffCode v (ne_of_bne_wf wf)]; rfl
  | ldWindow z d a v c | stWindow z d a v c =>
    cases z <;>
    · obtain ⟨hm, hf, hd, ha, hv, hc⟩ := fields_MM d a (voffCode v) c.code hw rfl (hv := voffCode_lt v) (hs := by have := c.code_le; omega)
      rw [← fV_eq hd, ← fA_eq ha, decodeWord_window lit hm, decodeWindow, hf, hc, hv, fld_low 3 hf (by decide),
        Scope.ofCode_code, voffOfCode_voffCode v (ne_of_bne_wf wf)]
      rfl
  | ldLocal z d a v p | stLocal z d a v p =>
    cases z <;>
    · obtain ⟨hm, hf, hd, ha, hv, hc⟩ := fields_MM d a (voffCode v) p.code hw rfl (hv := voffCode_lt v) (hs := by have := p.code_le; omega)
      rw [← fV_eq hd, ← fA_eq ha, decodeWord_local lit hm, decodeLocal, hf, hc, hv, fld_low 3 hf (by decide),
        LocalSpace.ofCode_code, voffOfCode_voffCode v (ne_of_bne_wf wf)]
      rfl
  | atomGlobal32 o d a v c =>
    obtain ⟨hm, hf, hd, ha, hv, hc⟩ := fields_MM_code o.code d a (voffCode v) c.code hw rfl
      (hk := by have := o.code_le; omega) (hv := voffCode_lt v) (hs := by have := c.code_le; omega)
    rw [← fV_eq hd, ← fA_eq ha, decodeWord_atomGlobal32 lit hm, decodeAtomGlobal32, hf, hc, hv, AtomOp.ofCode_code,
      Scope.ofCode_code, voffOfCode_voffCode v (ne_of_bne_wf wf)]
    rfl
  | atomGlobal64 o d a v c =>
    obtain ⟨hm, hf, hd, ha, hv, hc⟩ := fields_MM_code o.code d a (voffCode v) c.code hw rfl
      (hk := by have := o.code_le; omega) (hv := voffCode_lt v) (hs := by have := c.code_le; omega)
    rw [← fV_eq hd, ← fA_eq ha, decodeWord_atomGlobal64 lit hm, decodeAtomGlobal64, hf, hc, hv, AtomOp.ofCode_code,
      Scope.ofCode_code, voffOfCode_voffCode v (ne_of_bne_wf wf)]
    rfl
  | atomLocal32 o d a v c =>
    obtain ⟨hm, hf, hd, ha, hv, hc⟩ := fields_MM_code o.code d a (voffCode v) c.code hw rfl
      (hk := by have := o.code_le; omega) (hv := voffCode_lt v) (hs := by have := c.code_le; omega)
    rw [← fV_eq hd, ← fA_eq ha, decodeWord_atomLocal32 lit hm, decodeAtomLocal32, hf, hc, hv, AtomOp.ofCode_code,
      AtomPlace.ofCode_code, voffOfCode_voffCode v (ne_of_bne_wf wf)]
    rfl
  | atomLocal64 o d a v c =>
    obtain ⟨hm, hf, hd, ha, hv, hc⟩ := fields_MM_code o.code d a (voffCode v) c.code hw rfl
      (hk := by have := o.code_le; omega) (hv := voffCode_lt v) (hs := by have := c.code_le; omega)
    rw [← fV_eq hd, ← fA_eq ha, decodeWord_atomLocal64 lit hm, decodeAtomLocal64, hf, hc, hv, AtomOp.ofCode_code,
      AtomPlace.ofCode_code, voffOfCode_voffCode v (ne_of_bne_wf wf)]
    rfl
  | rld n d a p c | rst n d a p c =>
    cases n <;>
    · obtain ⟨hm, hf, hd, ha, hp, hc⟩ := fields_MM d a p c.code hw rfl (hs := by have := c.code_le; omega)
      rw [← fV_eq hd, ← fA_eq ha, ← fV_eq hp, decodeWord_fabric lit hm, decodeFabric, hf, hc, fld_low 1 hf (by decide),
        Scope.ofCode_code]
      rfl
  | ratom o d a p c =>
    cases o <;>
    · obtain ⟨hm, hf, hd, ha, hp, hc⟩ := fields_MM d a p c.code hw rfl (hs := by have := c.code_le; omega)
      rw [← fV_eq hd, ← fA_eq ha, ← fV_eq hp, decodeWord_fabric lit hm, decodeFabric, hf, hc, Scope.ofCode_code]
      rfl
  -- engine words (R118)
  | cpy x a b c y | cpyc x a b c y =>
    obtain ⟨hm, hx, ha, hb, hc, hk⟩ := fields_EN x.code a b c y.code hw (by have := y.code_le; omega)
      (hx := by have := x.code_le; omega)
    rw [← fS_eq ha, ← fS_eq hb, ← fS_eq hc, decodeWord_copy lit hm, decodeCopy, hx, fld_low 3 hk (by decide),
      fld_high 3 hk (by decide), CopySpace.ofCode_code]
    cases y <;> rfl
  | cpyq a b | cpyst a b =>
    obtain ⟨hm, hx, ha, hb, hc, hk⟩ := fields_EN 0 a b 0 0 hw (by decide)
    rw [← fS_eq ha, ← fS_eq hb, decodeWord_copyOther lit hm, decodeCopyOther, hk, hx, hc]; rfl
  | cpys y a b c =>
    obtain ⟨hm, hx, ha, hb, hc, hk⟩ := fields_EN y.code a b c 0 hw (by decide) (hx := by have := y.code_le; omega)
    rw [← fS_eq ha, ← fS_eq hb, ← fS_eq hc, decodeWord_copyOther lit hm, decodeCopyOther, hk, hx, CopySpace.ofCode_code]; rfl
  | cpyres a | cpycan a =>
    obtain ⟨hm, hx, ha, hb, hc, hk⟩ := fields_EN 0 a 0 0 0 hw (by decide)
    rw [← fS_eq ha, decodeWord_copyOther lit hm, decodeCopyOther, hk, hx, fld_join hc hb]; rfl
  | tmm x a b c | tmms x a b c | tepi x a b c =>
    obtain ⟨hm, hx, ha, hb, hc, hk⟩ := fields_EN x a b c 0 hw (by decide)
    rw [← fP_eq hx, ← fS_eq ha, ← fS_eq hb, ← fS_eq hc, decodeWord_matrix lit hm, decodeMatrix, hk]; rfl
  | tzero a =>
    obtain ⟨hm, hx, ha, hb, hc, hk⟩ := fields_EN 0 a 0 0 0 hw (by decide)
    rw [← fS_eq ha, decodeWord_matrix lit hm, decodeMatrix, hk, hx, fld_join hc hb]; rfl
  | ttrn a b =>
    obtain ⟨hm, hx, ha, hb, hc, hk⟩ := fields_EN 0 a b 0 0 hw (by decide)
    rw [← fS_eq ha, ← fS_eq hb, decodeWord_matrix lit hm, decodeMatrix, hk, hx, hc]; rfl
  | rsinit a b c =>
    obtain ⟨hm, hx, ha, hb, hc, hk⟩ := fields_EN 0 a b c 0 hw (by decide)
    rw [← fS_eq ha, ← fS_eq hb, ← fS_eq hc, decodeWord_stream lit hm, decodeStream, hk, hx]; rfl
  | rsaddVector x a b c | rsaddAb x a b c =>
    obtain ⟨hm, hx, ha, hb, hc, hk⟩ := fields_EN x.code a b c 0 hw (by decide) (hx := by have := x.code_le; omega)
    rw [← fS_eq ha, ← fS_eq hb, ← fS_eq hc, decodeWord_stream lit hm, decodeStream, hk, hx, DeltaType.ofCode_code]; rfl
  | rsnorm x a b c | rsnormReel x a b c =>
    obtain ⟨hm, hx, ha, hb, hc, hk⟩ := fields_EN x a b c 0 hw (by decide)
    rw [← fP_eq hx, ← fS_eq ha, ← fS_eq hb, ← fS_eq hc, decodeWord_stream lit hm, decodeStream, hk]; rfl
  | rsq a b =>
    obtain ⟨hm, hx, ha, hb, hc, hk⟩ := fields_EN 0 a b 0 0 hw (by decide)
    rw [← fS_eq ha, ← fS_eq hb, decodeWord_stream lit hm, decodeStream, hk, hx, hc]; rfl
  | rssave f a b =>
    obtain ⟨hm, hx, ha, hb, hc, hk⟩ := fields_EN f.toNat a b 0 0 hw (by decide) (hx := by have := f.toNat_lt; omega)
    rw [← fS_eq ha, ← fS_eq hb, decodeWord_stream lit hm, decodeStream, hk, fld_low 1 hx (by decide),
      fld_high 1 hx (by decide), hc]
    cases f <;> rfl
  | rsload f a b c =>
    obtain ⟨hm, hx, ha, hb, hc, hk⟩ := fields_EN f.toNat a b c 0 hw (by decide) (hx := by have := f.toNat_lt; omega)
    rw [← fS_eq ha, ← fS_eq hb, ← fS_eq hc, decodeWord_stream lit hm, decodeStream, hk, fld_low 1 hx (by decide),
      fld_high 1 hx (by decide)]
    cases f <;> rfl
  | cred x a b c o =>
    obtain ⟨hm, hx, ha, hb, hc, hk⟩ := fields_EN x a b c o.code hw (by have := o.code_le; omega)
    rw [← fP_eq hx, ← fS_eq ha, ← fS_eq hb, ← fS_eq hc, decodeWord_collective lit hm, decodeCollective, hk,
      fld_low 2 hk (by decide)]
    cases o <;> rfl
  | cbc x a b c | cgat x a b c =>
    obtain ⟨hm, hx, ha, hb, hc, hk⟩ := fields_EN x a b c 0 hw (by decide)
    rw [← fP_eq hx, ← fS_eq ha, ← fS_eq hb, ← fS_eq hc, decodeWord_collective lit hm, decodeCollective, hk]; rfl
  | vdist x a b c =>
    obtain ⟨hm, hx, ha, hb, hc, hk⟩ := fields_EN x a b c 0 hw (by decide)
    rw [← fP_eq hx, ← fS_eq ha, ← fS_eq hb, ← fS_eq hc, decodeWord_search lit hm, decodeSearch, hk]; rfl
  | topk a b c | topkm a b c | topkr a b c =>
    obtain ⟨hm, hx, ha, hb, hc, hk⟩ := fields_EN 0 a b c 0 hw (by decide)
    rw [← fS_eq ha, ← fS_eq hb, ← fS_eq hc, decodeWord_search lit hm, decodeSearch, hk, hx]; rfl
  -- control words (R119)
  | br o | call o | jpt o =>
    obtain ⟨hm, hf, hp, ho⟩ := fields_BR 0 o.toNat hw rfl
    rw [decodeWord_branch lit hm, decodeBranch, hf, hp, ho, BitVec.ofNat_toNat, BitVec.setWidth_eq]; rfl
  | brc p o =>
    obtain ⟨hm, hf, hp, ho⟩ := fields_BR p o.toNat hw rfl
    rw [← fP_eq hp, decodeWord_branch lit hm, decodeBranch, hf, ho, BitVec.ofNat_toNat, BitVec.setWidth_eq]; rfl
  | brk c =>
    obtain ⟨hm, hf, hs, hi, hy⟩ := fields_SY 0 c hw rfl
    rw [decodeWord_control lit hm, decodeControl, hf, hs, hi, Fin.ofNat_val_eq_self]; rfl
  | elect p =>
    obtain ⟨hm, hf, hs, hi, hy⟩ := fields_SY 0 p hw rfl
    rw [← fP_eq_of_field hy (by decide), decodeWord_control lit hm, decodeControl, hf, fld_above_pred hy (by decide)]; rfl
  | jmp s | launch s | ljoin s | wmember s =>
    obtain ⟨hm, hf, hs, hi, hy⟩ := fields_SY s 0 hw rfl
    rw [← fS_eq hs, decodeWord_control lit hm, decodeControl, hf, hi]; rfl
  | regang m => exact decodeWord_encodeWord_regang m lit wf hw
  | regangWait m => exact decodeWord_encodeWord_regangWait m lit wf hw
  | pwreq c => exact decodeWord_encodeWord_pwreq c lit wf hw
  | pwreqYield c => exact decodeWord_encodeWord_pwreqYield c lit wf hw
  | fence o c => exact decodeWord_encodeWord_fence o c lit wf hw
  | waitcnt l s c t y => exact decodeWord_encodeWord_waitcnt l s c t y lit hw
  | bar s n =>
    obtain ⟨hm, hf, hs, hi, hy⟩ := fields_SY s n hw rfl
    have hz : fld w 4 7 = 0 := (fld_high 4 hi (by decide)).trans (Nat.div_eq_of_lt n.isLt)
    have hn : fld w 0 4 = n := (fld_low 4 hi (by decide)).trans (Nat.mod_eq_of_lt n.isLt)
    rw [← fS_eq hs, decodeWord_barrier lit hm, decodeBarrier, hf, hz, hn, Fin.ofNat_val_eq_self]; rfl
  | phbinit a n => exact decodeWord_encodeWord_phbinit a n lit wf hw
  | phbarr a =>
    obtain ⟨hm, hf, hs, hi, hy⟩ := fields_SY 0 (a * 0x80) hw rfl
    have ha : fld w 7 4 = a := (fld_high 7 hi (by decide)).trans (Nat.mul_div_cancel a (by decide))
    have hz : fld w 0 7 = 0 := (fld_low 7 hi (by decide)).trans (Nat.mul_mod_left a 0x80)
    rw [← fA_eq ha, decodeWord_barrier lit hm, decodeBarrier, hf, hs, hz]; rfl
  | phbexp s a =>
    obtain ⟨hm, hf, hs, hi, hy⟩ := fields_SY s (a * 0x80) hw rfl
    have ha : fld w 7 4 = a := (fld_high 7 hi (by decide)).trans (Nat.mul_div_cancel a (by decide))
    have hz : fld w 0 7 = 0 := (fld_low 7 hi (by decide)).trans (Nat.mul_mod_left a 0x80)
    rw [← fS_eq hs, ← fA_eq ha, decodeWord_barrier lit hm, decodeBarrier, hf, hz]; rfl
  | phbtest a d h => exact decodeWord_encodeWord_phbtest a d h lit hw
  | phbwait a h => exact decodeWord_encodeWord_phbwait a h lit hw
  | tlsig a b | tlwait a b | qpost a b | qtail a b =>
    obtain ⟨hm, hf, hd, ha, hb, hz, -⟩ := fields_SS 0 a b hw rfl
    rw [← fS_eq ha, ← fS_eq hb, decodeWord_timeline lit hm, decodeTimeline, hf, hz, hd]; rfl
  | tlread d a =>
    obtain ⟨hm, hf, hd, ha, -, -, hz, -⟩ := fields_SS d a 0 hw rfl
    rw [← fS_eq hd, ← fS_eq ha, decodeWord_timeline lit hm, decodeTimeline, hf, hz]; rfl
  -- system and firmware words (R120, R71, R72)
  | sysrd s r | syswr s r =>
    obtain ⟨hm, hf, hs, hi, hy⟩ := fields_SY s r hw rfl
    rw [← fS_eq hs, decodeWord_system lit hm, decodeSystem, hf, hi, Fin.ofNat_val_eq_self]; rfl
  | svc v =>
    obtain ⟨hm, hf, hs, hi, hy⟩ := fields_SY 0 v hw rfl
    have hz : fld w 7 10 = 0 := (fld_high 7 hy (by decide)).trans (Nat.div_eq_of_lt v.isLt)
    have hv : fld w 0 7 = v := (fld_low 7 hy (by decide)).trans (Nat.mod_eq_of_lt v.isLt)
    rw [← fV_eq hv, decodeWord_system lit hm, decodeSystem, hf, hz]; rfl
  | hret s | pgmap s | pginv s =>
    obtain ⟨hm, hf, hs, hi, hy⟩ := fields_SY s 0 hw rfl
    rw [← fS_eq hs, decodeWord_system lit hm, decodeSystem, hf, hi]; rfl
  | fltrd s n =>
    obtain ⟨hm, hf, hs, hi, hy⟩ := fields_SY s n hw rfl
    have hz : fld w 2 9 = 0 := (fld_high 2 hi (by decide)).trans (Nat.div_eq_of_lt n.isLt)
    have hn : fld w 0 2 = n := (fld_low 2 hi (by decide)).trans (Nat.mod_eq_of_lt n.isLt)
    rw [← fS_eq hs, decodeWord_system lit hm, decodeSystem, hf, hz, hn, Fin.ofNat_val_eq_self]; rfl
  | qfetch s =>
    obtain ⟨hm, hf, hs, hi, hy⟩ := fields_SY s 0 hw rfl
    rw [← fS_eq hs, decodeWord_firmware lit hm, decodeFirmware, hf, hi]; rfl
  -- words without operands
  | rsfenceTeam | rsfenceSet | rsfenceReel | nop | exit | yield | join | ret | wdetach | pwrel | wbar | qdisp | qcomp =>
    subst hw; rfl
  -- events have no word
  | _ => cases word

end Sys2Proof
end

section
/-! ## Decoding, then encoding

Every branch of the decoder accounts for all 31 bits below bit 31: an operand, a code or the opcode takes them, or they are
zero. -/

namespace Sys2Proof

/-! ### Codes that decode -/

theorem Scope.ofCode_eq_some {n : Nat} {x : Scope} : Scope.ofCode n = some x ↔ x.code = n :=
  ⟨fun h => by unfold Scope.ofCode at h; split at h <;> cases h <;> rfl, fun h => h ▸ x.ofCode_code⟩

theorem Cond.ofCode_eq_some {n : Nat} {x : Cond} : Cond.ofCode n = some x ↔ x.code = n :=
  ⟨fun h => by unfold Cond.ofCode at h; split at h <;> cases h <;> rfl, fun h => h ▸ x.ofCode_code⟩

theorem FCond.ofCode_eq_some {n : Nat} {x : FCond} : FCond.ofCode n = some x ↔ x.code = n :=
  ⟨fun h => by unfold FCond.ofCode at h; split at h <;> cases h <;> rfl, fun h => h ▸ x.ofCode_code⟩

theorem RoundMode.ofCode_eq_some {n : Nat} {x : RoundMode} : RoundMode.ofCode n = some x ↔ x.code = n :=
  ⟨fun h => by unfold RoundMode.ofCode at h; split at h <;> cases h <;> rfl, fun h => h ▸ x.ofCode_code⟩

theorem FType.ofCode_eq_some {n : Nat} {x : FType} : FType.ofCode n = some x ↔ x.code = n :=
  ⟨fun h => by unfold FType.ofCode at h; split at h <;> cases h <;> rfl, fun h => h ▸ x.ofCode_code⟩

theorem CvtType.ofCode_eq_some {n : Nat} {x : CvtType} : CvtType.ofCode n = some x ↔ x.code = n :=
  ⟨fun h => by unfold CvtType.ofCode at h; split at h <;> cases h <;> rfl, fun h => h ▸ x.ofCode_code⟩

theorem LoadSize.ofCode_eq_some {n : Nat} {x : LoadSize} : LoadSize.ofCode n = some x ↔ x.code = n :=
  ⟨fun h => by unfold LoadSize.ofCode at h; split at h <;> cases h <;> rfl, fun h => h ▸ x.ofCode_code⟩

theorem StoreSize.ofCode_eq_some {n : Nat} {x : StoreSize} : StoreSize.ofCode n = some x ↔ x.code = n :=
  ⟨fun h => by unfold StoreSize.ofCode at h; split at h <;> cases h <;> rfl, fun h => h ▸ x.ofCode_code⟩

theorem LocalSpace.ofCode_eq_some {n : Nat} {x : LocalSpace} : LocalSpace.ofCode n = some x ↔ x.code = n :=
  ⟨fun h => by unfold LocalSpace.ofCode at h; split at h <;> cases h <;> rfl, fun h => h ▸ x.ofCode_code⟩

theorem AtomOp.ofCode_eq_some {n : Nat} {x : AtomOp} : AtomOp.ofCode n = some x ↔ x.code = n :=
  ⟨fun h => by unfold AtomOp.ofCode at h; split at h <;> cases h <;> rfl, fun h => h ▸ x.ofCode_code⟩

theorem AtomPlace.ofCode_eq_some {n : Nat} {x : AtomPlace} : AtomPlace.ofCode n = some x ↔ x.code = n :=
  ⟨fun h => by unfold AtomPlace.ofCode at h; split at h <;> cases h <;> rfl, fun h => h ▸ x.ofCode_code⟩

theorem CopySpace.ofCode_eq_some {n : Nat} {x : CopySpace} : CopySpace.ofCode n = some x ↔ x.code = n :=
  ⟨fun h => by unfold CopySpace.ofCode at h; split at h <;> cases h <;> rfl, fun h => h ▸ x.ofCode_code⟩

theorem DeltaType.ofCode_eq_some {n : Nat} {x : DeltaType} : DeltaType.ofCode n = some x ↔ x.code = n :=
  ⟨fun h => by unfold DeltaType.ofCode at h; split at h <;> cases h <;> rfl, fun h => h ▸ x.ofCode_code⟩

theorem RedOp.ofCode_eq_some {n : Nat} {x : RedOp} : RedOp.ofCode n = some x ↔ x.code = n :=
  ⟨fun h => by unfold RedOp.ofCode at h; split at h <;> cases h <;> rfl, fun h => h ▸ x.ofCode_code⟩

theorem Src2.code_ofCode_fld (w lo : Nat) : (Src2.ofCode (fld w lo 7)).code = fld w lo 7 := by
  have hlt := fld_lt w lo 7
  unfold Src2.ofCode
  split
  · simp only [Src2.code, BitVec.toNat_ofNat]; omega
  · simp only [Src2.code, Fin.ofNat]; omega

theorem voffCode_voffOfCode_fld (w lo : Nat) : voffCode (voffOfCode (fld w lo 7)) = fld w lo 7 := by
  have hlt := fld_lt w lo 7
  unfold voffOfCode
  split
  · simp only [voffCode]; omega
  · simp only [voffCode, Fin.ofNat]; omega

theorem voffOfCode_ne (n : Nat) : voffOfCode n ≠ some 127 := by
  unfold voffOfCode
  split
  · exact nofun
  · next h => exact fun e => h (congrArg Fin.val (Option.some.inj e))

theorem toNat_fld_beq (w lo : Nat) : (fld w lo 1 == 1).toNat = fld w lo 1 := by
  have hlt := fld_lt w lo 1
  rcases (by omega : fld w lo 1 = 0 ∨ fld w lo 1 = 1) with h | h <;> rw [h] <;> rfl

/-! ### What a branch of the decoder must come to -/

/-- `i` is well formed, its word is the low 31 bits of `w`, and its literal is `l`. -/
def Spells (w : Nat) (l : List W32) (i : Instr) : Prop := i.Encodable ∧ i.literals = l ∧ encodeWord i = fld w 0 31

/-- An instruction that is read from `w` spells it. -/
def Reads (w : Nat) (l : List W32) (r : Decoded) : Prop := ∀ i, r = .ok i → Spells w l i

theorem reads_error {w : Nat} {l : List W32} (e : DecodeError) : Reads w l (.error e) ↔ True := iff_true_intro nofun

theorem reads_ok {w : Nat} {l : List W32} {i : Instr} : Reads w l (.ok i) ↔ Spells w l i :=
  ⟨fun h => h i rfl, fun h _ e => Except.ok.inj e ▸ h⟩

theorem reads_zeroBits {w z : Nat} {l : List W32} {r : Decoded} : Reads w l (zeroBits z r) ↔ (z = 0 → Reads w l r) := by
  unfold zeroBits
  split
  · next h => simp [h]
  · next h => simp [h, reads_error]

theorem reads_coded {w : Nat} {l : List W32} {α : Type} {o : Option α} {k : α → Decoded} :
    Reads w l (coded o k) ↔ ∀ x, o = some x → Reads w l (k x) := by
  cases o with
  | none => simp [coded, reads_error]
  | some x => simp [coded]

theorem reads_formed {w : Nat} {l : List W32} {i : Instr} : Reads w l (formed i) ↔ (i.wf = true → Spells w l i) := by
  unfold formed
  split
  · next h => simp [h, reads_ok]
  · next h => simp [h, reads_error]

/-! ### How the fields of a format make up a word -/

theorem split_VV (w : Nat) :
    fld w 0 31 = fld w 0 7 + fld w 7 7 * 0x80 + fld w 14 7 * 0x4000 + fld w 21 4 * 0x200000 + fld w 25 6 * 0x2000000 ∧
    fld w 0 7 = fld w 0 3 + fld w 3 4 * 8 ∧ fld w 7 7 = fld w 7 3 + fld w 10 4 * 8 ∧
    fld w 14 7 = fld w 14 3 + fld w 17 4 * 8 ∧ fld w 17 4 = fld w 17 2 + fld w 19 2 * 4 ∧
    fld w 21 4 = fld w 21 3 + fld w 24 1 * 8 := by
  unfold fld; omega

theorem split_SS (w : Nat) :
    fld w 0 31 = fld w 0 7 + fld w 7 6 * 0x80 + fld w 13 6 * 0x2000 + fld w 19 6 * 0x80000 + fld w 25 6 * 0x2000000 ∧
    fld w 0 7 = fld w 0 1 + fld w 1 6 * 2 ∧ fld w 0 13 = fld w 0 7 + fld w 7 6 * 0x80 ∧
    fld w 19 6 = fld w 19 4 + fld w 23 2 * 16 ∧ fld w 19 4 < 16 := by
  unfold fld; omega

theorem split_SI (w : Nat) :
    fld w 0 31 = fld w 0 13 + fld w 13 6 * 0x2000 + fld w 19 6 * 0x80000 + fld w 25 6 * 0x2000000 := by
  unfold fld; omega

theorem split_AF (w : Nat) :
    fld w 0 31 = fld w 0 7 + fld w 7 6 * 0x80 + fld w 13 4 * 0x2000 + fld w 17 4 * 0x20000 + fld w 21 4 * 0x200000 +
      fld w 25 6 * 0x2000000 ∧
    fld w 0 13 = fld w 0 7 + fld w 7 6 * 0x80 ∧ fld w 7 6 = fld w 7 3 + fld w 10 3 * 8 ∧
    fld w 13 4 = fld w 13 3 + fld w 16 1 * 8 ∧ fld w 17 4 = fld w 17 3 + fld w 20 1 * 8 ∧
    fld w 16 5 = fld w 16 1 + fld w 17 4 * 2 := by
  unfold fld; omega

theorem split_MM (w : Nat) :
    fld w 0 31 = fld w 0 3 + fld w 3 7 * 8 + fld w 10 4 * 0x400 + fld w 14 7 * 0x4000 + fld w 21 4 * 0x200000 +
      fld w 25 6 * 0x2000000 ∧
    fld w 21 4 = fld w 21 3 + fld w 24 1 * 8 ∧ fld w 21 4 = fld w 21 1 + fld w 22 3 * 2 ∧ fld w 21 3 < 8 ∧ fld w 21 1 < 2 := by
  unfold fld; omega

theorem split_EN (w : Nat) :
    fld w 0 31 = fld w 0 4 + fld w 4 6 * 0x10 + fld w 10 6 * 0x400 + fld w 16 6 * 0x10000 + fld w 22 3 * 0x400000 +
      fld w 25 6 * 0x2000000 ∧
    fld w 0 4 = fld w 0 3 + fld w 3 1 * 8 ∧ fld w 0 4 = fld w 0 2 + fld w 2 2 * 4 ∧ fld w 0 2 < 4 ∧
    fld w 22 3 = fld w 22 1 + fld w 23 2 * 2 ∧ fld w 4 12 = fld w 4 6 + fld w 10 6 * 64 ∧
    fld w 4 21 = fld w 4 12 + fld w 16 6 * 0x1000 + fld w 22 3 * 0x40000 := by
  unfold fld; omega

theorem split_BR (w : Nat) :
    fld w 0 31 = fld w 0 19 + fld w 19 3 * 0x80000 + fld w 22 3 * 0x400000 + fld w 25 6 * 0x2000000 := by
  unfold fld; omega

theorem split_WT (w : Nat) :
    fld w 0 31 = fld w 0 4 + fld w 4 1 * 0x10 + fld w 5 5 * 0x20 + fld w 10 5 * 0x400 + fld w 15 5 * 0x8000 +
      fld w 20 5 * 0x100000 + fld w 25 6 * 0x2000000 := by
  unfold fld; omega

theorem split_SY (w : Nat) :
    fld w 0 31 = fld w 0 17 + fld w 17 8 * 0x20000 + fld w 25 6 * 0x2000000 ∧ fld w 0 17 = fld w 0 11 + fld w 11 6 * 0x800 := by
  unfold fld; omega

/-- The fields of control words that share bits with the immediate. -/
theorem split_control (w : Nat) :
    fld w 0 17 = fld w 0 8 + fld w 8 1 * 0x100 + fld w 9 8 * 0x200 ∧ fld w 0 17 = fld w 0 3 + fld w 3 14 * 8 ∧
    fld w 3 14 = fld w 3 1 + fld w 4 13 * 2 ∧ fld w 3 14 = fld w 3 2 + fld w 5 12 * 4 ∧ fld w 8 1 < 2 ∧ fld w 3 1 < 2 := by
  unfold fld; omega

/-- The fields of barrier words that share bits with the immediate. -/
theorem split_barrier (w : Nat) :
    fld w 0 11 = fld w 0 4 + fld w 4 7 * 16 ∧ fld w 0 11 = fld w 0 7 + fld w 7 4 * 0x80 ∧
    fld w 0 7 = fld w 0 1 + fld w 1 6 * 2 ∧ fld w 0 7 = fld w 0 1 + fld w 1 3 * 2 + fld w 4 3 * 16 := by
  unfold fld; omega

/-- The fields of system words that share bits with the immediate. -/
theorem split_system (w : Nat) :
    fld w 0 17 = fld w 0 7 + fld w 7 10 * 0x80 ∧ fld w 0 11 = fld w 0 2 + fld w 2 9 * 4 := by
  unfold fld; omega

/-! ### Operands that are read through a residue -/

theorem val_ofNat_fld {m : Nat} [NeZero m] (w lo n : Nat) (h : 2 ^ n = m) : (Fin.ofNat m (fld w lo n)).val = fld w lo n :=
  Nat.mod_eq_of_lt (h ▸ fld_lt w lo n)

theorem toNat_ofNat_fld (w lo n : Nat) : (BitVec.ofNat n (fld w lo n)).toNat = fld w lo n := by
  rw [BitVec.toNat_ofNat, Nat.mod_eq_of_lt (fld_lt w lo n)]

end Sys2Proof
end

section
/-! ## Every branch of the decoder spells its word -/

namespace Sys2Proof

section

variable {w : Nat}

theorem reads_decodeScalarRegister (hm : fld w 25 6 = 0x00) : Reads w [] (decodeScalarRegister w) := by
  have hw := split_SS w
  unfold decodeScalarRegister
  split
  case h_1 hf =>
    split
    · exact (reads_error _).2 trivial
    · next hne =>
      refine reads_zeroBits.2 fun hz => reads_ok.2 ⟨⟨?_, rfl⟩, rfl, ?_⟩
      · change (!((fS w 13).val == 0 && (fS w 7).val == 0 && (fS w 1).val == 0)) = true
        simp only [fS_val, Bool.not_eq_true', Bool.and_eq_false_iff, beq_eq_false_iff_ne]
        omega
      · delta encodeWord
        simp only [fS_val]
        omega
  all_goals simp only [reads_zeroBits, reads_coded, reads_ok, reads_error, Cond.ofCode_eq_some]
  all_goals
    intros
    refine ⟨⟨rfl, rfl⟩, rfl, ?_⟩
    delta encodeWord
    simp only [fS_val]
    omega

theorem reads_decodeSli (hm : fld w 25 6 = 0x01) : Reads w [] (decodeSli w) := by
  unfold decodeSli
  simp only [reads_zeroBits, reads_ok]
  intros
  have hw := split_SI w
  refine ⟨⟨rfl, rfl⟩, rfl, ?_⟩
  delta encodeWord
  simp only [fS_val, toNat_ofNat_fld]
  omega

theorem reads_decodeSlit (lit : W32) (hm : fld w 25 6 = 0x02) : Reads w [lit] (decodeSlit w lit) := by
  unfold decodeSlit
  split
  all_goals simp only [reads_zeroBits, reads_ok, reads_error]
  all_goals
    intros
    have hw := split_SS w
    refine ⟨⟨rfl, rfl⟩, rfl, ?_⟩
    delta encodeWord
    simp only [fS_val]
    omega

theorem reads_decodeAffine (hm : fld w 25 6 = 0x08) : Reads w [] (decodeAffine w) := by
  unfold decodeAffine
  split
  all_goals simp only [reads_zeroBits, reads_ok, reads_error]
  all_goals
    intros
    have hw := split_AF w
    refine ⟨⟨rfl, rfl⟩, rfl, ?_⟩
    delta encodeWord
    simp only [fS_val, fA_val, toNat_ofNat_fld]
    omega

theorem reads_decodePredicate (hm : fld w 25 6 = 0x09) : Reads w [] (decodePredicate w) := by
  unfold decodePredicate
  split
  all_goals simp only [reads_zeroBits, reads_ok, reads_error]
  all_goals
    intros
    have hw := split_AF w
    refine ⟨⟨rfl, rfl⟩, rfl, ?_⟩
    delta encodeWord
    simp only [fS_val, fP_val]
    omega

theorem reads_decodeVectorArithVV (hm : fld w 25 6 = 0x10) : Reads w [] (decodeVectorArithVV w) := by
  unfold decodeVectorArithVV
  split
  all_goals simp only [reads_ok, reads_error]
  all_goals
    have hw := split_VV w
    refine ⟨⟨rfl, rfl⟩, rfl, ?_⟩
    delta encodeWord
    simp only [fV_val]
    omega

theorem reads_decodeVectorArithVX (hm : fld w 25 6 = 0x11) : Reads w [] (decodeVectorArithVX w) := by
  unfold decodeVectorArithVX
  split
  all_goals simp only [reads_ok, reads_error]
  all_goals
    have hw := split_VV w
    refine ⟨⟨rfl, rfl⟩, rfl, ?_⟩
    delta encodeWord
    simp only [fV_val, Src2.code_ofCode_fld]
    omega

theorem reads_decodeVectorLogicVV (hm : fld w 25 6 = 0x12) : Reads w [] (decodeVectorLogicVV w) := by
  unfold decodeVectorLogicVV
  split
  all_goals simp only [reads_ok, reads_error]
  all_goals have hw := split_VV w
  case h_10 | h_11 | h_12 | h_13 | h_14 | h_15 | h_16 =>
    have hlt := fld_lt w 21 3
    refine ⟨⟨?_, rfl⟩, rfl, ?_⟩
    · change ((fP w 21).val != 0) = true
      rw [fP_val, bne_iff_ne]
      omega
    · delta encodeWord
      simp only [fP_val, fV_val]
      omega
  all_goals
    refine ⟨⟨rfl, rfl⟩, rfl, ?_⟩
    delta encodeWord
    simp only [fV_val]
    omega

theorem reads_decodeVectorLogicVX (hm : fld w 25 6 = 0x13) : Reads w [] (decodeVectorLogicVX w) := by
  unfold decodeVectorLogicVX
  split
  all_goals simp only [reads_zeroBits, reads_ok, reads_error]
  all_goals
    intros
    have hw := split_VV w
    refine ⟨⟨rfl, rfl⟩, rfl, ?_⟩
    delta encodeWord
    simp only [fV_val, Src2.code_ofCode_fld]
    omega

theorem reads_decodeVcmpVV (hm : fld w 25 6 = 0x14) : Reads w [] (decodeVcmpVV w) := by
  unfold decodeVcmpVV
  simp only [reads_zeroBits, reads_coded, reads_ok, Cond.ofCode_eq_some]
  intros
  have hw := split_VV w
  refine ⟨⟨rfl, rfl⟩, rfl, ?_⟩
  delta encodeWord
  simp only [fV_val, fP_val]
  omega

theorem reads_decodeVcmpVX (hm : fld w 25 6 = 0x15) : Reads w [] (decodeVcmpVX w) := by
  unfold decodeVcmpVX
  simp only [reads_zeroBits, reads_coded, reads_ok, Cond.ofCode_eq_some]
  intros
  have hw := split_VV w
  refine ⟨⟨rfl, rfl⟩, rfl, ?_⟩
  delta encodeWord
  simp only [fV_val, fP_val, Src2.code_ofCode_fld]
  omega

theorem reads_decodeCrossLaneVV (hm : fld w 25 6 = 0x16) : Reads w [] (decodeCrossLaneVV w) := by
  unfold decodeCrossLaneVV
  split
  all_goals simp only [reads_zeroBits, reads_ok, reads_error]
  all_goals
    intros
    have hw := split_VV w
    refine ⟨⟨rfl, rfl⟩, rfl, ?_⟩
    delta encodeWord
    simp only [fV_val, fP_val]
    omega

theorem reads_decodeCrossLaneVX (hm : fld w 25 6 = 0x17) : Reads w [] (decodeCrossLaneVX w) := by
  unfold decodeCrossLaneVX
  split
  all_goals simp only [reads_ok, reads_error]
  all_goals
    have hw := split_VV w
    refine ⟨⟨rfl, rfl⟩, rfl, ?_⟩
    delta encodeWord
    simp only [fV_val, Src2.code_ofCode_fld]
    omega

theorem reads_decodeFloat (hm : fld w 25 6 = 0x18 + fld w 25 2) : Reads w [] (decodeFloat w) := by
  unfold decodeFloat
  split
  all_goals simp only [reads_zeroBits, reads_coded, reads_ok, reads_error, FType.ofCode_eq_some, RoundMode.ofCode_eq_some]
  all_goals
    intros
    have hw := split_VV w
    refine ⟨⟨rfl, rfl⟩, rfl, ?_⟩
    delta encodeWord
    simp only [fV_val]
    omega

theorem reads_decodeFcmp (hm : fld w 25 6 = 0x1b) : Reads w [] (decodeFcmp w) := by
  unfold decodeFcmp
  simp only [reads_zeroBits, reads_coded, reads_ok, FCond.ofCode_eq_some, FType.ofCode_eq_some]
  intros
  have hw := split_VV w
  refine ⟨⟨rfl, rfl⟩, rfl, ?_⟩
  delta encodeWord
  simp only [fV_val, fP_val]
  omega

theorem reads_decodeCvt (hm : fld w 25 6 = 0x1c) : Reads w [] (decodeCvt w) := by
  have hw := split_VV w
  unfold decodeCvt
  simp only [reads_zeroBits, reads_coded, reads_formed, CvtType.ofCode_eq_some]
  intro hz y hy x hx wf
  refine ⟨⟨wf, rfl⟩, rfl, ?_⟩
  delta encodeWord
  simp only [fV_val, fP_val]
  omega

theorem reads_decodeCvtp (hm : fld w 25 6 = 0x1d) : Reads w [] (decodeCvtp w) := by
  unfold decodeCvtp
  simp only [reads_zeroBits, reads_ok]
  intros
  have hw := split_VV w
  refine ⟨⟨rfl, rfl⟩, rfl, ?_⟩
  delta encodeWord
  simp only [fV_val, fP_val]
  omega

theorem reads_decodeGlobal (hm : fld w 25 6 = 0x20) : Reads w [] (decodeGlobal w) := by
  unfold decodeGlobal
  split
  all_goals simp only [reads_zeroBits, reads_coded, reads_ok, reads_error, LoadSize.ofCode_eq_some, StoreSize.ofCode_eq_some,
    Scope.ofCode_eq_some]
  all_goals
    intros
    have hw := split_MM w
    refine ⟨⟨bne_iff_ne.2 (voffOfCode_ne _), rfl⟩, rfl, ?_⟩
    delta encodeWord
    simp only [fV_val, fA_val, voffCode_voffOfCode_fld]
    omega

theorem reads_decodeWindow (hm : fld w 25 6 = 0x21) : Reads w [] (decodeWindow w) := by
  unfold decodeWindow
  split
  all_goals simp only [reads_coded, reads_ok, reads_error, LoadSize.ofCode_eq_some, StoreSize.ofCode_eq_some,
    Scope.ofCode_eq_some]
  all_goals
    intros
    have hw := split_MM w
    refine ⟨⟨bne_iff_ne.2 (voffOfCode_ne _), rfl⟩, rfl, ?_⟩
    delta encodeWord
    simp only [fV_val, fA_val, voffCode_voffOfCode_fld]
    omega

theorem reads_decodeLocal (hm : fld w 25 6 = 0x22) : Reads w [] (decodeLocal w) := by
  unfold decodeLocal
  split
  all_goals simp only [reads_coded, reads_ok, reads_error, LoadSize.ofCode_eq_some, StoreSize.ofCode_eq_some,
    LocalSpace.ofCode_eq_some]
  all_goals
    intros
    have hw := split_MM w
    refine ⟨⟨bne_iff_ne.2 (voffOfCode_ne _), rfl⟩, rfl, ?_⟩
    delta encodeWord
    simp only [fV_val, fA_val, voffCode_voffOfCode_fld]
    omega

theorem reads_decodeAtomGlobal32 (hm : fld w 25 6 = 0x23) : Reads w [] (decodeAtomGlobal32 w) := by
  unfold decodeAtomGlobal32
  simp only [reads_coded, reads_ok, AtomOp.ofCode_eq_some, Scope.ofCode_eq_some]
  intros
  have hw := split_MM w
  refine ⟨⟨bne_iff_ne.2 (voffOfCode_ne _), rfl⟩, rfl, ?_⟩
  delta encodeWord
  simp only [fV_val, fA_val, voffCode_voffOfCode_fld]
  omega

theorem reads_decodeAtomGlobal64 (hm : fld w 25 6 = 0x24) : Reads w [] (decodeAtomGlobal64 w) := by
  unfold decodeAtomGlobal64
  simp only [reads_coded, reads_ok, AtomOp.ofCode_eq_some, Scope.ofCode_eq_some]
  intros
  have hw := split_MM w
  refine ⟨⟨bne_iff_ne.2 (voffOfCode_ne _), rfl⟩, rfl, ?_⟩
  delta encodeWord
  simp only [fV_val, fA_val, voffCode_voffOfCode_fld]
  omega

theorem reads_decodeAtomLocal32 (hm : fld w 25 6 = 0x25) : Reads w [] (decodeAtomLocal32 w) := by
  unfold decodeAtomLocal32
  simp only [reads_coded, reads_ok, AtomOp.ofCode_eq_some, AtomPlace.ofCode_eq_some]
  intros
  have hw := split_MM w
  refine ⟨⟨bne_iff_ne.2 (voffOfCode_ne _), rfl⟩, rfl, ?_⟩
  delta encodeWord
  simp only [fV_val, fA_val, voffCode_voffOfCode_fld]
  omega

theorem reads_decodeAtomLocal64 (hm : fld w 25 6 = 0x26) : Reads w [] (decodeAtomLocal64 w) := by
  unfold decodeAtomLocal64
  simp only [reads_coded, reads_ok, AtomOp.ofCode_eq_some, AtomPlace.ofCode_eq_some]
  intros
  have hw := split_MM w
  refine ⟨⟨bne_iff_ne.2 (voffOfCode_ne _), rfl⟩, rfl, ?_⟩
  delta encodeWord
  simp only [fV_val, fA_val, voffCode_voffOfCode_fld]
  omega

theorem reads_decodeFabric (hm : fld w 25 6 = 0x27) : Reads w [] (decodeFabric w) := by
  unfold decodeFabric
  split
  all_goals simp only [reads_coded, reads_ok, reads_error, AtomOp.ofCode_eq_some, Scope.ofCode_eq_some]
  all_goals
    intros
    have hw := split_MM w
    refine ⟨⟨rfl, rfl⟩, rfl, ?_⟩
    delta encodeWord
    simp only [fV_val, fA_val, toNat_fld_beq]
    omega

theorem reads_decodeCopy (hm : fld w 25 6 = 0x28) : Reads w [] (decodeCopy w) := by
  unfold decodeCopy
  split
  all_goals simp only [reads_coded, reads_ok, reads_error, CopySpace.ofCode_eq_some]
  all_goals
    intros
    have hw := split_EN w
    refine ⟨⟨rfl, rfl⟩, rfl, ?_⟩
    delta encodeWord
    simp only [fS_val]
    omega

theorem reads_decodeCopyOther (hm : fld w 25 6 = 0x29) : Reads w [] (decodeCopyOther w) := by
  unfold decodeCopyOther
  split
  all_goals simp only [reads_zeroBits, reads_coded, reads_ok, reads_error, CopySpace.ofCode_eq_some]
  all_goals
    intros
    have hw := split_EN w
    refine ⟨⟨rfl, rfl⟩, rfl, ?_⟩
    delta encodeWord
    simp only [fS_val]
    omega

theorem reads_decodeMatrix (hm : fld w 25 6 = 0x2a) : Reads w [] (decodeMatrix w) := by
  unfold decodeMatrix
  split
  all_goals simp only [reads_zeroBits, reads_ok, reads_error]
  all_goals
    intros
    have hw := split_EN w
    refine ⟨⟨rfl, rfl⟩, rfl, ?_⟩
    delta encodeWord
    simp only [fS_val, fP_val]
    omega

theorem reads_decodeStream (hm : fld w 25 6 = 0x2b) : Reads w [] (decodeStream w) := by
  unfold decodeStream
  split
  all_goals simp only [reads_zeroBits, reads_coded, reads_ok, reads_error, DeltaType.ofCode_eq_some]
  all_goals
    intros
    have hw := split_EN w
    refine ⟨⟨rfl, rfl⟩, rfl, ?_⟩
    delta encodeWord
    simp only [fS_val, fP_val, toNat_fld_beq]
    omega

theorem reads_decodeCollective (hm : fld w 25 6 = 0x2c) : Reads w [] (decodeCollective w) := by
  unfold decodeCollective
  split
  all_goals simp only [reads_coded, reads_ok, reads_error, RedOp.ofCode_eq_some]
  all_goals
    intros
    have hw := split_EN w
    refine ⟨⟨rfl, rfl⟩, rfl, ?_⟩
    delta encodeWord
    simp only [fS_val, fP_val]
    omega

theorem reads_decodeSearch (hm : fld w 25 6 = 0x2d) : Reads w [] (decodeSearch w) := by
  unfold decodeSearch
  split
  all_goals simp only [reads_zeroBits, reads_ok, reads_error]
  all_goals
    intros
    have hw := split_EN w
    refine ⟨⟨rfl, rfl⟩, rfl, ?_⟩
    delta encodeWord
    simp only [fS_val, fP_val]
    omega

theorem reads_decodeControl (hm : fld w 25 6 = 0x30) : Reads w [] (decodeControl w) := by
  unfold decodeControl
  split
  all_goals
    have hw := split_SY w
    have hy := split_control w
  case h_1 | h_2 =>
    split
    all_goals
      refine reads_zeroBits.2 fun hz => reads_formed.2 fun wf => ⟨⟨wf, rfl⟩, rfl, ?_⟩
      delta encodeWord
      simp only [fP_val, toNat_ofNat_fld]
      omega
  case h_16 =>
    simp only [reads_zeroBits, reads_coded, reads_formed, Scope.ofCode_eq_some]
    intro hz c hc wf
    refine ⟨⟨wf, rfl⟩, rfl, ?_⟩
    delta encodeWord
    simp only [val_ofNat_fld (m := 4) w 3 2 rfl]
    omega
  all_goals simp only [reads_zeroBits, reads_ok, reads_error]
  all_goals
    intros
    refine ⟨⟨rfl, rfl⟩, rfl, ?_⟩
    delta encodeWord
    simp only [fS_val, fP_val, val_ofNat_fld (m := 2048) w 0 11 rfl]
    omega

theorem reads_decodeWaitcnt (hm : fld w 25 6 = 0x31) : Reads w [] (decodeWaitcnt w) := by
  unfold decodeWaitcnt
  simp only [reads_zeroBits, reads_ok]
  intros
  have hw := split_WT w
  refine ⟨⟨rfl, rfl⟩, rfl, ?_⟩
  delta encodeWord
  simp only [toNat_fld_beq, val_ofNat_fld (m := 32) w 5 5 rfl, val_ofNat_fld (m := 32) w 10 5 rfl,
    val_ofNat_fld (m := 32) w 15 5 rfl, val_ofNat_fld (m := 32) w 20 5 rfl]
  omega

theorem reads_decodeBranch (hm : fld w 25 6 = 0x32) : Reads w [] (decodeBranch w) := by
  unfold decodeBranch
  split
  all_goals simp only [reads_zeroBits, reads_ok, reads_error]
  all_goals
    intros
    have hw := split_BR w
    refine ⟨⟨rfl, rfl⟩, rfl, ?_⟩
    delta encodeWord
    simp only [fP_val, toNat_ofNat_fld]
    omega

theorem reads_decodeBarrier (hm : fld w 25 6 = 0x33) : Reads w [] (decodeBarrier w) := by
  unfold decodeBarrier
  split
  all_goals
    have hw := split_SY w
    have hy := split_barrier w
  case h_2 =>
    refine reads_zeroBits.2 fun hz => reads_formed.2 fun wf => ⟨⟨wf, rfl⟩, rfl, ?_⟩
    delta encodeWord
    simp only [fA_val, val_ofNat_fld (m := 128) w 0 7 rfl]
    omega
  all_goals simp only [reads_zeroBits, reads_ok, reads_error]
  all_goals
    intros
    refine ⟨⟨rfl, rfl⟩, rfl, ?_⟩
    delta encodeWord
    simp only [fS_val, fA_val, fP_val, toNat_fld_beq, val_ofNat_fld (m := 16) w 0 4 rfl]
    omega

theorem reads_decodeTimeline (hm : fld w 25 6 = 0x34) : Reads w [] (decodeTimeline w) := by
  unfold decodeTimeline
  split
  all_goals simp only [reads_zeroBits, reads_ok, reads_error]
  all_goals
    intros
    have hw := split_SS w
    refine ⟨⟨rfl, rfl⟩, rfl, ?_⟩
    delta encodeWord
    simp only [fS_val]
    omega

theorem reads_decodeSystem (hm : fld w 25 6 = 0x38) : Reads w [] (decodeSystem w) := by
  unfold decodeSystem
  split
  all_goals simp only [reads_zeroBits, reads_ok, reads_error]
  all_goals
    intros
    have hw := split_SY w
    have hy := split_system w
    refine ⟨⟨rfl, rfl⟩, rfl, ?_⟩
    delta encodeWord
    simp only [fS_val, fV_val, val_ofNat_fld (m := 2048) w 0 11 rfl, val_ofNat_fld (m := 4) w 0 2 rfl]
    omega

theorem reads_decodeFirmware (hm : fld w 25 6 = 0x3e) : Reads w [] (decodeFirmware w) := by
  unfold decodeFirmware
  split
  all_goals simp only [reads_zeroBits, reads_ok, reads_error]
  all_goals
    intros
    have hw := split_SY w
    refine ⟨⟨rfl, rfl⟩, rfl, ?_⟩
    delta encodeWord
    simp only [fS_val]
    omega

end

end Sys2Proof
end

section
/-! ## Words and the instructions they hold -/

namespace Sys2Proof

/-! ### A word that decodes -/

/-- The literal that belongs to a word: an SL word has one. -/
def literalsOf (w : Nat) (lit : W32) : List W32 := if fld w 25 6 = 2 then [lit] else []

theorem literalsOf_SL {w : Nat} (lit : W32) (h : fld w 25 6 = 2) : literalsOf w lit = [lit] := if_pos h

theorem literalsOf_other {w n : Nat} (lit : W32) (h : fld w 25 6 = n) (hn : n ≠ 2) : literalsOf w lit = [] :=
  if_neg (h ▸ hn)

/-- Every table of the decoder spells the word it is given. -/
theorem reads_decodeWord (w : Nat) (lit : W32) : Reads w (literalsOf w lit) (decodeWord w lit) := by
  unfold decodeWord
  split
  case h_3 hm => exact literalsOf_SL lit hm ▸ reads_decodeSlit lit hm
  case h_41 => exact (reads_error _).2 trivial
  all_goals
    rename_i hm
    rw [literalsOf_other lit hm (by decide)]
  case h_1 => exact reads_decodeScalarRegister hm
  case h_2 => exact reads_decodeSli hm
  case h_4 => exact reads_decodeAffine hm
  case h_5 => exact reads_decodePredicate hm
  case h_6 => exact reads_decodeVectorArithVV hm
  case h_7 => exact reads_decodeVectorArithVX hm
  case h_8 => exact reads_decodeVectorLogicVV hm
  case h_9 => exact reads_decodeVectorLogicVX hm
  case h_10 => exact reads_decodeVcmpVV hm
  case h_11 => exact reads_decodeVcmpVX hm
  case h_12 => exact reads_decodeCrossLaneVV hm
  case h_13 => exact reads_decodeCrossLaneVX hm
  case h_14 | h_15 | h_16 => exact reads_decodeFloat (by unfold fld at hm ⊢; omega)
  case h_17 => exact reads_decodeFcmp hm
  case h_18 => exact reads_decodeCvt hm
  case h_19 => exact reads_decodeCvtp hm
  case h_20 => exact reads_decodeGlobal hm
  case h_21 => exact reads_decodeWindow hm
  case h_22 => exact reads_decodeLocal hm
  case h_23 => exact reads_decodeAtomGlobal32 hm
  case h_24 => exact reads_decodeAtomGlobal64 hm
  case h_25 => exact reads_decodeAtomLocal32 hm
  case h_26 => exact reads_decodeAtomLocal64 hm
  case h_27 => exact reads_decodeFabric hm
  case h_28 => exact reads_decodeCopy hm
  case h_29 => exact reads_decodeCopyOther hm
  case h_30 => exact reads_decodeMatrix hm
  case h_31 => exact reads_decodeStream hm
  case h_32 => exact reads_decodeCollective hm
  case h_33 => exact reads_decodeSearch hm
  case h_34 => exact reads_decodeControl hm
  case h_35 => exact reads_decodeWaitcnt hm
  case h_36 => exact reads_decodeBranch hm
  case h_37 => exact reads_decodeBarrier hm
  case h_38 => exact reads_decodeTimeline hm
  case h_39 => exact reads_decodeSystem hm
  case h_40 => exact reads_decodeFirmware hm

/-! ### The words of an instruction -/

/-- An instruction that has a word is its word, then its literal. -/
theorem encode_eq_cons {i : Instr} (h : i.isWord = true) : encode i = BitVec.ofNat 32 (encodeWord i) :: i.literals := by
  unfold encode
  split
  · rfl
  · rfl
  · next hslit hslitN32 =>
    rw [if_pos h]
    congr 1
    unfold Instr.literals
    split
    · exact absurd rfl (hslit _ _)
    · exact absurd rfl (hslitN32 _ _)
    · rfl

theorem fld_31_eq_and (w : W32) : BitVec.ofNat 32 (fld w.toNat 0 31) = w &&& 0x7fffffff#32 := by
  apply BitVec.eq_of_toNat_eq
  rw [BitVec.toNat_and, BitVec.toNat_ofNat, BitVec.toNat_ofNat]
  change _ = w.toNat &&& 2 ^ 31 - 1
  rw [Nat.and_two_pow_sub_one_eq_mod]
  have hlt := fld_lt w.toNat 0 31
  rw [Nat.mod_eq_of_lt (by omega)]
  simp only [fld, Nat.pow_zero, Nat.div_one]

theorem isSL_iff {w : W32} : isSL w = true ↔ fld w.toNat 25 6 = 2 := beq_iff_eq

theorem encodeDecode : Claims.EncodeDecode := by
  intro w l i hi
  obtain ⟨henc, hlit, hword⟩ := reads_decodeWord w.toNat l i hi
  refine ⟨henc, ?_⟩
  rw [encode_eq_cons henc.2, hword, hlit, fld_31_eq_and, literalsOf]
  simp only [isSL_iff]

/-! ### Words that are refused -/

theorem decodeWord_allZero {w : Nat} (l : W32) (h : fld w 0 31 = 0) : decodeWord w l = .error .allZero := by
  have hw := split_SS w
  have hm : fld w 25 6 = 0 := by omega
  have hf : fld w 19 6 = 0 := by omega
  rw [decodeWord_scalarRegister l hm]
  simp only [decodeScalarRegister, hf, if_pos h]

/-- The major opcodes that no table of R112 takes, with the escape 0x3f that R121 keeps for later. -/
theorem decodeWord_unassignedMajor {w : Nat} (l : W32)
    (h : fld w 25 6 ∈ [3, 4, 5, 6, 7, 10, 11, 12, 13, 14, 15, 30, 31, 46, 47, 53, 54, 55, 57, 58, 59, 60, 61, 63]) :
    decodeWord w l = .error .unassignedMajor := by
  unfold decodeWord
  split
  case h_41 => rfl
  all_goals
    rename_i hm
    rw [hm] at h
    exact absurd h (by decide)

theorem decode_missingLiteral {w : W32} (h : isSL w = true) : decode [w] = .error .missingLiteral := by
  simp only [decode, h, if_pos]

theorem reservedWordsRefused : Claims.ReservedWordsRefused := by
  refine ⟨fun l => decodeWord_allZero l rfl, fun l => decodeWord_allZero l rfl, fun w l h => ?_, fun w l h => ?_,
    fun w h => decode_missingLiteral h⟩
  · exact decodeWord_unassignedMajor l (by rw [h]; decide)
  · exact decodeWord_unassignedMajor l (List.mem_append_left [63] h)

/-- Settles O3, by the tables of the decoder one by one: every branch that gives an instruction leaves no bit of the word
unread. -/
theorem encodingsRead : Obligations.EncodingsRead := ⟨encodeDecode, reservedWordsRefused⟩

/-! ### Decoding what was encoded -/

/-- An instruction's word, read with the literals of the instruction, gives it back and spells it. -/
theorem spells_encodeWord {i : Instr} (h : i.Encodable) (lit : W32) (hlit : ∀ l ∈ i.literals, l = lit) :
    Spells (encodeWord i) (literalsOf (encodeWord i) lit) i :=
  reads_decodeWord _ _ i (decodeWord_encodeWord i h lit hlit)

theorem toNat_encodeWord {i : Instr} (h : i.Encodable) (lit : W32) (hlit : ∀ l ∈ i.literals, l = lit) :
    (BitVec.ofNat 32 (encodeWord i)).toNat = encodeWord i := by
  obtain ⟨-, -, hword⟩ := spells_encodeWord h lit hlit
  have hlt := fld_lt (encodeWord i) 0 31
  rw [BitVec.toNat_ofNat]
  omega

theorem decode_cons_of_isSL {w l : W32} {i : Instr} (rest : List W32) (hw : isSL w = true) (hi : decodeWord w.toNat l = .ok i) :
    decode (w :: l :: rest) = .ok (i, rest) := by
  simp only [decode, hw, if_pos, hi]

theorem decode_cons_of_not_isSL {w : W32} {i : Instr} (rest : List W32) (hw : ¬ isSL w = true)
    (hi : decodeWord w.toNat 0 = .ok i) : decode (w :: rest) = .ok (i, rest) := by
  cases rest <;> simp only [decode, if_neg hw, hi]

theorem literals_eq_nil_or (i : Instr) : i.literals = [] ∨ ∃ l, i.literals = [l] := by
  unfold Instr.literals
  split
  · exact .inr ⟨_, rfl⟩
  · exact .inr ⟨_, rfl⟩
  · exact .inl rfl

/-- Settles O2, by the decoder's reading of each format's fields (`decodeWord_encodeWord`); that the word read back spells
the instruction tells whether a literal follows. -/
theorem decodeEncode : Obligations.DecodeEncode := by
  intro i rest h
  rw [encode_eq_cons h.2]
  obtain hnil | ⟨l, hl⟩ := literals_eq_nil_or i
  · have hlit : ∀ l ∈ i.literals, l = 0 := by rw [hnil]; exact nofun
    have hw := toNat_encodeWord h 0 hlit
    obtain ⟨-, hspells, -⟩ := spells_encodeWord h 0 hlit
    rw [hnil]
    refine decode_cons_of_not_isSL rest ?_ (hw.symm ▸ decodeWord_encodeWord i h 0 hlit)
    rw [isSL_iff, hw]
    intro hSL
    rw [hnil, literalsOf_SL 0 hSL] at hspells
    exact nomatch hspells
  · have hlit : ∀ l' ∈ i.literals, l' = l := by rw [hl]; exact fun l' => List.mem_singleton.1
    have hw := toNat_encodeWord h l hlit
    obtain ⟨-, hspells, -⟩ := spells_encodeWord h l hlit
    rw [hl]
    refine decode_cons_of_isSL rest ?_ (hw.symm ▸ decodeWord_encodeWord i h l hlit)
    rw [isSL_iff, hw]
    by_contra hSL
    rw [hl, literalsOf, if_neg hSL] at hspells
    exact nomatch hspells

end Sys2Proof
end

section
/-! ## The issuing split's slices, the checks of targets, and faults, as control words use them -/

namespace Sys2Proof.Machine

open Sys2Proof.Claims

/-! ### Words that no issue check stops -/

/-- A word with no vector register and no format slot, whose checks are constants: nothing stops it (R120 to R122). -/
theorem admits_of_plain {i : Instr} {s : State}
    (hi : illegalAt i s = (!true || (false && s.coreKey != fwCore) || (s.coreKey == fwCore && false) || false || false))
    (hv : vregsOf i = [])
    (hs : spaceFault i s = if false = true ∧ (!s.iss.sup) = true then some { code := .protect } else none) : Admits i s :=
  admits_of_checks (hi.trans (by simp)) hv (hs.trans (if_neg fun p => Bool.false_ne_true p.1))

theorem admits_br (o : BitVec 19) (s : State) : Admits (.br o) s := admits_of_plain rfl rfl rfl
theorem admits_brc (p : PReg) (o : BitVec 19) (s : State) : Admits (.brc p o) s := admits_of_plain rfl rfl rfl
theorem admits_jpt (o : BitVec 19) (s : State) : Admits (.jpt o) s := admits_of_plain rfl rfl rfl
theorem admits_call (o : BitVec 19) (s : State) : Admits (.call o) s := admits_of_plain rfl rfl rfl
theorem admits_ret (s : State) : Admits .ret s := admits_of_plain rfl rfl rfl
theorem admits_join (s : State) : Admits .join s := admits_of_plain rfl rfl rfl
theorem admits_exit (s : State) : Admits .exit s := admits_of_plain rfl rfl rfl

/-- A guarded word that no check stops completes in what its effect comes to, when that needs no answer of a host. -/
theorem exec_of_effect {i : Instr} {s t : State} {f : State → State} (hx : exec i s = guard i s f) (ha : Admits i s)
    (hf : f s = t) (hn : Answered s t) : exec i s = .next t := by
  subst hf
  exact hx.trans (guard_of_admits ha f hn)

/-! ### Changing slices -/

/-- Changing slices changes nothing else of the gang. -/
theorem Gang.modSlices_only (g : Gang) (ks : List Nat) (f : Nat → Slice → Slice) :
    g.modSlices ks f = { g with slices := (g.modSlices ks f).slices } := by
  induction ks generalizing g with
  | nil => rfl
  | cons k ks ih => exact ih (g.modSlice k (f k))

@[simp] theorem State.hostNeed_modCur (s : State) (f : Gang → Gang) : (s.modCur f).hostNeed = s.hostNeed := rfl
@[simp] theorem State.hostNeed_modSlices (s : State) (f : Nat → Slice → Slice) : (s.modSlices f).hostNeed = s.hostNeed := rfl

theorem State.cur_modSlices (s : State) (f : Nat → Slice → Slice) : (s.modSlices f).cur = s.cur.modSlices s.iss.slices f :=
  State.cur_modCur _ _

/-- `t` is `s` but for the slices of its issuing gang. -/
theorem State.modSlices_only (s : State) (f : Nat → Slice → Slice) :
    s.modSlices f = s.modCur fun g => { g with slices := (s.modSlices f).cur.slices } := by
  refine State.modCur_congr _ _ _ ?_
  rw [State.cur_modSlices]
  exact Gang.modSlices_only _ _ _

/-- Changing the slices of the issuing split in a state `u` with the gang and the issue of `s`. -/
theorem eachSlice_modSlices {s u : State} (hi : u.iss = s.iss) (hc : u.cur = s.cur) (h : s.iss.slices.Nodup)
    (f : Nat → Slice → Slice) : eachSlice s u (u.modSlices f) f := by
  have hs (j : Nat) : (u.modSlices f).cur.slice j = if j ∈ s.iss.slices then f j (s.cur.slice j) else s.cur.slice j := by
    rw [State.cur_modSlices, hi, hc, Gang.slice_modSlices _ _ _ h]
  exact ⟨fun j hj => (hs j).trans (if_pos hj), fun j hj => (hs j).trans (if_neg hj), u.modSlices_only f⟩

/-- A change that agrees with `f` on the issuing split's slices does what `f` does. -/
theorem Claims.eachSlice.congr {s u t : State} {f g : Nat → Slice → Slice} (h : eachSlice s u t f)
    (hfg : ∀ j ∈ s.iss.slices, f j (s.cur.slice j) = g j (s.cur.slice j)) : eachSlice s u t g := by
  obtain ⟨hin, hout, honly⟩ := h
  exact ⟨fun j hj => (hin j hj).trans (hfg j hj), hout, honly⟩

/-! ### Fetching and the checks of a target (R108) -/

/-- What a translation for a fetch may change: the core's cache, the marks of the page tables, and what is asked of the host. -/
def FetchFrame (s t : State) : Prop := ∃ cores dmem need, t = { s with cores := cores, dmem := dmem, hostNeed := need }

theorem FetchFrame.refl (s : State) : FetchFrame s s := ⟨_, _, _, rfl⟩

theorem FetchFrame.trans {s t u : State} (h : FetchFrame s t) (k : FetchFrame t u) : FetchFrame s u := by
  obtain ⟨_, _, _, rfl⟩ := h
  obtain ⟨_, _, _, rfl⟩ := k
  exact ⟨_, _, _, rfl⟩

theorem FetchFrame.iss {s t : State} (h : FetchFrame s t) : t.iss = s.iss := by obtain ⟨_, _, _, rfl⟩ := h; rfl
theorem FetchFrame.cur {s t : State} (h : FetchFrame s t) : t.cur = s.cur := by obtain ⟨_, _, _, rfl⟩ := h; rfl

/-- A store that is made or not. -/
theorem FetchFrame.ite_devWrite (s : State) (p : Prop) [Decidable p] (pa n v : Nat) :
    FetchFrame s (if p then s.devWrite pa n v else s) := by
  split
  · exact ⟨_, _, _, rfl⟩
  · exact FetchFrame.refl s

theorem State.markPte_fetchFrame (s : State) (pte : Nat) (write : Bool) : FetchFrame s (s.markPte pte write) :=
  FetchFrame.ite_devWrite _ _ _ _ _

theorem State.setCow_fetchFrame (s : State) (c : Nat) (e : TlbEntry) : FetchFrame s (s.setCow c e) :=
  FetchFrame.ite_devWrite _ _ _ _ _

theorem State.translateDev_fetchFrame (s : State) (core c va acc : Nat) : FetchFrame s (s.translateDev core c va acc).1 := by
  have used (t : State) (e : TlbEntry) (h : FetchFrame s t) : FetchFrame s
      (match e.permits acc with
        | some f => (t, .error f)
        | none => (t.markPte e.pte (acc == 1 || acc == 2), .ok (.dev (e.pbase + (va - e.vbase)))) : State × TRes).1 := by
    split
    · exact h
    · exact h.trans (t.markPte_fetchFrame _ _)
  unfold State.translateDev
  dsimp only
  split
  · exact used s _ (FetchFrame.refl s)
  · split
    · exact FetchFrame.refl s
    · exact FetchFrame.refl s
    · exact used _ _ ((s.setCow_fetchFrame _ _).trans ⟨_, _, _, rfl⟩)

theorem State.translateHost_fetchFrame (s : State) (ld va acc : Nat) : FetchFrame s (s.translateHost ld va acc).1 := by
  obtain ⟨_, h⟩ := s.translateHost_frame ld va acc
  exact ⟨_, _, _, h⟩

theorem State.translateView_fetchFrame (s : State) (c va : Nat) : FetchFrame s (s.translateView c va 3).1 := by
  unfold State.translateView
  split
  · exact FetchFrame.refl s
  · split
    · exact FetchFrame.refl s
    · exact FetchFrame.refl s

theorem State.translateShadow_fetchFrame (s : State) (c va : Nat) : FetchFrame s (s.translateShadow c va 3).1 := by
  have h := s.translateHost_fetchFrame (s.ctx c).ld va 3
  unfold State.translateShadow
  dsimp only
  split
  · exact FetchFrame.refl s
  · split
    · next e => rw [e] at h; exact h
    · next e =>
      rw [e] at h
      split
      · exact h
      · exact h

theorem State.translateIn_fetchFrame (s : State) (core c va : Nat) : FetchFrame s (s.translateIn core c va 3).1 := by
  unfold State.translateIn
  split
  · exact FetchFrame.refl s
  · split
    · split
      · exact s.translateView_fetchFrame _ _
      · exact s.translateShadow_fetchFrame _ _
    · split
      · exact s.translateDev_fetchFrame _ _ _ _
      · exact s.translateHost_fetchFrame _ _ _

theorem State.waitLine_fetchFrame (s : State) (l : Loc) : FetchFrame s (s.waitLine l) := by
  unfold State.waitLine
  split
  · split
    · exact ⟨_, _, _, rfl⟩
    · exact FetchFrame.refl s
  · exact FetchFrame.refl s

theorem State.fetch_fetchFrame (s : State) (gid pc : Nat) : FetchFrame s (s.fetch gid pc).1 := by
  have h := s.translateIn_fetchFrame (gidTeam gid / 16) (s.team (gidTeam gid)).ctx (pc / 64 * 64)
  unfold State.fetch
  dsimp only
  split
  · exact FetchFrame.refl s
  · split
    · split
      · next e => rw [e] at h; exact h
      · exact FetchFrame.refl s
    · split
      · next e => rw [e] at h; exact h.trans (State.waitLine_fetchFrame _ _)
      · next e => rw [e] at h; exact h

theorem State.checkTarget_fetchFrame (s : State) (gid pc : Nat) : FetchFrame s (s.checkTarget gid pc).1 := by
  have h := s.fetch_fetchFrame gid pc
  unfold State.checkTarget
  split
  · exact FetchFrame.refl s
  · split
    · next e => rw [e] at h; exact h
    · next e =>
      rw [e] at h
      split
      · exact h
      · split
        · exact h
        · exact h

/-- What a check leaves, named by its answer. -/
theorem FetchFrame.of_checkTarget {s u : State} {gid pc : Nat} {r : Option FInfo} (h : s.checkTarget gid pc = (u, r)) :
    FetchFrame s u := by
  have hf := s.checkTarget_fetchFrame gid pc
  rwa [h] at hf

/-- A target that lands passes its check. -/
theorem checkTarget_of_lands {s u : State} {T : Nat} (h : lands s u T) : s.checkTarget s.iss.gid T = (u, none) := by
  obtain ⟨hv, -, block, hf, ht, hl⟩ := h
  simp [State.checkTarget, hv, hf, ht, hl]

/-! ### Precise faults with no way to the handler (R353) -/

theorem State.report_hostNeed (s : State) (gid : Nat) (sup : Bool) (pc word : Nat) (f : FInfo) :
    (s.report gid sup pc word f).hostNeed = s.hostNeed := by
  obtain ⟨_, _, _, h⟩ := s.report_frame gid sup pc word f
  rw [h]

/-- A fault that cannot go to the handler needs no answer of a host. -/
theorem State.fault_answered (s : State) {f : FInfo} (h : f.toHandler = false) : Answered s (s.fault f) := by
  unfold Answered State.fault State.faultWith
  simp only [h, Option.isNone_none, if_true, Bool.false_eq_true, false_and, if_false]
  split
  · exact State.report_hostNeed _ _ _ _ _ _
  · exact State.report_hostNeed _ _ _ _ _ _

end Sys2Proof.Machine
end

section
/-! ## BranchesAndAddresses: packet addresses, `br`, `brc` and `jpt` -/

namespace Sys2Proof.Machine

open Sys2Proof.Claims

/-! ### Packet addresses (R107) -/

theorem pcOf_slot {b j : Nat} (hj : j < 5) : pcOf (5 * b + j) = 64 * b + 12 * j := by
  unfold pcOf; omega

theorem pcIndex_slot {b j : Nat} (hj : j < 5) : pcIndex (64 * b + 12 * j) = 5 * b + j := by
  unfold pcIndex; omega

theorem pcIndex_pcOf (i : Nat) : pcIndex (pcOf i) = i := by
  unfold pcIndex pcOf; omega

theorem pcSucc_slot {b j : Nat} (hj : j < 5) :
    pcSucc (64 * b + 12 * j) = if j = 4 then 64 * (b + 1) else 64 * b + 12 * (j + 1) := by
  rw [pcSucc, pcIndex_slot hj, pcOf]
  split <;> omega

theorem validPc_iff (pc : Nat) : validPc pc = true ↔ pc < 2 ^ 57 ∧ ∃ b j, j < 5 ∧ pc = 64 * b + 12 * j := by
  simp only [validPc, Bool.and_eq_true, beq_iff_eq, decide_eq_true_eq]
  constructor
  · rintro ⟨⟨hslot, htrailer⟩, htop⟩
    exact ⟨htop, pc / 64, pc % 64 / 12, by omega, by omega⟩
  · rintro ⟨htop, b, j, hj, rfl⟩
    have hslot : (64 * b + 12 * j) % 64 = 12 * j := by omega
    exact ⟨⟨by omega, by omega⟩, htop⟩

theorem State.pcIndex_target (s : State) (o : BitVec 19) (h : 0 ≤ (pcIndex s.iss.pc : Int) + o.toInt) :
    (pcIndex (s.target o) : Int) = pcIndex s.iss.pc + o.toInt := by
  rw [State.target, if_neg (by omega), pcIndex_pcOf, Int.toNat_of_nonneg h]

theorem packetAddresses : Claims.PacketAddresses :=
  ⟨fun _ _ hj => ⟨pcOf_slot hj, pcIndex_slot hj, pcSucc_slot hj⟩, validPc_iff, State.pcIndex_target⟩

/-! ### `br` and `jpt` (R136, R137) -/

theorem State.target_congr {s u : State} (h : u.iss = s.iss) (o : BitVec 19) : u.target o = s.target o := by
  rw [State.target, State.target, h]

section

variable {s u : State} {o : BitVec 19}

/-- `br` whose target passes its check. -/
theorem exec_br_of_checked (hc : s.checkTarget s.iss.gid (s.target o) = (u, none)) (ha : Answered s u) :
    exec (.br o) s = .next (u.modSlices fun _ => sent (s.target o)) := by
  have hf := FetchFrame.of_checkTarget hc
  refine exec_of_effect (execBr.eq_1 o s) (admits_br o s) ?_ (t := u.modSlices fun _ => sent (s.target o)) ha
  simp only [hc, State.target_congr hf.iss]
  rfl

theorem exec_br_of_fault {f : FInfo} (hc : s.checkTarget s.iss.gid (s.target o) = (u, some f)) (ha : Answered s (u.fault f)) :
    exec (.br o) s = .next (u.fault f) :=
  exec_of_effect (execBr.eq_1 o s) (admits_br o s) (by simp only [hc]) ha

theorem exec_jpt_of_valid (h : validPc (s.target o) = true) :
    exec (.jpt o) s = .next (s.modSlices fun _ x => { x with j := some (pcIndex (s.target o)) }) :=
  exec_of_effect (execJpt.eq_1 o s) (admits_jpt o s) (by simp only [h]; rfl) (s.hostNeed_modSlices _)

theorem exec_jpt_of_invalid (h : validPc (s.target o) = false) :
    exec (.jpt o) s = .next (s.fault { code := .align, acc := 3 }) :=
  exec_of_effect (execJpt.eq_1 o s) (admits_jpt o s) (by simp only [h]; rfl) (s.fault_answered rfl)

/-! ### `brc` (R136) -/

/-- The active lanes of slice `j`, those of them that take a `brc` on `p`, and those that fall through. -/
def State.activeLanes (s : State) (j : Nat) : BitVec 4 := (s.cur.slice j).mask &&& (s.cur.slice j).live
def State.takenLanes (s : State) (p : PReg) (j : Nat) : BitVec 4 := s.activeLanes j &&& laneNibble (s.srcP p) j
def State.fallLanes (s : State) (p : PReg) (j : Nat) : BitVec 4 := s.activeLanes j &&& ~~~(s.takenLanes p j)

/-- What `brc` makes of slice `j` once nothing has failed: all its lanes go, or none, or the taken ones wait. -/
def State.brcSlice (s : State) (p : PReg) (T j : Nat) (x : Slice) : Slice :=
  if s.fallLanes p j = 0 then sent T x
  else if s.takenLanes p j = 0 then x
  else { x with stack := ⟨s.takenLanes p j, T, s.activeLanes j, x.j⟩ :: x.stack, mask := s.fallLanes p j }

/-- A mixed slice whose mask stack has no room. -/
def State.brcDeep (s : State) (p : PReg) : Prop :=
  ∃ j ∈ s.iss.slices, s.takenLanes p j ≠ 0 ∧ s.fallLanes p j ≠ 0 ∧ 8 ≤ (s.cur.slice j).stack.length

variable {p : PReg}

theorem any_taken_iff : (s.iss.slices.any fun j => s.takenLanes p j != 0) = true ↔ ∃ j ∈ s.iss.slices, s.takenLanes p j ≠ 0 := by
  simp only [List.any_eq_true, bne_iff_ne]

theorem any_deep_iff : (s.iss.slices.any fun j => s.takenLanes p j != 0 && s.fallLanes p j != 0 && stackFull (s.cur.slice j) 1) =
    true ↔ s.brcDeep p := by
  simp only [State.brcDeep, List.any_eq_true, Bool.and_eq_true, bne_iff_ne, stackFull, decide_eq_true_eq, Nat.lt_succ_iff,
    and_assoc]

theorem exec_brc_of_deep (h : s.brcDeep p) : exec (.brc p o) s = .next (s.fault { code := .illegal, detail := 2 }) :=
  exec_of_effect (execBrc.eq_1 p o s) (admits_brc p o s) (if_pos (any_deep_iff.2 h)) (s.fault_answered rfl)

/-- No lane takes the branch: every slice falls through, and no target is checked. -/
theorem exec_brc_of_none (h : ∀ j ∈ s.iss.slices, s.takenLanes p j = 0) :
    exec (.brc p o) s = .next (s.modSlices (s.brcSlice p (s.target o))) := by
  have hnd : ¬ s.brcDeep p := fun ⟨j, hj, ht, _⟩ => ht (h j hj)
  have hnt : ¬ ∃ j ∈ s.iss.slices, s.takenLanes p j ≠ 0 := fun ⟨j, hj, ht⟩ => ht (h j hj)
  refine exec_of_effect (execBrc.eq_1 p o s) (admits_brc p o s) ?_ (t := s.modSlices (s.brcSlice p (s.target o))) (s.hostNeed_modSlices _)
  exact (if_neg (any_deep_iff.not.2 hnd)).trans (if_neg (any_taken_iff.not.2 hnt))

theorem exec_brc_of_checked (hnd : ¬ s.brcDeep p) (ht : ∃ j ∈ s.iss.slices, s.takenLanes p j ≠ 0)
    (hc : s.checkTarget s.iss.gid (s.target o) = (u, none)) (ha : Answered s u) :
    exec (.brc p o) s = .next (u.modSlices (s.brcSlice p (s.target o))) := by
  have hf := FetchFrame.of_checkTarget hc
  refine exec_of_effect (execBrc.eq_1 p o s) (admits_brc p o s) ?_ (t := u.modSlices (s.brcSlice p (s.target o))) ha
  refine ((if_neg (any_deep_iff.not.2 hnd)).trans (if_pos (any_taken_iff.2 ht))).trans ?_
  simp only [hc, State.target_congr hf.iss]
  rfl

theorem exec_brc_of_fault {f : FInfo} (hnd : ¬ s.brcDeep p) (ht : ∃ j ∈ s.iss.slices, s.takenLanes p j ≠ 0)
    (hc : s.checkTarget s.iss.gid (s.target o) = (u, some f)) (ha : Answered s (u.fault f)) :
    exec (.brc p o) s = .next (u.fault f) := by
  refine exec_of_effect (execBrc.eq_1 p o s) (admits_brc p o s) ?_ ha
  refine ((if_neg (any_deep_iff.not.2 hnd)).trans (if_pos (any_taken_iff.2 ht))).trans ?_
  simp only [hc]

end

theorem branches : Claims.Branches := by
  intro s u o p f hn
  refine ⟨fun hl => ?_, fun h => ⟨_, exec_brc_of_none h, eachSlice_modSlices rfl rfl hn _⟩, exec_brc_of_deep, fun hc ha => ?_,
    fun h => ⟨_, exec_jpt_of_valid h, eachSlice_modSlices rfl rfl hn _⟩, exec_jpt_of_invalid⟩
  · have hc := checkTarget_of_lands hl
    have hf := FetchFrame.of_checkTarget hc
    obtain ⟨-, ha, -⟩ := hl
    exact ⟨⟨_, exec_br_of_checked hc ha, eachSlice_modSlices hf.iss hf.cur hn _⟩,
      fun ht hnd => ⟨_, exec_brc_of_checked hnd ht hc ha, eachSlice_modSlices hf.iss hf.cur hn _⟩⟩
  · exact ⟨exec_br_of_fault hc ha, fun ht hnd => exec_brc_of_fault hnd ht hc ha⟩

/-- Settles O27: packet addresses by arithmetic on block and slot, the words by one lemma for each way their checks fall. -/
theorem branchesAndAddresses : Obligations.BranchesAndAddresses := ⟨packetAddresses, branches⟩

end Sys2Proof.Machine
end

section
/-! ## CallsJoinExit: `ret` of a split that has no slice -/

namespace Sys2Proof.Machine

open Sys2Proof.Claims

/-- After reset no gang issues: `ret` has no slice to pop, and changes nothing. -/
theorem exec_ret_reset : exec .ret State.reset = .next State.reset :=
  exec_of_effect (execRet.eq_1 _) (admits_ret _) rfl rfl

/-- Refutes O28, in its clause about `ret`: after reset (`State.reset`) the issue has no slices and the table of gangs is empty.
`ret` then leaves the state as it is, but the clause's frame (`eachSlice`) asks for the state with the issuing gang entered in
the table. A hypothesis that the issuing split has a slice would exclude this state. -/
theorem not_callsJoinExit : ¬ Obligations.CallsJoinExit := by
  rintro ⟨hcalls, -, -⟩
  obtain ⟨-, hret, -⟩ := hcalls State.reset State.reset State.reset 0 (fun _ => 0) List.nodup_nil
  obtain ⟨t, ht, -, -, honly⟩ := hret (fun _ hj => nomatch hj)
  obtain rfl : State.reset = t := Host.Outcome.next.inj (exec_ret_reset.symm.trans ht)
  have hgangs : ([] : Tab Gang) = [(0, { slices := State.reset.cur.slices })] := congrArg State.gangs honly
  exact nomatch hgangs

end Sys2Proof.Machine
end

section
/-! ## StepRunsDecoded: what a core's step comes to, from the packet outwards -/

namespace Sys2Proof.Machine

open Sys2Proof.Claims

theorem Res.andThen_andThen (r : Res) (f g : State → Res) : Res.andThen (Res.andThen r f) g = Res.andThen r fun s => Res.andThen (f s) g := by
  cases r <;> rfl

/-! ### A packet of one word (R102 to R104) -/

theorem packetFits_singleton (w : PWord) : packetFits [w] = true := by
  have hle (p : Pipe) : ([w].filter fun v => v.pipe == p).length ≤ 1 := List.length_filter_le _ _
  have hv := (hle .v).trans one_le_two
  simp [packetFits, hle, hv, sharesDest]

theorem packetOf_of_not_chained {w0 : W32} (h : chained w0 = false) (w1 w2 : W32) :
    packetOf w0 w1 w2 = some [readWord 0 w0 (if isSL w0 then w1 else 0)] := by
  unfold packetOf
  dsimp only
  rw [h]
  split
  · simp
  · simp

theorem readWord_of_decodes {w lit : W32} {i : Instr} (h : decodeWord w.toNat lit = .ok i) (pos : Nat) :
    readWord pos w lit = ⟨pos, w.toNat, some i⟩ := by
  simp only [readWord, h]

section

variable {s u : State} {block slot : Nat} {i : Instr}

theorem packetAt_of_one (hch : chained (blockWord block slot 0) = false)
    (hd : decodeWord (blockWord block slot 0).toNat (if isSL (blockWord block slot 0) then blockWord block slot 1 else 0) = .ok i) :
    packetAt block slot = some [⟨0, (blockWord block slot 0).toNat, some i⟩] := by
  simp only [packetAt, packetOf_of_not_chained hch, readWord_of_decodes hd, packetFits_singleton, if_true]

/-! ### Its issue (R105, R107, R131, R132) -/

/-- The split set to the packet after the one it issues. -/
def State.pastPacket (s : State) : State := s.modSlices fun _ x => { x with pc := pcSucc s.iss.pc, arrival := false, did := [], seen := none }

/-- One word issued for its packet, and the slices grouped by where they go. -/
def State.issueOne (s : State) (word : Nat) (i : Instr) : Res :=
  Res.andThen (exec i { s.pastPacket with iss := { s.pastPacket.iss with word := 0 } }) fun y =>
    .next (if arranges [⟨0, word, some i⟩] then y else y.modGang s.pastPacket.iss.gid fun g => g.regroup s.pastPacket.iss.slices)

theorem State.issueWords_of_one (h : (s.cur.slice (s.iss.slices.headD 0)).did = []) (word : Nat) (i : Instr) :
    s.issueWords [⟨0, word, some i⟩] = s.issueOne word i := by
  simp only [State.issueWords, h, List.contains_nil, Bool.not_false, List.filter_cons, if_true, List.filter_nil, List.isEmpty_nil]
  rfl

theorem State.issuePacket_of_one (hne : s.iss.slices ≠ []) (hdid : ∀ j ∈ s.iss.slices, (s.cur.slice j).did = [])
    (hv : validPc s.iss.pc = true) (hf : s.fetch s.iss.gid s.iss.pc = (u, .ok block)) (ht : trailerOk block = true)
    (hland : (∃ j ∈ s.iss.slices, (s.cur.slice j).arrival = true) → landBit block (s.iss.pc % 64 / 12) = true)
    (hch : chained (blockWord block (s.iss.pc % 64 / 12) 0) = false)
    (hd : decodeWord (blockWord block (s.iss.pc % 64 / 12) 0).toNat
      (if isSL (blockWord block (s.iss.pc % 64 / 12) 0) then blockWord block (s.iss.pc % 64 / 12) 1 else 0) = .ok i) :
    s.issuePacket = u.issueOne (blockWord block (s.iss.pc % 64 / 12) 0).toNat i := by
  have hframe : FetchFrame s u := by
    have h := s.fetch_fetchFrame s.iss.gid s.iss.pc
    rwa [hf] at h
  have hlow : ¬ 2 ^ 57 ≤ s.iss.pc := Nat.not_le.2 ((validPc_iff _).1 hv).1
  have harr : ((s.iss.slices.any fun k => (s.cur.slice k).arrival) && !landBit block (s.iss.pc % 64 / 12)) = false := by
    simp only [Bool.and_eq_false_imp, List.any_eq_true, Bool.not_eq_false']
    exact hland
  have hlead : (u.cur.slice (u.iss.slices.headD 0)).did = [] := by
    obtain ⟨k, ks, hk⟩ := List.exists_cons_of_ne_nil hne
    rw [hframe.cur, hframe.iss, hk]
    exact hdid k (hk ▸ List.mem_cons_self)
  rw [State.issuePacket]
  simp only [if_neg hlow, hf, ht, hv, harr, packetAt_of_one hch hd]
  exact State.issueWords_of_one hlead _ _

/-! ### The choice of a split (R133), and its issue -/

/-- The slices that issue with slice `k`, as the issue stage finds them. -/
theorem State.readySplit_mem {gid k : Nat} (h : s.readySplit gid = some k) : k ∈ (s.gang gid).splitOf k := by
  have hk := List.find?_some h
  simp only [State.splitReady, Bool.and_eq_true, beq_iff_eq] at hk
  obtain ⟨-, ⟨-, hhead⟩, -⟩ := hk
  exact List.mem_of_mem_head? hhead

/-- The issue stage set to the split of slice `k` of gang `gid`, whose turn has passed. -/
def State.atIssue (s : State) (gid k : Nat) : State :=
  let n := if gid = fwGid then 16 else 8
  (((s.modGang gid fun g => { g with turn := (k + 1) % n }).tookStep gid).beginIssue gid k).modSlices fun _ x => { x with awaits := [] }

theorem State.atIssue_slices (s : State) (gid k : Nat) : (s.atIssue gid k).iss.slices = (s.gang gid).splitOf k := by
  change ((s.setGang gid _).gang gid).splitOf k = _
  rw [State.gang_setGang]
  rfl

/-- A split with no late fault due and no word set aside issues its packet. -/
theorem State.issueGang_of_packet {gid k : Nat} (h : s.readySplit gid = some k)
    (hdue : ∀ j ∈ (s.atIssue gid k).iss.slices, ((s.atIssue gid k).cur.slice j).haltDue = false)
    (hrep : ∀ j ∈ (s.atIssue gid k).iss.slices, ((s.atIssue gid k).cur.slice j).replays = []) :
    s.issueGang gid = (s.atIssue gid k).heldForHost (Res.andThen (s.atIssue gid k).issuePacket fun y => .next (y.charge gid)) := by
  have hnd : ((s.atIssue gid k).iss.slices.any fun j => ((s.atIssue gid k).cur.slice j).haltDue) = false :=
    List.any_eq_false.2 fun j hj => by simp [hdue j hj]
  have hnr : ((s.atIssue gid k).iss.slices.flatMap fun j => ((s.atIssue gid k).cur.slice j).replays) = [] :=
    List.flatMap_eq_nil_iff.2 hrep
  rw [State.issueGang, h]
  change (s.atIssue gid k).heldForHost (if ((s.atIssue gid k).iss.slices.any fun j => ((s.atIssue gid k).cur.slice j).haltDue) = true
    then _ else Res.andThen (match ((s.atIssue gid k).iss.slices.flatMap fun j => ((s.atIssue gid k).cur.slice j).replays).head? with
      | some r => _
      | none => _) _) = _
  rw [hnd, hnr]
  rfl

end

/-! ### The step -/

theorem step_of_issue {s z : State} {core gid : Nat} {rest : List Move} (ha : s.agenda = .issue core :: rest)
    (hc : State.choose { s with agenda := rest } core = (z, some gid)) :
    step s = Res.andThen (z.issueGang gid) fun y => .next { (y.settleActive core).wakeAll with hostNeed := [], hostWho := none } := by
  simp only [step, State.advance, ha, State.move, State.issueCore, hc, Res.andThen_andThen, Res.andThen_next]

theorem step_of_event {s : State} {i : Instr} {rest : List Move} (ha : s.agenda = .event i :: rest) (hi : i.isWord = false) :
    step s = Res.andThen (exec i { s with agenda := rest }) fun y => .next { y.wakeAll with hostNeed := [], hostWho := none } := by
  simp only [step, State.advance, ha, State.move, hi, Bool.false_eq_true, if_false]

/-- Settles O58, from the packet outwards: one word is its packet (`packetAt_of_one`), the packet is the word on the split set past
it (`State.issuePacket_of_one`), the issue is the packet (`State.issueGang_of_packet`), the step is the issue (`step_of_issue`). -/
theorem stepRunsDecoded : Obligations.StepRunsDecoded := by
  refine ⟨fun s z u core gid k block rest i ha hc hk => ?_, fun s i rest => step_of_event⟩
  intro n z' pc slot w0 w1 hrun hv hf ht hland hch hd t
  have hne : (z.atIssue gid k).iss.slices ≠ [] := by
    rw [State.atIssue_slices]
    exact List.ne_nil_of_mem (State.readySplit_mem hk)
  have hp : (z.atIssue gid k).issuePacket = u.issueOne w0.toNat i :=
    State.issuePacket_of_one hne (fun j hj => (hrun j hj).2.2) hv hf ht hland hch hd
  have hframe : FetchFrame z' u := by
    have h := z'.fetch_fetchFrame gid pc
    rwa [hf] at h
  have hpc : u.iss.pc = pc := congrArg Iss.pc hframe.iss
  rw [step_of_issue ha hc, State.issueGang_of_packet hk (fun j hj => (hrun j hj).1) (fun j hj => (hrun j hj).2.1), hp]
  simp only [State.heldForHost, State.issueOne, State.pastPacket, hpc, Res.andThen_andThen, Res.andThen_next]
  rfl

end Sys2Proof.Machine
end

section
/-! ## ElectNopYieldWords: the elected lane, `nop`, `yield`, and the gang that takes a leaving gang's place -/

namespace Sys2Proof.Machine

open Sys2Proof.Claims

/-! ### The elected lane (R142) -/

theorem head?_maskBits_eq_some {m n i : Nat} (h : (maskBits m n).head? = some i) : bit m i = true ∧ ∀ k, k < i → bit m k = false := by
  rw [maskBits, List.head?_filter, List.find?_range_eq_some] at h
  obtain ⟨hi, -, hlow⟩ := h
  exact ⟨hi, fun k hk => by simpa using hlow k hk⟩

theorem head?_maskBits_eq_none {m n : Nat} (h : (maskBits m n).head? = none) (k : Nat) (hk : k < n) : bit m k = false := by
  rw [maskBits, List.head?_filter, List.find?_range_eq_none] at h
  simpa using h k hk

/-- The lanes of a gang that `elect` may choose: neither exited nor halted (R142). -/
def Gang.ableLanes (g : Gang) : Nat := g.laneMask g.sliceKeys fun x => if x.halted then 0 else x.live

/-- The lane that a gang offers for a role: its lowest able one, when it is a live gang of the role (R142). -/
def State.offered (s : State) (role gid : Nat) : Option Nat :=
  let g := s.gang gid
  if !g.resident ∨ g.ended ∨ g.role ≠ role then none else (maskBits g.ableLanes 64).head?

theorem State.elected_eq_offered (s : State) (team role : Nat) :
    s.elected team role = (List.range 16).findSome? fun k => (s.offered role (team * 16 + k)).map fun i => (team * 16 + k, i) := by
  rw [State.elected]
  congr 1
  funext k
  simp only [State.offered]
  split
  · rfl
  · rfl

section

variable {s : State} {role gid : Nat}

theorem State.offered_eq_some {i : Nat} (h : s.offered role gid = some i) :
    ((s.gang gid).resident = true ∧ (s.gang gid).role = role ∧ (s.gang gid).ended = false) ∧
    bit (s.gang gid).ableLanes i = true ∧ ∀ k, k < i → bit (s.gang gid).ableLanes k = false := by
  simp only [State.offered] at h
  split at h
  · cases h
  · next hg =>
    refine ⟨?_, head?_maskBits_eq_some h⟩
    simpa [and_comm] using hg

theorem State.offered_eq_none (hg : (s.gang gid).resident = true ∧ (s.gang gid).role = role ∧ (s.gang gid).ended = false)
    (h : s.offered role gid = none) (k : Nat) (hk : k < 64) : bit (s.gang gid).ableLanes k = false := by
  obtain ⟨hres, hrole, hend⟩ := hg
  simp only [State.offered] at h
  rw [if_neg (by simp [hres, hrole, hend])] at h
  exact head?_maskBits_eq_none h k hk

end

/-- A gang of a team is one of the 16 that the election looks through. -/
theorem gid_of_gidTeam {gid team : Nat} (h : gidTeam gid = team) : ∃ k, k < 16 ∧ gid = team * 16 + k :=
  ⟨gid % 16, Nat.mod_lt _ (by decide), by rw [← h, gidTeam]; omega⟩

/-- In a split of the numbers below `n` at `a`, those before it are the numbers below `a`. -/
theorem mem_of_range_split {n a k : Nat} {l₁ l₂ : List Nat} (h : List.range n = l₁ ++ a :: l₂) (hk : k < a) : k ∈ l₁ := by
  have hsorted : (l₁ ++ a :: l₂).Pairwise (· < ·) := h ▸ List.pairwise_lt_range
  have ha : a ∈ List.range n := h ▸ List.mem_append_right _ List.mem_cons_self
  have hmem : k ∈ l₁ ++ a :: l₂ := h ▸ List.mem_range.2 (hk.trans (List.mem_range.1 ha))
  rw [List.pairwise_append, List.pairwise_cons] at hsorted
  obtain ⟨-, ⟨hafter, -⟩, -⟩ := hsorted
  rcases List.mem_append.1 hmem with hl | hr
  · exact hl
  · rcases List.mem_cons.1 hr with rfl | hr
    · exact absurd hk (lt_irrefl _)
    · exact absurd (hafter k hr) (Nat.lt_asymm hk)

theorem electedLaneLives : Claims.ElectedLaneLives := by
  intro s team role
  refine ⟨fun gid i h => ?_, fun h gid hg k hk => ?_⟩
  · rw [State.elected_eq_offered, List.findSome?_eq_some_iff] at h
    obtain ⟨l₁, n, l₂, hsplit, hn, hbefore⟩ := h
    have hlt : n < 16 := List.mem_range.1 (hsplit ▸ List.mem_append_right _ List.mem_cons_self)
    obtain ⟨j, hj, hgid⟩ := Option.map_eq_some_iff.1 hn
    obtain ⟨rfl, rfl⟩ := Prod.mk.inj hgid
    obtain ⟨⟨hres, hrole, hend⟩, hbit, hlow⟩ := State.offered_eq_some hj
    refine ⟨⟨by rw [gidTeam]; omega, hres, hrole, hend⟩, hbit, hlow, fun h hh hless k hk => ?_⟩
    obtain ⟨hteam, hh⟩ := hh
    obtain ⟨m, hm, rfl⟩ := gid_of_gidTeam hteam
    exact State.offered_eq_none hh (by simpa using hbefore m (mem_of_range_split hsplit (by omega))) k hk
  · obtain ⟨hteam, hg⟩ := hg
    obtain ⟨m, hm, rfl⟩ := gid_of_gidTeam hteam
    rw [State.elected_eq_offered, List.findSome?_eq_none_iff] at h
    exact State.offered_eq_none hg (by simpa using h m (List.mem_range.2 hm)) k hk

/-! ### The words (R142, R144) -/

theorem admits_elect (p : PReg) (s : State) : Admits (.elect p) s := admits_of_plain rfl rfl rfl
theorem admits_nop (s : State) : Admits .nop s := admits_of_plain rfl rfl rfl
theorem admits_yield (s : State) : Admits .yield s := admits_of_plain rfl rfl rfl

theorem exec_elect (p : PReg) (s : State) :
    exec (.elect p) s = .next (s.writeP p fun i => s.elected s.teamKey s.cur.role == some (s.iss.gid, i)) :=
  exec_of_effect (execElect.eq_1 _ _) (admits_elect _ _) rfl rfl

theorem exec_nop (s : State) : exec .nop s = .next s := exec_of_effect (execNop.eq_1 _) (admits_nop _) rfl rfl

theorem exec_yield (s : State) : exec .yield s = .next (s.leaveActive s.iss.gid .always) :=
  exec_of_effect (execYield.eq_1 _) (admits_yield _) rfl rfl

/-- An event of R127 changes its own gang alone: it adds to what the gang leaves for, once. -/
theorem State.leaveActive_spec (s : State) (gid : Nat) (why : Leave) : let t := s.leaveActive gid why
    t = { s with gangs := t.gangs } ∧ (∀ j, j ≠ gid → t.gang j = s.gang j) ∧
    t.gang gid = if (s.gang gid).active.isSome ∧ why ∉ (s.gang gid).leaving
      then { s.gang gid with leaving := (s.gang gid).leaving ++ [why] } else s.gang gid := by
  refine ⟨rfl, fun j hj => State.gang_setGang_ne _ _ _ _ hj, ?_⟩
  rw [State.leaveActive, State.modGang_eq, State.gang_setGang]
  simp only [List.contains_eq_mem, Bool.not_eq_eq_eq_not, Bool.not_true, decide_eq_false_iff_not]

/-! ### A place passes on (R127, R128) -/

section

variable {s : State} {core gid n : Nat}

/-- With no pending gang ready a gang stays, and the events that have lapsed are forgotten. -/
theorem State.swapOne_of_none_ready (h : s.readyPending core = []) :
    s.swapOne core gid = s.modGang gid fun g => { g with leaving := g.leaving.filter (s.stillLeaves gid) } := by
  rw [State.swapOne, h]
  split
  · next hk => cases hk
  · rfl

theorem State.swapOne_of_ready {k : Nat} {rest : List Nat} (ha : (s.gang gid).active = some n) {why : Leave}
    (hw : why ∈ (s.gang gid).leaving) (hs : s.stillLeaves gid why = true) (hr : s.readyPending core = k :: rest) :
    s.swapOne core gid = ((s.modGang gid fun g => { g with active := none, leaving := [] }).modGang k
      fun g => { g with active := some n }).modCore core fun c => { c with swaps := c.swaps ++ [(gid, k)] } := by
  obtain ⟨x, l, hl⟩ := List.exists_cons_of_ne_nil (List.ne_nil_of_mem (List.mem_filter.2 ⟨hw, hs⟩))
  rw [State.swapOne, ha, hr, hl]
  rfl

end

theorem electNopYield : Claims.ElectNopYield := by
  intro s p
  refine ⟨Completes.intro (exec_elect p s) (s.writeP_spec _ _), rfl, exec_nop s, Completes.intro (exec_yield s) (s.leaveActive_spec _ _),
    fun n ha hl => ⟨State.swapOne_of_none_ready, fun k rest hr hk => ?_⟩⟩
  rw [State.swapOne_of_ready ha hl rfl hr]
  refine ⟨?_, ?_, ?_⟩
  · show (State.gang _ s.iss.gid).active = none
    rw [State.modCore_eq, State.gang_setCore, State.modGang_eq, State.gang_setGang_ne _ _ _ _ hk.symm, State.modGang_eq, State.gang_setGang]
  · rw [State.modCore_eq, State.gang_setCore, State.modGang_eq, State.gang_setGang]
  · rw [State.modCore_eq, State.core_setCore]
    exact List.mem_append_right _ (List.mem_singleton.2 rfl)

/-- Settles O30: `elect` writes by `State.writeP_spec` what the election of `State.elected_eq_offered` comes to, `yield` is one event of
R127, and the place passes on by `State.swapOne_of_ready`. -/
theorem electNopYieldWords : Obligations.ElectNopYieldWords := ⟨electNopYield, electedLaneLives⟩

end Sys2Proof.Machine
end

section
/-! ## LaunchAndLaunchJoin: child grids handed over, and the record of those that are done -/

namespace Sys2Proof.Machine

open Sys2Proof.Claims

theorem admits_launch (a : SReg) (s : State) : Admits (.launch a) s := admits_of_plain rfl rfl rfl
theorem admits_ljoin (d : SReg) (s : State) : Admits (.ljoin d) s := admits_of_plain rfl rfl rfl

/-- Parking the issuing split changes each of its slices, and no more. -/
theorem State.parkSplit_eachSlice {s : State} (h : s.iss.slices.Nodup) (p : Park) :
    eachSlice s s (s.parkSplit p) fun _ x => { x with park := p, pc := s.iss.pc } :=
  eachSlice_modSlices rfl rfl h _

/-! ### The checks of `launch` (R146) -/

section

variable {s t : State} {a : SReg}

theorem exec_launch_of_no_lanes (hl : s.lanes = []) : exec (.launch a) s = .next s :=
  exec_of_effect (execLaunch.eq_1 _ _) (admits_launch _ _) (if_pos (by simp [hl])) rfl

section

variable (hl : s.lanes ≠ [])

include hl

theorem exec_launch_of_misaligned (hva : (s.srcS a).toNat % 64 ≠ 0) :
    exec (.launch a) s = .next (s.fault { code := .align, addr := (s.srcS a).toNat }) :=
  exec_of_effect (execLaunch.eq_1 _ _) (admits_launch _ _) (by simp [hl, hva]) (s.fault_answered rfl)

variable (hva : (s.srcS a).toNat % 64 = 0)

include hva

theorem exec_launch_of_deep (hd : 10 ≤ s.curGrid.depth) : exec (.launch a) s = .next (s.fault { code := .nestDepth }) :=
  exec_of_effect (execLaunch.eq_1 _ _) (admits_launch _ _) (by simp [hl, hva, hd]) (s.fault_answered rfl)

variable (hd : s.curGrid.depth < 10)

include hd

theorem exec_launch_of_full (hc : 16 ≤ s.cur.children.length) :
    exec (.launch a) s = .next (s.parkSplit (.launch (s.srcS a).toNat)) :=
  exec_of_effect (execLaunch.eq_1 _ _) (admits_launch _ _) (by simp [hl, hva, Nat.not_le.2 hd, hc]) rfl

/-- A record that no check stops is read and handed over, or rejected. -/
theorem exec_launch_of_launchChild (hc : s.cur.children.length < 16) (hp : s.pending.length < 2048)
    (ht : s.launchChild (s.srcS a).toNat = t) (hn : Answered s t) : exec (.launch a) s = .next t :=
  exec_of_effect (execLaunch.eq_1 _ _) (admits_launch _ _)
    (by simp [hl, hva, Nat.not_le.2 hd, Nat.not_le.2 hc, State.listRoom, hp, ht]) hn

end

end

/-! ### The child record (R146) -/

/-- A gang whose child was rejected for a reason. -/
def Gang.childRejected (g : Gang) (r : Nat) : Gang :=
  { g with joined := g.joined + 1, rejected := g.rejected + 1, reason := if g.rejected = 0 then r else min g.reason r }

/-- What a change of one grid leaves as it was in every grid. -/
theorem State.grid_modGrid_keeps {γ : Type} (p : Grid → γ) (s : State) (j k : Nat) {f : Grid → Grid} (hf : ∀ g, p (f g) = p g) :
    p ((s.modGrid j f).grid k) = p (s.grid k) := by
  rw [State.modGrid_eq]
  by_cases e : k = j
  · rw [e, State.grid_setGrid, hf]
  · rw [State.grid_setGrid_ne _ _ _ _ e]

/-- A grid in the hand-over list is the one handed over, under its new number (R88). -/
theorem State.addGrid_spec (s : State) (g : Grid) : ((s.addGrid g).1.grid (s.addGrid g).2).lr = g.lr ∧
    ((s.addGrid g).1.grid (s.addGrid g).2).depth = g.depth ∧ ((s.addGrid g).1.grid (s.addGrid g).2).parent = g.parent := by
  have hk : (s.addGrid g).1.grid (s.addGrid g).2 = _ := State.grid_setGrid _ _ _
  rw [hk]
  exact ⟨rfl, rfl, rfl⟩

/-- The grid that the issuing gang hands over for a child record. -/
def State.childGrid (s : State) (h : Handed) : Grid :=
  { ctx := s.curTeam.ctx, tenant := s.curTeam.tenant, depth := s.curGrid.depth + 1, lr := h.lr, smap := h.smap, places := h.places
    parent := some s.iss.gid, parentGrid := s.curTeam.grid, parentTeam := s.curTeam.number }

def Grid.addKid (g : Grid) : Grid := { g with kids := g.kids + 1 }

section

variable {s u v : State} {va : Nat} {m : Memory}
  (hread : s.readLoad s.iss.gid (s.accessCtx s.teamKey) va 512 = (u, .ok m))

include hread

theorem State.launchChild_of_rejected {r : Nat} (hcheck : u.checkLaunch u.coreKey u.childFrom m = (v, .error r)) :
    s.launchChild va = v.modCur (·.childRejected r) := by
  simp only [State.launchChild, hread, hcheck, Gang.childRejected]

/-- What a handed-over child adds to the part: its grid, its place in the hand-over list, and its place among the gang's children. -/
theorem State.launchChild_of_accepted {h : Handed} (hcheck : u.checkLaunch u.coreKey u.childFrom m = (v, .ok h)) :
    ∃ k, (s.launchChild va).cur = { v.cur with children := v.cur.children ++ [k] } ∧ (s.launchChild va).pending = v.pending ++ [k] ∧
      (s.launchChild va).dmem = v.dmem ∧ (s.launchChild va).hostNeed = v.hostNeed ∧ ((s.launchChild va).grid k).lr = h.lr ∧
      ((s.launchChild va).grid k).depth = v.curGrid.depth + 1 ∧ ((s.launchChild va).grid k).parent = some v.iss.gid := by
  have ht : s.launchChild va = ((v.addGrid (v.childGrid h)).1.modGrid v.curTeam.grid Grid.addKid).modCur
      fun x => { x with children := x.children ++ [(v.addGrid (v.childGrid h)).2] } := by
    simp only [State.launchChild, hread, hcheck]
    rfl
  obtain ⟨hlr, hdepth, hparent⟩ := v.addGrid_spec (v.childGrid h)
  have hkid {γ : Type} (p : Grid → γ) (hp : ∀ g, p g.addKid = p g) :=
    State.grid_modGrid_keeps p (v.addGrid (v.childGrid h)).1 v.curTeam.grid (v.addGrid (v.childGrid h)).2 hp
  rw [ht]
  exact ⟨_, State.cur_modCur _ _, rfl, rfl, rfl, (hkid Grid.lr fun _ => rfl).trans hlr,
    (hkid Grid.depth fun _ => rfl).trans hdepth, (hkid Grid.parent fun _ => rfl).trans hparent⟩

end

theorem launch : Claims.Launch := by
  intro s a va
  refine ⟨exec_launch_of_no_lanes, fun hl => ⟨exec_launch_of_misaligned hl, fun hva => ⟨exec_launch_of_deep hl hva,
    fun hd hc hnd => Completes.intro (exec_launch_of_full hl hva hd hc) (State.parkSplit_eachSlice hnd _),
    fun hd hc hp u v m hread => ⟨fun r hcheck ha => ?_, fun h hcheck ha => ?_⟩⟩⟩⟩
  · have ht := State.launchChild_of_rejected hread hcheck
    refine Completes.intro (exec_launch_of_launchChild hl hva hd hc hp ht ha) ?_
    rw [State.cur_modCur]
    exact ⟨rfl, rfl, rfl, rfl, rfl, rfl⟩
  · obtain ⟨k, hcur, hpend, hdmem, hneed, hlr, hdepth, hparent⟩ := State.launchChild_of_accepted hread hcheck
    refine Completes.intro (exec_launch_of_launchChild hl hva hd hc hp rfl (hneed.trans ha)) ⟨k, ?_, hpend, hlr, hdepth, hparent, ?_, hdmem⟩
    · rw [hcur]
    · rw [hcur]

/-! ### `ljoin` (R147) -/

theorem exec_ljoin_of_none {s : State} (d : SReg) (h : s.cur.children = []) :
    exec (.ljoin d) s = .next ((s.writeS d (BitVec.ofNat 64 s.cur.joinWord)).modCur Gang.clearJoin) :=
  exec_of_effect (execLjoin.eq_1 _ _) (admits_ljoin _ _) (if_pos (by simp [h])) rfl

theorem exec_ljoin_of_some {s : State} (d : SReg) (h : s.cur.children ≠ []) :
    exec (.ljoin d) s = .next (s.parkSplit (.ljoin d.val)) :=
  exec_of_effect (execLjoin.eq_1 _ _) (admits_ljoin _ _) (if_neg (by simp [h])) rfl

/-- The child record is no register. -/
theorem sreg_clearJoin (s : State) (n : SReg) : sreg (s.modCur Gang.clearJoin) n = sreg s n := by
  simp only [sreg, State.cur_modCur, State.iss_modCur, Gang.clearJoin]

theorem launchJoin : Claims.LaunchJoin := by
  intro s d
  refine ⟨fun h => Completes.intro (exec_ljoin_of_none d h) ?_,
    fun h hnd => Completes.intro (exec_ljoin_of_some d h) (State.parkSplit_eachSlice hnd _)⟩
  obtain ⟨hd, hother, -⟩ := s.writeS_spec d (BitVec.ofNat 64 s.cur.joinWord)
  rw [State.cur_modCur]
  refine ⟨rfl, rfl, rfl, rfl, rfl, (sreg_clearJoin _ _).trans hd, fun n hn => (sreg_clearJoin _ _).trans (hother n hn)⟩

/-- Settles O31: `launch` by what each check answers and by `State.launchChild`'s two outcomes, `ljoin` by `State.writeS_spec`. -/
theorem launchAndLaunchJoin : Obligations.LaunchAndLaunchJoin := ⟨launch, launchJoin⟩

end Sys2Proof.Machine
end

section
/-! ## GangEvents: parked splits that go on, RESUME and END, and gangs that give up their place and come back -/

namespace Sys2Proof.Machine

open Sys2Proof.Claims

/-! ### Changing slices that may be listed more than once -/

/-- A listed slice is changed as often as it is listed. -/
theorem Gang.slice_modSlices_iterate (g : Gang) (ks : List Nat) (f : Nat → Slice → Slice) (j : Nat) :
    (g.modSlices ks f).slice j = (f j)^[ks.count j] (g.slice j) := by
  induction ks generalizing g with
  | nil => rfl
  | cons k ks ih =>
    refine (ih (g.modSlice k (f k))).trans ?_
    rw [Gang.slice_modSlice, List.count_cons]
    by_cases h : j = k
    · subst h
      simp only [if_true, beq_self_eq_true]
      rfl
    · simp only [if_neg h, beq_false_of_ne (Ne.symm h), Bool.false_eq_true, if_false, Nat.add_zero]

theorem Gang.slice_modSlices_of_not_mem (g : Gang) {ks : List Nat} (f : Nat → Slice → Slice) {j : Nat} (hj : j ∉ ks) :
    (g.modSlices ks f).slice j = g.slice j := by
  rw [Gang.slice_modSlices_iterate, List.count_eq_zero.2 hj]
  rfl

/-- A change that does nothing more the second time happens once. -/
theorem Gang.slice_modSlices_of_idem (g : Gang) {ks : List Nat} {f : Nat → Slice → Slice} {j : Nat} (hj : j ∈ ks)
    (hf : f j (f j (g.slice j)) = f j (g.slice j)) : (g.modSlices ks f).slice j = f j (g.slice j) := by
  obtain ⟨n, hn⟩ := Nat.exists_eq_succ_of_ne_zero (List.count_pos_iff.2 hj).ne'
  rw [Gang.slice_modSlices_iterate, hn, Function.iterate_succ_apply, Function.iterate_fixed hf]

/-! ### Parked splits (R126, R254) -/

/-- What going on makes of a parked slice: past its packet, or on to the packet's other words (R126). -/
def Slice.passed (x : Slice) : Slice :=
  { x with park := .none, pc := if x.others.isSome then x.pc else pcSucc x.pc, did := x.others.toList, others := none }

theorem State.gang_goOn (s : State) (gid : Nat) (ks : List Nat) :
    (s.goOn gid ks).gang gid = (s.gang gid).modSlices ks fun _ => Slice.passed := State.gang_setGang _ _ _

section

variable {s : State} {gid k l st cp tm : Nat} (hres : (s.gang gid).resident = true) (hlive : ((s.gang gid).slice k).live ≠ 0)
  (hhalt : ((s.gang gid).slice k).halted = false) (hcut : s.beforeCut gid = false) (hbrk : s.brkHolds gid = false)
  (hrun : s.ctxRuns gid = true) (hpark : ((s.gang gid).slice k).park = .waitcnt l st cp tm)

include hres hlive hhalt hcut hbrk hrun hpark

/-- A split parked at a `waitcnt`, of a gang that may run, goes on by the counters alone. -/
theorem State.unpark_of_waitcnt : s.unpark gid k =
    if (s.gang gid).countsOk l st cp tm then s.goOn gid ((s.gang gid).splitOf k) else s := by
  have hidle : ((s.gang gid).slice k).idle = false := beq_false_of_ne hlive
  simp only [State.unpark, hres, hidle, hhalt, hcut, hbrk, hrun, hpark, Bool.not_true, Bool.false_eq_true, or_self, if_false]

theorem splitUnpark_of_counts_high (hc : (s.gang gid).countsOk l st cp tm = false) : exec (.splitUnpark gid k) s = .next s := by
  have hu : (s.asking (splitAsker 1 gid k)).unpark gid k = s.asking (splitAsker 1 gid k) :=
    (State.unpark_of_waitcnt (s := s.asking _) hres hlive hhalt hcut hbrk hrun hpark).trans (if_neg (Bool.eq_false_iff.1 hc))
  show execSplitUnpark gid k s = _
  rw [execSplitUnpark, s.attempting_of_idle _ (·.unpark gid k) hu]
  simp only [if_true]

theorem splitUnpark_of_counts_low (hc : (s.gang gid).countsOk l st cp tm = true) (hnd : ((s.gang gid).splitOf k).Nodup)
    (hk : k ∈ (s.gang gid).splitOf k) : exec (.splitUnpark gid k) s =
      .next (((s.goOn gid ((s.gang gid).splitOf k)).tookStep gid).heard (splitAsker 1 gid k)) := by
  have hu : (s.asking (splitAsker 1 gid k)).unpark gid k = (s.asking (splitAsker 1 gid k)).goOn gid ((s.gang gid).splitOf k) :=
    (State.unpark_of_waitcnt (s := s.asking _) hres hlive hhalt hcut hbrk hrun hpark).trans (if_pos hc)
  have ha : s.attempting (splitAsker 1 gid k) (·.unpark gid k) = s.goOn gid ((s.gang gid).splitOf k) :=
    s.attempting_of_answered _ (·.unpark gid k) hu rfl
  have hmoved : ¬(((s.goOn gid ((s.gang gid).splitOf k)).gang gid).slice k).park = ((s.gang gid).slice k).park := by
    rw [State.gang_goOn, Gang.slice_modSlices _ _ _ hnd, if_pos hk, hpark]
    exact nofun
  show execSplitUnpark gid k s = _
  rw [execSplitUnpark, ha]
  simp only [if_neg hmoved]

end

/-- The split goes on past its packet, its gang's registers and every other slice as they were. -/
theorem State.goOn_spec {s : State} {gid : Nat} {ks : List Nat} (hnd : ks.Nodup)
    (ho : ∀ j ∈ ks, ((s.gang gid).slice j).others = none) : let t := s.goOn gid ks
    (t.gang gid).regs = (s.gang gid).regs ∧
    (∀ j ∈ ks, ((t.gang gid).slice j).park = .none ∧ ((t.gang gid).slice j).pc = pcSucc ((s.gang gid).slice j).pc) ∧
    ∀ j, j ∉ ks → (t.gang gid).slice j = (s.gang gid).slice j := by
  dsimp only
  rw [State.gang_goOn]
  refine ⟨Gang.modSlices_regs _ _ _, fun j hj => ?_, fun j hj => Gang.slice_modSlices_of_not_mem _ _ hj⟩
  rw [Gang.slice_modSlices _ _ _ hnd, if_pos hj]
  exact ⟨rfl, by simp [Slice.passed, ho j hj]⟩

/-! ### RESUME (R356, R442) -/

/-- The driver holds only gangs of a context bound to its logical device. -/
theorem gangHold_of_other {s : State} {ld c : Nat} (h : (s.ctx c).bound = false ∨ (s.ctx c).ld ≠ ld) :
    exec (.gangResume ld c) s = .next s ∧ exec (.gangEnd ld c) s = .next s := by
  have hn : (!(s.ctx c).bound) = true ∨ (s.ctx c).ld ≠ ld := by simpa using h
  exact ⟨congrArg Host.Outcome.next (if_pos hn), congrArg Host.Outcome.next (if_pos hn)⟩

section

variable {s : State} {ld c gid : Nat} (hb : (s.ctx c).bound = true) (hld : (s.ctx c).ld = ld) (hsel : s.selected c = some gid)

include hb hld hsel

theorem exec_gangResume : exec (.gangResume ld c) s = .next (s.resumeGang gid) := by
  show execGangResume ld c s = _
  simp [execGangResume, hb, hld, hsel]

theorem exec_gangEnd : exec (.gangEnd ld c) s = .next (s.endGang gid) := by
  show execGangEnd ld c s = _
  simp [execGangEnd, hb, hld, hsel]

end

/-- What RESUME makes of a halted slice (R356, R443). -/
def Slice.resumed (x : Slice) : Slice := { x with halted := false, haltDue := x.haltDue && !x.halted }

/-- A slice with no lane that a `jmp` halted takes none back. -/
theorem Slice.rejoin_of_no_lanes {x : Slice} (h : x.hg = []) : x.rejoin = x := by
  cases x
  cases h
  rfl

/-- The slices of a gang of which only lanes that a `jmp` halted are left; each goes on as a split of its own. -/
def Gang.loneSlices (g : Gang) : List Nat := g.sliceKeys.filter fun k => (g.slice k).live == 0 && (g.slice k).hgLanes != 0

theorem State.gang_resumeGang (s : State) (gid : Nat) : (s.resumeGang gid).gang gid =
    ((s.gang gid).modSlices (s.gang gid).sliceKeys fun _ x => x.resumed.rejoin).modSlices (s.gang gid).loneSlices
      fun k x => { x with split := k } := State.gang_setGang _ _ _

theorem State.resumeGang_slice {s : State} {gid j : Nat} (hj : j ∈ (s.gang gid).sliceKeys) (hg : ((s.gang gid).slice j).hg = []) :
    ((s.resumeGang gid).gang gid).slice j = ((s.gang gid).slice j).resumed := by
  have hlone : j ∉ (s.gang gid).loneSlices := fun h => by simp [Gang.loneSlices, Slice.hgLanes, hg] at h
  have honce : ((s.gang gid).slice j).resumed.rejoin = ((s.gang gid).slice j).resumed := Slice.rejoin_of_no_lanes hg
  have htwice : ((s.gang gid).slice j).resumed.resumed.rejoin = ((s.gang gid).slice j).resumed :=
    (Slice.rejoin_of_no_lanes (x := ((s.gang gid).slice j).resumed.resumed) hg).trans (by simp [Slice.resumed])
  rw [State.gang_resumeGang, Gang.slice_modSlices_of_not_mem _ _ hlone, Gang.slice_modSlices_of_idem _ hj, honce]
  rw [honce, htwice]

theorem State.resumeGang_spec (s : State) (gid : Nat) : let t := s.resumeGang gid
    (t.core (gidCore gid)).l1 = [] ∧ t.dmem = s.dmem ∧ t.teams = s.teams ∧ (t.gang gid).regs = (s.gang gid).regs := by
  refine ⟨congrArg Core.l1 (s.core_setCore (gidCore gid) _), rfl, rfl, ?_⟩
  rw [State.gang_resumeGang, Gang.modSlices_regs, Gang.modSlices_regs]

/-! ### END, and the end of a gang (R138, R308, R356) -/

/-- The gangs and device memory, which sending cells and telling a window's members leave alone. -/
def State.gangsAndMem (s : State) : Tab Gang × Memory := (s.gangs, s.dmem)

theorem State.gang_of_gangsAndMem {s t : State} (h : t.gangsAndMem = s.gangsAndMem) (k : Nat) : t.gang k = s.gang k :=
  congrArg (fun x : Tab Gang × Memory => x.1.get ({} : Gang) k) h

theorem State.dmem_of_gangsAndMem {s t : State} (h : t.gangsAndMem = s.gangsAndMem) : t.dmem = s.dmem := congrArg Prod.snd h

theorem State.sendControl_gangsAndMem (s : State) (c type arg dst : Nat) (body : CellBody) :
    (s.sendControl c type arg dst body).gangsAndMem = s.gangsAndMem := by
  obtain ⟨_, _, _, h⟩ := s.sendCell_frame _
  rw [State.sendControl, h]
  rfl

/-- A member's change of state reaches no gang, unless it departs (R308, R312). -/
theorem State.setMember_gangsAndMem (s : State) (team rank : Nat) {st : Nat} (h : st ≠ 3) :
    (s.setMember team rank st).gangsAndMem = s.gangsAndMem := by
  unfold State.setMember
  split
  · rfl
  · dsimp only
    rw [foldl_keeps State.gangsAndMem _ fun s p => s.sendControl_gangsAndMem _ _ _ _ _]
    exact foldl_keeps State.gangsAndMem _ (fun s t => by simp only [if_neg h]; rfl) _ s

/-- When the last lane of a gang has gone the gang is marked ended and leaves the active set; no other gang changes. -/
theorem State.endIfDone_gangsAndMem (s : State) (gid : Nat) : (s.endIfDone gid).gangsAndMem = s.gangsAndMem ∨
    (s.endIfDone gid).gangsAndMem = (s.modGang gid fun g => { g with ended := true, active := none }).gangsAndMem := by
  unfold State.endIfDone
  dsimp only
  split
  · exact .inl rfl
  · refine .inr ?_
    split
    · split
      · split
        · exact State.setMember_gangsAndMem _ _ _ (by decide)
        · rfl
      · rfl
    · rfl

theorem State.endIfDone_spec (s : State) (gid : Nat) : (s.endIfDone gid).dmem = s.dmem ∧
    ((s.endIfDone gid).gang gid = s.gang gid ∨ (s.endIfDone gid).gang gid = { s.gang gid with ended := true, active := none }) := by
  rcases s.endIfDone_gangsAndMem gid with h | h
  · exact ⟨State.dmem_of_gangsAndMem h, .inl (State.gang_of_gangsAndMem h gid)⟩
  · exact ⟨(State.dmem_of_gangsAndMem h).trans rfl, .inr ((State.gang_of_gangsAndMem h gid).trans (State.gang_setGang _ _ _))⟩

/-- A slice whose lanes END has taken. -/
def Slice.over (x : Slice) : Slice :=
  { x with mask := 0, live := 0, hg := [], stack := [], park := .none, halted := false, haltDue := false, replays := [] }

/-- A gang all of whose lanes END has taken. -/
def Gang.over (g : Gang) : Gang := { g.modSlices g.sliceKeys (fun _ => Slice.over) with handler := none, swapped := false }

theorem Gang.over_slice (g : Gang) {j : Nat} (hj : j ∈ g.sliceKeys) : (g.over.slice j).live = 0 ∧ (g.over.slice j).hgLanes = 0 :=
  g.slice_modSlices_of_mem (P := fun x => x.live = 0 ∧ x.hgLanes = 0) (fun _ _ => ⟨rfl, rfl⟩) hj

theorem State.endGang_spec (s : State) (gid : Nat) : let t := s.endGang gid
    t.dmem = s.dmem ∧ (t.gang gid).regs = (s.gang gid).regs ∧ (t.gang gid).handler = none ∧
    ∀ j ∈ (s.gang gid).sliceKeys, ((t.gang gid).slice j).live = 0 ∧ ((t.gang gid).slice j).hgLanes = 0 := by
  obtain ⟨hm, hg⟩ := (s.modGang gid Gang.over).endIfDone_spec gid
  have ho : (s.modGang gid Gang.over).gang gid = (s.gang gid).over := State.gang_setGang _ _ _
  have hregs : (s.gang gid).over.regs = (s.gang gid).regs := Gang.modSlices_regs _ _ _
  rw [ho] at hg
  change (s.endGang gid).gang gid = _ ∨ (s.endGang gid).gang gid = _ at hg
  dsimp only
  rcases hg with hg | hg
  · rw [hg]
    exact ⟨hm, hregs, rfl, fun j => Gang.over_slice _⟩
  · rw [hg]
    exact ⟨hm, hregs, rfl, fun j => Gang.over_slice _⟩

/-! ### A gang in a service wait gives up its place (R371) -/

/-- A byte written little-endian is read (R10). -/
theorem Memory.read_writeLE (m : Memory) (a n v : Nat) {i : Nat} (h : i < n) :
    (Memory.writeLE m a n v).read (a + i) = BitVec.ofNat 8 (v / 256 ^ i) := by
  induction n generalizing m a v i with
  | zero => omega
  | succ n ih =>
    rw [Memory.writeLE]
    cases i with
    | zero => rw [Memory.read_writeLE_ne _ _ _ _ _ (by omega), Memory.read_write]; simp
    | succ i =>
      rw [← Nat.add_assoc, Nat.add_right_comm, ih _ _ _ (by omega), Nat.div_div_eq_div_mul, ← Nat.pow_succ']

theorem Gang.wf_recordBytes (g : Gang) : g.recordBytes.wf = true :=
  Memory.wf_foldl _ _ _ (fun _ _ h => Memory.wf_writeLE _ _ _ _ h) Memory.wf_nil

/-- Device memory with a gang's record and window at a place of the save area (R371, R385). -/
def State.withRecord (s : State) (g : Gang) (a : Nat) : Memory :=
  Memory.paste (Memory.paste s.dmem (a + 0) 4096 g.recordBytes) (a + 4096) g.windowBytes (Memory.writeLE [] 0 g.windowBytes g.window)

theorem State.withRecord_window (s : State) (g : Gang) (a : Nat) {i : Nat} (hi : i < g.windowBytes) :
    ((s.withRecord g a).read (a + 4096 + i)).toNat = byteOf g.window i := by
  have hb := Memory.read_writeLE [] 0 g.windowBytes g.window hi
  rw [Nat.zero_add] at hb
  rw [State.withRecord, Memory.read_paste _ _ _ _ _ (Memory.wf_writeLE _ _ _ _ Memory.wf_nil), if_pos (by omega),
    Nat.add_sub_cancel_left, hb, BitVec.toNat_ofNat, byteOf]

theorem State.withRecord_outside (s : State) (g : Gang) (a : Nat) {x : Nat} (hx : x < a ∨ a + 4096 + g.windowBytes ≤ x) :
    (s.withRecord g a).read x = s.dmem.read x := by
  rw [State.withRecord, Memory.read_paste _ _ _ _ _ (Memory.wf_writeLE _ _ _ _ Memory.wf_nil), if_neg (by omega),
    Memory.read_paste _ _ _ _ _ g.wf_recordBytes, if_neg (by omega)]

theorem State.swapScratch_gangsAndMem (s : State) : s.swapScratch.gangsAndMem = s.gangsAndMem :=
  foldl_keeps State.gangsAndMem _ (fun s x => by dsimp only; split <;> rfl) _ s

theorem gangSwapOut_of_staying {s : State} {gid : Nat} (h : (s.gang gid).maySwap = false) : exec (.gangSwapOut gid) s = .next s := by
  show execGangSwapOut gid s = _
  simp only [execGangSwapOut, h, Bool.false_eq_true, if_false]

/-- A gang whose window and slot are free. -/
def Gang.swappedOut (g : Gang) : Gang := { g with swapped := true, active := none, leaving := [] }

/-- A gang that leaves its core for the save area. -/
def State.leaveCore (s : State) (gid : Nat) : State := ((s.modGang gid Gang.swappedOut).settleDeficits (gidCore gid)).swapScratch

theorem State.leaveCore_spec (s : State) (gid : Nat) (m : Memory) : (({ s with dmem := m } : State).leaveCore gid).dmem = m ∧
    (({ s with dmem := m } : State).leaveCore gid).gang gid = (s.gang gid).swappedOut := by
  have h := ((({ s with dmem := m } : State).modGang gid Gang.swappedOut).settleDeficits (gidCore gid)).swapScratch_gangsAndMem
  exact ⟨(State.dmem_of_gangsAndMem h).trans rfl, (State.gang_of_gangsAndMem h gid).trans (State.gang_setGang _ _ _)⟩

theorem gangSwapOut_completes {s : State} {gid a : Nat} (h : (s.gang gid).maySwap = true) (ha : s.swapPlace gid = some a) :
    Completes (.gangSwapOut gid) s fun t => t.dmem = s.withRecord (s.gang gid) a ∧ t.gang gid = (s.gang gid).swappedOut := by
  have hx : exec (.gangSwapOut gid) s = .next (({ s with dmem := s.withRecord (s.gang gid) a } : State).leaveCore gid) := by
    show execGangSwapOut gid s = _
    simp only [execGangSwapOut, h, if_true, ha, State.putChunk, State.withRecord, State.leaveCore]
    rfl
  exact Completes.intro hx (s.leaveCore_spec gid _)

/-! ### A gang that comes back (R371) -/

theorem gangSwapIn_of_staying {s : State} {gid : Nat} (h : (s.gang gid).wantsBack = false) : exec (.gangSwapIn gid) s = .next s :=
  congrArg Host.Outcome.next (if_pos (.inl (by simp [h])))

theorem gangSwapIn_completes {s : State} {gid : Nat} (h : (s.gang gid).wantsBack = true) (hs : (s.team (gidTeam gid)).scratchOut = false)
    (hocc : ((s.seats (gidCore gid)).map (·.occ)).sum + (128 * (s.gang gid).vregs + 1024) ≤ 458752)
    (hgangs : ((s.seats (gidCore gid)).map (·.gangs)).sum < 64) : Completes (.gangSwapIn gid) s fun t =>
      t.gang gid = { s.gang gid with swapped := false, age := (s.core (gidCore gid)).nextAge } ∧ t.dmem = s.dmem ∧
      (t.core (gidCore gid)).nextAge = (s.core (gidCore gid)).nextAge + 1 := by
  refine Completes.intro (congrArg Host.Outcome.next (if_neg ?_)) ?_
  · simp [h, hs, Nat.not_lt.2 hocc, Nat.not_le.2 hgangs]
  · simp

/-- Settles O48: the parked split by `State.unpark_of_waitcnt`, RESUME and END slice by slice (`State.resumeGang_slice`, `Gang.over_slice`), and
the saved window by what a paste into memory reads as (`State.withRecord_window`). -/
theorem gangEvents : Obligations.GangEvents := by
  intro s gid k ld c l st cp tm g x
  refine ⟨fun hres hlive hhalt hcut hbrk hrun hpark =>
      ⟨splitUnpark_of_counts_high hres hlive hhalt hcut hbrk hrun hpark, fun hc hnd hk ho => ?_⟩,
    gangHold_of_other, fun hb hld hsel => ⟨?_, Completes.intro (exec_gangEnd hb hld hsel) (s.endGang_spec gid)⟩,
    fun a hm ha => ?_, gangSwapOut_of_staying, gangSwapIn_of_staying, gangSwapIn_completes⟩
  · exact Completes.intro (splitUnpark_of_counts_low hres hlive hhalt hcut hbrk hrun hpark hc hnd hk) ⟨rfl, rfl, State.goOn_spec hnd ho⟩
  · obtain ⟨hl1, hdmem, hteams, hregs⟩ := s.resumeGang_spec gid
    exact Completes.intro (exec_gangResume hb hld hsel) ⟨hl1, hdmem, hteams, hregs, fun j => State.resumeGang_slice⟩
  · refine Completes.mono (gangSwapOut_completes hm ha) fun t ⟨hdmem, hgang⟩ => ?_
    rw [hgang, hdmem]
    exact ⟨rfl, rfl, rfl, rfl, fun i => s.withRecord_window _ a, fun x => s.withRecord_outside _ a⟩

end Sys2Proof.Machine
end

section
/-! ## TeamsAndGridsEnd: credits, events of the active set, and the ends of teams and grids -/

namespace Sys2Proof.Machine

open Sys2Proof.Claims

/-! ### Tables without some of their keys -/

theorem Tab.get_filter_key {α : Type} (d : α) (t : Tab α) (p : Nat → Bool) (k : Nat) :
    Tab.get d (t.filter fun x => p x.1) k = if p k then Tab.get d t k else d := by
  induction t with
  | nil => simp [Tab.get]
  | cons x t ih =>
    obtain ⟨a, v⟩ := x
    rw [List.filter_cons]
    by_cases e : a = k
    · subst e
      cases hp : p a with
      | true => simp [Tab.get]
      | false => simpa [hp] using ih
    · cases hp : p a with
      | true => simpa [Tab.get, e] using ih
      | false => simpa [Tab.get, e] using ih

theorem Tab.erase_eq_filter {α : Type} (t : Tab α) (k : Nat) : t.erase k = t.filter fun x => x.1 != k := by
  induction t with
  | nil => rfl
  | cons x t ih =>
    obtain ⟨a, v⟩ := x
    rw [Tab.erase, List.filter_cons]
    by_cases e : a = k
    · simpa [e] using ih
    · simpa [e] using ih

theorem Tab.get_erase {α : Type} (d : α) (t : Tab α) (k j : Nat) : Tab.get d (t.erase k) j = if j = k then d else Tab.get d t j := by
  rw [Tab.erase_eq_filter, Tab.get_filter_key d t (· != k)]
  by_cases e : j = k <;> simp [e]

theorem Tab.mem_keys_erase {α : Type} {t : Tab α} {k j : Nat} : j ∈ (t.erase k).keys ↔ j ∈ t.keys ∧ j ≠ k := by
  rw [Tab.erase_eq_filter]
  simp [Tab.keys]

theorem Tab.mem_keys_set {α : Type} {t : Tab α} {k j : Nat} {v : α} (h : j ∈ (t.set k v).keys) : j = k ∨ j ∈ t.keys := by
  induction t with
  | nil => simpa [Tab.set, Tab.keys] using h
  | cons x t ih =>
    obtain ⟨a, y⟩ := x
    simp only [Tab.set] at h
    split at h
    · exact .inr h
    · split at h
      · exact List.mem_cons.1 h
      · rcases List.mem_cons.1 h with e | h
        · exact .inr (e ▸ List.mem_cons_self)
        · exact (ih h).imp_right (List.mem_cons_of_mem _)

theorem Tab.get_of_not_mem_keys {α : Type} (d : α) (t : Tab α) (k : Nat) (h : k ∉ t.keys) : Tab.get d t k = d :=
  Tab.get_of_forall_ne d t k fun _ hx e => h (e ▸ List.mem_map_of_mem hx)

/-! ### Credits and swaps (R125, R128) -/

/-- A core's credits after a refill (R125). -/
def State.refilled (s : State) (c : Core) : Core :=
  { c with deficit := c.deficit.map fun x => (x.1, min (x.2 + (s.tenants.get {} x.1).weight) (4 * (s.tenants.get {} x.1).weight)) }

theorem exec_deficitRefill (s : State) : exec .deficitRefill s = .next { s with cores := s.cores.mapVals s.refilled } := rfl

theorem State.core_refill (s : State) (j : Nat) :
    ({ s with cores := s.cores.mapVals s.refilled } : State).core j = s.refilled (s.core j) := Tab.get_mapVals s.refilled {} _ j

theorem gangSwapComplete_completes (s : State) (gid : Nat) : Completes (.gangSwapComplete gid) s fun t =>
    t.gangs = s.gangs ∧ ∀ w ∈ (t.core (gidCore gid)).swaps, w.2 ≠ gid := by
  refine Completes.intro (t := s.modCore (gidCore gid) _) rfl ⟨rfl, fun w hw => ?_⟩
  rw [State.modCore_eq, State.core_setCore] at hw
  simpa using (List.mem_filter.1 hw).2

/-! ### What freeing a team's slot changes (R92, R309, R407) -/

/-- A hold that is granted, and the reserve queue: nothing but holds, the queue and cells. -/
def ReserveFrame (s t : State) : Prop :=
  ∃ holds queue ports loop seq, t = { s with holds := holds, reserveQ := queue, ports := ports, loop := loop, seqTx := seq }

theorem ReserveFrame.refl (s : State) : ReserveFrame s s := ⟨_, _, _, _, _, rfl⟩

theorem ReserveFrame.trans {s t u : State} (h : ReserveFrame s t) (k : ReserveFrame t u) : ReserveFrame s u := by
  obtain ⟨_, _, _, _, _, rfl⟩ := h
  obtain ⟨_, _, _, _, _, rfl⟩ := k
  exact ⟨_, _, _, _, _, rfl⟩

theorem State.sendControl_frame (s : State) (c type arg dst : Nat) (body : CellBody) : ReserveFrame s (s.sendControl c type arg dst body) := by
  obtain ⟨_, _, _, h⟩ := s.sendCell_frame _
  exact ⟨_, _, _, _, _, h⟩

theorem State.grant_frame (s : State) (h : Hold) (cores : List Nat) : ReserveFrame s (s.grant h cores) :=
  ReserveFrame.trans ⟨_, _, _, _, _, rfl⟩ (State.sendControl_frame _ _ _ _ _ _)

theorem State.grantQueue_frame (s : State) (n : Nat) : ReserveFrame s (s.grantQueue n) := by
  induction n generalizing s with
  | zero => exact ReserveFrame.refl s
  | succ n ih =>
    rw [State.grantQueue]
    split
    · exact ReserveFrame.refl s
    · split
      · exact (s.grant_frame _ _).trans (ih _)
      · exact ReserveFrame.refl s

/-- `t` has no team that `s` has not, and every team's grid is the one of `s`; but for teams, holds and cells `t` is `s`. -/
structure TeamsStay (s t : State) : Prop where
  only : ReserveFrame { s with teams := t.teams } t
  keys : ∀ j, j ∉ s.teams.keys → j ∉ t.teams.keys
  grid : ∀ j, (t.team j).grid = (s.team j).grid

theorem TeamsStay.of_frame {s t : State} (h : ReserveFrame s t) : TeamsStay s t := by
  obtain ⟨_, _, _, _, _, rfl⟩ := h
  exact ⟨⟨_, _, _, _, _, rfl⟩, fun _ => id, fun _ => rfl⟩

theorem ReserveFrame.foldl {β : Type} (f : State → β → State) (h : ∀ s x, ReserveFrame s (f s x)) (l : List β) (s : State) :
    ReserveFrame s (l.foldl f s) := by
  induction l generalizing s with
  | nil => exact ReserveFrame.refl s
  | cons x l ih => exact (h s x).trans (ih _)

theorem State.mem_keys_of_windowTeams {s : State} {key t : Nat} (h : t ∈ s.windowTeams key) : t ∈ s.teams.keys := by
  obtain ⟨x, hx, rfl⟩ := List.mem_map.1 h
  exact List.mem_map_of_mem (List.mem_filter.1 hx).1

/-- A change of the window table of a team that is there. -/
theorem State.modWindow_stay {s : State} {k : Nat} (h : k ∈ s.teams.keys) (f : Window → Window) : TeamsStay s (s.modWindow k f) := by
  refine ⟨⟨_, _, _, _, _, rfl⟩, fun j hj hm => ?_, fun j => ?_⟩
  · rcases Tab.mem_keys_set hm with rfl | hm
    · exact hj h
    · exact hj hm
  · rw [State.modWindow, State.modTeam_eq]
    by_cases e : j = k
    · subst e
      rw [State.team_setTeam]
    · rw [State.team_setTeam_ne _ _ _ _ e]

/-- What a team owes its window passes on, or is answered (R309). -/
theorem State.passOwes_stay (s : State) (team : Nat) : TeamsStay s (s.passOwes team) := by
  unfold State.passOwes
  split
  · exact .of_frame (ReserveFrame.refl s)
  · split
    · next k rest hk =>
      have hmem : k ∈ (s.windowTeams _).filter (· != team) := hk ▸ List.mem_cons_self
      exact s.modWindow_stay (State.mem_keys_of_windowTeams (List.mem_filter.1 hmem).1) _
    · exact .of_frame (ReserveFrame.foldl _ (fun s x => s.sendControl_frame _ _ _ _ _) _ _)

/-- What freeing the slots of some teams does. -/
structure Frees (s t : State) (ts : List Nat) : Prop where
  gang : ∀ j, t.gang j = if gidTeam j ∈ ts then {} else s.gang j
  dmem : t.dmem = s.dmem
  gone : ∀ j ∈ ts, j ∉ t.teams.keys
  absent : ∀ j, j ∉ s.teams.keys → j ∉ t.teams.keys
  grid : ∀ j, j ∉ ts → (t.team j).grid = (s.team j).grid

theorem Frees.nil (s : State) : Frees s s [] := ⟨fun _ => rfl, rfl, nofun, fun _ => id, fun _ _ => rfl⟩

theorem Frees.cons {s t u : State} {k : Nat} {ts : List Nat} (h : Frees s t [k]) (h' : Frees t u ts) : Frees s u (k :: ts) where
  gang j := by
    rw [h'.gang, h.gang]
    by_cases hj : gidTeam j ∈ ts <;> simp [hj]
  dmem := h'.dmem.trans h.dmem
  gone j hj := by
    rcases List.mem_cons.1 hj with rfl | hj
    · exact h'.absent j (h.gone j List.mem_cons_self)
    · exact h'.gone j hj
  absent j hj := h'.absent j (h.absent j hj)
  grid j hj := by
    rw [List.mem_cons, not_or] at hj
    exact (h'.grid j hj.2).trans (h.grid j (by simpa using hj.1))

theorem State.dropTeam_frees (s : State) (k : Nat) : Frees s (s.dropTeam k) [k] where
  gang j := by
    refine (Tab.get_filter_key {} s.gangs (fun x => gidTeam x != k) j).trans ?_
    by_cases e : gidTeam j = k
    · simp [e]
    · simp [e, State.gang]
  dmem := rfl
  gone j hj hm := (Tab.mem_keys_erase.1 hm).2 (List.mem_singleton.1 hj)
  absent j hj hm := hj (Tab.mem_keys_erase.1 hm).1
  grid j hj := congrArg Team.grid ((Tab.get_erase ({} : Team) s.teams k j).trans (if_neg (by simpa using hj)))

theorem State.vacate_frees (s : State) (k : Nat) : Frees s (s.vacate k) [k] ∧ (s.vacate k).grids = s.grids := by
  obtain ⟨⟨_, _, _, _, _, hpass⟩, hkeys, hgrid⟩ := s.passOwes_stay k
  obtain ⟨_, _, _, _, _, hserve⟩ := ((s.passOwes k).dropTeam k).grantQueue_frame ((s.passOwes k).dropTeam k).reserveQ.length
  have hd := (s.passOwes k).dropTeam_frees k
  have hgangs : (s.passOwes k).gangs = s.gangs := by rw [hpass]
  have hdmem : (s.passOwes k).dmem = s.dmem := by rw [hpass]
  have hgrids : (s.passOwes k).grids = s.grids := by rw [hpass]
  rw [State.vacate, State.serveReserves, hserve]
  refine ⟨⟨fun j => (hd.gang j).trans ?_, hdmem, hd.gone, fun j hj => hd.absent j (hkeys j hj),
    fun j hj => (hd.grid j hj).trans (hgrid j)⟩, hgrids⟩
  rw [State.gang, hgangs, State.gang]

/-- One team's slot freed, and counted in its grid. -/
def State.freeTeam (s : State) (k : Nat) : State := (s.vacate k).modGrid (s.team k).grid fun x => { x with freed := x.freed + 1 }

theorem State.freeTeam_frees (s : State) (k : Nat) : Frees s (s.freeTeam k) [k] := by
  obtain ⟨h, -⟩ := s.vacate_frees k
  exact ⟨h.gang, h.dmem, h.gone, h.absent, h.grid⟩

theorem State.freeTeams_frees (s : State) (ts : List Nat) : Frees s (ts.foldl State.freeTeam s) ts := by
  induction ts generalizing s with
  | nil => exact Frees.nil s
  | cons k ts ih => exact (s.freeTeam_frees k).cons (ih _)

theorem State.freeTeam_freed (s : State) (k j : Nat) :
    ((s.freeTeam k).grid j).freed = (s.grid j).freed + if (s.team k).grid == j then 1 else 0 := by
  have hg (i : Nat) : (s.vacate k).grid i = s.grid i := congrArg (Tab.get ({} : Grid) · i) (s.vacate_frees k).2
  rw [State.freeTeam, State.modGrid_eq, hg]
  by_cases e : j = (s.team k).grid
  · subst e
    rw [State.grid_setGrid, beq_self_eq_true, if_pos rfl]
  · rw [State.grid_setGrid_ne _ _ _ _ e, hg, beq_false_of_ne (Ne.symm e)]
    rfl

theorem State.freeTeams_freed (s : State) {ts : List Nat} (h : ts.Nodup) (j : Nat) :
    ((ts.foldl State.freeTeam s).grid j).freed = (s.grid j).freed + (ts.filter fun k => (s.team k).grid == j).length := by
  induction ts generalizing s with
  | nil => rfl
  | cons k ts ih =>
    obtain ⟨hk, hts⟩ := List.nodup_cons.1 h
    have hrest : (ts.filter fun i => ((s.freeTeam k).team i).grid == j) = ts.filter fun i => (s.team i).grid == j :=
      List.filter_congr fun i hi => by rw [(s.freeTeam_frees k).grid i (by rintro hm; rw [List.mem_singleton.1 hm] at hi; exact hk hi)]
    rw [List.foldl_cons, ih _ hts, hrest, s.freeTeam_freed, List.filter_cons]
    cases (s.team k).grid == j with
    | true => rw [if_pos rfl, if_pos rfl, List.length_cons, Nat.add_assoc, Nat.add_comm 1]
    | false => rfl

theorem exec_teamSlotFree (s : State) (team : Nat) : exec (.teamSlotFree team) s =
    .next (if (s.freedWith team).all fun k => s.teamIdle k && s.windowLets k then (s.freedWith team).foldl State.freeTeam s else s) := rfl

theorem teamSlotFree_of_held {s : State} {team : Nat} (h : ∃ j ∈ s.freedWith team, s.teamIdle j = false ∨ s.windowLets j = false) :
    exec (.teamSlotFree team) s = .next s := by
  obtain ⟨j, hj, hheld⟩ := h
  rw [exec_teamSlotFree, if_neg]
  intro hall
  have := List.all_eq_true.1 hall j hj
  rcases hheld with h | h <;> simp [h] at this

theorem teamSlotFree_completes {s : State} {team : Nat}
    (h : ∀ j ∈ s.freedWith team, s.teamIdle j = true ∧ s.windowLets j = true) : let ts := s.freedWith team
    Completes (.teamSlotFree team) s fun t =>
      (∀ j ∈ ts, t.team j = {}) ∧ (∀ j, gidTeam j ∈ ts → t.gang j = {}) ∧ (∀ j, gidTeam j ∉ ts → t.gang j = s.gang j) ∧
      t.dmem = s.dmem ∧
      (ts.Nodup → ∀ j, (t.grid j).freed = (s.grid j).freed + (ts.filter fun k => (s.team k).grid == j).length) := by
  have hall : ((s.freedWith team).all fun k => s.teamIdle k && s.windowLets k) = true :=
    List.all_eq_true.2 fun j hj => by simp [h j hj]
  have hf := s.freeTeams_frees (s.freedWith team)
  refine Completes.intro ((exec_teamSlotFree s team).trans (congrArg _ (if_pos hall))) ⟨fun j hj => ?_, fun j hj => ?_, fun j hj => ?_,
    hf.dmem, fun hnd j => s.freeTeams_freed hnd j⟩
  · exact Tab.get_of_not_mem_keys _ _ _ (hf.gone j hj)
  · rw [hf.gang, if_pos hj]
  · rw [hf.gang, if_neg hj]

/-! ### Raises that nothing holds (R78) -/

theorem lifts_iff (t v : W64) : lifts t v = true ↔ 0 < (v - t).toInt := by
  simp [lifts, BitVec.slt]

theorem State.completePacket_frame (s : State) (q index status : Nat) (k : Option Nat) :
    ∃ queues, s.completePacket q index status k = { s with queues := queues } := by
  unfold State.completePacket
  dsimp only
  split
  · exact ⟨_, rfl⟩
  · exact ⟨_, rfl⟩

/-- A raise that no earlier raise, snapshot or host holds is applied at once (R78, R343, R401). -/
theorem State.raise_of_free {s : State} {k : Nat} {v : W64} (who : Raiser) (hr : s.raises = []) (ht : s.triggered k v = [])
    (hs : k ∉ s.tlShared) : s.raise k v who = s.applyRaise k v who := by
  simp only [State.raise, hr, ht]
  simp [hs]

/-- A raise of a grid's launch lifts its timeline, and completes its packet; gangs, grids and memory are as they were. -/
theorem State.applyRaise_launch (s : State) (k : Nat) (v : W64) (q i st : Nat) : let t := s.applyRaise k v (.launch q i st)
    let T : W64 := s.timelines.get 0 k
    t.grids = s.grids ∧ t.dmem = s.dmem ∧ t.timelines.get 0 k = (if 0 < (v - T).toInt then v else T) ∧
    ∀ j, j ≠ k → t.timelines.get 0 j = s.timelines.get 0 j := by
  intro t T
  have ht : ∃ queues, t = { (if lifts T v then { s with timelines := s.timelines.set k v } else s : State) with queues := queues } :=
    State.completePacket_frame _ _ _ _ _
  obtain ⟨queues, ht⟩ := ht
  rw [ht]
  by_cases h : lifts T v = true
  · rw [if_pos h, if_pos ((lifts_iff _ _).1 h)]
    exact ⟨rfl, rfl, Tab.get_set _ _ _ _, fun j hj => Tab.get_set_ne _ _ _ _ _ hj⟩
  · rw [if_neg h, if_neg (mt (lifts_iff _ _).2 h)]
    exact ⟨rfl, rfl, rfl, fun _ _ => rfl⟩

/-! ### Grids that retire (R147, R408) -/

/-- A rival that has retired its last grid has ended (R390). -/
def State.endRival (s : State) (c : Nat) : State :=
  if (s.ctx c).state == .rival && !(s.grids.any fun x => x.2.ctx == c) then s.modCtx c fun x => { x with state := .ended } else s

theorem State.endRival_frame (s : State) (c : Nat) : ∃ ctxs, s.endRival c = { s with ctxs := ctxs } := by
  unfold State.endRival
  split
  · exact ⟨_, rfl⟩
  · exact ⟨_, rfl⟩

/-- The part without a grid. -/
def State.dropGrid (s : State) (k : Nat) : State := { s with grids := s.grids.erase k }

theorem State.grid_dropGrid (s : State) (k : Nat) : (s.dropGrid k).grid k = {} := (Tab.get_erase ({} : Grid) s.grids k k).trans (if_pos rfl)

/-- A child that has retired, counted in its gang (R147). -/
def Gang.childDone (k : Nat) (x : Gang) : Gang :=
  if x.children.contains k then { x with children := x.children.filter (· != k), joined := x.joined + 1 } else x

/-- One child less is outstanding of a grid that is still there. -/
def State.dropKid (s : State) (k : Nat) : State :=
  if (s.grid k).valid then s.modGrid k fun x => { x with kids := x.kids - 1 } else s

theorem State.dropKid_frame (s : State) (j : Nat) : ∃ grids, s.dropKid j = { s with grids := grids } := by
  unfold State.dropKid
  split
  · exact ⟨_, rfl⟩
  · exact ⟨_, rfl⟩

/-- A grid that is gone stays gone. -/
theorem State.dropKid_invalid {s : State} {k : Nat} (h : (s.grid k).valid = false) (j : Nat) : ((s.dropKid j).grid k).valid = false := by
  unfold State.dropKid
  split
  · next hj =>
    have e : k ≠ j := fun e => by rw [← e, h] at hj; cases hj
    rw [State.modGrid_eq, State.grid_setGrid_ne _ _ _ _ e, h]
  · exact h

section

variable {s : State} {k : Nat}

theorem gridRetire_of_staying (h : s.mayRetire k = false) : exec (.gridRetire k) s = .next s :=
  congrArg Host.Outcome.next (if_neg (by simp [h]))

theorem exec_gridRetire (h : s.mayRetire k = true) : exec (.gridRetire k) s = .next (s.retire k) :=
  congrArg Host.Outcome.next (if_pos h)

theorem State.retire_of_host {q : Nat} (hp : (s.grid k).parent = none) (hq : (s.grid k).queue = some q)
    (htwin : s.isTwin (s.grid k).ctx = false) : s.retire k =
      ((s.dropGrid k).raise (s.grid k).timeline (s.grid k).value (.launch q (s.grid k).packet 0)).endRival (s.grid k).ctx := by
  have htwin' : (s.dropGrid k).isTwin (s.grid k).ctx = false := htwin
  simp only [State.dropGrid] at htwin'
  simp only [State.retire, hp, hq, htwin', Bool.false_eq_true, if_false]
  rfl

theorem State.retire_of_child {p : Nat} (hp : (s.grid k).parent = some p) (hl : isLifted p = false) (hq : (s.grid k).queue = none)
    (hr : (s.grid k).reel = none) : s.retire k =
      (((s.dropGrid k).modGang p (Gang.childDone k)).dropKid (s.grid k).parentGrid).endRival (s.grid k).ctx := by
  simp only [State.retire, hp, hl, hq, hr, Bool.false_eq_true, if_false]
  rfl

theorem gridRetire_of_host {q : Nat} (hm : s.mayRetire k = true) (hp : (s.grid k).parent = none) (hq : (s.grid k).queue = some q)
    (htwin : s.isTwin (s.grid k).ctx = false) (hr : s.raises = []) (ht : s.triggered (s.grid k).timeline (s.grid k).value = [])
    (hs : (s.grid k).timeline ∉ s.tlShared) : let g := s.grid k; let T : W64 := s.timelines.get 0 g.timeline
    Completes (.gridRetire k) s fun t => (t.grid k).valid = false ∧
      (t.timelines.get 0 g.timeline = if 0 < (g.value - T).toInt then g.value else T) ∧
      (∀ j, j ≠ g.timeline → t.timelines.get 0 j = s.timelines.get 0 j) ∧ t.dmem = s.dmem := by
  have hraise := State.raise_of_free (s := s.dropGrid k) (.launch q (s.grid k).packet 0) hr ht hs
  obtain ⟨hgrids, hdmem, hself, hother⟩ := (s.dropGrid k).applyRaise_launch (s.grid k).timeline (s.grid k).value q (s.grid k).packet 0
  obtain ⟨_, hend⟩ := State.endRival_frame ((s.dropGrid k).applyRaise (s.grid k).timeline (s.grid k).value
    (.launch q (s.grid k).packet 0)) (s.grid k).ctx
  have hx := exec_gridRetire hm
  rw [State.retire_of_host hp hq htwin, hraise, hend] at hx
  refine Completes.intro hx ⟨?_, hself, hother, hdmem⟩
  have hg := congrArg (fun t : Tab Grid => (t.get {} k).valid) hgrids
  exact hg.trans (congrArg Grid.valid (s.grid_dropGrid k))

theorem gridRetire_of_child {p : Nat} (hm : s.mayRetire k = true) (hp : (s.grid k).parent = some p) (hl : isLifted p = false)
    (hq : (s.grid k).queue = none) (hr : (s.grid k).reel = none) (hk : k ∈ (s.gang p).children) :
    Completes (.gridRetire k) s fun t => (t.grid k).valid = false ∧ (t.gang p).joined = (s.gang p).joined + 1 ∧
      (t.gang p).children = (s.gang p).children.filter (· != k) ∧ t.timelines = s.timelines := by
  have hgone : (((s.dropGrid k).modGang p (Gang.childDone k)).grid k).valid = false := congrArg Grid.valid (s.grid_dropGrid k)
  have hstill := State.dropKid_invalid hgone (s.grid k).parentGrid
  obtain ⟨_, hkid⟩ := State.dropKid_frame ((s.dropGrid k).modGang p (Gang.childDone k)) (s.grid k).parentGrid
  obtain ⟨_, hend⟩ := State.endRival_frame (((s.dropGrid k).modGang p (Gang.childDone k)).dropKid (s.grid k).parentGrid) (s.grid k).ctx
  have hgang : ((s.dropGrid k).modGang p (Gang.childDone k)).gang p = Gang.childDone k (s.gang p) := State.gang_setGang _ _ _
  have hdone : Gang.childDone k (s.gang p) =
      { s.gang p with children := (s.gang p).children.filter (· != k), joined := (s.gang p).joined + 1 } := if_pos (by simpa using hk)
  have hx := exec_gridRetire hm
  rw [State.retire_of_child hp hl hq hr, hend] at hx
  refine Completes.intro hx ⟨hstill, ?_⟩
  rw [hkid]
  have hcount : (((s.dropGrid k).modGang p (Gang.childDone k)).gang p) = _ := hgang.trans hdone
  exact ⟨congrArg Gang.joined hcount, congrArg Gang.children hcount, rfl⟩

end

/-- Settles O52: the slots of a list of teams by induction on it (`State.freeTeams_frees`, `State.freeTeams_freed`), a grid's end by whether it
came from a host or from a gang (`State.retire_of_host`, `State.retire_of_child`). -/
theorem teamsAndGridsEnd : Obligations.TeamsAndGridsEnd := by
  intro s gid k team core g T
  refine ⟨Completes.intro (exec_deficitRefill s) ⟨rfl, rfl, fun j => congrArg Core.deficit (s.core_refill j)⟩, fun x hx => ?_,
    gangSwapComplete_completes s gid, ⟨teamSlotFree_of_held, teamSlotFree_completes⟩, gridRetire_of_staying,
    fun q => gridRetire_of_host, fun p => gridRetire_of_child⟩
  rcases List.mem_pair.1 hx with rfl | rfl
  · exact Completes.intro rfl (s.leaveActive_spec gid .idle)
  · exact Completes.intro rfl (s.leaveActive_spec gid .always)

end Sys2Proof.Machine
end

section
/-! ## ScalarWords: bits and fields of a word, the scalar instructions, and the literal words -/

namespace Sys2Proof.Machine

open Sys2Proof.Claims

/-! ### Bits of fields -/

theorem testBit_bits (x lo n i : Nat) : (bits x lo n).testBit i = (decide (i < n) && x.testBit (lo + i)) := by
  rw [bits, Nat.testBit_mod_two_pow, Nat.testBit_div_two_pow, Nat.add_comm]

/-- A word with a field replaced, as the bits above the field, the field and the bits below it. -/
theorem setBits_eq (x lo n v : Nat) : setBits x lo n v = 2 ^ lo * (2 ^ n * (x / 2 ^ lo / 2 ^ n) + v % 2 ^ n) + x % 2 ^ lo := by
  have hx : 2 ^ lo * (2 ^ n * (x / 2 ^ lo / 2 ^ n)) + x / 2 ^ lo % 2 ^ n * 2 ^ lo + x % 2 ^ lo = x := by
    rw [Nat.mul_comm (_ % _), ← Nat.mul_add, Nat.div_add_mod, Nat.div_add_mod]
  rw [setBits, bits, Nat.mul_add, Nat.mul_comm (2 ^ lo) (v % 2 ^ n)]
  omega

theorem testBit_setBits (x lo n v i : Nat) :
    (setBits x lo n v).testBit i = if lo ≤ i ∧ i < lo + n then v.testBit (i - lo) else x.testBit i := by
  have hr : x % 2 ^ lo < 2 ^ lo := Nat.mod_lt _ (Nat.two_pow_pos lo)
  have hf : v % 2 ^ n < 2 ^ n := Nat.mod_lt _ (Nat.two_pow_pos n)
  rw [setBits_eq, Nat.testBit_two_pow_mul_add _ hr, Nat.testBit_two_pow_mul_add _ hf]
  by_cases hlo : i < lo
  · simp [hlo, Nat.testBit_mod_two_pow, show ¬lo ≤ i by omega]
  · by_cases hn : i - lo < n
    · simp [hlo, hn, Nat.testBit_mod_two_pow, show lo ≤ i ∧ i < lo + n by omega]
    · have hi : i - lo - n + n + lo = i := by omega
      simp [hlo, hn, Nat.testBit_div_two_pow, hi, show ¬(lo ≤ i ∧ i < lo + n) by omega]

theorem bit_toNat {n : Nat} (x : BitVec n) (i : Nat) : bit x.toNat i = x.getLsbD i := by
  rw [bit_iff, BitVec.testBit_toNat]

/-! ### Minima, maxima and counts (R166, R177, R179) -/

theorem toInt_minS {n : Nat} (a b : BitVec n) : (minS a b).toInt = min a.toInt b.toInt := by
  simp only [minS, BitVec.slt_iff_toInt_lt]
  split <;> omega

theorem toInt_maxS {n : Nat} (a b : BitVec n) : (maxS a b).toInt = max a.toInt b.toInt := by
  simp only [maxS, BitVec.slt_iff_toInt_lt]
  split <;> omega

theorem toNat_minU {n : Nat} (a b : BitVec n) : (minU a b).toNat = min a.toNat b.toNat := by
  simp only [minU, BitVec.ult_iff_lt, BitVec.lt_def]
  split <;> omega

theorem toNat_maxU {n : Nat} (a b : BitVec n) : (maxU a b).toNat = max a.toNat b.toNat := by
  simp only [maxU, BitVec.ult_iff_lt, BitVec.lt_def]
  split <;> omega

theorem popCount_eq {n : Nat} (x : BitVec n) : popCount x = ((List.range n).filter fun i => x.getLsbD i).length := by
  simp only [popCount, maskBits, bit_toNat]

theorem leadingZeros_le {n : Nat} (x : BitVec n) : leadingZeros x ≤ n := by
  unfold leadingZeros
  split <;> omega

/-- A word that is not zero has its highest set bit just below its leading zeros. -/
theorem leadingZeros_of_ne_zero {n : Nat} {x : BitVec n} (h : x ≠ 0) : x.toNat.log2 < n ∧ leadingZeros x = n - 1 - x.toNat.log2 := by
  have hx : x.toNat ≠ 0 := fun e => h (BitVec.eq_of_toNat_eq e)
  exact ⟨(Nat.log2_lt hx).2 x.isLt, if_neg h⟩

theorem getLsbD_of_leadingZeros_le {n i : Nat} (x : BitVec n) (hi : n - leadingZeros x ≤ i) : x.getLsbD i = false := by
  by_cases h : x = 0
  · rw [h]; exact BitVec.getLsbD_zero
  · obtain ⟨hlt, he⟩ := leadingZeros_of_ne_zero h
    rw [← BitVec.testBit_toNat]
    exact Nat.testBit_lt_two_pow (Nat.lt_of_lt_of_le Nat.lt_log2_self (Nat.pow_le_pow_right (by omega) (by omega)))

theorem getLsbD_of_leadingZeros {n : Nat} {x : BitVec n} (hx : leadingZeros x < n) : x.getLsbD (n - 1 - leadingZeros x) = true := by
  have h : x ≠ 0 := fun e => by rw [leadingZeros, if_pos e] at hx; omega
  obtain ⟨hlt, he⟩ := leadingZeros_of_ne_zero h
  rw [← BitVec.testBit_toNat, he, show n - 1 - (n - 1 - x.toNat.log2) = x.toNat.log2 by omega]
  exact Nat.testBit_log2 fun e => h (BitVec.eq_of_toNat_eq e)

/-! ### Shifts, products and quotients (R166, R167) -/

/-- An arithmetic shift by the width or more leaves copies of the sign. -/
theorem sra_eq {n m : Nat} (a : BitVec n) (b : BitVec m) :
    sra a b = if n ≤ b.toNat then (if a.toInt < 0 then BitVec.allOnes n else 0) else a.sshiftRight b.toNat := by
  simp only [sra, BitVec.msb_eq_toInt, decide_eq_true_eq]

theorem divS_eq_ofInt_tdiv {a b : W64} (h : b ≠ 0) : divS a b = BitVec.ofInt 64 (a.toInt.tdiv b.toInt) := by
  apply BitVec.eq_of_toInt_eq
  rw [divS, if_neg h, BitVec.toInt_sdiv, BitVec.toInt_ofInt]

theorem remS_eq_ofInt_tmod {a b : W64} (h : b ≠ 0) : remS a b = BitVec.ofInt 64 (a.toInt.tmod b.toInt) := by
  rw [remS, if_neg h, ← BitVec.toInt_srem, BitVec.ofInt_toInt]

theorem divU_eq_ofNat_div {a b : W64} (h : b ≠ 0) : divU a b = BitVec.ofNat 64 (a.toNat / b.toNat) := by
  apply BitVec.eq_of_toNat_eq
  rw [divU, if_neg h, BitVec.toNat_udiv, BitVec.toNat_ofNat, Nat.mod_eq_of_lt]
  exact Nat.lt_of_le_of_lt (Nat.div_le_self _ _) a.isLt

theorem remU_eq_ofNat_mod {a b : W64} (h : b ≠ 0) : remU a b = BitVec.ofNat 64 (a.toNat % b.toNat) := by
  apply BitVec.eq_of_toNat_eq
  rw [remU, if_neg h, BitVec.toNat_umod, BitVec.toNat_ofNat, Nat.mod_eq_of_lt (Nat.lt_of_le_of_lt (Nat.mod_le _ _) a.isLt)]

/-! ### Bit fields (R168, R178) -/

theorem getLsbD_bfxU {n : Nat} (a : BitVec n) (pos w i : Nat) (hi : i < n) :
    (bfxU n a pos w).getLsbD i = (decide (i < fieldWidth n pos w) && a.getLsbD (pos + i)) := by
  rw [bfxU, BitVec.getLsbD_ofNat, testBit_bits, BitVec.testBit_toNat, decide_eq_true hi, Bool.true_and]

/-- The signed extract is the field, as a word of its own width, sign-extended. -/
theorem bfxS_eq_signExtend {n : Nat} (a : BitVec n) (pos w : Nat) (h : 0 < fieldWidth n pos w) :
    bfxS n a pos w = (BitVec.ofNat (fieldWidth n pos w) (a.toNat / 2 ^ pos)).signExtend n := by
  have hf : (BitVec.ofNat (fieldWidth n pos w) (a.toNat / 2 ^ pos)).toNat = bits a.toNat pos (fieldWidth n pos w) := BitVec.toNat_ofNat _ _
  have hb : bit (bits a.toNat pos (fieldWidth n pos w)) (fieldWidth n pos w - 1) =
      (BitVec.ofNat (fieldWidth n pos w) (a.toNat / 2 ^ pos)).msb := by
    rw [← hf, bit_toNat, BitVec.msb_eq_getLsbD_last]
  simp only [bfxS, if_neg (Nat.pos_iff_ne_zero.1 h), hb]
  rw [BitVec.signExtend, BitVec.toInt_eq_msb_cond, hf]
  split
  · rfl
  · exact (BitVec.ofInt_natCast _ _).symm

theorem getLsbD_bfxS {n : Nat} (a : BitVec n) (pos w i : Nat) (hi : i < n) : (bfxS n a pos w).getLsbD i =
    (decide (0 < fieldWidth n pos w) && a.getLsbD (pos + min i (fieldWidth n pos w - 1))) := by
  have hbit (k : Nat) (hk : k < fieldWidth n pos w) :
      (BitVec.ofNat (fieldWidth n pos w) (a.toNat / 2 ^ pos)).getLsbD k = a.getLsbD (pos + k) := by
    rw [BitVec.getLsbD_ofNat, decide_eq_true hk, Bool.true_and, Nat.testBit_div_two_pow, BitVec.testBit_toNat, Nat.add_comm]
  by_cases h : 0 < fieldWidth n pos w
  · rw [bfxS_eq_signExtend a pos w h, BitVec.getLsbD_signExtend, decide_eq_true hi, decide_eq_true h]
    by_cases hlt : i < fieldWidth n pos w
    · rw [if_pos hlt, hbit i hlt, Nat.min_eq_left (by omega)]
    · rw [if_neg hlt, BitVec.msb_eq_getLsbD_last, hbit _ (by omega), Nat.min_eq_right (by omega)]
  · have h0 : fieldWidth n pos w = 0 := by omega
    simp [bfxS, h0]

theorem getLsbD_bfi {n : Nat} (old a : BitVec n) (pos w i : Nat) (hi : i < n) : (bfi n old a pos w).getLsbD i =
    if pos ≤ i ∧ i < pos + fieldWidth n pos w then a.getLsbD (i - pos) else old.getLsbD i := by
  rw [bfi, BitVec.getLsbD_ofNat, testBit_setBits, decide_eq_true hi, Bool.true_and, BitVec.testBit_toNat, BitVec.testBit_toNat]

/-! ### Words that write one scalar register -/

/-- A word that no check stops, whose effect is one write of a scalar register. -/
theorem scalarWrite_completes {i : Instr} {s : State} {d : SReg} {x y : W64} {f : State → State} (hx : exec i s = guard i s f)
    (ha : Admits i s) (hf : f s = s.writeS d x) (hy : x = y) : Completes i s (ScalarWrite s · d y) :=
  Completes.intro (exec_of_effect hx ha hf rfl) (hy ▸ s.writeS_spec d x)

theorem scalar2_completes {i : Instr} {s : State} {d a b : SReg} {f : W64 → W64 → W64} {x : W64}
    (hx : exec i s = guard i s fun s => scalar2 s d a b f) (ha : Admits i s) (h : f (s.srcS a) (s.srcS b) = x) :
    Completes i s (ScalarWrite s · d x) :=
  scalarWrite_completes hx ha rfl h

theorem scalar2_completes_of {i : Instr} {s : State} {d a b : SReg} {f : W64 → W64 → W64} {P : W64 → Prop}
    (hx : exec i s = guard i s fun s => scalar2 s d a b f) (ha : Admits i s) (h : P (f (s.srcS a) (s.srcS b))) :
    Completes i s fun t => ∃ r, ScalarWrite s t d r ∧ P r :=
  Completes.mono (scalar2_completes hx ha rfl) fun _ ht => ⟨_, ht, h⟩

theorem scalar1_completes {i : Instr} {s : State} {d a : SReg} {f : W64 → W64} {x : W64}
    (hx : exec i s = guard i s fun s => scalar1 s d a f) (ha : Admits i s) (h : f (s.srcS a) = x) :
    Completes i s (ScalarWrite s · d x) :=
  scalarWrite_completes hx ha rfl h

/-- The all-zero word is the one form of `sadd` that is no instruction (R112, R121). -/
theorem illegalAt_sadd (d a b : SReg) (s : State) : illegalAt (.sadd d a b) s = (d.val == 0 && a.val == 0 && b.val == 0) := by
  have h : illegalAt (.sadd d a b) s =
      (!(!(d.val == 0 && a.val == 0 && b.val == 0)) || false || (s.coreKey == fwCore && false) || false || false) := rfl
  rw [h, Bool.and_false, Bool.not_not, Bool.or_false, Bool.or_false, Bool.or_false, Bool.or_false]

theorem admits_sadd {d a b : SReg} (h : ¬(d.val = 0 ∧ a.val = 0 ∧ b.val = 0)) (s : State) : Admits (.sadd d a b) s := by
  have hs : spaceFault (.sadd d a b) s = if false = true ∧ (!s.iss.sup) = true then some { code := .protect } else none := rfl
  refine admits_of_checks ?_ rfl (hs.trans (if_neg fun p => Bool.false_ne_true p.1))
  rw [illegalAt_sadd]
  simpa [and_assoc] using h

theorem exec_sadd_zero (s : State) : exec (.sadd 0 0 0) s = .next (s.fault { code := .illegal }) :=
  (execSadd.eq_1 0 0 0 s).trans (guard_of_fault (c := 5) (if_pos (illegalAt_sadd 0 0 0 s)) _)

/-- The high half of a signed product; the divisor is the same number, written once as a power of naturals. -/
theorem mulHighS_eq (a b : W64) : mulHighS 64 a b = BitVec.ofInt 64 (a.toInt * b.toInt / 2 ^ 64) := rfl

theorem scalarResults : Claims.ScalarResults := by
  intro s d a b c
  have plain {i : Instr} := @admits_of_plain i s
  exact ⟨fun h => scalar2_completes (execSadd.eq_1 d a b s) (admits_sadd h s) rfl,
    exec_sadd_zero s,
    scalar2_completes (execSsub.eq_1 d a b s) (plain rfl rfl rfl) rfl,
    scalar2_completes (execSmul.eq_1 d a b s) (plain rfl rfl rfl) rfl,
    scalar2_completes (execSmulhI64.eq_1 d a b s) (plain rfl rfl rfl) (mulHighS_eq _ _),
    scalar2_completes (execSmulhN64.eq_1 d a b s) (plain rfl rfl rfl) rfl,
    scalar2_completes (execSand.eq_1 d a b s) (plain rfl rfl rfl) rfl,
    scalar2_completes (execSor.eq_1 d a b s) (plain rfl rfl rfl) rfl,
    scalar2_completes (execSxor.eq_1 d a b s) (plain rfl rfl rfl) rfl,
    scalar1_completes (execSnot.eq_1 d a s) (plain rfl rfl rfl) rfl,
    scalar1_completes (execSmov.eq_1 d a s) (plain rfl rfl rfl) rfl,
    scalar2_completes (execSshl.eq_1 d a b s) (plain rfl rfl rfl) rfl,
    scalar2_completes (execSshr.eq_1 d a b s) (plain rfl rfl rfl) rfl,
    scalar2_completes (execSsra.eq_1 d a b s) (plain rfl rfl rfl) (sra_eq _ _),
    scalarWrite_completes (execSsel.eq_1 d a b s) (plain rfl rfl rfl) rfl rfl,
    scalar2_completes (execScmp.eq_1 c d a b s) (plain rfl rfl rfl) rfl⟩

theorem scalarMinMax : Claims.ScalarMinMax := fun s d a b =>
  ⟨scalar2_completes_of (execSmin.eq_1 d a b s) (admits_of_plain rfl rfl rfl) (toInt_minS _ _),
    scalar2_completes_of (execSmax.eq_1 d a b s) (admits_of_plain rfl rfl rfl) (toInt_maxS _ _),
    scalar2_completes_of (execSminn.eq_1 d a b s) (admits_of_plain rfl rfl rfl) (toNat_minU _ _),
    scalar2_completes_of (execSmaxn.eq_1 d a b s) (admits_of_plain rfl rfl rfl) (toNat_maxU _ _)⟩

theorem scalarCounts : Claims.ScalarCounts := by
  intro s d a
  have hclz : Completes (.sclz d a) s (ScalarWrite s · d (BitVec.ofNat 64 (leadingZeros (s.srcS a)))) :=
    scalar1_completes (execSclz.eq_1 d a s) (admits_of_plain rfl rfl rfl) rfl
  exact ⟨Completes.mono hclz fun _ ht =>
      ⟨leadingZeros (s.srcS a), leadingZeros_le _, ht, fun _ _ => getLsbD_of_leadingZeros_le _, getLsbD_of_leadingZeros⟩,
    scalar1_completes (execSpopc.eq_1 d a s) (admits_of_plain rfl rfl rfl) (congrArg _ (popCount_eq _))⟩

/-- Settles O4: each word is one write of a scalar register (`State.writeS_spec`), of a value that the lemmas above relate to
what R166 says of it. -/
theorem scalarArithmetic : Obligations.ScalarArithmetic := ⟨scalarResults, scalarMinMax, scalarCounts⟩

/-! ### Division and its flags (R164, R167) -/

/-- Flags added to SXF (R164); `State.setDZ` and `State.setDOV` each add one. -/
def State.addFlags (s : State) (b : BitVec 2) : State := s.modCur fun g => { g with regs := { g.regs with sxf := g.regs.sxf ||| b } }

theorem State.divFlags_of_zero {y : W64} (h : y = 0) (s : State) (signed : Bool) (x : W64) :
    s.divFlags signed x y = s.addFlags 1 := if_pos h

theorem State.divFlags_of_overflow (s : State) : s.divFlags true 0x8000000000000000#64 0xffffffffffffffff#64 = s.addFlags 2 := rfl

theorem State.divFlags_unsigned {y : W64} (h : y ≠ 0) (s : State) (x : W64) : s.divFlags false x y = s :=
  (if_neg h).trans (if_neg fun p => Bool.false_ne_true p.1)

theorem State.divFlags_signed {x y : W64} (h : y ≠ 0) (hov : ¬(x = 0x8000000000000000#64 ∧ y = 0xffffffffffffffff#64)) (s : State) :
    s.divFlags true x y = s :=
  (if_neg h).trans (if_neg fun p => hov p.2)

/-- Flags added after a write of a scalar register: both changes, and no other. -/
theorem scalarWriteFlags_addFlags {s u : State} {d : SReg} {x : W64} (h : ScalarWrite s u d x) (b : BitVec 2) :
    ScalarWriteFlags s (u.addFlags b) d x (s.cur.regs.sxf ||| b) := by
  obtain ⟨hd, hne, -, -, honly, hbank⟩ := h
  have hiss : u.iss = s.iss := by rw [honly, State.iss_modCur]
  have hcur : (u.addFlags b).cur = { u.cur with regs := { u.cur.regs with sxf := u.cur.regs.sxf ||| b } } := State.cur_modCur _ _
  have hsxf : u.cur.regs.sxf = s.cur.regs.sxf := by rw [honly, State.cur_modCur]
  have hreg (n : SReg) : sreg (u.addFlags b) n = sreg u n := by simp only [sreg, hcur]; rfl
  refine ⟨(hreg d).trans hd, fun n hn => (hreg n).trans (hne n hn), ?_, ?_, ?_⟩
  · rw [hcur, hsxf]
  · rw [hcur]; exact hbank
  · rw [hcur]
    conv_lhs => rw [honly]
    rw [State.addFlags, State.modCur_modCur]
    exact State.modCur_congr _ _ _ rfl

section

variable {i : Instr} {s : State} {d a b : SReg} {f : W64 → W64 → W64} {signed : Bool} {x : W64}

/-- A division in a borderline case: the defined result, and its flag. -/
theorem division_completes_flag {k : BitVec 2}
    (hx : exec i s = guard i s fun s => (scalar2 s d a b f).divFlags signed (s.srcS a) (s.srcS b)) (ha : Admits i s)
    (hk : ∀ u : State, u.divFlags signed (s.srcS a) (s.srcS b) = u.addFlags k) (h : f (s.srcS a) (s.srcS b) = x) :
    Completes i s (ScalarWriteFlags s · d x (s.cur.regs.sxf ||| k)) := by
  subst h
  exact Completes.intro (exec_of_effect hx ha (hk _) rfl) (scalarWriteFlags_addFlags (s.writeS_spec d _) k)

/-- Any other division: no flag. -/
theorem division_completes
    (hx : exec i s = guard i s fun s => (scalar2 s d a b f).divFlags signed (s.srcS a) (s.srcS b)) (ha : Admits i s)
    (hk : ∀ u : State, u.divFlags signed (s.srcS a) (s.srcS b) = u) (h : f (s.srcS a) (s.srcS b) = x) :
    Completes i s (ScalarWrite s · d x) :=
  scalarWrite_completes hx ha (hk _) h

end

theorem admits_division (s : State) (d a b : SReg) : Admits (.sdivI64 d a b) s ∧ Admits (.sdivN64 d a b) s ∧
    Admits (.sremI64 d a b) s ∧ Admits (.sremN64 d a b) s :=
  ⟨admits_of_plain rfl rfl rfl, admits_of_plain rfl rfl rfl, admits_of_plain rfl rfl rfl, admits_of_plain rfl rfl rfl⟩

/-- Settles O5: which flag a division sets is `State.divFlags` case by case, and its result in each case is `divS`, `divU`, `remS`
or `remU` there. -/
theorem scalarDivision : Obligations.ScalarDivision := by
  intro s d a b
  obtain ⟨hdivS, hdivU, hremS, hremU⟩ := admits_division s d a b
  refine ⟨fun h => ?_, fun h => ?_, fun h => ⟨?_, ?_, fun hov => ?_⟩⟩
  · have hz (signed : Bool) (u : State) := u.divFlags_of_zero h signed (s.srcS a)
    exact ⟨division_completes_flag (execSdivI64.eq_1 d a b s) hdivS (hz true) (if_pos h),
      division_completes_flag (execSdivN64.eq_1 d a b s) hdivU (hz false) (if_pos h),
      division_completes_flag (execSremI64.eq_1 d a b s) hremS (hz true) (if_pos h),
      division_completes_flag (execSremN64.eq_1 d a b s) hremU (hz false) (if_pos h)⟩
  · rw [Bool.and_eq_true, beq_iff_eq, beq_iff_eq] at h
    obtain ⟨hmin, hneg⟩ := h
    have hk (u : State) : u.divFlags true (s.srcS a) (s.srcS b) = u.addFlags 2 := by rw [hmin, hneg]; exact u.divFlags_of_overflow
    exact ⟨division_completes_flag (execSdivI64.eq_1 d a b s) hdivS hk (by rw [hmin, hneg]; decide),
      division_completes_flag (execSremI64.eq_1 d a b s) hremS hk (by rw [hmin, hneg]; decide)⟩
  · exact division_completes (execSdivN64.eq_1 d a b s) hdivU (State.divFlags_unsigned h · _) (divU_eq_ofNat_div h)
  · exact division_completes (execSremN64.eq_1 d a b s) hremU (State.divFlags_unsigned h · _) (remU_eq_ofNat_mod h)
  · have hne : ¬(s.srcS a = 0x8000000000000000#64 ∧ s.srcS b = 0xffffffffffffffff#64) := by
      rwa [Bool.and_eq_false_iff, beq_eq_false_iff_ne, beq_eq_false_iff_ne, ← not_and_or] at hov
    have hk := State.divFlags_signed h hne
    exact ⟨division_completes (execSdivI64.eq_1 d a b s) hdivS hk (divS_eq_ofInt_tdiv h),
      division_completes (execSremI64.eq_1 d a b s) hremS hk (remS_eq_ofInt_tmod h)⟩

/-! ### Bit fields and literals (R168, R169) -/

theorem posOf64_eq (y : W64) : posOf64 y = y.toNat % 64 := congrArg (· % 64) (Nat.div_one y.toNat)

theorem fieldWidth_widthOf64 (y : W64) :
    fieldWidth 64 (posOf64 y) (widthOf64 y) = min (y.toNat / 256 % 128) (64 - posOf64 y) := rfl

theorem scalarBitFields : Claims.ScalarBitFields := by
  intro s d a b
  dsimp only
  rw [← posOf64_eq, ← fieldWidth_widthOf64]
  exact ⟨scalar2_completes_of (execSbfxN64.eq_1 d a b s) (admits_of_plain rfl rfl rfl) (getLsbD_bfxU _ _ _),
    scalar2_completes_of (execSbfxI64.eq_1 d a b s) (admits_of_plain rfl rfl rfl) (getLsbD_bfxS _ _ _),
    Completes.mono (scalarWrite_completes (execSbfi.eq_1 d a b s) (admits_of_plain rfl rfl rfl) rfl rfl) fun _ ht =>
      ⟨_, ht, getLsbD_bfi _ _ _ _⟩⟩

theorem scalarLiterals : Claims.ScalarLiterals := fun s d i l =>
  ⟨scalarWrite_completes (execSli.eq_1 d i s) (admits_of_plain rfl rfl rfl) rfl rfl,
    scalarWrite_completes (execSlit.eq_1 d l s) (admits_of_plain rfl rfl rfl) rfl rfl,
    scalarWrite_completes (execSlitN32.eq_1 d l s) (admits_of_plain rfl rfl rfl) rfl (BitVec.ofNat_toNat 64 l).symm⟩

/-- Settles O6: the words write `bfxU`, `bfxS` and `bfi` of their operands, whose bits are given above, or their own literal. -/
theorem scalarFieldsAndLiterals : Obligations.ScalarFieldsAndLiterals := ⟨scalarBitFields, scalarLiterals⟩

end Sys2Proof.Machine
end

section
/-! ## AffineWords: affine updates, `aget`, and the predicate words -/

namespace Sys2Proof.Machine

open Sys2Proof.Claims

/-! ### Affine registers (R158, R171) -/

/-- A word that no check stops, whose effect is one write of an affine register. -/
theorem affineWrite_completes {i : Instr} {s : State} {d : AReg} {x y : AffReg} {f : State → State} (hx : exec i s = guard i s f)
    (ha : Admits i s) (hf : f s = s.writeA d x) (hy : x = y) : Completes i s (AffineWrite s · d y) :=
  Completes.intro (exec_of_effect hx ha hf rfl) (hy ▸ s.writeA_spec d x)

theorem affineResults : Claims.AffineResults := by
  intro s d a b i
  refine ⟨affineWrite_completes (execAset.eq_1 d b i s) (admits_of_plain rfl rfl rfl) rfl rfl,
    affineWrite_completes (execAadd.eq_1 d a b i s) (admits_of_plain rfl rfl rfl) rfl rfl,
    affineWrite_completes (execAstr.eq_1 d a b s) (admits_of_plain rfl rfl rfl) rfl ?_,
    affineWrite_completes (execAmul.eq_1 d a b i s) (admits_of_plain rfl rfl rfl) rfl ?_,
    affineWrite_completes (execAidx.eq_1 d a i s) (admits_of_plain rfl rfl rfl) rfl rfl⟩
  · rw [BitVec.ofNat_toNat]
  · rw [BitVec.ofNat_toNat]; rfl

/-- A lane's value is the base and `i` strides, each a signed number (R158). -/
theorem AffReg.lane_eq (x : AffReg) (i : Nat) : x.lane i = x.base + BitVec.ofInt 64 (i * x.stride.toInt) := by
  rw [AffReg.lane, BitVec.ofInt_mul, BitVec.ofInt_natCast]; rfl

/-! ### `aget` (R122, R172) -/

section

variable (a : AReg) (v : VReg64) (s : State)

theorem illegalAt_aget : illegalAt (.aget a v) s = false := by
  show (!true || (false && s.coreKey != fwCore) || (s.coreKey == fwCore && false) || false || false) = false
  simp

theorem spaceFault_aget : spaceFault (.aget a v) s = none := by
  show (if false = true ∧ (!s.iss.sup) = true then some { code := .protect } else none) = none
  exact if_neg fun p => Bool.false_ne_true p.1

theorem regRangeAt_aget : regRangeAt (.aget a v) s = decide (s.cur.vregs ≤ v.val) := by
  show (decide (s.cur.vregs ≤ v.val) || false) = _
  rw [Bool.or_false]

variable {a v s}

theorem admits_aget (h : v.val < s.cur.vregs) : Admits (.aget a v) s := by
  rw [Admits, wordFault, illegalAt_aget, regRangeAt_aget, spaceFault_aget, decide_eq_false (by omega)]
  rfl

theorem exec_aget_regRange (h : s.cur.vregs ≤ v.val) : exec (.aget a v) s = .next (s.fault { code := .regRange }) := by
  refine (execAget.eq_1 a v s).trans (guard_of_fault (c := 6) ?_ _)
  rw [wordFault, illegalAt_aget, regRangeAt_aget, decide_eq_true h]
  rfl

end

theorem affineGet : Claims.AffineGet := by
  intro s a v
  refine ⟨fun h => ?_, exec_aget_regRange⟩
  refine Completes.intro (exec_of_effect (execAget.eq_1 a v s) (admits_aget h) rfl rfl) ?_
  simp only [AffReg.lane_eq, ← BitVec.ofNat_toNat]
  exact s.writeV_spec _ _

/-! ### Predicates (R173, R174) -/

/-- A word that no check stops, whose effect is one write of a predicate in the active lanes. -/
theorem predWrite_completes {i : Instr} {s : State} {d : PReg} {p q : Nat → Bool} {f : State → State} (hx : exec i s = guard i s f)
    (ha : Admits i s) (hf : f s = s.writeP d p) (hq : p = q) : Completes i s (PredWrite s · d q) :=
  Completes.intro (exec_of_effect hx ha hf rfl) (hq ▸ s.writeP_spec d p)

/-- The active lanes that a predicate picks, in the order of the lanes. -/
theorem State.lanes_filter (s : State) (p : Nat → Bool) :
    s.lanes.filter p = (List.range 64).filter fun i => s.active i && p i := by
  rw [State.lanes, maskBits, List.filter_filter]
  exact congrArg (List.filter · _) (funext fun i => Bool.and_comm _ _)

theorem predicateResults : Claims.PredicateResults := by
  intro s d a b q
  have plain {i : Instr} := @admits_of_plain i s
  exact ⟨predWrite_completes (execPand.eq_1 d a b s) (plain rfl rfl rfl) rfl rfl,
    predWrite_completes (execPor.eq_1 d a b s) (plain rfl rfl rfl) rfl rfl,
    predWrite_completes (execPxor.eq_1 d a b s) (plain rfl rfl rfl) rfl rfl,
    predWrite_completes (execPnot.eq_1 d a s) (plain rfl rfl rfl) rfl rfl,
    predWrite_completes (execPmov.eq_1 d a s) (plain rfl rfl rfl) rfl rfl,
    scalarWrite_completes (execPcnt.eq_1 a q s) (plain rfl rfl rfl) rfl
      (congrArg (fun l => BitVec.ofNat 64 (List.length l)) (s.lanes_filter _))⟩

/-- Settles O7: each word is one write of an affine register, of a predicate or of a vector register (`State.writeA_spec`,
`State.writeP_spec`, `State.writeV_spec`); a lane's affine value is `AffReg.lane_eq`. -/
theorem affineAndPredicates : Obligations.AffineAndPredicates := ⟨affineResults, affineGet, predicateResults⟩

end Sys2Proof.Machine
end

section
/-! ## RegisterWindow: the bytes of the register window, and the words that load and store them -/

namespace Sys2Proof.Machine

open Sys2Proof.Claims

/-! ### Bytes of a register -/

theorem testBit_byteOf (x k i : Nat) : (byteOf x k).testBit i = (decide (i < 8) && x.testBit (8 * k + i)) := by
  have h : byteOf x k = bits x (8 * k) 8 := congrArg (x / · % 256) (Nat.pow_mul 2 8 k).symm
  rw [h, testBit_bits]

theorem byteOf_lt (x k : Nat) : byteOf x k < 256 := Nat.mod_lt _ (by decide)

/-- The byte written is read back, every other as before. -/
theorem byteOf_putByte (x k j v : Nat) : byteOf (putByte x k v) j = if j = k then v % 256 else byteOf x j := by
  apply Nat.eq_of_testBit_eq
  intro i
  rw [testBit_byteOf, putByte, testBit_setBits]
  by_cases hi : i < 8
  · by_cases h : j = k
    · have hv : v % 256 = v % 2 ^ 8 := rfl
      rw [if_pos h, hv, Nat.testBit_mod_two_pow, if_pos (by omega), show 8 * j + i - 8 * k = i by omega]
    · rw [if_neg h, if_neg (by omega), testBit_byteOf]
  · have hl : (if j = k then v % 256 else byteOf x j) < 2 ^ i := by
      refine Nat.lt_of_lt_of_le (m := 2 ^ 8) ?_ (Nat.pow_le_pow_right (by decide) (by omega))
      split
      · exact Nat.mod_lt _ (by decide)
      · exact byteOf_lt x j
    rw [decide_eq_false hi, Bool.false_and, Nat.testBit_lt_two_pow hl]

/-- The bytes of a register are those of its number. -/
theorem byteOf_mod (x k w : Nat) (h : 8 * k + 8 ≤ w) : byteOf (x % 2 ^ w) k = byteOf x k := by
  apply Nat.eq_of_testBit_eq
  intro i
  rw [testBit_byteOf, testBit_byteOf, Nat.testBit_mod_two_pow]
  by_cases hi : i < 8
  · rw [decide_eq_true (show 8 * k + i < w by omega), Bool.true_and]
  · rw [decide_eq_false hi, Bool.false_and, Bool.false_and]

/-- Writing the bytes of a number one after the other writes its low bytes. -/
theorem putByte_setBits (x v n w : Nat) :
    putByte (setBits x 0 (8 * n) v % 2 ^ w) n (byteOf v n) % 2 ^ w = setBits x 0 (8 * (n + 1)) v % 2 ^ w := by
  apply Nat.eq_of_testBit_eq
  intro i
  simp only [Nat.testBit_mod_two_pow, putByte, testBit_setBits, testBit_byteOf]
  by_cases hw : i < w
  · by_cases hlo : i < 8 * n
    · simp [hw, hlo, show ¬8 * n ≤ i by omega, show i < 8 * (n + 1) by omega]
    · by_cases hhi : i < 8 * (n + 1)
      · simp [hw, hhi, show 8 * n ≤ i by omega, show i < 8 * n + 8 by omega, show i - 8 * n < 8 by omega,
          show 8 * n + (i - 8 * n) = i by omega]
      · simp [hw, hlo, hhi, show ¬i < 8 * n + 8 by omega]
  · simp [hw]

/-! ### The slots of the window (R152, R155) -/

section

variable (r : Regs) (vregs m : Nat)

/-- The byte of a vector register. -/
theorem Regs.kRead_vector {off : Nat} (h : off < 128 * vregs) :
    r.kRead vregs m off = byteOf (Tab.get 0 (Tab.get [] r.v (off / 128)) (off % 128 / 4)).toNat (off % 4) := if_pos h

/-- Past the vector registers an offset counts from their end. -/
theorem Regs.kRead_control (c : Nat) : r.kRead vregs m (128 * vregs + c) = r.kRead 0 m c := by
  simp only [Regs.kRead, Nat.add_sub_cancel_left, Nat.mul_zero, Nat.sub_zero, Nat.not_lt_zero, if_false,
    if_neg (show ¬128 * vregs + c < 128 * vregs by omega)]

theorem Regs.kWrite_control (c v : Nat) : r.kWrite vregs m (128 * vregs + c) v = r.kWrite 0 m c v := by
  simp only [Regs.kWrite, Nat.add_sub_cancel_left, Nat.mul_zero, Nat.sub_zero, Nat.not_lt_zero, if_false,
    if_neg (show ¬128 * vregs + c < 128 * vregs by omega)]

/-- The slot of `s0`. -/
theorem Regs.kRead_s0 {k : Nat} (h : k < 8) : r.kRead vregs m (128 * vregs + k) = 0 := by
  rw [Regs.kRead_control, Regs.kRead, if_neg (by omega)]
  dsimp only
  rw [if_pos (by omega), if_pos (by omega)]

theorem Regs.kWrite_s0 {k : Nat} (h : k < 8) (v : Nat) : r.kWrite vregs m (128 * vregs + k) v = r := by
  rw [Regs.kWrite_control, Regs.kWrite, if_neg (by omega)]
  dsimp only
  rw [if_pos (by omega), if_pos (by omega)]

/-- The slot of `p0`: the lanes that exist (R173). -/
theorem Regs.kRead_p0 {k : Nat} (h : k < 4) : r.kRead vregs m (128 * vregs + (0x300 + k)) = byteOf (2 ^ (4 * m) - 1) k := by
  rw [Regs.kRead_control, Regs.kRead, if_neg (by omega)]
  dsimp only
  rw [if_neg (by omega), if_neg (by omega), if_pos (by omega), if_pos (by omega)]
  congr 1
  omega

theorem Regs.kWrite_p0 {k : Nat} (h : k < 4) (v : Nat) : r.kWrite vregs m (128 * vregs + (0x300 + k)) v = r := by
  rw [Regs.kWrite_control, Regs.kWrite, if_neg (by omega)]
  dsimp only
  rw [if_neg (by omega), if_neg (by omega), if_pos (by omega), if_pos (by omega)]

/-- The bytes between a stride and the next base (R152). -/
theorem Regs.kRead_pastStride {k : Nat} (h : 0x200 ≤ k ∧ k < 0x300 ∧ 12 ≤ k % 16) : r.kRead vregs m (128 * vregs + k) = 0 := by
  rw [Regs.kRead_control, Regs.kRead, if_neg (by omega)]
  dsimp only
  rw [if_neg (by omega), if_pos (by omega), if_neg (by omega), if_neg (by omega)]

theorem Regs.kWrite_pastStride {k : Nat} (h : 0x200 ≤ k ∧ k < 0x300 ∧ 12 ≤ k % 16) (v : Nat) :
    r.kWrite vregs m (128 * vregs + k) v = r := by
  rw [Regs.kWrite_control, Regs.kWrite, if_neg (by omega)]
  dsimp only
  rw [if_neg (by omega), if_pos (by omega), if_neg (by omega), if_neg (by omega)]

/-- The bytes past SXF (R152). -/
theorem Regs.kRead_pastEnd {k : Nat} (h : 0x361 ≤ k) : r.kRead vregs m (128 * vregs + k) = 0 := by
  rw [Regs.kRead_control, Regs.kRead, if_neg (by omega)]
  dsimp only
  rw [if_neg (by omega), if_neg (by omega), if_neg (by omega), if_neg (by omega), if_neg (by omega)]

theorem Regs.kWrite_pastEnd {k : Nat} (h : 0x361 ≤ k) (v : Nat) : r.kWrite vregs m (128 * vregs + k) v = r := by
  rw [Regs.kWrite_control, Regs.kWrite, if_neg (by omega)]
  dsimp only
  rw [if_neg (by omega), if_neg (by omega), if_neg (by omega), if_neg (by omega), if_neg (by omega)]

/-- A byte of a stride. -/
theorem Regs.kWrite_stride {a k : Nat} (ha : a < 16) (hk : k < 4) (v : Nat) :
    r.kWrite vregs m (128 * vregs + (0x208 + 16 * a + k)) v = { r with a := Tab.set r.a a { r.a.get {} a with
      stride := BitVec.ofNat 32 (putByte (r.a.get {} a).stride.toNat k v) } } := by
  have hn : (0x208 + 16 * a + k - 0x200) / 16 = a := by omega
  have hb : (0x208 + 16 * a + k) % 16 - 8 = k := by omega
  rw [Regs.kWrite_control, Regs.kWrite, if_neg (by omega)]
  dsimp only
  rw [if_neg (by omega), if_pos (by omega), if_neg (by omega), if_pos (by omega), Nat.mul_zero, Nat.sub_zero, hn, hb]

end

/-- A byte written to a vector register is read back, and every other byte of the vector registers is as before. -/
theorem Regs.kRead_kWrite_vector (r : Regs) (vregs m : Nat) {off off' v : Nat} (h : off < 128 * vregs) (h' : off' < 128 * vregs)
    (hv : v < 256) :
    (r.kWrite vregs m off v).kRead vregs m off' = if off' = off then v else r.kRead vregs m off' := by
  rw [Regs.kRead_vector _ _ _ h', Regs.kRead_vector _ _ _ h', Regs.kWrite, if_pos h]
  dsimp only
  by_cases hn : off' / 128 = off / 128
  · rw [hn, Tab.get_set]
    by_cases hi : off' % 128 / 4 = off % 128 / 4
    · rw [hi, Tab.get_set, BitVec.toNat_ofNat, byteOf_mod _ _ _ (by omega), byteOf_putByte, Nat.mod_eq_of_lt hv]
      exact if_congr (by omega) rfl rfl
    · rw [Tab.get_set_ne _ _ _ _ _ hi, if_neg (by omega)]
  · rw [Tab.get_set_ne _ _ _ _ _ hn, if_neg (by omega)]

/-- `t` is `r` with the stride of affine register `a` at `x`. -/
def Regs.StrideSet (r t : Regs) (a : Nat) (x : W32) : Prop :=
  t.a.get {} a = { r.a.get {} a with stride := x } ∧ (∀ d, d ≠ a → t.a.get {} d = r.a.get {} d) ∧ t = { r with a := t.a }

/-- The first bytes stored to a stride slot are the low bytes of the stride. -/
theorem Regs.kWriteN_stride_low (r : Regs) (vregs m : Nat) {a : Nat} (ha : a < 16) (x n : Nat) (hn : n ≤ 4) :
    r.StrideSet (r.kWriteN vregs m (128 * vregs + (0x208 + 16 * a)) x n) a
      (BitVec.ofNat 32 (setBits (r.a.get {} a).stride.toNat 0 (8 * n) x)) := by
  induction n with
  | zero =>
    refine ⟨?_, fun _ _ => rfl, rfl⟩
    simp [Regs.kWriteN, setBits, bits, Nat.mod_one]
  | succ n ih =>
    obtain ⟨hget, hne, honly⟩ := ih (by omega)
    have hbyte (y : Nat) : BitVec.ofNat 32 (putByte (BitVec.ofNat 32 (setBits y 0 (8 * n) x)).toNat n (byteOf x n)) =
        BitVec.ofNat 32 (setBits y 0 (8 * (n + 1)) x) := BitVec.eq_of_toNat_eq (by
      rw [BitVec.toNat_ofNat, BitVec.toNat_ofNat, BitVec.toNat_ofNat, putByte_setBits])
    rw [Regs.kWriteN, Nat.add_assoc (128 * vregs), Regs.kWrite_stride _ _ _ ha (by omega)]
    refine ⟨?_, fun d hd => ?_, ?_⟩
    · dsimp only
      rw [Tab.get_set, hget, hbyte]
    · dsimp only
      rw [Tab.get_set_ne _ _ _ _ _ hd, hne d hd]
    · dsimp only
      rw [honly]

/-- The bytes past the four of a stride are discarded (R155). -/
theorem Regs.kWriteN_stride_high (r : Regs) (vregs m : Nat) {a : Nat} (ha : a < 16) (x n : Nat) (hn : n ≤ 4) :
    r.kWriteN vregs m (128 * vregs + (0x208 + 16 * a)) x (4 + n) = r.kWriteN vregs m (128 * vregs + (0x208 + 16 * a)) x 4 := by
  induction n with
  | zero => rfl
  | succ n ih =>
    rw [show 4 + (n + 1) = 4 + n + 1 from rfl, Regs.kWriteN, ih (by omega), Nat.add_assoc (128 * vregs),
      Regs.kWrite_pastStride _ _ _ (by omega)]

theorem setBits_zero_mod (x n v : Nat) : setBits x 0 n v % 2 ^ n = v % 2 ^ n := by
  rw [setBits_eq, pow_zero, Nat.one_mul, Nat.mod_one, Nat.add_zero, Nat.mul_add_mod, Nat.mod_mod]

/-- Eight bytes stored to a stride slot write the stride, and no more of the registers (R155). -/
theorem Regs.kWriteN_stride (r : Regs) (vregs m : Nat) {a : Nat} (ha : a < 16) (x : Nat) :
    r.StrideSet (r.kWriteN vregs m (128 * vregs + (0x208 + 16 * a)) x 8) a (BitVec.ofNat 32 x) := by
  have hx (y : Nat) : BitVec.ofNat 32 (setBits y 0 (8 * 4) x) = BitVec.ofNat 32 x := BitVec.eq_of_toNat_eq (by
    rw [BitVec.toNat_ofNat, BitVec.toNat_ofNat, setBits_zero_mod])
  have hlow := r.kWriteN_stride_low vregs m ha x 4 (Nat.le_refl 4)
  rwa [hx, ← r.kWriteN_stride_high vregs m ha x 4 (Nat.le_refl 4)] at hlow

theorem testBit_lanes_byte (m k i : Nat) (hi : i < 8) : (byteOf (2 ^ (4 * m) - 1) k).testBit i = decide (8 * k + i < 4 * m) := by
  rw [testBit_byteOf, decide_eq_true hi, Bool.true_and, Nat.testBit_two_pow_sub_one]

theorem registerWindowBytes : Claims.RegisterWindowBytes := by
  intro r vregs n off b a x hb
  refine ⟨fun h => ⟨?_, fun off' h' hne => ?_⟩, fun k hk => ⟨r.kWrite_s0 _ _ hk _, r.kRead_s0 _ _ hk⟩, fun k hk => ?_,
    fun k hk => ?_, fun ha => ?_⟩
  · rw [r.kRead_kWrite_vector _ _ h h hb, if_pos rfl]
  · rw [r.kRead_kWrite_vector _ _ h h' hb, if_neg hne]
  · rw [Nat.add_assoc, r.kWrite_p0 _ _ hk, r.kRead_p0 _ _ hk]
    exact ⟨rfl, testBit_lanes_byte n k⟩
  · rcases hk with ⟨hlt, hle, hmod⟩ | hk
    · exact ⟨r.kWrite_pastStride _ _ ⟨hle, hlt, hmod⟩ _, r.kRead_pastStride _ _ ⟨hle, hlt, hmod⟩⟩
    · exact ⟨r.kWrite_pastEnd _ _ hk _, r.kRead_pastEnd _ _ hk⟩
  · have hoff : 128 * vregs + 0x200 + 16 * a + 8 = 128 * vregs + (0x208 + 16 * a) := by omega
    dsimp only
    rw [hoff]
    exact r.kWriteN_stride vregs n ha x

/-! ### The lanes of a `k:` word (R154) -/

theorem foldl_append_fst {α β γ : Type} (f : α → β) (l : List α) (x : List β) (y : γ) :
    l.foldl (fun p i => (p.1 ++ [f i], p.2)) (x, y) = (x ++ l.map f, y) := by
  induction l generalizing x with
  | nil => simp
  | cons i l ih => rw [List.foldl_cons, ih, List.append_assoc, List.map_cons, List.singleton_append]

/-- Accesses that all pass, in the order of the lanes. -/
theorem State.kLanes_of_passing {s : State} {size : Nat} {adr : Nat → Nat} (h : ∀ i ∈ s.lanes, s.kCheck (adr i) size = none) :
    s.kLanes size adr = (s.lanes.map fun i => (i, adr i % 2 ^ 17), []) := by
  rw [State.kLanes, List.foldl_ext _ (fun p i => (p.1 ++ [(i, adr i % 2 ^ 17)], p.2)) _ fun p i hi => ?_, foldl_append_fst, List.nil_append]
  simp only [h i hi, bits, pow_zero, Nat.div_one]

/-! ### Loads -/

section

variable (g : Gang) (d : Nat) (signed : Bool) (size : Nat)

/-- What a load writes to a lane of register `n`, if it writes there: register `d`, or the pair of `d` and the next (R226). -/
def loadedLane (x n : Nat) : Option W32 :=
  if size = 8 then (if n = d + 1 then some (BitVec.ofNat 32 (x / 2 ^ 32)) else if n = d then some (BitVec.ofNat 32 x) else none)
  else if n = d then some (extendLoad signed size x) else none

/-- A lane of a vector register of a gang; `vreg` reads those of the issuing gang. -/
def Gang.laneOf (n i : Nat) : W32 := Tab.get 0 (Tab.get [] g.regs.v n) i

theorem Gang.laneOf_writeV_one (i n j : Nat) (x : W32) :
    (g.writeV d [i] fun _ => x).laneOf n j = if n = d ∧ j = i then x else g.laneOf n j := by
  simp only [Gang.laneOf, Gang.writeV, List.foldl_cons, List.foldl_nil]
  by_cases hn : n = d
  · subst hn
    by_cases hj : j = i
    · subst hj; simp [Tab.get_set]
    · simp [Tab.get_set, Tab.get_set_ne _ _ _ _ _ hj, hj]
  · simp [Tab.get_set_ne _ _ _ _ _ hn, hn]

theorem Gang.laneOf_writeLoaded (i x n j : Nat) : (g.writeLoaded d signed size i x).laneOf n j =
    if j = i then (loadedLane d signed size x n).getD (g.laneOf n j) else g.laneOf n j := by
  unfold Gang.writeLoaded loadedLane
  split
  · rw [Gang.laneOf_writeV_one, Gang.laneOf_writeV_one]
    by_cases hj : j = i <;> by_cases hn : n = d + 1 <;> by_cases hd : n = d <;> simp [hj, hn, hd]
  · rw [Gang.laneOf_writeV_one]
    by_cases hj : j = i <;> by_cases hn : n = d <;> simp [hj, hn]

theorem Gang.writeLoaded_only (i x : Nat) : ∃ v, g.writeLoaded d signed size i x = { g with regs := { g.regs with v := v } } := by
  unfold Gang.writeLoaded
  split
  · exact ⟨_, rfl⟩
  · exact ⟨_, rfl⟩

/-- A load's lanes one after the other: each writes what it loaded, and no other register of the gang changes. -/
theorem Gang.laneOf_foldl_writeLoaded (x : Nat → Nat) (l : List Nat) (n j : Nat) :
    (l.foldl (fun h i => h.writeLoaded d signed size i (x i)) g).laneOf n j =
      if j ∈ l then (loadedLane d signed size (x j) n).getD (g.laneOf n j) else g.laneOf n j := by
  induction l generalizing g with
  | nil => simp
  | cons i l ih =>
    rw [List.foldl_cons, ih, Gang.laneOf_writeLoaded]
    by_cases hj : j = i
    · subst hj
      cases loadedLane d signed size (x j) n <;> simp
    · simp [hj]

theorem Gang.foldl_writeLoaded_only (x : Nat → Nat) (l : List Nat) :
    ∃ v, l.foldl (fun h i => h.writeLoaded d signed size i (x i)) g = { g with regs := { g.regs with v := v } } := by
  induction l generalizing g with
  | nil => exact ⟨_, rfl⟩
  | cons i l ih =>
    obtain ⟨v, hv⟩ := g.writeLoaded_only d signed size i (x i)
    obtain ⟨v', hv'⟩ := ih (g.writeLoaded d signed size i (x i))
    rw [List.foldl_cons, hv', hv]
    exact ⟨_, rfl⟩

end

/-- What a `k:` load does to the part: each active lane's value goes to the issuing gang. -/
def State.loadLanes (s : State) (d : Nat) (signed : Bool) (size : Nat) (x : Nat → Nat) : State :=
  s.modCur fun g => s.lanes.foldl (fun h i => h.writeLoaded d signed size i (x i)) g

section

variable (s : State) (d : Nat) (signed : Bool) {size : Nat} (x : Nat → Nat)

theorem State.loadLanes_only :
    s.loadLanes d signed size x = s.modCur fun g => { g with regs := { g.regs with v := (s.loadLanes d signed size x).cur.regs.v } } := by
  refine State.modCur_congr _ _ _ ?_
  obtain ⟨v, hv⟩ := Gang.foldl_writeLoaded_only s.cur d signed size x s.lanes
  rw [State.loadLanes, State.cur_modCur, hv]

theorem State.vreg_loadLanes (n : Nat) {j : Nat} (hj : j < 64) : vreg (s.loadLanes d signed size x) n j =
    if s.active j then (loadedLane d signed size (x j) n).getD (vreg s n j) else vreg s n j := by
  have h := Gang.laneOf_foldl_writeLoaded s.cur d signed size x s.lanes n j
  simp only [s.mem_lanes, hj, true_and] at h
  rw [vreg, State.loadLanes, State.cur_modCur]
  exact h

/-- A load writes no other register. -/
theorem State.vreg_loadLanes_none {n : Nat} (hn : ∀ y, loadedLane d signed size y n = none) (j : Nat) :
    vreg (s.loadLanes d signed size x) n j = vreg s n j := by
  have h := Gang.laneOf_foldl_writeLoaded s.cur d signed size x s.lanes n j
  rw [hn, Option.getD_none, ite_self] at h
  rw [vreg, State.loadLanes, State.cur_modCur]
  exact h

/-- A load of one register (R226). -/
theorem State.loadLanes_spec (h : size ≠ 8) : VectorWrite s (s.loadLanes d signed size x) d fun i => extendLoad signed size (x i) := by
  refine ⟨fun i hi => ?_, fun n i hn => ?_, s.loadLanes_only d signed x⟩
  · rw [s.vreg_loadLanes d signed x d hi, loadedLane, if_neg h, if_pos rfl, Option.getD_some]
  · exact s.vreg_loadLanes_none d signed x (fun y => by rw [loadedLane, if_neg h, if_neg hn]) i

/-- The part with the lower register of a pair alone loaded. -/
def State.withLower (t : State) : State :=
  s.modCur fun g => { g with regs := { g.regs with v := g.regs.v.set d (Tab.get [] t.cur.regs.v d) } }

theorem State.vreg_withLower (t : State) (n i : Nat) : vreg (s.withLower d t) n i = if n = d then vreg t n i else vreg s n i := by
  simp only [vreg, State.withLower, State.cur_modCur]
  split
  · next h => rw [h, Tab.get_set]
  · next h => rw [Tab.get_set_ne _ _ _ _ _ h]

/-- A load of a register pair: its lower register, then its upper (R226). -/
theorem State.loadLanes_pair_spec : ∃ u, VectorWrite s u d (fun i => BitVec.ofNat 32 (x i)) ∧
    VectorWrite u (s.loadLanes d signed 8 x) (d + 1) fun i => BitVec.ofNat 32 (x i / 2 ^ 32) := by
  have hne : d ≠ d + 1 := by omega
  refine ⟨s.withLower d (s.loadLanes d signed 8 x), ⟨fun i hi => ?_, fun n i hn => ?_, ?_⟩,
    ⟨fun i hi => ?_, fun n i hn => ?_, ?_⟩⟩
  · rw [s.vreg_withLower, if_pos rfl, s.vreg_loadLanes d signed x d hi, loadedLane, if_pos rfl, if_neg hne, if_pos rfl, Option.getD_some]
  · rw [s.vreg_withLower, if_neg hn]
  · rw [State.withLower, State.cur_modCur]
    exact State.modCur_congr _ _ _ rfl
  · rw [s.vreg_withLower, if_neg hne.symm, s.vreg_loadLanes d signed x (d + 1) hi, loadedLane, if_pos rfl, if_pos rfl, Option.getD_some]
    rfl
  · rw [s.vreg_withLower]
    split
    · rfl
    · next hd => exact s.vreg_loadLanes_none d signed x (fun y => by rw [loadedLane, if_pos rfl, if_neg hn, if_neg hd]) i
  · rw [State.withLower, State.modCur_modCur]
    exact s.loadLanes_only d signed x

end

/-- Unless a lane fails, a `k:` load is the load of what the window held as the packet found it (R105, R154). -/
theorem exec_ldLocal_k {s : State} {z : LoadSize} {d : VReg} {a : AReg} {v : Option VReg} (ha : Admits (.ldLocal z d a v .k) s)
    (h : ∀ i ∈ s.lanes, s.kCheck (s.laneAddr a v i).toNat (loadBytes z) = none) :
    exec (.ldLocal z d a v .k) s = .next (s.loadLanes d.val (loadSigned z) (loadBytes z) fun i =>
      s.iss.src.kReadN s.cur.vregs s.cur.nslices ((s.laneAddr a v i).toNat % 2 ^ 17) (loadBytes z)) := by
  refine exec_of_effect (execLdLocal.eq_1 z d a v .k s) ha ?_ rfl
  dsimp only
  rw [State.kLanes_of_passing h]
  simp only [List.foldl_map]
  rfl

/-! ### Stores -/

/-- What a `k:` store does to a gang, lane by lane. -/
theorem Gang.foldl_kWriteN (g : Gang) (l : List Nat) (off x : Nat → Nat) (n : Nat) :
    l.foldl (fun h i => { h with regs := h.regs.kWriteN h.vregs h.nslices (off i) (x i) n }) g =
      { g with regs := l.foldl (fun r i => r.kWriteN g.vregs g.nslices (off i) (x i) n) g.regs } := by
  induction l generalizing g with
  | nil => rfl
  | cons i l ih => rw [List.foldl_cons, ih, List.foldl_cons]

theorem exec_stLocal_k {s : State} {y : StoreSize} {d : VReg} {a : AReg} {v : Option VReg} (ha : Admits (.stLocal y d a v .k) s)
    (h : ∀ i ∈ s.lanes, s.kCheck (s.laneAddr a v i).toNat (storeBytes y) = none) :
    exec (.stLocal y d a v .k) s = .next (s.modCur fun g => { g with
      regs := s.lanes.foldl (fun r i => r.kWriteN g.vregs g.nslices ((s.laneAddr a v i).toNat % 2 ^ 17)
        (s.srcN d.val (storeBytes y) i) (storeBytes y)) g.regs }) := by
  refine exec_of_effect (execStLocal.eq_1 y d a v .k s) ha ?_ rfl
  dsimp only
  rw [State.kLanes_of_passing h]
  simp only [List.foldl_map, Gang.foldl_kWriteN]
  rfl

theorem loadBytes_eq_eight {z : LoadSize} : loadBytes z = 8 ↔ z = .n64 := by cases z <;> decide

theorem registerWindow : Claims.RegisterWindow := by
  intro s z y d a v
  refine ⟨fun ha h => Completes.intro (exec_ldLocal_k ha h) ?_, fun ha h => Completes.intro (exec_stLocal_k ha h) ?_⟩
  · split
    · next hz => subst hz; exact s.loadLanes_pair_spec d.val _ _
    · next hz => exact s.loadLanes_spec d.val _ _ fun e => hz (loadBytes_eq_eight.1 e)
  · rw [State.cur_modCur]
    exact ⟨rfl, State.modCur_congr _ _ _ rfl⟩

/-- Settles O18: the words act on the window by `exec_ldLocal_k` and `exec_stLocal_k`, and the window shows each slot as the lemmas
about `Regs.kRead` and `Regs.kWrite` say. -/
theorem registerWindowWords : Obligations.RegisterWindowWords := ⟨registerWindow, registerWindowBytes⟩

end Sys2Proof.Machine
end

section
/-! ## WorkedWords: words that the spec works out -/

namespace Sys2Proof

/-- A word is read as the instruction that it is the encoding of (`decodeEncode`). -/
theorem decode_of_encode {i : Instr} {ws : List W32} (hi : i.Encodable) (h : encode i = ws) : decode ws = .ok (i, []) := by
  rw [← h, ← List.append_nil (encode i)]
  exact decodeEncode i [] hi

/-- Settles O1: each instruction is encoded in the word that the spec works out for it, and so that word decodes to it. -/
theorem decodeExamples : Obligations.DecodeExamples := by
  unfold Obligations.DecodeExamples
  refine ⟨?_, ?_, ?_, ?_, ?_, ?_, ?_, ?_, ?_, ?_, ?_, ?_, ?_, ?_, ?_, ?_, ?_, ?_, ?_, ?_, ?_, ?_, ?_, ?_, ?_, ?_, ?_⟩
  all_goals exact decode_of_encode ⟨rfl, rfl⟩ rfl

end Sys2Proof
end

section
/-! ## VectorWords: the words that write one vector register or one predicate, lane by lane -/

namespace Sys2Proof.Machine

open Sys2Proof.Claims

/-! ### Words that name vector registers (R122, R176) -/

/-- A word whose vector registers are all in range, and whose other checks are constants: nothing stops it (R120 to R122). -/
theorem admits_of_inRange {i : Instr} {s : State} {l : List VReg}
    (hi : illegalAt i s = (!true || (false && s.coreKey != fwCore) || (s.coreKey == fwCore && false) || false || false))
    (hv : vregsOf i = l.map Fin.val)
    (hs : spaceFault i s = if false = true ∧ (!s.iss.sup) = true then some { code := .protect } else none)
    (hr : InRange s l) : Admits i s := by
  have hrange : regRangeAt i s = false := by
    rw [regRangeAt, hv, List.any_map, List.any_eq_false]
    exact fun r hl => by simpa using hr r hl
  have hill : illegalAt i s = false := hi.trans (by simp)
  have hspace : spaceFault i s = none := hs.trans (if_neg fun p => Bool.false_ne_true p.1)
  simp [Admits, wordFault, hill, hrange, hspace]

/-- A word that no check stops, whose effect is one write of a vector register in the active lanes. -/
theorem vectorWrite_completes {i : Instr} {s : State} {d : VReg} {v w : Nat → W32} {f : State → State} (hx : exec i s = guard i s f)
    (ha : Admits i s) (hf : f s = s.writeV d v) (hw : ∀ k, v k = w k) : Completes i s (VectorWrite s · d w) :=
  Completes.intro (exec_of_effect hx ha hf rfl) (funext hw ▸ s.writeV_spec d v)

section

variable {vv vx : Instr} {s : State} {d a b : VReg} {x : Src2}

/-- A two-source form that works lane by lane, with either second source (R175). -/
theorem lane2_of_guards {f g : W32 → W32 → W32} (hvv : exec vv s = guard vv s fun s => vecVV s d a b f)
    (hvx : exec vx s = guard vx s fun s => vecVX s d a x f) (avv : InRange s [d, a, b] → Admits vv s)
    (avx : InRange s [d, a] → Admits vx s) (h : ∀ p q, f p q = g p q) : lane2 g vv vx s d a b x :=
  ⟨fun hr => vectorWrite_completes hvv (avv hr) rfl fun _ => h _ _,
    fun hr => vectorWrite_completes hvx (avx hr) rfl fun _ => h _ _⟩

/-- The same for a form that reads `vd` too. -/
theorem lane3_of_guards {f : W32 → W32 → W32 → W32} (hvv : exec vv s = guard vv s fun s => vecVV3 s d a b f)
    (hvx : exec vx s = guard vx s fun s => vecVX3 s d a x f) (avv : InRange s [d, a, b] → Admits vv s)
    (avx : InRange s [d, a] → Admits vx s) : lane3 f vv vx s d a b x :=
  ⟨fun hr => vectorWrite_completes hvv (avv hr) rfl fun _ => rfl,
    fun hr => vectorWrite_completes hvx (avx hr) rfl fun _ => rfl⟩

end

/-! ### Arithmetic (R177) -/

theorem mulHighS32_eq (a b : W32) : mulHighS 32 a b = BitVec.ofInt 32 (a.toInt * b.toInt / 2 ^ 32) := rfl

theorem clampS_eq_ofInt_clamp (x : Int) : clampS x = BitVec.ofInt 32 (clamp (-2 ^ 31) (2 ^ 31 - 1) x) := by
  unfold clampS clamp
  split
  · next hlow => rw [max_eq_left (by omega)]; rfl
  · split
    · next hhigh => rw [min_eq_left (by omega)]; rfl
    · rw [min_eq_right (by omega), max_eq_right (by omega)]

theorem clampU_eq_ofInt_clamp (x : Int) : clampU x = BitVec.ofInt 32 (clamp 0 (2 ^ 32 - 1) x) := by
  unfold clampU clamp
  split
  · next hlow => rw [max_eq_left (by omega)]; rfl
  · split
    · next hhigh => rw [min_eq_left (by omega)]; rfl
    · rw [min_eq_right (by omega), max_eq_right (by omega)]

theorem minS_eq_ofInt_min {n : Nat} (a b : BitVec n) : minS a b = BitVec.ofInt n (min a.toInt b.toInt) := by
  rw [← toInt_minS, BitVec.ofInt_toInt]

theorem maxS_eq_ofInt_max {n : Nat} (a b : BitVec n) : maxS a b = BitVec.ofInt n (max a.toInt b.toInt) := by
  rw [← toInt_maxS, BitVec.ofInt_toInt]

theorem minU_eq_ofNat_min {n : Nat} (a b : BitVec n) : minU a b = BitVec.ofNat n (min a.toNat b.toNat) := by
  rw [← toNat_minU, BitVec.ofNat_toNat, BitVec.setWidth_eq]

theorem maxU_eq_ofNat_max {n : Nat} (a b : BitVec n) : maxU a b = BitVec.ofNat n (max a.toNat b.toNat) := by
  rw [← toNat_maxU, BitVec.ofNat_toNat, BitVec.setWidth_eq]

/-- Settles O8: each word is one write of a vector register (`State.writeV_spec`), of a lane's value that the lemmas above relate to
R177's. -/
theorem vectorArithmetic : Obligations.VectorArithmetic := by
  intro s d a b x
  have ranged {i : Instr} {l : List VReg} := @admits_of_inRange i s l
  exact ⟨lane2_of_guards (execVaddVv.eq_1 d a b s) (execVaddVx.eq_1 d a x s) (ranged rfl rfl rfl) (ranged rfl rfl rfl) fun _ _ => rfl,
    lane2_of_guards (execVsubVv.eq_1 d a b s) (execVsubVx.eq_1 d a x s) (ranged rfl rfl rfl) (ranged rfl rfl rfl) fun _ _ => rfl,
    lane2_of_guards (execVmulVv.eq_1 d a b s) (execVmulVx.eq_1 d a x s) (ranged rfl rfl rfl) (ranged rfl rfl rfl) fun _ _ => rfl,
    lane2_of_guards (execVmulhI32Vv.eq_1 d a b s) (execVmulhI32Vx.eq_1 d a x s) (ranged rfl rfl rfl) (ranged rfl rfl rfl) mulHighS32_eq,
    lane2_of_guards (execVmulhN32Vv.eq_1 d a b s) (execVmulhN32Vx.eq_1 d a x s) (ranged rfl rfl rfl) (ranged rfl rfl rfl) fun _ _ => rfl,
    lane3_of_guards (execVmadVv.eq_1 d a b s) (execVmadVx.eq_1 d a x s) (ranged rfl rfl rfl) (ranged rfl rfl rfl),
    lane2_of_guards (execVsaddI32Vv.eq_1 d a b s) (execVsaddI32Vx.eq_1 d a x s) (ranged rfl rfl rfl) (ranged rfl rfl rfl)
      fun _ _ => clampS_eq_ofInt_clamp _,
    lane2_of_guards (execVsaddN32Vv.eq_1 d a b s) (execVsaddN32Vx.eq_1 d a x s) (ranged rfl rfl rfl) (ranged rfl rfl rfl)
      fun _ _ => clampU_eq_ofInt_clamp _,
    lane2_of_guards (execVssubI32Vv.eq_1 d a b s) (execVssubI32Vx.eq_1 d a x s) (ranged rfl rfl rfl) (ranged rfl rfl rfl)
      fun _ _ => clampS_eq_ofInt_clamp _,
    lane2_of_guards (execVssubN32Vv.eq_1 d a b s) (execVssubN32Vx.eq_1 d a x s) (ranged rfl rfl rfl) (ranged rfl rfl rfl)
      fun _ _ => clampU_eq_ofInt_clamp _,
    lane2_of_guards (execVminVv.eq_1 d a b s) (execVminVx.eq_1 d a x s) (ranged rfl rfl rfl) (ranged rfl rfl rfl) minS_eq_ofInt_min,
    lane2_of_guards (execVmaxVv.eq_1 d a b s) (execVmaxVx.eq_1 d a x s) (ranged rfl rfl rfl) (ranged rfl rfl rfl) maxS_eq_ofInt_max,
    lane2_of_guards (execVminnVv.eq_1 d a b s) (execVminnVx.eq_1 d a x s) (ranged rfl rfl rfl) (ranged rfl rfl rfl) minU_eq_ofNat_min,
    lane2_of_guards (execVmaxnVv.eq_1 d a b s) (execVmaxnVx.eq_1 d a x s) (ranged rfl rfl rfl) (ranged rfl rfl rfl) maxU_eq_ofNat_max⟩

/-! ### Logic, shifts and bit fields (R178) -/

theorem posOf32_eq (b : W32) : posOf32 b = b.toNat % 32 := congrArg (· % 32) (Nat.div_one b.toNat)

theorem fieldWidth_widthOf32 (b : W32) :
    fieldWidth 32 (posOf32 b) (widthOf32 b) = min (b.toNat / 256 % 64) (32 - b.toNat % 32) := by
  rw [← posOf32_eq]; rfl

theorem fieldBits_vbfxU (p q : W32) : fieldBits q (fun pos w i => decide (i < w) && p.getLsbD (pos + i)) (vbfxU p q) := by
  intro i hi
  rw [vbfxU, getLsbD_bfxU _ _ _ _ hi, fieldWidth_widthOf32, posOf32_eq]

theorem fieldBits_vbfxS (p q : W32) :
    fieldBits q (fun pos w i => decide (0 < w) && p.getLsbD (pos + min i (w - 1))) (vbfxS p q) := by
  intro i hi
  rw [vbfxS, getLsbD_bfxS _ _ _ _ hi, fieldWidth_widthOf32, posOf32_eq]

theorem fieldBits_vbfi (o p q : W32) :
    fieldBits q (fun pos w i => if pos ≤ i ∧ i < pos + w then p.getLsbD (i - pos) else o.getLsbD i) (vbfi o p q) := by
  intro i hi
  rw [vbfi, getLsbD_bfi _ _ _ _ _ hi, fieldWidth_widthOf32, posOf32_eq]

/-- Settles O9: each word is one write of a vector register (`State.writeV_spec`); the bits of the fields are those of `bfxU`, `bfxS`
and `bfi`. -/
theorem vectorLogic : Obligations.VectorLogic := by
  intro s d a b x
  have ranged {i : Instr} {l : List VReg} := @admits_of_inRange i s l
  exact ⟨lane2_of_guards (execVandVv.eq_1 d a b s) (execVandVx.eq_1 d a x s) (ranged rfl rfl rfl) (ranged rfl rfl rfl) fun _ _ => rfl,
    lane2_of_guards (execVorVv.eq_1 d a b s) (execVorVx.eq_1 d a x s) (ranged rfl rfl rfl) (ranged rfl rfl rfl) fun _ _ => rfl,
    lane2_of_guards (execVxorVv.eq_1 d a b s) (execVxorVx.eq_1 d a x s) (ranged rfl rfl rfl) (ranged rfl rfl rfl) fun _ _ => rfl,
    lane2_of_guards (execVshlVv.eq_1 d a b s) (execVshlVx.eq_1 d a x s) (ranged rfl rfl rfl) (ranged rfl rfl rfl) fun _ _ => rfl,
    lane2_of_guards (execVshrVv.eq_1 d a b s) (execVshrVx.eq_1 d a x s) (ranged rfl rfl rfl) (ranged rfl rfl rfl) fun _ _ => rfl,
    lane2_of_guards (execVsraVv.eq_1 d a b s) (execVsraVx.eq_1 d a x s) (ranged rfl rfl rfl) (ranged rfl rfl rfl) sra_eq,
    ⟨vbfxU, lane2_of_guards (execVbfxN32Vv.eq_1 d a b s) (execVbfxN32Vx.eq_1 d a x s) (ranged rfl rfl rfl) (ranged rfl rfl rfl)
      fun _ _ => rfl, fieldBits_vbfxU⟩,
    ⟨vbfxS, lane2_of_guards (execVbfxI32Vv.eq_1 d a b s) (execVbfxI32Vx.eq_1 d a x s) (ranged rfl rfl rfl) (ranged rfl rfl rfl)
      fun _ _ => rfl, fieldBits_vbfxS⟩,
    ⟨vbfi, lane3_of_guards (execVbfiVv.eq_1 d a b s) (execVbfiVx.eq_1 d a x s) (ranged rfl rfl rfl) (ranged rfl rfl rfl),
      fieldBits_vbfi⟩⟩

/-! ### One-source forms, select and compare (R179 to R181) -/

/-- The magnitude of a signed number, -2^31 keeping its bits. -/
theorem ite_msb_neg_eq_natAbs (x : W32) : (if x.msb then -x else x) = BitVec.ofNat 32 x.toInt.natAbs := by
  apply BitVec.eq_of_toNat_eq
  have hlt := x.isLt
  rw [BitVec.toInt_eq_msb_cond, BitVec.toNat_ofNat]
  split
  · rw [BitVec.toNat_neg]; omega
  · omega

/-- Of the forms in this chapter `vsel` alone has a code that is no instruction, its predicate `p0` (R121, R180). -/
theorem admits_vsel {p : PReg} {d a b : VReg} {s : State} (hp : p.val ≠ 0) (hr : InRange s [d, a, b]) :
    Admits (.vsel p d a b) s := by
  refine admits_of_inRange ?_ rfl rfl hr
  have hp' : (p.val != 0) = true := bne_iff_ne.2 hp
  exact congrArg (fun c => !c || (false && s.coreKey != fwCore) || (s.coreKey == fwCore && false) || false || false) hp'

theorem vclz_completes {s : State} {d a : VReg} (hr : InRange s [d, a]) :
    Completes (.vclz d a) s (VectorWrite s · d fun i => BitVec.ofNat 32 (leadingZeros (s.srcV a i))) :=
  vectorWrite_completes (execVclz.eq_1 d a s) (admits_of_inRange rfl rfl rfl hr) rfl fun _ => rfl

/-- Settles O10: each word is one write of a vector register or of a predicate (`State.writeV_spec`, `State.writeP_spec`); `vclz`
counts `leadingZeros`. -/
theorem vectorUnaryAndCompare : Obligations.VectorUnaryAndCompare := by
  intro s d a b x p c
  have ranged {i : Instr} {l : List VReg} := @admits_of_inRange i s l
  exact ⟨fun hr =>
      ⟨vectorWrite_completes (execVnot.eq_1 d a s) (ranged rfl rfl rfl hr) rfl fun _ => rfl,
        vectorWrite_completes (execVabs.eq_1 d a s) (ranged rfl rfl rfl hr) rfl fun _ => ite_msb_neg_eq_natAbs _,
        vectorWrite_completes (execVneg.eq_1 d a s) (ranged rfl rfl rfl hr) rfl fun _ => (BitVec.zero_sub _).symm,
        vectorWrite_completes (execVmov.eq_1 d a s) (ranged rfl rfl rfl hr) rfl fun _ => rfl,
        vectorWrite_completes (execVpopc.eq_1 d a s) (ranged rfl rfl rfl hr) rfl fun _ => congrArg _ (popCount_eq _),
        Completes.mono (vclz_completes hr) fun _ ht => ⟨fun i => leadingZeros (s.srcV a i), ht, fun _ =>
          ⟨leadingZeros_le _, fun _ _ => getLsbD_of_leadingZeros_le _, getLsbD_of_leadingZeros⟩⟩⟩,
    fun hr => vectorWrite_completes (execVli.eq_1 d x s) (ranged rfl rfl rfl hr) rfl fun _ => rfl,
    fun hr hp => vectorWrite_completes (execVsel.eq_1 p d a b s) (admits_vsel hp hr) rfl fun _ => rfl,
    fun hr => predWrite_completes (execVcmpVv.eq_1 c p a b s) (ranged rfl rfl rfl hr) rfl rfl,
    fun hr => predWrite_completes (execVcmpVx.eq_1 c p a x s) (ranged rfl rfl rfl hr) rfl rfl⟩

end Sys2Proof.Machine
end

section
/-! ## CrossLaneWords: shuffles and broadcasts, reductions, the scan, ballots and votes -/

namespace Sys2Proof.Machine

open Sys2Proof.Claims

/-! ### Reading another lane (R182, R184) -/

/-- What a reader takes from lane `j` of `va`, and whether it is valid, as the model's two functions give them. -/
theorem fromLane_eq (s : State) (a : VReg) (j : Int) : fromLane s a j = (s.laneValue a j, s.laneValid j) := by
  have hvalid : s.laneValid j = true ↔ 0 ≤ j ∧ j < 32 ∧ (bit s.cur.notExited j.toNat = true ∨ s.active j.toNat = true) := by
    simp only [State.laneValid, Bool.and_eq_true, Bool.or_eq_true, decide_eq_true_eq, and_assoc]
    rfl
  unfold fromLane State.laneValue
  by_cases h : s.laneValid j = true
  · rw [if_pos (hvalid.1 h), if_pos h, h]
  · rw [if_neg (mt hvalid.2 h), if_neg h, Bool.eq_false_iff.2 h]

section

variable {i : Instr} {s : State} {d a : VReg} {f : State → State} {j : Nat → Int}

theorem shuffle_completes (hx : exec i s = guard i s f) (ha : Admits i s) (hf : f s = shuffle s d a j) :
    Completes i s (VectorWrite s · d fun k => (fromLane s a (j k)).1) :=
  vectorWrite_completes hx ha hf fun k => by rw [fromLane_eq]

/-- A `.chk` form writes `p7` in the state that its plain form leaves; the lanes it was read from are as before. -/
theorem shuffleChk_completes (hx : exec i s = guard i s f) (ha : Admits i s) (hf : f s = shuffleChk s d a j) :
    Completes i s (VectorChkWrite s · d (fun k => (fromLane s a (j k)).1) fun k => (fromLane s a (j k)).2) := by
  refine Completes.intro (exec_of_effect hx ha hf rfl) ⟨shuffle s d a j, ?_, ?_⟩
  · simp only [fromLane_eq]; exact s.writeV_spec d _
  · simp only [fromLane_eq]; exact State.writeP_spec _ 7 _

end

/-- Settles O11: each word is a `shuffle` or `shuffleChk` from the lane R184 names, and those read lanes as R182 says
(`fromLane_eq`). -/
theorem shuffles : Obligations.Shuffles := by
  intro s d a b x
  have ranged {i : Instr} {l : List VReg} := @admits_of_inRange i s l
  exact ⟨fun hr =>
      ⟨shuffle_completes (execVshflIdx.eq_1 d a b s) (ranged rfl rfl rfl hr) rfl,
        shuffleChk_completes (execVshflIdxChk.eq_1 d a b s) (ranged rfl rfl rfl hr) rfl⟩,
    fun hr =>
      ⟨shuffle_completes (execVshflUp.eq_1 d a x s) (ranged rfl rfl rfl hr) rfl,
        shuffleChk_completes (execVshflUpChk.eq_1 d a x s) (ranged rfl rfl rfl hr) rfl,
        shuffle_completes (execVshflDn.eq_1 d a x s) (ranged rfl rfl rfl hr) rfl,
        shuffleChk_completes (execVshflDnChk.eq_1 d a x s) (ranged rfl rfl rfl hr) rfl,
        shuffle_completes (execVshflXor.eq_1 d a x s) (ranged rfl rfl rfl hr) rfl,
        shuffleChk_completes (execVshflXorChk.eq_1 d a x s) (ranged rfl rfl rfl hr) rfl,
        shuffle_completes (execVbcast.eq_1 d a x s) (ranged rfl rfl rfl hr) rfl,
        shuffleChk_completes (execVbcastChk.eq_1 d a x s) (ranged rfl rfl rfl hr) rfl⟩⟩

/-! ### Sums over lanes (R185) -/

theorem foldl_add_eq_ofNat_sum (v : Nat → W32) (l : List Nat) (x : W32) :
    l.foldl (fun t j => t + v j) x = x + BitVec.ofNat 32 (l.map fun j => (v j).toNat).sum := by
  induction l generalizing x with
  | nil => simp
  | cons j l ih =>
    rw [List.foldl_cons, ih, List.map_cons, List.sum_cons, BitVec.ofNat_add, BitVec.ofNat_toNat, BitVec.setWidth_eq, BitVec.add_assoc]

theorem laneSum_eq (s : State) (a : VReg) (l : List Nat) :
    laneSum s a l = BitVec.ofNat 32 (l.map fun j => (s.srcV a j).toNat).sum := by
  rw [laneSum, foldl_add_eq_ofNat_sum]
  exact BitVec.zero_add _

/-! ### Minima and maxima over lanes (R185) -/

/-- `f` gives one of its two operands, one whose key is no greater than the other's. -/
def Selects {β : Type} [LE β] (key : W32 → β) (f : W32 → W32 → W32) : Prop :=
  ∀ x y, (f x y = x ∨ f x y = y) ∧ key (f x y) ≤ key x ∧ key (f x y) ≤ key y

theorem selects_minS : Selects BitVec.toInt minS := by
  intro x y
  rw [toInt_minS]
  exact ⟨(ite_eq_or_eq _ _ _).symm, min_le_left _ _, min_le_right _ _⟩

theorem selects_maxS : Selects (fun x => OrderDual.toDual x.toInt) maxS := by
  intro x y
  simp only [toInt_maxS, OrderDual.toDual_le_toDual]
  exact ⟨(ite_eq_or_eq _ _ _).symm, le_max_left _ _, le_max_right _ _⟩

section

variable {β : Type} [Preorder β] {key : W32 → β} {f : W32 → W32 → W32}

/-- Selecting again and again from a list starting at `x` gives `x` or an element of the list, least of all in its key. -/
theorem Selects.foldl_spec (h : Selects key f) (v : Nat → W32) (l : List Nat) (x : W32) :
    (l.foldl (fun y k => f y (v k)) x = x ∨ ∃ j ∈ l, v j = l.foldl (fun y k => f y (v k)) x) ∧
    key (l.foldl (fun y k => f y (v k)) x) ≤ key x ∧ ∀ j ∈ l, key (l.foldl (fun y k => f y (v k)) x) ≤ key (v j) := by
  induction l generalizing x with
  | nil => exact ⟨.inl rfl, le_refl _, fun _ hj => absurd hj List.not_mem_nil⟩
  | cons k l ih =>
    obtain ⟨hsel, hx, hk⟩ := h x (v k)
    obtain ⟨hmem, hle, hall⟩ := ih (f x (v k))
    rw [List.foldl_cons]
    refine ⟨?_, hle.trans hx, ?_⟩
    · rcases hmem with he | ⟨j, hj, he⟩
      · rcases hsel with hs | hs
        · exact .inl (he.trans hs)
        · exact .inr ⟨k, List.mem_cons_self, hs.symm.trans he.symm⟩
      · exact .inr ⟨j, List.mem_cons_of_mem k hj, he⟩
    · rintro j (_ | ⟨_, hj⟩)
      · exact hle.trans hk
      · exact hall j hj

/-- A selection over the active lanes gives the value of one of them, and the least in its key. -/
theorem Selects.laneFold_spec (h : Selects key f) {s : State} (a : VReg) (hne : s.lanes ≠ []) :
    (∃ j ∈ s.lanes, s.srcV a j = laneFold s a f) ∧ ∀ j ∈ s.lanes, key (laneFold s a f) ≤ key (s.srcV a j) := by
  unfold laneFold
  cases hl : s.lanes with
  | nil => exact absurd hl hne
  | cons k l =>
    obtain ⟨hmem, hle, hall⟩ := h.foldl_spec (s.srcV a) l (s.srcV a k)
    refine ⟨?_, ?_⟩
    · rcases hmem with he | ⟨j, hj, he⟩
      · exact ⟨k, List.mem_cons_self, he.symm⟩
      · exact ⟨j, List.mem_cons_of_mem k hj, he⟩
    · rintro j (_ | ⟨_, hj⟩)
      · exact hle
      · exact hall j hj

end

/-! ### The mask of a list of lanes (R185) -/

theorem bit_add_two_pow {m i : Nat} (h : bit m i = false) (j : Nat) : bit (m + 2 ^ i) j = (decide (j = i) || bit m j) := by
  have hset : setBits m i 1 true.toNat = m + 2 ^ i := by
    have hbits : bits m i 1 = 0 := by
      simp only [bit, beq_eq_false_iff_ne] at h
      simp only [bits, pow_one]
      omega
    simp [setBits, hbits]
  rw [← hset, bit_setBits]
  by_cases hj : j = i
  · simp [hj]
  · simp [hj]

theorem bit_foldl_maskOf (l : List Nat) (m j : Nat) :
    bit (l.foldl (fun m i => if bit m i then m else m + 2 ^ i) m) j = (decide (j ∈ l) || bit m j) := by
  induction l generalizing m with
  | nil => simp
  | cons i l ih =>
    have hone : bit (if bit m i then m else m + 2 ^ i) j = (decide (j = i) || bit m j) := by
      split
      · next hi =>
        by_cases hj : j = i
        · simp [hj, hi]
        · simp [hj]
      · next hi => exact bit_add_two_pow (Bool.eq_false_iff.2 hi) j
    rw [List.foldl_cons, ih, hone, ← Bool.or_assoc, ← Bool.decide_or]
    simp only [List.mem_cons, or_comm]

theorem bit_maskOf (l : List Nat) (j : Nat) : bit (maskOf l) j = decide (j ∈ l) := by
  have hzero : bit 0 j = false := by rw [bit_iff, Nat.zero_testBit]
  rw [maskOf, bit_foldl_maskOf, hzero, Bool.or_false]

/-- The word of a ballot: bit `j` is the active lane `j`'s. -/
theorem getLsbD_ballot (s : State) (p : Nat → Bool) {j : Nat} (hj : j < 32) :
    (BitVec.ofNat 32 (maskOf (s.lanes.filter p))).getLsbD j = (s.active j && p j) := by
  have h64 : j < 64 := by omega
  rw [BitVec.getLsbD_ofNat, ← bit_iff, bit_maskOf, decide_eq_true hj, Bool.true_and]
  simp [List.mem_filter, State.mem_lanes, h64]

/-! ### The words -/

section

variable {s : State} {d a : VReg}

theorem vredMin_completes (hr : InRange s [d, a]) : Completes (.vredMin d a) s (VectorWrite s · d fun _ => laneFold s a minS) :=
  vectorWrite_completes (execVredMin.eq_1 d a s) (admits_of_inRange rfl rfl rfl hr) rfl fun _ => rfl

theorem vredMax_completes (hr : InRange s [d, a]) : Completes (.vredMax d a) s (VectorWrite s · d fun _ => laneFold s a maxS) :=
  vectorWrite_completes (execVredMax.eq_1 d a s) (admits_of_inRange rfl rfl rfl hr) rfl fun _ => rfl

theorem vballot_completes (p : PReg) (hr : InRange s [d]) : Completes (.vballot d p) s
    (VectorWrite s · d fun _ => BitVec.ofNat 32 (maskOf (s.lanes.filter fun j => bit (s.srcP p) j))) :=
  vectorWrite_completes (execVballot.eq_1 d p s) (admits_of_inRange rfl rfl rfl hr) rfl fun _ => rfl

end

/-- Settles O12: the participants are `State.lanes`; sums are `laneSum_eq`, minima and maxima `Selects.laneFold_spec`, a ballot's bits
`getLsbD_ballot`. -/
theorem reductions : Obligations.Reductions := by
  intro s d a p q
  have ranged {i : Instr} {l : List VReg} := @admits_of_inRange i s l
  exact ⟨fun hr =>
      ⟨vectorWrite_completes (execVredAdd.eq_1 d a s) (ranged rfl rfl rfl hr) rfl fun _ => laneSum_eq s a _,
        vectorWrite_completes (execVscanAdd.eq_1 d a s) (ranged rfl rfl rfl hr) rfl fun _ => laneSum_eq s a _,
        ⟨_, vredMin_completes hr, selects_minS.laneFold_spec a⟩,
        ⟨_, vredMax_completes hr, selects_maxS.laneFold_spec a⟩⟩,
    fun hr => ⟨_, vballot_completes p hr, fun _ => getLsbD_ballot s _⟩,
    predWrite_completes (execVvoteAny.eq_1 q p s) (admits_of_plain rfl rfl rfl) rfl rfl,
    predWrite_completes (execVvoteAll.eq_1 q p s) (admits_of_plain rfl rfl rfl) rfl rfl⟩

end Sys2Proof.Machine
end

section
/-! ## FloatWords: the patterns a rounding stores, elements of packed lanes, and the words of float arithmetic -/

namespace Sys2Proof.Machine

open Sys2Proof.Claims

/-! ### Patterns fit their element (R188, R189, R194, R195) -/

section

variable {s : FloatShape}

/-- The patterns of the top exponent end below the sign bit. -/
theorem FloatShape.topExponent_add (s : FloatShape) : (2 ^ s.ebits - 1) * 2 ^ s.mbits + 2 ^ s.mbits = 2 ^ (s.ebits + s.mbits) := by
  rw [← Nat.succ_mul, Nat.succ_eq_add_one, Nat.sub_add_cancel (Nat.two_pow_pos _), pow_add]

theorem FloatShape.signBit_add_lt (neg : Bool) {x : Nat} (h : x < 2 ^ (s.ebits + s.mbits)) :
    s.signBit neg + x < 2 ^ (s.ebits + s.mbits + 1) := by
  rw [pow_succ, FloatShape.signBit]
  split <;> omega

variable (hi : s.special = .ieee) (hm : 0 < s.mbits)

include hi hm

/-- The infinities' pattern is one above the largest finite one. -/
theorem FloatShape.maxFinite_succ_lt : s.maxFinite + 1 < 2 ^ (s.ebits + s.mbits) := by
  have htop := s.topExponent_add
  have htwo : 2 ^ 1 ≤ 2 ^ s.mbits := Nat.pow_le_pow_right (by decide) hm
  rw [FloatShape.maxFinite, hi]
  dsimp only
  omega

theorem FloatShape.canonicalNaN_lt : s.canonicalNaN < 2 ^ (s.ebits + s.mbits) := by
  have htop := s.topExponent_add
  have hhalf : 2 ^ (s.mbits - 1) < 2 ^ s.mbits := Nat.pow_lt_pow_right (by decide) (Nat.sub_one_lt_of_lt hm)
  rw [FloatShape.canonicalNaN, hi]
  dsimp only
  omega

theorem FloatShape.overflow_lt (r : RoundMode) (sat neg inf : Bool) :
    s.overflow r sat neg inf < 2 ^ (s.ebits + s.mbits + 1) := by
  have hmax := FloatShape.maxFinite_succ_lt hi hm
  rw [FloatShape.overflow, hi]
  refine FloatShape.signBit_add_lt neg ?_
  dsimp only
  cases sat || !inf && (r == .towardZero || r == .up && neg || r == .down && !neg) with
  | true => exact Nat.lt_of_succ_lt hmax
  | false => exact hmax

theorem FloatShape.roundFin_lt (r : RoundMode) (sat neg : Bool) (m : Nat) (e : Int) :
    s.roundFin r sat neg m e < 2 ^ (s.ebits + s.mbits + 1) := by
  have hmax := FloatShape.maxFinite_succ_lt hi hm
  have stored (pat : Nat) :
      (if s.maxFinite < pat then s.overflow r sat neg false else s.signBit neg + pat) < 2 ^ (s.ebits + s.mbits + 1) := by
    split
    · exact FloatShape.overflow_lt hi hm ..
    · exact FloatShape.signBit_add_lt neg (by omega)
  unfold FloatShape.roundFin
  split
  · exact FloatShape.signBit_add_lt (x := 0) neg (Nat.two_pow_pos _)
  · exact stored _

/-- R194: what a number is stored as has no bit above the sign. -/
theorem FloatShape.round_lt (r : RoundMode) (sat : Bool) (x : Num) : s.round r sat x < 2 ^ (s.ebits + s.mbits + 1) := by
  cases x with
  | nan => exact (FloatShape.canonicalNaN_lt hi hm).trans (Nat.pow_lt_pow_succ (by decide))
  | inf neg => exact FloatShape.overflow_lt hi hm ..
  | fin neg m e => exact FloatShape.roundFin_lt hi hm ..

theorem FloatShape.rne_lt (x : Num) : s.rne x < 2 ^ (s.ebits + s.mbits + 1) := FloatShape.round_lt hi hm ..

/-- R202: the lesser and the greater are one of the operands, or the canonical NaN. -/
theorem fminBits_lt {a b : Nat} (ha : a < 2 ^ (s.ebits + s.mbits + 1)) (hb : b < 2 ^ (s.ebits + s.mbits + 1)) :
    fminBits s a b < 2 ^ (s.ebits + s.mbits + 1) := by
  rw [fminBits]
  split
  · exact (FloatShape.canonicalNaN_lt hi hm).trans (Nat.pow_lt_pow_succ (by decide))
  · exact hb
  · exact ha
  · split
    · exact hb
    · exact ha

theorem fmaxBits_lt {a b : Nat} (ha : a < 2 ^ (s.ebits + s.mbits + 1)) (hb : b < 2 ^ (s.ebits + s.mbits + 1)) :
    fmaxBits s a b < 2 ^ (s.ebits + s.mbits + 1) := by
  rw [fmaxBits]
  split
  · exact (FloatShape.canonicalNaN_lt hi hm).trans (Nat.pow_lt_pow_succ (by decide))
  · exact hb
  · exact ha
  · split
    · exact hb
    · exact ha

end

/-! ### The sign bit (R203) -/

/-- A pattern with its sign bit replaced. -/
theorem setBits_top {a n : Nat} (ha : a < 2 ^ (n + 1)) (b : Bool) : setBits a n 1 b.toNat = b.toNat * 2 ^ n + a % 2 ^ n := by
  have hhigh : a / 2 ^ n / 2 ^ 1 = 0 := by
    rw [Nat.div_div_eq_div_mul, ← pow_add]
    exact Nat.div_eq_of_lt ha
  have hb : b.toNat % 2 ^ 1 = b.toNat := Nat.mod_eq_of_lt b.toNat_lt
  rw [setBits_eq, hhigh, hb, Nat.mul_zero, Nat.zero_add, Nat.mul_comm]

section

variable {s : FloatShape} {a : Nat} (ha : a < 2 ^ (s.ebits + s.mbits + 1))

include ha

theorem fabsBits_eq : fabsBits s a = a % 2 ^ (s.ebits + s.mbits) := by
  have h := setBits_top ha false
  rwa [Bool.toNat_false, Nat.zero_mul, Nat.zero_add] at h

theorem fnegBits_eq : fnegBits s a = (a + 2 ^ (s.ebits + s.mbits)) % 2 ^ (s.ebits + s.mbits + 1) := by
  rw [fnegBits, setBits_top ha, FloatShape.negative, bit]
  rw [pow_succ] at ha ⊢
  generalize 2 ^ (s.ebits + s.mbits) = p at ha ⊢
  rcases Nat.lt_or_ge a p with hlt | hge
  · rw [Nat.div_eq_of_lt hlt, Nat.mod_eq_of_lt hlt, Nat.mod_eq_of_lt (a := a + p) (by omega)]
    show 1 * p + a = a + p
    omega
  · have hq : a / p = 1 := Nat.div_eq_of_lt_le (by omega) (by omega)
    have hr : a % p = a - p := by rw [Nat.mod_eq_sub_mod hge, Nat.mod_eq_of_lt (by omega)]
    have hs : (a + p) % (p * 2) = a - p := by
      rw [Nat.mod_eq_sub_mod (by omega), Nat.mod_eq_of_lt (by omega)]
      omega
    rw [hq, hr, hs]
    show 0 * p + (a - p) = a - p
    omega

end

/-! ### Elements of a lane (R188, R201) -/

/-- The bits of an element. -/
def elemBits (t : FType) : Nat := (ftypeShape t).ebits + (ftypeShape t).mbits + 1

theorem ftypeShape_special (t : FType) : (ftypeShape t).special = .ieee := by cases t <;> rfl

theorem ftypeShape_mbits_pos (t : FType) : 0 < (ftypeShape t).mbits := by cases t <;> decide

theorem ftypeElems_eq (t : FType) (w : W32) : ftypeElems t w = elems t w := by cases t <;> rfl

theorem lt_of_mem_elems {t : FType} {w : W32} {x : Nat} (hx : x ∈ elems t w) : x < 2 ^ elemBits t := by
  have hw := w.isLt
  have halves (h : x ∈ [w.toNat % 2 ^ 16, w.toNat / 2 ^ 16]) : x < 2 ^ 16 := by
    rcases List.mem_pair.1 h with rfl | rfl
    · exact Nat.mod_lt _ (by decide)
    · omega
  cases t with
  | f32 => exact (List.mem_singleton.1 hx) ▸ hw
  | f16x2 => exact halves hx
  | b16x2 => exact halves hx

theorem length_elems (t : FType) (v w : W32) : (elems t v).length = (elems t w).length := by cases t <;> rfl

/-- A lane put together from as many elements as it has, each of its width, has those elements. -/
theorem elems_ftypePack {t : FType} {l : List Nat} (w : W32) (hl : l.length = (elems t w).length)
    (h : ∀ x ∈ l, x < 2 ^ elemBits t) : elems t (ftypePack t l) = l := by
  have pair (hl : l.length = 2) (h : ∀ x ∈ l, x < 2 ^ 16) : ∃ x y, l = [x, y] ∧
      (BitVec.ofNat 32 (x % 2 ^ 16 + y * 2 ^ 16)).toNat % 2 ^ 16 = x ∧
      (BitVec.ofNat 32 (x % 2 ^ 16 + y * 2 ^ 16)).toNat / 2 ^ 16 = y := by
    obtain ⟨x, y, rfl⟩ := List.length_eq_two.1 hl
    have hx := h x (by simp)
    have hy := h y (by simp)
    have hlow : (x % 2 ^ 16 + y * 2 ^ 16) % 2 ^ 32 = x + y * 2 ^ 16 := by omega
    refine ⟨x, y, rfl, ?_⟩
    rw [BitVec.toNat_ofNat, hlow]
    omega
  cases t with
  | f32 =>
    obtain ⟨x, rfl⟩ := List.length_eq_one_iff.1 hl
    exact congrArg ([·]) (BitVec.toNat_ofNat x 32 ▸ Nat.mod_eq_of_lt (h x (List.mem_singleton_self x)))
  | f16x2 =>
    obtain ⟨x, y, rfl, hx, hy⟩ := pair hl h
    exact congrArg₂ ([·, ·]) hx hy
  | b16x2 =>
    obtain ⟨x, y, rfl, hx, hy⟩ := pair hl h
    exact congrArg₂ ([·, ·]) hx hy

/-- Elements computed one from one, two or three operands' elements (R201). -/
theorem elems_fmap1 {t : FType} {f : FloatShape → Nat → Nat}
    (hf : ∀ x, x < 2 ^ elemBits t → f (ftypeShape t) x < 2 ^ elemBits t) (a : W32) :
    elems t (fmap1 t f a) = (elems t a).map (f (ftypeShape t)) := by
  rw [fmap1, ftypeElems_eq]
  refine elems_ftypePack a (List.length_map _) fun y hy => ?_
  obtain ⟨x, hx, rfl⟩ := List.mem_map.1 hy
  exact hf x (lt_of_mem_elems hx)

theorem elems_fmap2 {t : FType} {f : FloatShape → Nat → Nat → Nat}
    (hf : ∀ x y, x < 2 ^ elemBits t → y < 2 ^ elemBits t → f (ftypeShape t) x y < 2 ^ elemBits t) (a b : W32) :
    elems t (fmap2 t f a b) = List.zipWith (f (ftypeShape t)) (elems t a) (elems t b) := by
  rw [fmap2, ftypeElems_eq, ftypeElems_eq]
  refine elems_ftypePack a (by rw [List.length_zipWith, length_elems t b a, Nat.min_self]) fun z hz => ?_
  obtain ⟨i, hi, rfl⟩ := List.mem_iff_getElem.1 hz
  rw [List.getElem_zipWith]
  exact hf _ _ (lt_of_mem_elems (List.getElem_mem _)) (lt_of_mem_elems (List.getElem_mem _))

theorem elems_fmap3 {t : FType} {f : FloatShape → Nat → Nat → Nat → Nat}
    (hf : ∀ x y z, f (ftypeShape t) x y z < 2 ^ elemBits t) (o a b : W32) : elems t (fmap3 t f o a b) =
      List.zipWith (fun x (p : Nat × Nat) => f (ftypeShape t) x p.1 p.2) (elems t o) ((elems t a).zip (elems t b)) := by
  rw [fmap3, ftypeElems_eq, ftypeElems_eq, ftypeElems_eq]
  refine elems_ftypePack o ?_ fun z hz => ?_
  · rw [List.length_zipWith, List.length_zip, length_elems t a o, length_elems t b o, Nat.min_self, Nat.min_self]
  · obtain ⟨i, hi, rfl⟩ := List.mem_iff_getElem.1 hz
    rw [List.getElem_zipWith]
    exact hf _ _ _

/-! ### Words of float arithmetic (R201 to R204) -/

section

variable {i : Instr} {s : State} {t : FType} {d a b : VReg}

theorem rne_lt_elem (t : FType) (x : Num) : (ftypeShape t).rne x < 2 ^ elemBits t :=
  FloatShape.rne_lt (ftypeShape_special t) (ftypeShape_mbits_pos t) x

/-- A word that no check stops, whose effect is one write of a float result in the active lanes. -/
theorem floatWrite_completes {v : Nat → W32} {l : Nat → List Nat} {f : State → State} (hx : exec i s = guard i s f)
    (ha : Admits i s) (hf : f s = s.writeV d v) (hv : ∀ k, elems t (v k) = l k) :
    Completes i s fun u => ∃ g : Nat → W32, VectorWrite s u d g ∧ ∀ k, elems t (g k) = l k :=
  Completes.mono (vectorWrite_completes hx ha hf fun _ => rfl) fun _ hu => ⟨v, hu, hv⟩

theorem float1_completes {f : FloatShape → Nat → Nat} {g : Nat → Nat} (hx : exec i s = guard i s fun s => fvec1 s t d a f)
    (ha : Admits i s) (hg : ∀ x, x < 2 ^ elemBits t → f (ftypeShape t) x = g x)
    (hlt : ∀ x, x < 2 ^ elemBits t → g x < 2 ^ elemBits t) :
    Completes i s fun u => ∃ h : Nat → W32, VectorWrite s u d h ∧ ∀ k, elems t (h k) = (elems t (s.srcV a k)).map g :=
  floatWrite_completes hx ha rfl fun _ =>
    (elems_fmap1 (fun x h => (hg x h).symm ▸ hlt x h) _).trans (List.map_congr_left fun x h => hg x (lt_of_mem_elems h))

theorem float2_completes {f : FloatShape → Nat → Nat → Nat} (hx : exec i s = guard i s fun s => fvec2 s t d a b f)
    (ha : Admits i s) (hlt : ∀ x y, x < 2 ^ elemBits t → y < 2 ^ elemBits t → f (ftypeShape t) x y < 2 ^ elemBits t) :
    Completes i s fun u => ∃ h : Nat → W32, VectorWrite s u d h ∧
      ∀ k, elems t (h k) = List.zipWith (f (ftypeShape t)) (elems t (s.srcV a k)) (elems t (s.srcV b k)) :=
  floatWrite_completes hx ha rfl fun _ => elems_fmap2 hlt _ _

/-- One operand's exact result, rounded once. -/
theorem rounded1_completes {f : FloatShape → Nat → Nat} {op : Num → Num} (hx : exec i s = guard i s fun s => fvec1 s t d a f)
    (ha : Admits i s) (hf : f (ftypeShape t) = fun x => (ftypeShape t).rne (op ((ftypeShape t).value x))) :
    Completes i s fun u => ∃ h : Nat → W32, VectorWrite s u d h ∧
      ∀ k, elems t (h k) = (elems t (s.srcV a k)).map fun x => (ftypeShape t).rne (op ((ftypeShape t).value x)) :=
  float1_completes hx ha (fun x _ => congrFun hf x) fun _ _ => rne_lt_elem t _

theorem rounded2_completes {op : Num → Num → Num} (hx : exec i s = guard i s fun s => fvec2 s t d a b (fop2 op)) (ha : Admits i s) :
    Completes i s fun u => ∃ h : Nat → W32, VectorWrite s u d h ∧ ∀ k, elems t (h k) =
      List.zipWith (fun x y => (ftypeShape t).rne (op ((ftypeShape t).value x) ((ftypeShape t).value y)))
        (elems t (s.srcV a k)) (elems t (s.srcV b k)) :=
  float2_completes hx ha fun _ _ _ _ => rne_lt_elem t _

end

/-- Settles O13: each word is one write of a vector register (`State.writeV_spec`); a lane put together from its elements' results has
them as its elements (`elems_ftypePack`), since no result has a bit above its sign (`FloatShape.rne_lt`). -/
theorem floatResults : Obligations.FloatResults := by
  intro s t d a b r
  have ranged {i : Instr} {l : List VReg} := @admits_of_inRange i s l
  have special := ftypeShape_special t
  have mbits := ftypeShape_mbits_pos t
  have halfPos : 2 ^ ((ftypeShape t).ebits + (ftypeShape t).mbits) < 2 ^ elemBits t := Nat.pow_lt_pow_succ (by decide)
  exact ⟨fun hr =>
      ⟨rounded2_completes (execFadd.eq_1 t d a b s) (ranged rfl rfl rfl hr),
        rounded2_completes (op := fun x y => x.add y.neg) (execFsub.eq_1 t d a b s) (ranged rfl rfl rfl hr),
        rounded2_completes (execFmul.eq_1 t d a b s) (ranged rfl rfl rfl hr),
        float2_completes (execFmin.eq_1 t d a b s) (ranged rfl rfl rfl hr) fun _ _ => fminBits_lt special mbits,
        float2_completes (execFmax.eq_1 t d a b s) (ranged rfl rfl rfl hr) fun _ _ => fmaxBits_lt special mbits,
        floatWrite_completes (execFfma.eq_1 t d a b s) (ranged rfl rfl rfl hr) rfl fun _ =>
          elems_fmap3 (fun _ _ _ => rne_lt_elem t _) _ _ _⟩,
    fun hr =>
      ⟨float1_completes (execFabs.eq_1 t d a s) (ranged rfl rfl rfl hr) (fun _ => fabsBits_eq) fun _ _ =>
          (Nat.mod_lt _ (Nat.two_pow_pos _)).trans halfPos,
        float1_completes (execFneg.eq_1 t d a s) (ranged rfl rfl rfl hr) (fun _ => fnegBits_eq) fun _ _ =>
          Nat.mod_lt _ (Nat.two_pow_pos _),
        rounded1_completes (execFrcp.eq_1 t d a s) (ranged rfl rfl rfl hr) rfl,
        rounded1_completes (execFrsq.eq_1 t d a s) (ranged rfl rfl rfl hr) rfl,
        rounded1_completes (execFsqrt.eq_1 t d a s) (ranged rfl rfl rfl hr) rfl,
        rounded1_completes (execFexp2.eq_1 t d a s) (ranged rfl rfl rfl hr) rfl,
        rounded1_completes (execFlog2.eq_1 t d a s) (ranged rfl rfl rfl hr) rfl,
        rounded1_completes (execFround.eq_1 t d a r s) (ranged rfl rfl rfl hr) rfl⟩⟩

end Sys2Proof.Machine
end

section
/-! ## ConversionWords: float compares, `cvt` and `cvtp`, and the slots they refuse -/

namespace Sys2Proof.Machine

open Sys2Proof.Claims

/-! ### Compares (R205) -/

theorem floatCompare : FloatCompare := by
  intro s c t p a b hr
  refine predWrite_completes (execFcmp.eq_1 c t p a b s) (admits_of_inRange rfl rfl rfl hr) rfl (funext fun k => ?_)
  simp only [ftypeElems_eq]
  refine congrArg (fun h => (List.zipWith h _ _).all id) (funext fun x => funext fun y => ?_)
  rcases ((ftypeShape t).value x).compare ((ftypeShape t).value y) with _ | o
  · cases c <;> rfl
  · cases c <;> cases o <;> rfl

/-! ### The slots a conversion names (R39, R121, R210) -/

section

variable {s : State} {y x : CvtType} {d a b : VReg} {f : FSlot}

theorem any_slotsOf_cvt : (slotsOf (.cvt y d a x f)).any s.slotUnused = (decide (y = .slot ∨ x = .slot) && s.slotUnused f) := by
  by_cases h : y = .slot ∨ x = .slot
  · simp [slotsOf, h]
  · simp [slotsOf, h]

theorem illegalAt_cvt : illegalAt (.cvt y d a x f) s =
    (!Instr.wf (.cvt y d a x f) || (decide (y = .slot ∨ x = .slot) && s.slotUnused f)) := by
  have h : illegalAt (.cvt y d a x f) s = (!Instr.wf (.cvt y d a x f) || (false && s.coreKey != fwCore) ||
      (s.coreKey == fwCore && false) || (slotsOf (.cvt y d a x f)).any s.slotUnused || false) := rfl
  rw [h, any_slotsOf_cvt, Bool.false_and, Bool.and_false, Bool.or_false, Bool.or_false, Bool.or_false]

/-- Whether a slot holds no format, or one of more than 16 bits, which `cvtp` does not take (R210). -/
def State.slotTooWide (s : State) (f : FSlot) : Bool := (FmtSlot.ofBits (s.slotBits f)).all fun S => decide (16 < S.fmt.width)

theorem illegalAt_cvtp : illegalAt (.cvtp f d a b) s = (s.slotUnused f || s.slotTooWide f) := by
  have h : illegalAt (.cvtp f d a b) s = (!true || (false && s.coreKey != fwCore) || (s.coreKey == fwCore && false) ||
      (s.slotUnused f || false) || s.slotTooWide f) := by
    unfold State.slotTooWide
    rcases hs : FmtSlot.ofBits (s.slotBits f) with _ | S
    · simp only [illegalAt, hs]; rfl
    · simp only [illegalAt, hs]; rfl
  rw [h, Bool.false_and, Bool.and_false, Bool.not_true, Bool.or_false, Bool.or_false, Bool.or_false, Bool.false_or]

/-- A slot with no format stands for one of 32 bits (`State.slot`). -/
theorem slotTooWide_eq (s : State) (f : FSlot) : s.slotTooWide f = decide (16 < (s.slot f).fmt.width) := by
  rw [State.slotTooWide, State.slot]
  cases FmtSlot.ofBits (s.slotBits f) with
  | none => rfl
  | some S => rfl

theorem exec_of_illegalAt {i : Instr} {e : State → State} (hx : exec i s = guard i s e) (h : illegalAt i s = true) :
    exec i s = .next (s.fault { code := .illegal }) := hx.trans (guard_of_fault (c := 5) (if_pos h) e)

theorem admits_of_legal {i : Instr} {l : List VReg} (hi : illegalAt i s = false) (hv : vregsOf i = l.map Fin.val)
    (hs : spaceFault i s = if false = true ∧ (!s.iss.sup) = true then some { code := .protect } else none) (hr : InRange s l) :
    Admits i s := admits_of_inRange (hi.trans (by simp)) hv hs hr

end

/-! ### Lanes of `cvt` (R207 to R209) -/

theorem cvtRound_eq (y : CvtType) : cvtRound y = if y = .i32 ∨ y = .n32 then .towardZero else .nearestEven := by cases y <;> rfl

theorem cvtLane_eq (y x : CvtType) (S : FmtSlot) (w : W32) : cvtLane y x S w =
    if y = .slot then BitVec.ofNat 32 (S.write (cvtRead x w))
    else if x = .slot then cvtWrite y S.round S.sat (S.read w.toNat)
    else cvtWrite y (if y = .i32 ∨ y = .n32 then .towardZero else .nearestEven) false (cvtRead x w) := by
  by_cases hy : y = .slot
  · subst hy
    rfl
  · rw [if_neg hy, ← cvtRound_eq]
    by_cases hx : x = .slot
    · subst hx
      cases y with
      | slot => exact absurd rfl hy
      | _ => rfl
    · rw [if_neg hx]
      unfold cvtLane
      split
      · exact absurd rfl hy
      · exact absurd rfl hx
      · rfl

theorem conversions : Conversions := by
  intro s y x d a b f
  refine ⟨fun hwf hused hr => ?_, fun hun hslot => ?_, fun hused _ hw hr => ?_, fun hbad => ?_⟩
  · have hlegal : illegalAt (.cvt y d a x f) s = false := by
      rw [illegalAt_cvt, hwf]
      simpa using hused
    exact vectorWrite_completes (execCvt.eq_1 y d a x f s) (admits_of_legal hlegal rfl rfl hr) rfl fun _ => cvtLane_eq ..
  · refine exec_of_illegalAt (execCvt.eq_1 y d a x f s) ?_
    rw [illegalAt_cvt, hun, decide_eq_true hslot, Bool.and_true, Bool.or_true]
  · have hlegal : illegalAt (.cvtp f d a b) s = false := by
      rw [illegalAt_cvtp, hused, slotTooWide_eq, decide_eq_false (Nat.not_lt.2 hw), Bool.or_false]
    exact vectorWrite_completes (execCvtp.eq_1 f d a b s) (admits_of_legal hlegal rfl rfl hr) rfl fun _ => rfl
  · refine exec_of_illegalAt (execCvtp.eq_1 f d a b s) ?_
    rw [illegalAt_cvtp, slotTooWide_eq, Bool.or_eq_true, decide_eq_true_eq]
    exact hbad

/-- Settles O14: `fcmp` is one write of a predicate, `cvt` and `cvtp` one of a vector register; what they refuse is `illegalAt`. -/
theorem floatComparesAndConversions : Obligations.FloatComparesAndConversions := ⟨floatCompare, conversions⟩

end Sys2Proof.Machine
end

section
/-! ## TileCompletion: what the matrix engine's finished operations have written, and an uncorrectable read -/

namespace Sys2Proof.Machine

open Sys2Proof.Claims

/-! ### Attempts that ask the hosts for nothing (R348, R376) -/

theorem execTileOpComplete_of_done {s t : State} {team : Nat} (h : (s.asking ⟨team, 5, 0⟩).tileComplete team = t)
    (hn : Answered s t) : exec (.tileOpComplete team) s = .next { t with hostWho := s.hostWho } :=
  congrArg Host.Outcome.next (s.attempting_of_answered _ (·.tileComplete team) h hn)

theorem execTileOpFault_of_done {s t : State} {team : Nat} {ecc : Bool} (h : (s.asking ⟨team, 5, 0⟩).tileFault team ecc = t)
    (hn : Answered s t) : exec (.tileOpFault team ecc) s = .next { t with hostWho := s.hostWho } :=
  congrArg Host.Outcome.next (s.attempting_of_answered _ (·.tileFault team ecc) h hn)

theorem tileHeld_asking (s : State) (w : Asker) (team : Nat) (op : TileOp) :
    (s.asking w).tileHeld team op = s.tileHeld team op := rfl

theorem tileOpComplete_of_held {s : State} {team : Nat} {op : TileOp} {rest : List TileOp} (ht : (s.team team).tiles = op :: rest)
    (hh : s.tileHeld team op = true) : exec (.tileOpComplete team) s = .next s := by
  refine congrArg Host.Outcome.next (s.attempting_of_idle _ (·.tileComplete team) ?_)
  have hteam : ((s.asking ⟨team, 5, 0⟩).team team).tiles = op :: rest := ht
  simp only [State.tileComplete, hteam, tileHeld_asking, hh, if_true]

/-! ### The end of an operation (R280) -/

section

variable (s : State) (team : Nat) (op : TileOp)

theorem team_tileDone : (s.tileDone team op).team team = { s.team team with tiles := (s.team team).tiles.tail } :=
  State.team_setTeam s team _

theorem gang_tileDone : (s.tileDone team op).gang op.gid = { s.gang op.gid with tm := (s.gang op.gid).tm - 1 } :=
  State.gang_setGang _ op.gid _

end

/-- A completion that changes the team to `x`, and lets its operation `o` leave: the gang's counter falls, and the team has the rest
of its list. -/
theorem tileDone_completes {s v : State} {team : Nat} {op o : TileOp} {rest : List TileOp} {x : Team} {P : State → Prop}
    (h : (s.asking ⟨team, 5, 0⟩).tileComplete team = (v.setTeam team x).tileDone team o) (hgangs : v.gangs = s.gangs)
    (hdmem : v.dmem = s.dmem) (hneed : v.hostNeed = s.hostNeed) (hx : x.tiles = o :: rest) (ho : o.gid = op.gid)
    (hP : ∀ t, tileLeft s t team op rest → t.dmem = s.dmem → t.team team = { x with tiles := rest } → P t) :
    Completes (.tileOpComplete team) s P := by
  have hteam : ((v.setTeam team x).tileDone team o).team team = { x with tiles := rest } := by
    rw [team_tileDone, State.team_setTeam, hx, List.tail_cons]
  have hsame : v.gang op.gid = s.gang op.gid := by rw [State.gang, State.gang, hgangs]
  have hgang : ((v.setTeam team x).tileDone team o).gang op.gid = { s.gang op.gid with tm := (s.gang op.gid).tm - 1 } := by
    rw [← ho, gang_tileDone, State.gang_setTeam, ho, hsame]
  have htiles : (((v.setTeam team x).tileDone team o).team team).tiles = rest := by rw [hteam]
  have htm : (((v.setTeam team x).tileDone team o).gang op.gid).tm = (s.gang op.gid).tm - 1 := by rw [hgang]
  have hregs : (((v.setTeam team x).tileDone team o).gang op.gid).regs = (s.gang op.gid).regs := by rw [hgang]
  exact Completes.intro (execTileOpComplete_of_done h hneed) (hP _ ⟨htiles, htm, hregs⟩ hdmem hteam)

/-! ### `tzero` (R276) -/

theorem read_zeroRegion (m : Memory) (c : CRegion) (k : Nat) :
    (zeroRegion m c).read k = if c.off ≤ k ∧ k < c.off + 4 * c.m * c.n then 0 else m.read k :=
  Memory.read_paste m _ _ [] k Memory.wf_nil

theorem tileComplete_tzero {s : State} {team : Nat} {op : TileOp} {rest : List TileOp} {c : CRegion}
    (ht : (s.team team).tiles = op :: rest) (hh : s.tileHeld team op = false) (hk : op.kind = .tzero c) :
    s.tileComplete team = (s.modTeam team fun t => { t with cb := zeroRegion t.cb c }).tileDone team op := by
  simp only [State.tileComplete, ht, hh, hk, Bool.false_eq_true, if_false]

/-! ### Words of C rewritten in place (R199, R270) -/

theorem Memory.readLE_congr {m m' : Memory} {a n : Nat} (h : ∀ k, a ≤ k → k < a + n → m.read k = m'.read k) :
    m.readLE a n = m'.readLE a n := by
  induction n generalizing a with
  | zero => rfl
  | succ n ih => rw [Memory.readLE, Memory.readLE, h a le_rfl (by omega), ih fun k hk hlt => h k (by omega) (by omega)]

/-- Words 0 to `n - 1` from `off` on, each replaced by what `f` makes of its number and its old value. -/
def rewriteWords (f : Nat → Nat → Nat) (off : Nat) (m : Memory) (n : Nat) : Memory :=
  (List.range n).foldl (fun m i => m.writeLE (off + 4 * i) 4 (f i (m.readLE (off + 4 * i) 4))) m

theorem rewriteWords_succ (f : Nat → Nat → Nat) (off : Nat) (m : Memory) (n : Nat) : rewriteWords f off m (n + 1) =
    (rewriteWords f off m n).writeLE (off + 4 * n) 4 (f n ((rewriteWords f off m n).readLE (off + 4 * n) 4)) := by
  rw [rewriteWords, List.range_succ, List.foldl_append]
  rfl

theorem read_rewriteWords_ne (f : Nat → Nat → Nat) (off : Nat) (m : Memory) {n k : Nat} (h : k < off ∨ off + 4 * n ≤ k) :
    (rewriteWords f off m n).read k = m.read k := by
  induction n with
  | zero => rfl
  | succ n ih => rw [rewriteWords_succ, Memory.read_writeLE_ne _ _ _ _ _ (by omega), ih (by omega)]

theorem readLE_rewriteWords (f : Nat → Nat → Nat) (off : Nat) (m : Memory) {n i : Nat} (h : i < n) :
    (rewriteWords f off m n).readLE (off + 4 * i) 4 = f i (m.readLE (off + 4 * i) 4) % 2 ^ 32 := by
  induction n with
  | zero => exact absurd h (Nat.not_lt_zero i)
  | succ n ih =>
    rw [rewriteWords_succ]
    rcases Nat.lt_succ_iff_lt_or_eq.1 h with hlt | rfl
    · rw [← ih hlt]
      exact Memory.readLE_congr fun k _ hk => Memory.read_writeLE_ne _ _ _ _ _ (by omega)
    · rw [Memory.readLE_writeLE, Memory.readLE_congr fun k hk _ => read_rewriteWords_ne f off m (.inr hk)]
      rfl

/-! ### A granule of a dense multiply (R199, R274) -/

section

variable {s : State} {team : Nat} {op : TileOp} {rest : List TileOp} {ao bo : Nat} {c : CRegion} {aw bw : W64} {fa fb : FmtSlot}
  {g : Nat}

/-- The products of an element of C over granule `i`: A's row against B's column, both along K. -/
def denseProducts (t : Team) (fa fb : FmtSlot) (ao bo : Nat) (c : CRegion) (g gi i j : Nat) : List Num :=
  (List.range g).map fun k =>
    (fa.readStored (elemAt t.ab ao ((i * (c.kg * g) + (gi * g + k)) * fa.fmt.width) fa.fmt.width)).mul
      (fb.readStored (elemAt t.wb bo ((j * (c.kg * g) + (gi * g + k)) * fb.fmt.width) fb.fmt.width))

/-- An element of C with its granule's exact sum of products added, rounded once. -/
def addGranule (old : Nat) (products : List Num) : Nat := shapeF32.rne ((shapeF32.value old).add (granuleSum products))

theorem granuleC_dense (t : Team) (popped : List Nat) (gi : Nat) : granuleC t fa fb false ao bo c g popped gi =
    rewriteWords (fun ij old => addGranule old (denseProducts t fa fb ao bo c g gi (ij / c.n) (ij % c.n))) c.off t.cb
      (c.m * c.n) := rfl

/-- Row `i` and column `j` of an element's place in C. -/
theorem place_div_mod {i j n : Nat} (hj : j < n) : (i * n + j) / n = i ∧ (i * n + j) % n = j := by
  rw [Nat.mul_comm, Nat.mul_add_div (Nat.zero_lt_of_lt hj), Nat.div_eq_of_lt hj, Nat.mul_add_mod, Nat.mod_eq_of_lt hj]
  exact ⟨rfl, rfl⟩

theorem readLE_granuleC_dense (t : Team) (popped : List Nat) (gi : Nat) {i j : Nat} (hi : i < c.m) (hj : j < c.n) :
    (granuleC t fa fb false ao bo c g popped gi).readLE (c.off + 4 * (i * c.n + j)) 4 =
      addGranule (t.cb.readLE (c.off + 4 * (i * c.n + j)) 4) (denseProducts t fa fb ao bo c g gi i j) % 2 ^ 32 := by
  have hplace : i * c.n + j < c.m * c.n := calc
    i * c.n + j < i * c.n + c.n := Nat.add_lt_add_left hj _
    _ = (i + 1) * c.n := (Nat.succ_mul i c.n).symm
    _ ≤ c.m * c.n := Nat.mul_le_mul_right _ hi
  obtain ⟨hrow, hcol⟩ := place_div_mod (i := i) hj
  rw [granuleC_dense, readLE_rewriteWords _ _ _ hplace, hrow, hcol]

theorem read_granuleC_dense_ne (t : Team) (popped : List Nat) (gi : Nat) {k : Nat}
    (hk : k < c.off ∨ c.off + 4 * c.m * c.n ≤ k) : (granuleC t fa fb false ao bo c g popped gi).read k = t.cb.read k := by
  rw [granuleC_dense, read_rewriteWords_ne _ _ _ (by rwa [← Nat.mul_assoc])]

theorem groupEntries_of_dense (hk : op.kind = .tmm false ao bo c aw bw) : op.groupEntries = (0, 0) := by
  rw [TileOp.groupEntries, hk]

theorem popMeta_frame (s : State) (team need : Nat) (op : TileOp) :
    ∃ cores popped, s.popMeta team need op = ({ s with cores := cores }, { op with popped := popped }) := ⟨_, _, rfl⟩

/-- One granule adds its products to C; besides the team's C and its list of operations only the core, whose turn it is, changes. -/
theorem granule_dense (ht : (s.team team).tiles = op :: rest) (hh : s.tileHeld team op = false)
    (hk : op.kind = .tmm false ao bo c aw bw) (hs : tmmShape aw bw = some (fa, fb, g)) (hd : op.done < c.kg) :
    ∃ cores, s.granule team = State.modTeam { s with cores := cores } team fun t =>
      { t with cb := granuleC (s.team team) fa fb false ao bo c g [] op.done,
               tiles := { op with done := op.done + 1, popped := [] } :: rest } := by
  have hcond : ¬(s.tileHeld team op = true ∨ c.kg ≤ op.done) := by simp [hh, hd]
  obtain ⟨cores, popped, hpop⟩ :=
    popMeta_frame (s.modCore (team / 16) fun q => { q with tileTurn := some (team, op.order) }) team 0 op
  refine ⟨cores, ?_⟩
  conv_lhs =>
    simp only [State.granule, ht, hk, hs]
    rw [if_neg hcond, groupEntries_of_dense hk, hpop]
  exact if_neg (Nat.not_lt_zero popped.length)

theorem tileComplete_dense (ht : (s.team team).tiles = op :: rest) (hh : s.tileHeld team op = false)
    (hk : op.kind = .tmm false ao bo c aw bw) (hs : tmmShape aw bw = some (fa, fb, g)) (hd : op.done + 1 = c.kg) :
    ∃ cores, s.tileComplete team = (State.modTeam { s with cores := cores } team fun t =>
      { t with cb := granuleC (s.team team) fa fb false ao bo c g [] op.done,
               tiles := { op with done := op.done + 1, popped := [] } :: rest }).tileDone team
        { op with done := op.done + 1, popped := [] } := by
  obtain ⟨cores, hgran⟩ := granule_dense ht hh hk hs (by omega)
  refine ⟨cores, ?_⟩
  have hlast : c.kg - op.done = 1 := by omega
  have hone : s.granules team 1 = s.granule team := rfl
  conv_lhs =>
    simp only [State.tileComplete, ht, hk, hh, Bool.false_eq_true, if_false]
    rw [hlast, hone, hgran]
    simp only [State.modTeam_eq, State.team_setTeam]
  exact if_pos hd.ge

end

/-! ### Faults of engines (R443) -/

/-- A slice that a change marks, and that it marks again alike, is marked however often it is listed. -/
theorem Gang.haltDue_modSlices (x : Gang) {ks : List Nat} {f : Nat → Slice → Slice} {j : Nat} (hj : j ∈ ks)
    (hmark : f j (x.slice j) = { x.slice j with haltDue := true })
    (hagain : f j { x.slice j with haltDue := true } = { x.slice j with haltDue := true }) :
    ((x.modSlices ks f).slice j).haltDue = true := by
  rw [Gang.slice_modSlices_of_idem x hj (by rw [hmark, hagain]), hmark]

theorem Gang.modSlices_tm (x : Gang) (ks : List Nat) (f : Nat → Slice → Slice) : (x.modSlices ks f).tm = x.tm := by
  rw [Gang.modSlices_only]

/-- A fault of an engine marks every slice of its gang that has a lane; the gang's count of operations and its registers stay. -/
theorem State.engineFault_gang (s : State) (gid : Nat) (sup : Bool) (pc word : Nat) (f : FInfo) :
    ((s.engineFault gid sup pc word f).gang gid).tm = (s.gang gid).tm ∧
    ((s.engineFault gid sup pc word f).gang gid).regs = (s.gang gid).regs ∧
    ∀ j ∈ (s.gang gid).sliceKeys, ((s.gang gid).slice j).live ≠ 0 →
      (((s.engineFault gid sup pc word f).gang gid).slice j).haltDue = true := by
  have marked (h : Nat → Slice → Slice) (sup : Bool) (f : FInfo) :
      ((s.modGang gid fun g => g.modSlices g.sliceKeys h).report gid sup pc word f).gang gid =
        (s.gang gid).modSlices (s.gang gid).sliceKeys h := by
    obtain ⟨_, _, _, hr⟩ := State.report_frame (s.modGang gid fun g => g.modSlices g.sliceKeys h) gid sup pc word f
    rw [hr]
    exact State.gang_setGang s gid _
  unfold State.engineFault State.lateFault
  dsimp only
  split
  · rw [marked]
    refine ⟨Gang.modSlices_tm _ _ _, Gang.modSlices_regs _ _ _, fun j hj hl => Gang.haltDue_modSlices _ hj ?_ ?_⟩
    · exact if_neg (by simpa [Slice.idle] using hl)
    · exact if_neg (by simpa [Slice.idle] using hl)
  · have hhit (j : Nat) (hj : j ∈ (s.gang gid).sliceKeys) :
        ((s.gang gid).sliceKeys.map fun k => ((s.gang gid).slice k).split).contains ((s.gang gid).slice j).split = true :=
      List.contains_iff_mem.2 (List.mem_map_of_mem hj)
    rw [marked]
    refine ⟨Gang.modSlices_tm _ _ _, Gang.modSlices_regs _ _ _, fun j hj hl => Gang.haltDue_modSlices _ hj ?_ ?_⟩
    · exact if_pos ⟨hhit j hj, by simpa [Slice.idle] using hl⟩
    · exact if_pos ⟨hhit j hj, by simpa [Slice.idle] using hl⟩

theorem State.engineFault_frame (s : State) (gid : Nat) (sup : Bool) (pc word : Nat) (f : FInfo) (k : Nat) :
    (s.engineFault gid sup pc word f).team k = s.team k ∧ (s.engineFault gid sup pc word f).hostNeed = s.hostNeed := by
  obtain ⟨_, _, _, _, h⟩ := s.lateFault_frame gid sup (s.gang gid).sliceKeys pc word f
  rw [State.engineFault, h]
  exact ⟨rfl, rfl⟩

theorem tileFault_ecc {s : State} {team : Nat} {op : TileOp} {rest : List TileOp} (ht : (s.team team).tiles = op :: rest)
    (hh : s.tileHeld team op = false) :
    s.tileFault team true = (s.tileDone team op).engineFault op.gid op.sup op.pc op.word { code := .eccUncorr } := by
  simp only [State.tileFault, ht, hh, Bool.false_eq_true, if_false, if_true]

/-! ### What completions and an uncorrectable read come to (R276, R280, R283) -/

section

variable {s : State} {team : Nat} {op : TileOp} {rest : List TileOp} (ht : (s.team team).tiles = op :: rest)
  (hh : s.tileHeld team op = false)

include ht hh

theorem tzero_completes {c : CRegion} (hk : op.kind = .tzero c) : Completes (.tileOpComplete team) s fun t =>
    tileLeft s t team op rest ∧ t.dmem = s.dmem ∧ (t.team team).ab = (s.team team).ab ∧ (t.team team).wb = (s.team team).wb ∧
      (t.team team).scratch = (s.team team).scratch ∧
      ∀ k, (t.team team).cb.read k = if c.off ≤ k ∧ k < c.off + 4 * c.m * c.n then 0 else (s.team team).cb.read k := by
  have hdone := tileComplete_tzero (s := s.asking ⟨team, 5, 0⟩) ht hh hk
  refine tileDone_completes hdone rfl rfl rfl ht rfl fun t hleft hdmem hteam => ?_
  rw [hteam]
  exact ⟨hleft, hdmem, rfl, rfl, rfl, read_zeroRegion _ c⟩

theorem denseMultiply_completes {ao bo : Nat} {c : CRegion} {aw bw : W64} {fa fb : FmtSlot} {g : Nat}
    (hk : op.kind = .tmm false ao bo c aw bw) (hs : tmmShape aw bw = some (fa, fb, g)) (hd : op.done + 1 = c.kg) :
    Completes (.tileOpComplete team) s fun t =>
      tileLeft s t team op rest ∧ t.dmem = s.dmem ∧ (t.team team).ab = (s.team team).ab ∧ (t.team team).wb = (s.team team).wb ∧
        (∀ i j, i < c.m → j < c.n → (t.team team).cb.readLE (c.off + 4 * (i * c.n + j)) 4 =
          addGranule ((s.team team).cb.readLE (c.off + 4 * (i * c.n + j)) 4)
            (denseProducts (s.team team) fa fb ao bo c g op.done i j) % 2 ^ 32) ∧
        ∀ k, k < c.off ∨ c.off + 4 * c.m * c.n ≤ k → (t.team team).cb.read k = (s.team team).cb.read k := by
  obtain ⟨cores, hdone⟩ := tileComplete_dense (s := s.asking ⟨team, 5, 0⟩) ht hh hk hs hd
  refine tileDone_completes hdone rfl rfl rfl rfl rfl fun t hleft hdmem hteam => ?_
  rw [hteam]
  exact ⟨hleft, hdmem, rfl, rfl, fun i j hi hj => readLE_granuleC_dense (s.team team) _ _ hi hj,
    fun k hk => read_granuleC_dense_ne (s.team team) _ _ hk⟩

theorem eccRead_completes : Completes (.tileOpFault team true) s fun t =>
    tileLeft s t team op rest ∧ (t.team team).cb = (s.team team).cb ∧ (t.team team).ab = (s.team team).ab ∧
      ∀ j ∈ (s.gang op.gid).sliceKeys, ((s.gang op.gid).slice j).live ≠ 0 → ((t.gang op.gid).slice j).haltDue = true := by
  obtain ⟨hteam, hneed⟩ :=
    ((s.asking ⟨team, 5, 0⟩).tileDone team op).engineFault_frame op.gid op.sup op.pc op.word { code := .eccUncorr } team
  obtain ⟨htm, hregs, hmarked⟩ :=
    ((s.asking ⟨team, 5, 0⟩).tileDone team op).engineFault_gang op.gid op.sup op.pc op.word { code := .eccUncorr }
  refine Completes.intro (execTileOpFault_of_done (tileFault_ecc ht hh) hneed) ?_
  rw [team_tileDone] at hteam
  rw [gang_tileDone] at htm hregs hmarked
  have htiles := (congrArg Team.tiles hteam).trans (congrArg List.tail ht)
  have hcb := congrArg Team.cb hteam
  have hab := congrArg Team.ab hteam
  exact ⟨⟨htiles, htm, hregs⟩, hcb, hab, hmarked⟩

end

/-- Settles O38: what each completion comes to (`tileComplete_tzero`, `tileComplete_dense`), and what is then read of C
(`read_zeroRegion`, `readLE_rewriteWords`); a fault of an engine marks its gang's slices (`State.engineFault_gang`). -/
theorem tileCompletion : Obligations.TileCompletion := by
  intro s team op rest T ht
  refine ⟨tileOpComplete_of_held ht, fun hh => ⟨fun c hk => tzero_completes ht hh hk, ?_⟩, fun hh => eccRead_completes ht hh⟩
  intro ao bo c aw bw fa fb g hk ha hb hg hd
  have hs : tmmShape aw bw = some (fa, fb, g) := by simp only [tmmShape, ha, hb, hg, Option.map_some]
  exact denseMultiply_completes ht hh hk hs hd

end Sys2Proof.Machine
end

section
/-! ## The canonical form of device memory

Every function of the model that answers a state keeps `Canonical`: device memory has its addresses rising and lists no byte equal to
an unlisted one. Here the rules the proofs share: a state with the same `dmem`, a fold, and what an outcome must answer. -/

namespace Sys2Proof.Machine
open Sys2Proof.Claims

theorem canonical_iff (s : State) : Canonical s ↔ s.dmem.wf = true := Iff.rfl

theorem canonical_of_dmem {s t : State} (e : t.dmem = s.dmem) (hs : Canonical s) : Canonical t := by
  rw [canonical_iff, e]; exact hs

theorem canonical_of_eq {γ : Type} {x : State × γ} {t : State} {y : γ} (e : x = (t, y)) (h : Canonical x.1) : Canonical t := by
  rw [e] at h; exact h

theorem State.withMsix_canonical (s : State) (l : List (Nat × Nat)) (hs : Canonical s) : Canonical { s with msix := l } := hs

theorem ite_canonical {c : Prop} [Decidable c] {s t : State} (hs : Canonical s) (ht : Canonical t) :
    Canonical (if c then s else t) := by
  split
  · exact hs
  · exact ht

theorem foldl_canonical {β : Type} (f : State → β → State) (h : ∀ s x, Canonical s → Canonical (f s x)) (l : List β)
    (s : State) (hs : Canonical s) : Canonical (l.foldl f s) := by
  induction l generalizing s with
  | nil => exact hs
  | cons x l ih => exact ih _ (h s x hs)

theorem foldl_canonical_fst {β γ : Type} (f : State × γ → β → State × γ) (h : ∀ p x, Canonical p.1 → Canonical (f p x).1)
    (l : List β) (p : State × γ) (hp : Canonical p.1) : Canonical (l.foldl f p).1 := by
  induction l generalizing p with
  | nil => exact hp
  | cons x l ih => exact ih _ (h p x hp)

/-- The outcome is a next state, with device memory in its canonical form if `p` holds. -/
def Answers (p : Prop) : Res → Prop
  | .next t => p → Canonical t
  | .fault _ => False
  | .refused _ => False

theorem answers_next {p : Prop} {t : State} (h : p → Canonical t) : Answers p (.next t) := h

theorem Answers.mono {p q : Prop} {r : Res} (h : Answers p r) (i : q → p) : Answers q r := by
  cases r with
  | next t => exact fun hq => h (i hq)
  | fault x => exact h
  | refused x => exact h

theorem Answers.exists_next {p : Prop} {r : Res} (h : Answers p r) : ∃ t, r = .next t ∧ (p → Canonical t) := by
  cases r with
  | next t => exact ⟨t, rfl, h⟩
  | fault x => exact h.elim
  | refused x => exact h.elim

end Sys2Proof.Machine
end

section
/-! ## The memory invariant: state, translation and scalar words

The functions of the state, of translation and of the scalar words keep the canonical form: one lemma per function, in the model's
order. A function that leaves `dmem` alone keeps it by `hs` itself; translation writes it through `MemMap.writeLE` and `MemMap.copy`. -/

namespace Sys2Proof.Machine
open Sys2Proof.Claims

/-! ### Machine/Ops.lean -/

theorem State.setGang_canonical (s : State) (gid : Nat) (g : Gang) (hs : Canonical s) : Canonical (s.setGang gid g) := hs
theorem State.modGang_canonical (s : State) (gid : Nat) (f : Gang → Gang) (hs : Canonical s) : Canonical (s.modGang gid f) := hs
theorem State.setTeam_canonical (s : State) (k : Nat) (t : Team) (hs : Canonical s) : Canonical (s.setTeam k t) := hs
theorem State.modTeam_canonical (s : State) (k : Nat) (f : Team → Team) (hs : Canonical s) : Canonical (s.modTeam k f) := hs
theorem State.setCore_canonical (s : State) (k : Nat) (c : Core) (hs : Canonical s) : Canonical (s.setCore k c) := hs
theorem State.modCore_canonical (s : State) (k : Nat) (f : Core → Core) (hs : Canonical s) : Canonical (s.modCore k f) := hs
theorem State.setCtx_canonical (s : State) (k : Nat) (c : Ctx) (hs : Canonical s) : Canonical (s.setCtx k c) := hs
theorem State.modCtx_canonical (s : State) (k : Nat) (f : Ctx → Ctx) (hs : Canonical s) : Canonical (s.modCtx k f) := hs
theorem State.setGrid_canonical (s : State) (k : Nat) (g : Grid) (hs : Canonical s) : Canonical (s.setGrid k g) := hs
theorem State.modGrid_canonical (s : State) (k : Nat) (f : Grid → Grid) (hs : Canonical s) : Canonical (s.modGrid k f) := hs
theorem State.modCur_canonical (s : State) (f : Gang → Gang) (hs : Canonical s) : Canonical (s.modCur f) := hs
theorem State.writeS_canonical (s : State) (n : SReg) (x : W64) (hs : Canonical s) : Canonical (s.writeS n x) := hs
theorem State.writeA_canonical (s : State) (n : AReg) (x : AffReg) (hs : Canonical s) : Canonical (s.writeA n x) := hs
theorem State.writeV_canonical (s : State) (n : VReg) (f : Nat → W32) (hs : Canonical s) : Canonical (s.writeV n f) := hs
theorem State.writeP_canonical (s : State) (n : PReg) (f : Nat → Bool) (hs : Canonical s) : Canonical (s.writeP n f) := hs
theorem State.modSlices_canonical (s : State) (f : Nat → Slice → Slice) (hs : Canonical s) : Canonical (s.modSlices f) := hs

theorem State.devWrite_canonical (s : State) (pa n v : Nat) (hs : Canonical s) :
    Canonical (s.devWrite pa n v) := Memory.wf_writeLE _ _ _ _ hs

theorem State.putFault_canonical (s : State) (c : Nat) (r : FaultRec) (hs : Canonical s) : Canonical (s.putFault c r) := by
  unfold State.putFault
  dsimp only
  split
  · exact hs
  split
  · exact State.setCtx_canonical _ _ _ hs
  split
  · exact State.setCtx_canonical _ _ _ (foldl_canonical _ (fun t _ => t.devWrite_canonical _ _ _) _ _ hs)
  · exact State.withMsix_canonical _ _
      (State.setCtx_canonical _ _ _ (foldl_canonical _ (fun t _ => t.devWrite_canonical _ _ _) _ _ hs))

theorem State.report_canonical (s : State) (gid : Nat) (sup : Bool) (pc word : Nat) (f : FInfo) (hs : Canonical s) :
    Canonical (s.report gid sup pc word f) := State.putFault_canonical _ _ _ hs

theorem State.handlerDouble_canonical (s : State) (detail : Nat) (f : FInfo) (hs : Canonical s) :
    Canonical (s.handlerDouble detail f) := by
  unfold State.handlerDouble
  grind [State.modCur_canonical, State.modSlices_canonical, State.report_canonical]

theorem State.haltSplit_canonical (s : State) (f : FInfo) (replay : Option Replay) (hs : Canonical s) :
    Canonical (s.haltSplit f replay) := by
  unfold State.haltSplit
  grind [State.modSlices_canonical, State.report_canonical]

theorem State.enterHandler_canonical (s : State) (entry : Nat) (f : FInfo) (replay : Option Replay) (jmp : Bool)
    (hs : Canonical s) : Canonical (s.enterHandler entry f replay jmp) := hs

theorem State.awaitHandler_canonical (s : State) (f : FInfo) (replay : Option Replay) (jmp : Bool) (hs : Canonical s) :
    Canonical (s.awaitHandler f replay jmp) := hs

theorem State.hretDone_canonical (s : State) (v : Nat) (hs : Canonical s) : Canonical (s.hretDone v) := by
  unfold State.hretDone
  grind [State.handlerDouble_canonical, State.modCur_canonical, State.putFault_canonical]

/-! ### Machine/Translate.lean -/

theorem State.cacheEntry_canonical (s : State) (core : Nat) (e : TlbEntry) (hs : Canonical s) :
    Canonical (s.cacheEntry core e) := hs

theorem State.markPte_canonical (s : State) (pte : Nat) (write : Bool) (hs : Canonical s) :
    Canonical (s.markPte pte write) := by
  unfold State.markPte
  grind [State.devWrite_canonical]

theorem State.setCow_canonical (s : State) (c : Nat) (e : TlbEntry) (hs : Canonical s) : Canonical (s.setCow c e) := by
  unfold State.setCow
  grind [State.devWrite_canonical]

theorem State.translateDev_canonical (s : State) (core c va acc : Nat) (hs : Canonical s) :
    Canonical (s.translateDev core c va acc).1 := by
  unfold State.translateDev
  grind [State.markPte_canonical, State.cacheEntry_canonical, State.setCow_canonical]

theorem State.waitLine_canonical (s : State) (l : Loc) (hs : Canonical s) : Canonical (s.waitLine l) := by
  unfold State.waitLine
  grind [canonical_iff]

theorem State.askHost_canonical (s : State) (l : List (Nat × Nat)) (hs : Canonical s) : Canonical (s.askHost l) := hs
theorem State.asking_canonical (s : State) (w : Asker) (hs : Canonical s) : Canonical (s.asking w) := hs
theorem State.heard_canonical (s : State) (w : Asker) (hs : Canonical s) : Canonical (s.heard w) := hs

theorem State.attempting_canonical (s : State) (w : Asker) (f : State → State) (hf : ∀ s, Canonical s → Canonical (f s))
    (hs : Canonical s) : Canonical (s.attempting w f) := by
  have ha : Canonical (s.asking w) := hs
  unfold State.attempting
  grind [canonical_iff, State.askHost_canonical]

theorem State.accessing_canonical (s : State) (w : Asker) (f : State → State) (hf : ∀ s, Canonical s → Canonical (f s))
    (hs : Canonical s) : Canonical (s.accessing w f) := by
  have ha : Canonical (s.asking w) := hs
  unfold State.accessing
  grind [canonical_iff, State.heard_canonical, State.askHost_canonical]

theorem State.translateHost_canonical (s : State) (ld va acc : Nat) (hs : Canonical s) :
    Canonical (s.translateHost ld va acc).1 := by
  unfold State.translateHost
  grind [canonical_iff]

theorem State.takeFrom_canonical (s : State) (hint pool log n : Nat) (hs : Canonical s) :
    Canonical (s.takeFrom hint pool log n).1 := by
  induction n generalizing s with
  | zero => exact hs
  | succ n ih =>
    unfold State.takeFrom
    grind [State.devWrite_canonical, canonical_iff]

theorem State.takeFrame_canonical (s : State) (c : Nat) (hs : Canonical s) : Canonical (s.takeFrame c).1 := by
  unfold State.takeFrame
  grind [State.takeFrom_canonical]

theorem State.copyFor_canonical (s : State) (c f : Nat) (hs : Canonical s) : Canonical (s.copyFor c f).1 := by
  unfold State.copyFor
  grind [State.takeFrame_canonical, canonical_iff, Memory.wf_copy]

theorem State.relocate_canonical (s : State) (t g f d : Nat) (hs : Canonical s) : Canonical (s.relocate t g f d) := hs

theorem State.takeCopy_canonical (s : State) (t g f : Nat) (fr : Option Nat) (hs : Canonical s) :
    Canonical (s.takeCopy t g f fr) := by
  unfold State.takeCopy
  grind [State.modCtx_canonical, State.relocate_canonical]

theorem State.cowBut_canonical (s : State) (c g f : Nat) (but : Option Nat) (snap : Bool) (hs : Canonical s) :
    Canonical (s.cowBut c g f but snap) := by
  unfold State.cowBut
  grind [State.copyFor_canonical, State.takeCopy_canonical, State.modCtx_canonical, foldl_canonical]

theorem State.cow_canonical (s : State) (c g f : Nat) (hs : Canonical s) :
    Canonical (s.cow c g f) := State.cowBut_canonical _ _ _ _ _ _ hs

theorem State.ownCopy_canonical (s : State) (t g f : Nat) (hs : Canonical s) : Canonical (s.ownCopy t g f) := by
  unfold State.ownCopy
  grind [State.copyFor_canonical, State.takeCopy_canonical]

theorem State.translateView_canonical (s : State) (c va acc : Nat) (hs : Canonical s) :
    Canonical (s.translateView c va acc).1 := by
  unfold State.translateView
  grind [State.ownCopy_canonical]

theorem State.shadowOf_canonical (s : State) (c page : Nat) (live : Loc) (hs : Canonical s) :
    Canonical (s.shadowOf c page live).1 := by
  unfold State.shadowOf
  grind [State.takeFrame_canonical, State.modCtx_canonical, canonical_iff, Memory.wf_paste]

theorem State.translateShadow_canonical (s : State) (c va acc : Nat) (hs : Canonical s) :
    Canonical (s.translateShadow c va acc).1 := by
  unfold State.translateShadow
  grind [State.translateHost_canonical, State.shadowOf_canonical]

theorem State.translateIn_canonical (s : State) (core c va acc : Nat) (hs : Canonical s) :
    Canonical (s.translateIn core c va acc).1 := by
  unfold State.translateIn
  grind [State.translateView_canonical, State.translateShadow_canonical, State.translateDev_canonical, State.translateHost_canonical]

theorem State.translate_canonical (s : State) (team va acc : Nat) (hs : Canonical s) :
    Canonical (s.translate team va acc).1 := State.translateIn_canonical _ _ _ _ _ hs

theorem State.writeLoc_canonical (s : State) (l : Loc) (n v : Nat) (hs : Canonical s) : Canonical (s.writeLoc l n v) := by
  cases l with
  | dev pa => exact Memory.wf_writeLE _ _ _ _ hs
  | host ld ha => exact hs
  | buf team sp off => exact hs
  | cf grid off => exact hs
  | remote p c t off => exact hs
  | peer p va => exact hs

theorem State.writeVa_canonical (s : State) (c va : Nat) (before : Bool) (l : Loc) (n v : Nat) (hs : Canonical s) :
    Canonical (s.writeVa c va before l n v) := by
  unfold State.writeVa
  grind [State.writeLoc_canonical, State.cow_canonical, State.cowBut_canonical, State.devWrite_canonical]

theorem State.gangWrite_canonical (s : State) (c gid va : Nat) (l : Loc) (n v : Nat) (hs : Canonical s) :
    Canonical (s.gangWrite c gid va l n v) := State.writeVa_canonical _ _ _ _ _ _ _ hs

theorem State.fetch_canonical (s : State) (gid pc : Nat) (hs : Canonical s) : Canonical (s.fetch gid pc).1 := by
  unfold State.fetch
  grind [State.translateIn_canonical, State.waitLine_canonical]

theorem State.checkTarget_canonical (s : State) (gid pc : Nat) (hs : Canonical s) : Canonical (s.checkTarget gid pc).1 := by
  unfold State.checkTarget
  grind [State.fetch_canonical]

theorem State.faultWith_canonical (s : State) (f : FInfo) (replay : Option Replay) (jmp : Bool) (hs : Canonical s) :
    Canonical (s.faultWith f replay jmp) := by
  unfold State.faultWith
  grind [State.handlerDouble_canonical, State.awaitHandler_canonical, State.checkTarget_canonical, State.enterHandler_canonical,
    State.haltSplit_canonical, canonical_iff]

theorem State.fault_canonical (s : State) (f : FInfo) (hs : Canonical s) :
    Canonical (s.fault f) := State.faultWith_canonical _ _ _ _ hs

theorem State.lateFault_canonical (s : State) (gid : Nat) (sup : Bool) (slices : List Nat) (pc word : Nat) (f : FInfo)
    (hs : Canonical s) : Canonical (s.lateFault gid sup slices pc word f) := by
  unfold State.lateFault
  grind [State.modGang_canonical, State.report_canonical]

theorem State.engineFault_canonical (s : State) (gid : Nat) (sup : Bool) (pc word : Nat) (f : FInfo) (hs : Canonical s) :
    Canonical (s.engineFault gid sup pc word f) := State.lateFault_canonical _ _ _ _ _ _ _ hs

/-! ### Machine/Check.lean -/

theorem State.awaitHost_canonical (s : State) (need : List (Nat × Nat)) (hs : Canonical s) : Canonical (s.awaitHost need) := hs

theorem guard_answers (i : Instr) (s : State) (f : State → State) (h : Canonical s → Canonical (f s)) :
    Answers (Canonical s) (guard i s f) := by
  rcases guard_cases i s f with ⟨_, e⟩ | ⟨c, f, _, e⟩
  · rw [e]
    refine answers_next fun hs => ?_
    split
    · exact h hs
    · exact State.awaitHost_canonical _ _ hs
  · rw [e]
    exact answers_next (State.fault_canonical _ _)

/-! ### Machine/Flags.lean -/

theorem State.setDZ_canonical (s : State) (hs : Canonical s) : Canonical s.setDZ := hs
theorem State.setDOV_canonical (s : State) (hs : Canonical s) : Canonical s.setDOV := hs

theorem State.divFlags_canonical (s : State) (signed : Bool) (a b : W64) (hs : Canonical s) :
    Canonical (s.divFlags signed a b) := by
  unfold State.divFlags
  grind [State.setDZ_canonical, State.setDOV_canonical]

/-! ### Machine/Scalar.lean -/

theorem scalar2_canonical (s : State) (d a b : SReg) (f : W64 → W64 → W64) (hs : Canonical s) :
    Canonical (scalar2 s d a b f) := hs

theorem scalar1_canonical (s : State) (d a : SReg) (f : W64 → W64) (hs : Canonical s) : Canonical (scalar1 s d a f) := hs
theorem execSadd_answers (d a b : SReg) (s : State) : Answers (Canonical s) (execSadd d a b s) := guard_answers _ _ _ id
theorem execSsub_answers (d a b : SReg) (s : State) : Answers (Canonical s) (execSsub d a b s) := guard_answers _ _ _ id
theorem execSmul_answers (d a b : SReg) (s : State) : Answers (Canonical s) (execSmul d a b s) := guard_answers _ _ _ id
theorem execSmulhI64_answers (d a b : SReg) (s : State) : Answers (Canonical s) (execSmulhI64 d a b s) := guard_answers _ _ _ id
theorem execSmulhN64_answers (d a b : SReg) (s : State) : Answers (Canonical s) (execSmulhN64 d a b s) := guard_answers _ _ _ id

theorem execSdivI64_answers (d a b : SReg) (s : State) :
    Answers (Canonical s) (execSdivI64 d a b s) := guard_answers _ _ _ fun hs => State.divFlags_canonical _ _ _ _ hs

theorem execSdivN64_answers (d a b : SReg) (s : State) :
    Answers (Canonical s) (execSdivN64 d a b s) := guard_answers _ _ _ fun hs => State.divFlags_canonical _ _ _ _ hs

theorem execSremI64_answers (d a b : SReg) (s : State) :
    Answers (Canonical s) (execSremI64 d a b s) := guard_answers _ _ _ fun hs => State.divFlags_canonical _ _ _ _ hs

theorem execSremN64_answers (d a b : SReg) (s : State) :
    Answers (Canonical s) (execSremN64 d a b s) := guard_answers _ _ _ fun hs => State.divFlags_canonical _ _ _ _ hs

theorem execSand_answers (d a b : SReg) (s : State) : Answers (Canonical s) (execSand d a b s) := guard_answers _ _ _ id
theorem execSor_answers (d a b : SReg) (s : State) : Answers (Canonical s) (execSor d a b s) := guard_answers _ _ _ id
theorem execSxor_answers (d a b : SReg) (s : State) : Answers (Canonical s) (execSxor d a b s) := guard_answers _ _ _ id
theorem execSnot_answers (d a : SReg) (s : State) : Answers (Canonical s) (execSnot d a s) := guard_answers _ _ _ id
theorem execSshl_answers (d a b : SReg) (s : State) : Answers (Canonical s) (execSshl d a b s) := guard_answers _ _ _ id
theorem execSshr_answers (d a b : SReg) (s : State) : Answers (Canonical s) (execSshr d a b s) := guard_answers _ _ _ id
theorem execSsra_answers (d a b : SReg) (s : State) : Answers (Canonical s) (execSsra d a b s) := guard_answers _ _ _ id
theorem execSmin_answers (d a b : SReg) (s : State) : Answers (Canonical s) (execSmin d a b s) := guard_answers _ _ _ id
theorem execSmax_answers (d a b : SReg) (s : State) : Answers (Canonical s) (execSmax d a b s) := guard_answers _ _ _ id
theorem execSminn_answers (d a b : SReg) (s : State) : Answers (Canonical s) (execSminn d a b s) := guard_answers _ _ _ id
theorem execSmaxn_answers (d a b : SReg) (s : State) : Answers (Canonical s) (execSmaxn d a b s) := guard_answers _ _ _ id
theorem execSsel_answers (d a b : SReg) (s : State) : Answers (Canonical s) (execSsel d a b s) := guard_answers _ _ _ id
theorem execSmov_answers (d a : SReg) (s : State) : Answers (Canonical s) (execSmov d a s) := guard_answers _ _ _ id
theorem execSclz_answers (d a : SReg) (s : State) : Answers (Canonical s) (execSclz d a s) := guard_answers _ _ _ id
theorem execSpopc_answers (d a : SReg) (s : State) : Answers (Canonical s) (execSpopc d a s) := guard_answers _ _ _ id
theorem execSbfxI64_answers (d a b : SReg) (s : State) : Answers (Canonical s) (execSbfxI64 d a b s) := guard_answers _ _ _ id
theorem execSbfxN64_answers (d a b : SReg) (s : State) : Answers (Canonical s) (execSbfxN64 d a b s) := guard_answers _ _ _ id
theorem execSbfi_answers (d a b : SReg) (s : State) : Answers (Canonical s) (execSbfi d a b s) := guard_answers _ _ _ id

theorem execScmp_answers (c : Cond) (d a b : SReg) (s : State) :
    Answers (Canonical s) (execScmp c d a b s) := guard_answers _ _ _ id

theorem execSli_answers (d : SReg) (i : BitVec 13) (s : State) : Answers (Canonical s) (execSli d i s) := guard_answers _ _ _ id
theorem execSlit_answers (d : SReg) (lit : W32) (s : State) : Answers (Canonical s) (execSlit d lit s) := guard_answers _ _ _ id

theorem execSlitN32_answers (d : SReg) (lit : W32) (s : State) :
    Answers (Canonical s) (execSlitN32 d lit s) := guard_answers _ _ _ id

/-! ### Machine/Affine.lean -/

theorem execAset_answers (d : AReg) (b : SReg) (i : BitVec 7) (s : State) :
    Answers (Canonical s) (execAset d b i s) := guard_answers _ _ _ id

theorem execAadd_answers (d a : AReg) (b : SReg) (i : BitVec 7) (s : State) :
    Answers (Canonical s) (execAadd d a b i s) := guard_answers _ _ _ id

theorem execAstr_answers (d a : AReg) (b : SReg) (s : State) :
    Answers (Canonical s) (execAstr d a b s) := guard_answers _ _ _ id

theorem execAmul_answers (d a : AReg) (b : SReg) (i : BitVec 7) (s : State) :
    Answers (Canonical s) (execAmul d a b i s) := guard_answers _ _ _ id

theorem execAidx_answers (d a : AReg) (i : BitVec 7) (s : State) :
    Answers (Canonical s) (execAidx d a i s) := guard_answers _ _ _ id

theorem execAget_answers (a : AReg) (v : VReg64) (s : State) : Answers (Canonical s) (execAget a v s) := guard_answers _ _ _ id

theorem pred2_canonical (s : State) (d a b : PReg) (f : Bool → Bool → Bool) (hs : Canonical s) :
    Canonical (pred2 s d a b f) := hs

theorem execPand_answers (d a b : PReg) (s : State) : Answers (Canonical s) (execPand d a b s) := guard_answers _ _ _ id
theorem execPor_answers (d a b : PReg) (s : State) : Answers (Canonical s) (execPor d a b s) := guard_answers _ _ _ id
theorem execPxor_answers (d a b : PReg) (s : State) : Answers (Canonical s) (execPxor d a b s) := guard_answers _ _ _ id
theorem execPnot_answers (d a : PReg) (s : State) : Answers (Canonical s) (execPnot d a s) := guard_answers _ _ _ id
theorem execPmov_answers (d a : PReg) (s : State) : Answers (Canonical s) (execPmov d a s) := guard_answers _ _ _ id
theorem execPcnt_answers (a : PReg) (d : SReg) (s : State) : Answers (Canonical s) (execPcnt a d s) := guard_answers _ _ _ id

/-! ### Machine/Operands.lean -/

theorem State.resolve_canonical (s : State) (team : Nat) (sp : MSpace) (addr size acc : Nat) (hs : Canonical s) :
    Canonical (s.resolve team sp addr size acc).1 := by
  unfold State.resolve
  grind [State.translate_canonical]

theorem State.resolveLanes_canonical (s : State) (sp : MSpace) (size acc : Nat) (lanes : List Nat)
    (addr data data2 : Nat → Nat) (hs : Canonical s) : Canonical (s.resolveLanes sp size acc lanes addr data data2).1 := by
  unfold State.resolveLanes
  grind [State.resolve_canonical, foldl_canonical_fst]

theorem State.laneFault_canonical (s : State) (acc : Nat) (bad : List BadLane) (hs : Canonical s) :
    Canonical (s.laneFault acc bad) := by
  unfold State.laneFault
  grind [State.faultWith_canonical]

end Sys2Proof.Machine
end

section
/-! ## The memory invariant: fabric, memory words and windows

The functions that perform stores, atomics and recalls, and those of windows. -/

namespace Sys2Proof.Machine
open Sys2Proof.Claims

/-! ### Machine/Fabric.lean -/

theorem State.setLdev_canonical (s : State) (k : Nat) (d : LogDev) (hs : Canonical s) : Canonical (s.setLdev k d) := hs
theorem State.modLdev_canonical (s : State) (k : Nat) (f : LogDev → LogDev) (hs : Canonical s) : Canonical (s.modLdev k f) := hs
theorem State.setPort_canonical (s : State) (k : Nat) (p : Port) (hs : Canonical s) : Canonical (s.setPort k p) := hs
theorem State.modPort_canonical (s : State) (k : Nat) (f : Port → Port) (hs : Canonical s) : Canonical (s.modPort k f) := hs

theorem State.sendCell_canonical (s : State) (c : Cell) (hs : Canonical s) : Canonical (s.sendCell c) := by
  unfold State.sendCell
  grind [State.modPort_canonical, canonical_iff]

theorem State.sendEntries_canonical (s : State) (gid part plane laddr : Nat) (win : Bool)
    (es : List (ReqEntry × Option RemoteFor)) (hs : Canonical s) : Canonical (s.sendEntries gid part plane laddr win es) := by
  unfold State.sendEntries
  grind [State.sendCell_canonical, canonical_iff]

theorem State.sendLanes_canonical (s : State) (gid eop aop : Nat) (what : Nat → RemoteFor) (n k : Nat) (l : List LaneAcc)
    (hs : Canonical s) : Canonical (s.sendLanes gid eop aop what n k l) := by
  induction k generalizing s l with
  | zero => exact hs
  | succ k ih =>
    unfold State.sendLanes
    grind [State.sendEntries_canonical, canonical_iff]

theorem State.sendLane_canonical (s : State) (gid : Nat) (a : LaneAcc) (eop aop : Nat) (what : RemoteFor) (hs : Canonical s) :
    Canonical (s.sendLane gid a eop aop what) := State.sendLanes_canonical _ _ _ _ _ _ _ _ hs

theorem State.sendControl_canonical (s : State) (c type arg dst : Nat) (body : CellBody) (hs : Canonical s) :
    Canonical (s.sendControl c type arg dst body) := State.sendCell_canonical _ _ hs

theorem State.sendColl_canonical (s : State) (c type arg dst : Nat) (body : CellBody) (hs : Canonical s) :
    Canonical (s.sendColl c type arg dst body) := State.sendCell_canonical _ _ hs

theorem State.reply_canonical (s : State) (c : Cell) (k : FlowClass) (es : List RepEntry) (hs : Canonical s) :
    Canonical (s.reply c k es) := State.sendCell_canonical _ _ hs

theorem State.refuseCell_canonical (s : State) (c : Cell) (hs : Canonical s) : Canonical (s.refuseCell c) := by
  unfold State.refuseCell
  grind [State.reply_canonical]

theorem State.dropBad_canonical (s : State) (port : Nat) (c : Cell) (hs : Canonical s) : Canonical (s.dropBad port c).1 := by
  unfold State.dropBad
  grind [State.modPort_canonical, State.refuseCell_canonical]

theorem State.acceptLoop_canonical (s : State) (c : Cell) (hs : Canonical s) : Canonical (s.acceptLoop c).1 := by
  unfold State.acceptLoop
  grind [State.dropBad_canonical, canonical_iff]

theorem State.acceptSeq_canonical (s : State) (port : Nat) (c : Cell) (hs : Canonical s) :
    Canonical (s.acceptSeq port c).1 := by
  unfold State.acceptSeq
  grind [State.dropBad_canonical, canonical_iff]

theorem State.acceptAhead_canonical (s : State) (c : Cell) (hs : Canonical s) : Canonical (s.acceptAhead c).1 := by
  unfold State.acceptAhead
  grind [State.acceptSeq_canonical, canonical_iff]

theorem State.accept_canonical (s : State) (r : Rx) (hs : Canonical s) : Canonical (s.accept r).1 := by
  unfold State.accept
  grind [State.acceptLoop_canonical, State.acceptAhead_canonical, State.acceptSeq_canonical, State.setPort_canonical, canonical_iff]

/-! ### Machine/Memory.lean -/

theorem State.addOp_canonical (s : State) (kind : OpKind) (lanes : List LaneAcc) (count : Bool) (hs : Canonical s) :
    Canonical (s.addOp kind lanes count) := hs

theorem State.addStores_canonical (s : State) (kind : SqKind) (lanes : List LaneAcc) (count : Bool) (subs : List (List Nat))
    (hs : Canonical s) : Canonical (s.addStores kind lanes count subs) := hs

theorem State.addStore_canonical (s : State) (kind : SqKind) (lanes : List LaneAcc) (count : Bool) (hs : Canonical s) :
    Canonical (s.addStore kind lanes count) := hs

theorem State.specMiss_canonical (s : State) (core c : Nat) (hs : Canonical s) : Canonical (s.specMiss core c) := hs

theorem State.lookingAhead_canonical (s : State) (core c : Nat) (need : List (Nat × Nat)) (hs : Canonical s) :
    Canonical (s.lookingAhead core c need) := hs

theorem State.dropLine_canonical (s : State) (core : Nat) (l : Loc) (hs : Canonical s) : Canonical (s.dropLine core l) := hs
theorem State.invalidateL1_canonical (s : State) (core : Nat) (hs : Canonical s) : Canonical (s.invalidateL1 core) := hs

theorem State.takeLines_canonical (s : State) (core : Nat) (owns : Loc → Bool) (hs : Canonical s) :
    Canonical (s.takeLines core owns) := hs

theorem State.takeCopyLines_canonical (s : State) (core : Nat) (r : CopyRec) (hs : Canonical s) :
    Canonical (s.takeCopyLines core r) := hs

theorem State.fillSector_canonical (s : State) (core : Nat) (l : Loc) (hs : Canonical s) : Canonical (s.fillSector core l) := by
  unfold State.fillSector
  grind [State.modCore_canonical]

theorem State.l1Read_canonical (s : State) (core : Nat) (a : LaneAcc) (hs : Canonical s) : Canonical (s.l1Read core a).1 := by
  unfold State.l1Read
  grind [State.fillSector_canonical, foldl_canonical]

theorem State.holdLine_canonical (s : State) (core : Nat) (l : Loc) (own : Bool) (hs : Canonical s) :
    Canonical (s.holdLine core l own) := by
  unfold State.holdLine
  grind [canonical_iff]

theorem State.dropHostLine_canonical (s : State) (ld ha : Nat) (hs : Canonical s) : Canonical (s.dropHostLine ld ha) := hs

theorem State.settleOnce_canonical (s : State) (gid : Nat) (hs : Canonical s) : Canonical (s.settleOnce gid) := by
  unfold State.settleOnce
  grind [State.modGang_canonical, State.invalidateL1_canonical]

theorem State.settleN_canonical (s : State) (gid n : Nat) (hs : Canonical s) : Canonical (s.settleN gid n) := by
  induction n generalizing s with
  | zero => exact hs
  | succ n ih =>
    unfold State.settleN
    grind [State.settleOnce_canonical, canonical_iff]

theorem State.settle_canonical (s : State) (gid : Nat) (hs : Canonical s) :
    Canonical (s.settle gid) := State.settleN_canonical _ _ _ hs

theorem State.finishLanes_canonical (s : State) (gid : Nat) (o : Op) (lanes : List Nat) (hs : Canonical s) :
    Canonical (s.finishLanes gid o lanes) := by
  unfold State.finishLanes
  grind [State.modGang_canonical, State.invalidateL1_canonical, State.settle_canonical]

theorem State.enterWp_canonical (s : State) (gid : Nat) (e : SqEntry) (hs : Canonical s) : Canonical (s.enterWp gid e) := by
  unfold State.enterWp
  grind [State.modCore_canonical, State.sendLane_canonical, foldl_canonical]

theorem State.ackLane_canonical (s : State) (core : Nat) (e : SqEntry) (lane : Nat) (hs : Canonical s) :
    Canonical (s.ackLane core e lane) := by
  unfold State.ackLane
  grind [State.modGang_canonical, State.settle_canonical, State.modCore_canonical]

/-! ### Machine/MemOps.lean -/

theorem State.sendOp_canonical (s : State) (gid seq : Nat) (hs : Canonical s) : Canonical (s.sendOp gid seq) := by
  unfold State.sendOp
  grind [State.sendLanes_canonical, State.sendLane_canonical, foldl_canonical]

theorem State.issueOp_canonical (s : State) (kind : OpKind) (good : List LaneAcc) (hs : Canonical s) :
    Canonical (s.issueOp kind good) := by
  unfold State.issueOp
  grind [State.sendOp_canonical, State.addOp_canonical]

theorem State.loadFrom_canonical (s : State) (sp : MSpace) (size : LoadSize) (d : VReg) (a : AReg) (v : Option VReg)
    (scope : Scope) (hs : Canonical s) :
    Canonical (s.loadFrom sp size d a v scope) :=
  State.laneFault_canonical _ _ _ (State.issueOp_canonical _ _ _ (State.resolveLanes_canonical _ _ _ _ _ _ _ _ hs))

theorem State.storeTo_canonical (s : State) (sp : MSpace) (size : StoreSize) (d : VReg) (a : AReg) (v : Option VReg)
    (scope : Scope) (hs : Canonical s) : Canonical (s.storeTo sp size d a v scope) := by
  unfold State.storeTo
  grind [State.resolveLanes_canonical, State.addStore_canonical, State.laneFault_canonical]

theorem State.atomOn_canonical (s : State) (sp : MSpace) (size : Nat) (op : AtomOp) (d : VReg) (a : AReg) (v : Option VReg)
    (scope : Scope) (hs : Canonical s) : Canonical (s.atomOn sp size op d a v scope) := by
  unfold State.atomOn
  grind [State.resolveLanes_canonical, State.laneFault_canonical, State.issueOp_canonical]

theorem execLdGlobal_answers (z : LoadSize) (d : VReg) (a : AReg) (v : Option VReg) (c : Scope) (s : State) :
    Answers (Canonical s) (execLdGlobal z d a v c s) := guard_answers _ _ _ fun hs => State.loadFrom_canonical _ _ _ _ _ _ _ hs

theorem execStGlobal_answers (z : StoreSize) (d : VReg) (a : AReg) (v : Option VReg) (c : Scope) (s : State) :
    Answers (Canonical s) (execStGlobal z d a v c s) := guard_answers _ _ _ fun hs => State.storeTo_canonical _ _ _ _ _ _ _ hs

theorem execLdWindow_answers (z : LoadSize) (d : VReg) (a : AReg) (v : Option VReg) (c : Scope) (s : State) :
    Answers (Canonical s) (execLdWindow z d a v c s) := guard_answers _ _ _ fun hs => State.loadFrom_canonical _ _ _ _ _ _ _ hs

theorem execStWindow_answers (z : StoreSize) (d : VReg) (a : AReg) (v : Option VReg) (c : Scope) (s : State) :
    Answers (Canonical s) (execStWindow z d a v c s) := guard_answers _ _ _ fun hs => State.storeTo_canonical _ _ _ _ _ _ _ hs

theorem State.tryPrefetch_canonical (s : State) (team c va : Nat) (hs : Canonical s) :
    Canonical (s.tryPrefetch team c va).1 := by
  unfold State.tryPrefetch
  grind [State.specMiss_canonical, State.asking_canonical, State.askHost_canonical, State.heard_canonical, State.fillSector_canonical,
    State.holdLine_canonical, canonical_iff, foldl_canonical]

theorem State.prefetch_canonical (s : State) (va : Nat) (hs : Canonical s) : Canonical (s.prefetch va) := by
  unfold State.prefetch
  grind [State.tryPrefetch_canonical, State.modCore_canonical]

theorem State.retryPrefetches_canonical (s : State) (core : Nat) (hs : Canonical s) : Canonical (s.retryPrefetches core) := by
  unfold State.retryPrefetches
  grind [State.tryPrefetch_canonical, State.modCore_canonical, foldl_canonical]

theorem execPf_answers (a : AReg) (v : Option VReg) (s : State) : Answers (Canonical s) (execPf a v s) := by
  unfold execPf
  grind [guard_answers, State.prefetch_canonical, foldl_canonical]

theorem execLdLocal_answers (z : LoadSize) (d : VReg) (a : AReg) (v : Option VReg) (p : LocalSpace) (s : State) :
    Answers (Canonical s) (execLdLocal z d a v p s) := by
  unfold execLdLocal
  grind [guard_answers, State.loadFrom_canonical, State.modCur_canonical, State.laneFault_canonical]

theorem execStLocal_answers (z : StoreSize) (d : VReg) (a : AReg) (v : Option VReg) (p : LocalSpace) (s : State) :
    Answers (Canonical s) (execStLocal z d a v p s) := by
  unfold execStLocal
  grind [guard_answers, State.storeTo_canonical, State.modCur_canonical, State.laneFault_canonical]

theorem execAtomGlobal32_answers (o : AtomOp) (d : VReg) (a : AReg) (v : Option VReg) (c : Scope) (s : State) :
    Answers (Canonical s) (execAtomGlobal32 o d a v c s) :=
  guard_answers _ _ _ fun hs => State.atomOn_canonical _ _ _ _ _ _ _ _ hs

theorem execAtomGlobal64_answers (o : AtomOp) (d : VReg) (a : AReg) (v : Option VReg) (c : Scope) (s : State) :
    Answers (Canonical s) (execAtomGlobal64 o d a v c s) :=
  guard_answers _ _ _ fun hs => State.atomOn_canonical _ _ _ _ _ _ _ _ hs

theorem execAtomLocal32_answers (o : AtomOp) (d : VReg) (a : AReg) (v : Option VReg) (c : AtomPlace) (s : State) :
    Answers (Canonical s) (execAtomLocal32 o d a v c s) :=
  guard_answers _ _ _ fun hs => State.atomOn_canonical _ _ _ _ _ _ _ _ hs

theorem execAtomLocal64_answers (o : AtomOp) (d : VReg) (a : AReg) (v : Option VReg) (c : AtomPlace) (s : State) :
    Answers (Canonical s) (execAtomLocal64 o d a v c s) :=
  guard_answers _ _ _ fun hs => State.atomOn_canonical _ _ _ _ _ _ _ _ hs

theorem State.subIssues_canonical (s : State) (good : List (Nat × LaneAcc)) (f : State → List LaneAcc → State)
    (hf : ∀ s l, Canonical s → Canonical (f s l)) (hs : Canonical s) :
    Canonical (s.subIssues good f) := foldl_canonical _ (fun s _ => hf s _) _ _ hs

theorem execRld_answers (w : Bool) (d : VReg) (a : AReg) (p : VReg) (c : Scope) (s : State) :
    Answers (Canonical s) (execRld w d a p c s) := by
  unfold execRld
  grind [guard_answers, State.laneFault_canonical, State.subIssues_canonical, State.issueOp_canonical]

theorem State.isolateFabric_canonical (s : State) (a : AReg) (acc : Nat) (hs : Canonical s) :
    Canonical (s.isolateFabric a acc) := State.fault_canonical _ _ hs

theorem execRst_answers (w : Bool) (d : VReg) (a : AReg) (p : VReg) (c : Scope) (s : State) :
    Answers (Canonical s) (execRst w d a p c s) := by
  unfold execRst
  grind [guard_answers, State.isolateFabric_canonical, State.addStores_canonical, State.laneFault_canonical]

theorem execRatom_answers (o : AtomOp) (d : VReg) (a : AReg) (p : VReg) (c : Scope) (s : State) :
    Answers (Canonical s) (execRatom o d a p c s) := by
  unfold execRatom
  grind [guard_answers, State.isolateFabric_canonical, State.laneFault_canonical, State.subIssues_canonical, State.issueOp_canonical]

theorem State.fenceIssue_canonical (s : State) (order : Nat) (scope : Scope) (hs : Canonical s) :
    Canonical (s.fenceIssue order scope) := by
  unfold State.fenceIssue
  grind [State.modCur_canonical, State.addStore_canonical, State.settle_canonical, State.addOp_canonical]

theorem execFence_answers (o : Fin 4) (c : Scope) (s : State) :
    Answers (Canonical s) (execFence o c s) := guard_answers _ _ _ fun hs => State.fenceIssue_canonical _ _ _ hs

theorem State.forgetOlds_canonical (s : State) (gid d size lane : Nat) (hs : Canonical s) :
    Canonical (s.forgetOlds gid d size lane) := by
  unfold State.forgetOlds
  grind [State.modCtx_canonical]

theorem State.deliver_canonical (s : State) (gid : Nat) (o : Op) (a : LaneAcc) (x : Nat) (hs : Canonical s) :
    Canonical (s.deliver gid o a x) := by
  unfold State.deliver
  grind [State.finishLanes_canonical, State.modGang_canonical, State.forgetOlds_canonical]

theorem State.failLanes_canonical (s : State) (gid : Nat) (o : Op) (lanes : List Nat) (f : FInfo) (again : Bool)
    (hs : Canonical s) : Canonical (s.failLanes gid o lanes f again) := by
  unfold State.failLanes
  grind [State.lateFault_canonical, State.modGang_canonical, State.finishLanes_canonical]

theorem State.loadLane_canonical (s : State) (gid : Nat) (o : Op) (a : LaneAcc) (evict : Bool) (hs : Canonical s) :
    Canonical (s.loadLane gid o a evict) := by
  unfold State.loadLane
  grind [State.holdLine_canonical, State.dropLine_canonical, State.deliver_canonical, State.l1Read_canonical]

theorem State.returnRemote_canonical (s : State) (gid : Nat) (o : Op) (a : LaneAcc) (hs : Canonical s) :
    Canonical (s.returnRemote gid o a) := by
  unfold State.returnRemote
  grind [State.deliver_canonical, State.sendOp_canonical]

theorem State.returnLoad_canonical (s : State) (gid seq lane : Nat) (evict : Bool) (hs : Canonical s) :
    Canonical (s.returnLoad gid seq lane evict) := by
  unfold State.returnLoad
  grind [State.returnRemote_canonical, State.failLanes_canonical, State.loadLane_canonical, State.deliver_canonical]

theorem execLoadReturn_answers (gid seq lane : Nat) (evict : Bool) (s : State) :
    Answers (Canonical s) (execLoadReturn gid seq lane evict s) :=
  answers_next fun hs => State.returnLoad_canonical _ _ _ _ _ hs

theorem State.post_canonical (s t : State) (l : Loc) (what : RemoteFor) (e : s.post l what = some t) (hs : Canonical s) :
    Canonical t := by
  unfold State.post at e
  grind [canonical_iff]

theorem State.post_getD_canonical (s : State) (l : Loc) (what : RemoteFor) (hs : Canonical s) :
    Canonical ((s.post l what).getD s) := by
  cases e : s.post l what with
  | none => exact hs
  | some t => exact State.post_canonical _ _ _ _ e hs

theorem State.performStore_canonical (s : State) (gid seq lane : Nat) (hs : Canonical s) :
    Canonical (s.performStore gid seq lane) := by
  unfold State.performStore
  split
  · exact hs
  · split
    · exact hs
    · next e a _ _ =>
      have hw : Canonical ((s.gangWrite e.actx gid a.addr a.loc a.size a.data).holdLine (gidCore gid) a.loc true) :=
        State.holdLine_canonical _ _ _ _ (State.gangWrite_canonical _ _ _ _ _ _ _ hs)
      dsimp only
      cases p : State.post _ a.loc (.store gid seq lane) with
      | none => exact State.ackLane_canonical _ _ _ _ hw
      | some t => exact State.post_canonical _ _ _ _ p hw

theorem execStoreAck_answers (gid seq lane : Nat) (s : State) :
    Answers (Canonical s) (execStoreAck gid seq lane s) := answers_next fun hs => State.performStore_canonical _ _ _ _ hs

theorem State.performAtomic_canonical (s : State) (gid : Nat) (o : Op) (op : AtomOp) (ls : List LaneAcc) (hs : Canonical s) :
    Canonical (s.performAtomic gid o op ls) := by
  unfold State.performAtomic
  grind [State.gangWrite_canonical, State.deliver_canonical, State.dropLine_canonical, foldl_canonical]

theorem State.hostAtomic_canonical (s : State) (gid : Nat) (o : Op) (op : AtomOp) (a : LaneAcc) (ld ha : Nat)
    (hs : Canonical s) : Canonical (s.hostAtomic gid o op a ld ha) := by
  unfold State.hostAtomic
  grind [State.holdLine_canonical, State.performAtomic_canonical, State.modLdev_canonical, State.failLanes_canonical,
    State.dropHostLine_canonical, canonical_iff]

theorem State.returnAtomic_canonical (s : State) (gid seq lane : Nat) (hs : Canonical s) :
    Canonical (s.returnAtomic gid seq lane) := by
  unfold State.returnAtomic
  grind [State.sendOp_canonical, State.hostAtomic_canonical, State.performAtomic_canonical]

theorem execAtomicReturn_answers (gid seq lane : Nat) (s : State) :
    Answers (Canonical s) (execAtomicReturn gid seq lane s) := answers_next fun hs => State.returnAtomic_canonical _ _ _ _ hs

theorem execRecallComplete_answers (gid seq lane : Nat) (store : Bool) (s : State) :
    Answers (Canonical s) (execRecallComplete gid seq lane store s) := by
  unfold execRecallComplete
  grind [State.performStore_canonical, State.returnAtomic_canonical, State.returnLoad_canonical, Answers]

theorem State.walkAhead_canonical (s : State) (core c va : Nat) (hs : Canonical s) : Canonical (s.walkAhead core c va) := by
  unfold State.walkAhead
  grind [State.cacheEntry_canonical, State.setCow_canonical, State.specMiss_canonical]

theorem execPageWalkComplete_answers (core c va : Nat) (s : State) :
    Answers (Canonical s) (execPageWalkComplete core c va s) := answers_next fun hs => State.walkAhead_canonical _ _ _ _ hs

theorem State.finishAtomicOp_canonical (s : State) (x : AtomicOp) (ok ur : Bool) (status : Nat) (hs : Canonical s) :
    Canonical (s.finishAtomicOp x ok ur status) := by
  unfold State.finishAtomicOp
  grind [State.performAtomic_canonical, State.modLdev_canonical, State.holdLine_canonical, State.failLanes_canonical, canonical_iff]

theorem execAtomicopCompletion_answers (ld ha : Nat) (ur : Bool) (status : Nat) (s : State) :
    Answers (Canonical s) (execAtomicopCompletion ld ha ur status s) := by
  unfold execAtomicopCompletion
  grind [State.finishAtomicOp_canonical, Answers]

theorem execAtomicopTimeout_answers (ld ha : Nat) (s : State) : Answers (Canonical s) (execAtomicopTimeout ld ha s) := by
  unfold execAtomicopTimeout
  grind [State.finishAtomicOp_canonical, Answers]

theorem State.snoop_canonical (s : State) (ld ha n data : Nat) (hs : Canonical s) : Canonical (s.snoop ld ha n data) := by
  unfold State.snoop
  grind [State.writeLoc_canonical, State.dropHostLine_canonical]

theorem execHostSnoop_answers (ld ha n data : Nat) (s : State) :
    Answers (Canonical s) (execHostSnoop ld ha n data s) := answers_next fun hs => State.snoop_canonical _ _ _ _ _ hs

/-! ### Machine/Windows.lean -/

theorem State.modWindow_canonical (s : State) (team : Nat) (f : Window → Window) (hs : Canonical s) :
    Canonical (s.modWindow team f) := hs

theorem State.haltWbars_canonical (s : State) (team : Nat) (hs : Canonical s) : Canonical (s.haltWbars team) := by
  unfold State.haltWbars
  grind [State.modGang_canonical, State.report_canonical, foldl_canonical]

theorem State.applyMember_canonical (s : State) (key rank st : Nat) (hs : Canonical s) :
    Canonical (s.applyMember key rank st) := by
  unfold State.applyMember
  grind [State.modWindow_canonical, State.haltWbars_canonical, foldl_canonical]

theorem State.setMember_canonical (s : State) (team rank st : Nat) (hs : Canonical s) :
    Canonical (s.setMember team rank st) := by
  unfold State.setMember
  grind [State.applyMember_canonical, State.modWindow_canonical, State.sendControl_canonical, foldl_canonical]

theorem State.answerWstate_canonical (s : State) (c part key rank : Nat) (hs : Canonical s) :
    Canonical (s.answerWstate c part key rank) := by
  unfold State.answerWstate
  grind [State.sendControl_canonical, State.modWindow_canonical]

theorem State.payWindow_canonical (s : State) (team : Nat) (hs : Canonical s) : Canonical (s.payWindow team) := by
  unfold State.payWindow
  grind [State.modWindow_canonical, State.sendControl_canonical, foldl_canonical]

theorem State.payWindows_canonical (s : State) (hs : Canonical s) : Canonical s.payWindows := by
  unfold State.payWindows
  grind [State.payWindow_canonical, foldl_canonical]

theorem State.passOwes_canonical (s : State) (team : Nat) (hs : Canonical s) : Canonical (s.passOwes team) := by
  unfold State.passOwes
  grind [State.modWindow_canonical, State.sendControl_canonical, foldl_canonical]

theorem State.heardWstate_canonical (s : State) (part key rank : Nat) (quiet : Bool) (hs : Canonical s) :
    Canonical (s.heardWstate part key rank quiet) := by
  unfold State.heardWstate
  grind [State.modWindow_canonical, foldl_canonical]

theorem State.parkSplit_canonical (s : State) (p : Park) (hs : Canonical s) : Canonical (s.parkSplit p) := hs

theorem execWdetach_answers (s : State) : Answers (Canonical s) (execWdetach s) := by
  unfold execWdetach
  grind [guard_answers, State.parkSplit_canonical, State.setMember_canonical, State.fault_canonical]

theorem execWmember_answers (a : SReg) (s : State) : Answers (Canonical s) (execWmember a s) := by
  unfold execWmember
  grind [guard_answers, State.fault_canonical, State.writeS_canonical]

theorem State.noteArrival_canonical (s : State) (key rank count : Nat) (hs : Canonical s) :
    Canonical (s.noteArrival key rank count) := by
  unfold State.noteArrival
  grind [State.modWindow_canonical, foldl_canonical]

theorem State.arriveWbar_canonical (s : State) (team : Nat) (hs : Canonical s) : Canonical (s.arriveWbar team) := by
  unfold State.arriveWbar
  grind [State.modWindow_canonical, State.noteArrival_canonical, State.sendControl_canonical, foldl_canonical]

theorem execWbar_answers (s : State) : Answers (Canonical s) (execWbar s) := by
  unfold execWbar
  grind [guard_answers, State.fault_canonical, State.parkSplit_canonical, State.addStore_canonical]

theorem execWbarReceive_answers (r : Rx) (s : State) : Answers (Canonical s) (execWbarReceive r s) := by
  unfold execWbarReceive
  grind [State.accept_canonical, State.noteArrival_canonical, Answers]

theorem execWstateReceive_answers (r : Rx) (s : State) : Answers (Canonical s) (execWstateReceive r s) := by
  unfold execWstateReceive
  grind [State.accept_canonical, State.answerWstate_canonical, State.applyMember_canonical, State.heardWstate_canonical, Answers]

theorem State.settleDeficits_canonical (s : State) (core : Nat) (hs : Canonical s) : Canonical (s.settleDeficits core) := hs

theorem State.endIfDone_canonical (s : State) (gid : Nat) (hs : Canonical s) : Canonical (s.endIfDone gid) := by
  unfold State.endIfDone
  grind [State.settleDeficits_canonical, State.modGang_canonical, State.setMember_canonical]

end Sys2Proof.Machine
end

section
/-! ## The memory invariant: launch and control

The functions that launch, dispatch, schedule and end gangs and grids. -/

namespace Sys2Proof.Machine
open Sys2Proof.Claims

/-! ### Machine/Launch.lean -/

theorem State.placeBytes_canonical (s : State) (l : Loc) (m : Nat) (hs : Canonical s) : Canonical (s.placeBytes l m).1 := hs

theorem State.readBlocks_canonical (serve : State → Loc → Nat → State × Memory)
    (hf : ∀ s l m, Canonical s → Canonical (serve s l m).1) (s : State) (core c va n k : Nat) (hs : Canonical s) :
    Canonical (State.readBlocks serve s core c va n k).1 := by
  induction k generalizing s va n with
  | zero => exact hs
  | succ k ih =>
    have place := State.translateIn_canonical s core c va 0 hs
    unfold State.readBlocks
    split
    · exact hs
    · dsimp only
      split
      · next e => rw [e] at place; exact place
      · next t l e =>
        rw [e] at place
        have rest := ih _ (va + min n (64 - va % 64)) (n - min n (64 - va % 64))
          (hf _ l (min n (64 - va % 64)) (State.waitLine_canonical _ l place))
        split
        · next e => rw [e] at rest; exact rest
        · exact rest

theorem State.readVa_canonical (s : State) (core c va n : Nat) (hs : Canonical s) : Canonical (s.readVa core c va n).1 := by
  unfold State.readVa
  grind [State.readBlocks_canonical, State.placeBytes_canonical]

theorem State.storeVa_canonical (s : State) (core c va n v : Nat) (hs : Canonical s) :
    Canonical (s.storeVa core c va n v).1 := by
  unfold State.storeVa
  grind [State.translateIn_canonical, State.waitLine_canonical, State.writeVa_canonical]

theorem State.loadBytes_canonical (gid : Nat) (s : State) (l : Loc) (m : Nat) (hs : Canonical s) :
    Canonical (State.loadBytes gid s l m).1 := State.l1Read_canonical _ _ _ (State.holdLine_canonical _ _ _ _ hs)

theorem State.readLoad_canonical (s : State) (gid c va n : Nat) (hs : Canonical s) : Canonical (s.readLoad gid c va n).1 := by
  unfold State.readLoad
  grind [State.readBlocks_canonical, State.loadBytes_canonical]

theorem State.checkLaunch_canonical (s : State) (core : Nat) (f : LaunchFrom) (m : Memory) (hs : Canonical s) :
    Canonical (s.checkLaunch core f m).1 := by
  unfold State.checkLaunch
  grind [State.readVa_canonical]

theorem State.readLaunch_canonical (s : State) (core : Nat) (f : LaunchFrom) (va : Nat) (hs : Canonical s) :
    Canonical (s.readLaunch core f va).1 := by
  unfold State.readLaunch
  grind [State.readVa_canonical, State.checkLaunch_canonical]

theorem State.freshKey_canonical (s : State) (hs : Canonical s) : Canonical s.freshKey.1 := hs
theorem State.addGrid_canonical (s : State) (g : Grid) (hs : Canonical s) : Canonical (s.addGrid g).1 := hs

/-! ### Machine/Control.lean -/

theorem State.goOn_canonical (s : State) (gid : Nat) (ks : List Nat) (hs : Canonical s) : Canonical (s.goOn gid ks) := hs

theorem State.keepSeen_canonical (s : State) (gid : Nat) (ks : List Nat) (hs : Canonical s) :
    Canonical (s.keepSeen gid ks) := hs

theorem execBr_answers (o : BitVec 19) (s : State) : Answers (Canonical s) (execBr o s) := by
  unfold execBr
  grind [guard_answers, State.checkTarget_canonical, State.fault_canonical, State.modSlices_canonical]

theorem execBrc_answers (p : PReg) (o : BitVec 19) (s : State) : Answers (Canonical s) (execBrc p o s) := by
  unfold execBrc
  grind [guard_answers, State.modSlices_canonical, State.fault_canonical, State.checkTarget_canonical]

theorem execJpt_answers (o : BitVec 19) (s : State) : Answers (Canonical s) (execJpt o s) := by
  unfold execJpt
  grind [guard_answers, State.fault_canonical, State.modSlices_canonical]

theorem State.spillPlace_canonical (s : State) (va acc : Nat) (hs : Canonical s) : Canonical (s.spillPlace va acc).1 := by
  unfold State.spillPlace
  grind [State.translate_canonical]

theorem State.pushCheck_canonical (s : State) (l : List Nat) (hs : Canonical s) : Canonical (s.pushCheck l).1 := by
  induction l generalizing s with
  | nil => exact hs
  | cons x l ih =>
    unfold State.pushCheck
    grind [State.spillPlace_canonical, canonical_iff]

theorem State.pushReturn_canonical (s : State) (k index : Nat) (hs : Canonical s) : Canonical (s.pushReturn k index) := by
  unfold State.pushReturn
  grind [State.modCur_canonical, State.spillPlace_canonical, State.dropLine_canonical, State.gangWrite_canonical]

theorem execCall_answers (o : BitVec 19) (s : State) : Answers (Canonical s) (execCall o s) := by
  unfold execCall
  grind [guard_answers, State.fault_canonical, State.checkTarget_canonical, State.pushCheck_canonical, State.pushReturn_canonical,
    State.modSlices_canonical, foldl_canonical]

theorem State.popOf_canonical (s : State) (k : Nat) (hs : Canonical s) : Canonical (s.popOf k).1 := by
  unfold State.popOf
  grind [State.spillPlace_canonical]

theorem State.popAll_canonical (s : State) (l : List Nat) (hs : Canonical s) : Canonical (s.popAll l).1 := by
  induction l generalizing s with
  | nil => exact hs
  | cons x l ih =>
    unfold State.popAll
    grind [State.popOf_canonical, State.checkTarget_canonical, canonical_iff]

theorem execRet_answers (s : State) : Answers (Canonical s) (execRet s) := by
  unfold execRet
  grind [guard_answers, State.fault_canonical, State.popAll_canonical, State.modCur_canonical, foldl_canonical]

theorem execJoin_answers (s : State) : Answers (Canonical s) (execJoin s) := guard_answers _ _ _ id

theorem execExit_answers (s : State) : Answers (Canonical s) (execExit s) := by
  unfold execExit
  grind [guard_answers, State.fault_canonical, State.endIfDone_canonical, State.modSlices_canonical]

theorem State.jumpLanes_canonical (s : State) (v : Nat) (l : List Nat) (hs : Canonical s) : Canonical (s.jumpLanes v l).1 := by
  induction l generalizing s with
  | nil => exact hs
  | cons x l ih =>
    unfold State.jumpLanes
    grind [State.checkTarget_canonical, canonical_iff]

theorem State.reportJump_canonical (s : State) (bad : List (Nat × FInfo)) (hs : Canonical s) :
    Canonical (s.reportJump bad) := by
  unfold State.reportJump
  grind [State.report_canonical, foldl_canonical]

theorem State.jump_canonical (s : State) (all : List (Nat × Nat × Option FInfo)) (hs : Canonical s) :
    Canonical (s.jump all) := by
  unfold State.jump
  grind [State.fault_canonical, State.reportJump_canonical, State.modSlices_canonical]

theorem execJmp_answers (v : VReg64) (s : State) : Answers (Canonical s) (execJmp v s) := by
  unfold execJmp
  grind [guard_answers, State.jumpLanes_canonical, State.jump_canonical, State.fault_canonical, State.faultWith_canonical]

theorem execRegang_answers (m : BitVec 8) (s : State) : Answers (Canonical s) (execRegang m s) := guard_answers _ _ _ id
theorem State.regangMerge_canonical (s : State) (gid m pc : Nat) (hs : Canonical s) : Canonical (s.regangMerge gid m pc) := hs

theorem execRegangWait_answers (m : BitVec 8) (s : State) : Answers (Canonical s) (execRegangWait m s) := by
  unfold execRegangWait
  grind [guard_answers, State.modCur_canonical, State.regangMerge_canonical]

theorem execElect_answers (p : PReg) (s : State) : Answers (Canonical s) (execElect p s) := guard_answers _ _ _ id
theorem execNop_answers (s : State) : Answers (Canonical s) (execNop s) := guard_answers _ _ _ id

theorem State.leaveActive_canonical (s : State) (gid : Nat) (why : Leave) (hs : Canonical s) :
    Canonical (s.leaveActive gid why) := hs

theorem execYield_answers (s : State) : Answers (Canonical s) (execYield s) := guard_answers _ _ _ id

theorem State.launchChild_canonical (s : State) (va : Nat) (hs : Canonical s) : Canonical (s.launchChild va) := by
  unfold State.launchChild
  grind [State.readLoad_canonical, State.fault_canonical, State.checkLaunch_canonical, State.modCur_canonical, State.addGrid_canonical,
    State.modGrid_canonical]

theorem execLaunch_answers (a : SReg) (s : State) : Answers (Canonical s) (execLaunch a s) := by
  unfold execLaunch
  grind [guard_answers, State.fault_canonical, State.parkSplit_canonical, State.launchChild_canonical]

theorem execLjoin_answers (d : SReg) (s : State) : Answers (Canonical s) (execLjoin d s) := by
  unfold execLjoin
  grind [guard_answers, State.modCur_canonical, State.writeS_canonical, State.parkSplit_canonical]

theorem State.askPower_canonical (s : State) (team cls : Nat) (hs : Canonical s) : Canonical (s.askPower team cls) := by
  unfold State.askPower
  grind [State.modTeam_canonical, canonical_iff]

theorem State.requestPower_canonical (s : State) (cls : Nat) (yield : Bool) (hs : Canonical s) :
    Canonical (s.requestPower cls yield) := by
  unfold State.requestPower
  grind [State.parkSplit_canonical, State.askPower_canonical, State.leaveActive_canonical]

theorem execPwreq_answers (c : PReg) (s : State) :
    Answers (Canonical s) (execPwreq c s) := guard_answers _ _ _ fun hs => State.requestPower_canonical _ _ _ hs

theorem execPwreqYield_answers (c : PReg) (s : State) :
    Answers (Canonical s) (execPwreqYield c s) := guard_answers _ _ _ fun hs => State.requestPower_canonical _ _ _ hs

theorem execPwrel_answers (s : State) : Answers (Canonical s) (execPwrel s) := by
  unfold execPwrel
  grind [guard_answers, State.modTeam_canonical]

theorem execPowerGrant_answers (s : State) : Answers (Canonical s) (execPowerGrant s) := by
  unfold execPowerGrant
  grind [State.modTeam_canonical, canonical_iff, Answers]

theorem execPowerOverLimit_answers (s : State) : Answers (Canonical s) (execPowerOverLimit s) := answers_next id
theorem execPowerThrottleClear_answers (s : State) : Answers (Canonical s) (execPowerThrottleClear s) := answers_next id

theorem execActiveSetIdleEvict_answers (gid : Nat) (s : State) :
    Answers (Canonical s) (execActiveSetIdleEvict gid s) := answers_next id

theorem execActiveQuantumExpire_answers (gid : Nat) (s : State) :
    Answers (Canonical s) (execActiveQuantumExpire gid s) := answers_next id

theorem execGangSwapComplete_answers (gid : Nat) (s : State) :
    Answers (Canonical s) (execGangSwapComplete gid s) := answers_next id

theorem execDeficitRefill_answers (s : State) : Answers (Canonical s) (execDeficitRefill s) := answers_next id

end Sys2Proof.Machine
end

section
/-! ## The memory invariant: copies and synchronization

The functions that move the sectors of a copy, and those of barriers, timelines and queues. -/

namespace Sys2Proof.Machine
open Sys2Proof.Claims

/-! ### Machine/Copies.lean -/

theorem State.setCopy_canonical (s : State) (core idx : Nat) (r : CopyRec) (hs : Canonical s) :
    Canonical (s.setCopy core idx r) := hs

theorem State.twinMayWrite_canonical (s : State) (team acc : Nat) (l : Loc) (hs : Canonical s) :
    Canonical (s.twinMayWrite team acc l).1 := hs

theorem State.sidePlace_canonical (s : State) (core team : Nat) (side : CopySide) (acc addr : Nat) (hs : Canonical s) :
    Canonical (s.sidePlace core team side acc addr).1 := by
  unfold State.sidePlace
  grind [State.translateIn_canonical, State.twinMayWrite_canonical]

theorem State.srcByte_canonical (s : State) (core : Nat) (r : CopyRec) (p : Nat) (hs : Canonical s) :
    Canonical (s.srcByte core r p).1 := by
  unfold State.srcByte
  grind [State.sidePlace_canonical]

theorem State.srcBytes_canonical (s : State) (core : Nat) (r : CopyRec) (l : List (Nat × Nat)) (hs : Canonical s) :
    Canonical (s.srcBytes core r l).1 := by
  induction l generalizing s with
  | nil => exact hs
  | cons x l ih =>
    unfold State.srcBytes
    grind [State.srcByte_canonical, canonical_iff]

theorem State.modPhb_canonical (s : State) (team off : Nat) (f : Nat → Nat) (hs : Canonical s) :
    Canonical (s.modPhb team off f) := hs

theorem State.modBar_canonical (s : State) (r : CopyRec) (f : Nat → Nat) (hs : Canonical s) : Canonical (s.modBar r f) := by
  unfold State.modBar
  grind [State.modPhb_canonical]

theorem State.setFlt_canonical (s : State) (r : CopyRec) (on : Bool) (hs : Canonical s) : Canonical (s.setFlt r on) := by
  unfold State.setFlt
  grind [State.modBar_canonical, State.sidePlace_canonical, State.sendLane_canonical]

theorem State.writeBytes_canonical (s : State) (core : Nat) (r : CopyRec) (l : List (Nat × Nat)) (hs : Canonical s) :
    Canonical (s.writeBytes core r l).1 := by
  induction l generalizing s with
  | nil => exact hs
  | cons x l ih =>
    unfold State.writeBytes
    grind [State.sidePlace_canonical, State.writeVa_canonical, canonical_iff]

theorem State.sectorSource_canonical (s : State) (core : Nat) (r : CopyRec) (sector : Nat) (hs : Canonical s) :
    Canonical (s.sectorSource core r sector).1 := by
  unfold State.sectorSource
  grind [State.srcBytes_canonical]

theorem State.readPiece_canonical (s : State) (core : Nat) (r : CopyRec) (hs : Canonical s) :
    Canonical (s.readPiece core r).1 := by
  unfold State.readPiece
  grind [State.srcBytes_canonical]

theorem State.sectorFault_canonical (s : State) (core : Nat) (r : CopyRec) (sector : Nat) (hs : Canonical s) :
    Canonical (s.sectorFault core r sector).1 := by
  unfold State.sectorFault
  grind [State.sectorSource_canonical, State.sidePlace_canonical, foldl_canonical_fst]

theorem State.askLine_canonical (s : State) (core : Nat) (r : CopyRec) (id : Nat) (ps : List (Nat × Nat)) (hs : Canonical s) :
    Canonical (s.askLine core r id ps) := by
  unfold State.askLine
  grind [State.sidePlace_canonical, State.sendCell_canonical, canonical_iff]

theorem State.wakeCopy_canonical (s : State) (gid id : Nat) (hs : Canonical s) : Canonical (s.wakeCopy gid id) := hs

theorem State.stopCopy_canonical (s : State) (core idx : Nat) (side : Bool) (code : FCode) (faddr detail : Nat)
    (hs : Canonical s) : Canonical (s.stopCopy core idx side code faddr detail) := by
  unfold State.stopCopy
  grind [State.setCopy_canonical, State.report_canonical, State.setFlt_canonical, State.modGang_canonical, State.wakeCopy_canonical,
    canonical_iff]

theorem State.settleStop_canonical (s : State) (core idx : Nat) (hs : Canonical s) : Canonical (s.settleStop core idx) := by
  unfold State.settleStop
  grind [State.stopCopy_canonical]

theorem State.copyAcked_canonical (s : State) (core id : Nat) (sectors : List Nat) (n : Nat) (hs : Canonical s) :
    Canonical (s.copyAcked core id sectors n) := by
  unfold State.copyAcked
  grind [State.settleStop_canonical, State.setCopy_canonical]

theorem State.holdBytes_canonical (s : State) (core : Nat) (r : CopyRec) (ps : List Nat) (hs : Canonical s) :
    Canonical (s.holdBytes core r ps) := by
  unfold State.holdBytes
  grind [State.holdLine_canonical, foldl_canonical]

theorem State.lookAhead_canonical (s : State) (core : Nat) (r : CopyRec) (sector : Nat) (hs : Canonical s) :
    Canonical (s.lookAhead core r sector) := by
  unfold State.lookAhead
  grind [State.specMiss_canonical, State.lookingAhead_canonical]

theorem State.lineSectors_canonical (s : State) (core : Nat) (r : CopyRec) (l : List Nat) (hs : Canonical s) :
    Canonical (s.lineSectors core r l).1 := by
  induction l generalizing s with
  | nil => exact hs
  | cons x l ih =>
    unfold State.lineSectors
    grind [State.sectorSource_canonical, canonical_iff]

theorem State.sendLine_canonical (s : State) (core idx : Nat) (r : CopyRec) (part rc rt off : Nat) (hs : Canonical s) :
    Canonical (s.sendLine core idx r part rc rt off) := by
  unfold State.sendLine
  grind [State.lineSectors_canonical, State.askLine_canonical, State.setCopy_canonical, State.sendCell_canonical, canonical_iff]

theorem State.copySector_canonical (s : State) (core idx sector : Nat) (hs : Canonical s) :
    Canonical (s.copySector core idx sector) := by
  unfold State.copySector
  dsimp only
  split
  · exact hs
  split
  · exact State.lookAhead_canonical _ _ _ _ hs
  split
  · exact hs
  have piece := State.readPiece_canonical s core (s.copyRec core idx) hs
  split
  · next e => rw [e] at piece; exact State.askLine_canonical _ _ _ _ _ piece
  · next e => rw [e] at piece; exact piece
  next t r e =>
  rw [e] at piece
  have source := State.sectorSource_canonical t core r sector piece
  split
  · next e => rw [e] at source; exact State.askLine_canonical _ _ _ _ _ source
  · next e => rw [e] at source; exact source
  next u vs e =>
  rw [e] at source
  have side := State.sidePlace_canonical u core (gidTeam r.gid) r.dst 1 (vs.headD (0, 0)).1 source
  split
  · next e => rw [e] at side; exact side
  · next e => rw [e] at side; exact State.sendLine_canonical _ _ _ _ _ _ _ _ side
  next v l _ e =>
  rw [e] at side
  have bytes := State.writeBytes_canonical v core r vs side
  split
  · exact side
  next w e =>
  rw [e] at bytes
  have held := State.holdLine_canonical _ core l true
    (State.holdBytes_canonical w core r (((s.copyRec core idx).sectorBytes sector).map (·.1)) bytes)
  split
  · next e => exact State.setCopy_canonical _ _ _ _ (State.post_canonical _ _ _ _ e held)
  · exact State.modBar_canonical _ _ _ (State.copyAcked_canonical _ _ _ _ _ (State.setCopy_canonical _ _ _ _ held))

theorem State.enterMeta_canonical (s : State) (core idx : Nat) (hs : Canonical s) : Canonical (s.enterMeta core idx) := by
  unfold State.enterMeta
  grind [State.srcBytes_canonical, State.holdBytes_canonical, State.modCore_canonical, State.setCopy_canonical]

theorem execCopySectorWrite_answers (core idx sector : Nat) (s : State) :
    Answers (Canonical s) (execCopySectorWrite core idx sector s) := by
  unfold execCopySectorWrite
  grind [State.attempting_canonical, State.enterMeta_canonical, State.copySector_canonical, Answers]

theorem State.freeCopyRec_canonical (s : State) (core idx : Nat) (lower : Bool) (hs : Canonical s) :
    Canonical (s.freeCopyRec core idx lower) := by
  unfold State.freeCopyRec
  grind [State.setCopy_canonical, State.modGang_canonical, State.wakeCopy_canonical, canonical_iff]

theorem execCopyComplete_answers (core idx : Nat) (s : State) : Answers (Canonical s) (execCopyComplete core idx s) := by
  unfold execCopyComplete
  grind [State.freeCopyRec_canonical, Answers]

theorem State.copyFault_canonical (s : State) (core idx sector : Nat) (ecc : Bool) (hs : Canonical s) :
    Canonical (s.copyFault core idx sector ecc) := by
  unfold State.copyFault
  dsimp only
  refine ite_canonical hs (ite_canonical ?_ (ite_canonical ?_ ?_))
  · grind [State.stopCopy_canonical]
  · split
    · next e => exact State.stopCopy_canonical _ _ _ _ _ _ _ (canonical_of_eq e (State.srcBytes_canonical _ _ _ _ hs))
    · next e => exact canonical_of_eq e (State.srcBytes_canonical _ _ _ _ hs)
  · split
    · next e => exact State.stopCopy_canonical _ _ _ _ _ _ _ (canonical_of_eq e (State.sectorFault_canonical _ _ _ _ hs))
    · next e => exact canonical_of_eq e (State.sectorFault_canonical _ _ _ _ hs)

theorem execCopyFault_answers (core idx sector : Nat) (ecc : Bool) (s : State) :
    Answers (Canonical s) (execCopyFault core idx sector ecc s) := by
  unfold execCopyFault
  grind [State.accessing_canonical, State.copyFault_canonical, Answers]

theorem State.nvmeDone_canonical (s : State) (core id pos status block data : Nat) (hs : Canonical s) :
    Canonical (s.nvmeDone core id pos status block data) := by
  unfold State.nvmeDone
  grind [State.stopCopy_canonical, State.setCopy_canonical, canonical_iff]

theorem execNvmeCompletion_answers (core id pos status block data : Nat) (s : State) :
    Answers (Canonical s) (execNvmeCompletion core id pos status block data s) :=
  answers_next fun hs => State.nvmeDone_canonical _ _ _ _ _ _ _ hs

theorem State.startCopy_canonical (s : State) (src dst : CopySide) (len bar : Nat) (park : Bool) (hs : Canonical s) :
    Canonical (s.startCopy src dst len bar park) := by
  unfold State.startCopy
  grind [State.takeCopyLines_canonical, State.setCopy_canonical, State.modCur_canonical, State.leaveActive_canonical,
    State.parkSplit_canonical, canonical_iff]

theorem State.copy_canonical (s : State) (ssp : CopySpace) (a b c : SReg) (dsp : CopySpace) (park : Bool) (hs : Canonical s) :
    Canonical (s.copy ssp a b c dsp park) := by
  unfold State.copy
  grind [State.fault_canonical, State.startCopy_canonical]

theorem execCpy_answers (x : CopySpace) (a b c : SReg) (y : CopySpace) (s : State) :
    Answers (Canonical s) (execCpy x a b c y s) := by
  unfold execCpy
  grind [guard_answers, State.copy_canonical]

theorem execCpyc_answers (x : CopySpace) (a b c : SReg) (y : CopySpace) (s : State) :
    Answers (Canonical s) (execCpyc x a b c y s) := by
  unfold execCpyc
  grind [guard_answers, State.checkTarget_canonical, State.fault_canonical, State.copy_canonical]

theorem execCpyq_answers (a b : SReg) (s : State) : Answers (Canonical s) (execCpyq a b s) := by
  unfold execCpyq
  grind [guard_answers, State.fault_canonical, State.startCopy_canonical]

theorem execCpys_answers (y : CopySpace) (a b c : SReg) (s : State) : Answers (Canonical s) (execCpys y a b c s) := by
  unfold execCpys
  grind [guard_answers, State.fault_canonical, State.startCopy_canonical, canonical_iff]

theorem execCpyst_answers (a b : SReg) (s : State) : Answers (Canonical s) (execCpyst a b s) := by
  unfold execCpyst
  grind [guard_answers, State.fault_canonical, State.addStore_canonical]

theorem State.readAgain_canonical (s : State) (core k : Nat) (hs : Canonical s) : Canonical (s.readAgain core k) := by
  unfold State.readAgain
  grind [canonical_iff]

theorem execCpyres_answers (a : SReg) (s : State) : Answers (Canonical s) (execCpyres a s) := by
  unfold execCpyres
  grind [guard_answers, State.fault_canonical, State.takeCopyLines_canonical, State.readAgain_canonical, State.setFlt_canonical,
    State.setCopy_canonical, State.modCur_canonical]

theorem State.countPosted_canonical (s : State) (core k : Nat) (hs : Canonical s) : Canonical (s.countPosted core k) := by
  unfold State.countPosted
  grind [State.modBar_canonical, canonical_iff]

theorem execCpycan_answers (a : SReg) (s : State) : Answers (Canonical s) (execCpycan a s) := by
  unfold execCpycan
  grind [guard_answers, State.fault_canonical, State.freeCopyRec_canonical, State.countPosted_canonical]

/-! ### Machine/Sync.lean -/

theorem State.setQueue_canonical (s : State) (q : Nat) (x : Queue) (hs : Canonical s) : Canonical (s.setQueue q x) := hs
theorem State.modQueue_canonical (s : State) (q : Nat) (f : Queue → Queue) (hs : Canonical s) : Canonical (s.modQueue q f) := hs

theorem State.completePacket_canonical (s : State) (q index status : Nat) (k : Option Nat) (hs : Canonical s) :
    Canonical (s.completePacket q index status k) := by
  unfold State.completePacket
  grind [State.setQueue_canonical]

theorem State.raised_canonical (s : State) (k : Nat) (who : Raiser) (hs : Canonical s) : Canonical (s.raised k who) := by
  unfold State.raised
  grind [State.settle_canonical, State.modGang_canonical, State.completePacket_canonical]

theorem State.applyRaise_canonical (s : State) (k : Nat) (v : W64) (who : Raiser) (hs : Canonical s) :
    Canonical (s.applyRaise k v who) := by
  unfold State.applyRaise
  grind [State.raised_canonical, canonical_iff]

theorem State.trigger_canonical (s : State) (k : Nat) (v : W64) (hs : Canonical s) : Canonical (s.trigger k v) := by
  unfold State.trigger
  grind [State.modCtx_canonical, foldl_canonical]

theorem State.raise_canonical (s : State) (k : Nat) (v : W64) (who : Raiser) (hs : Canonical s) :
    Canonical (s.raise k v who) := by
  unfold State.raise
  grind [State.trigger_canonical, State.applyRaise_canonical, canonical_iff]

theorem State.raiseWrite_canonical (s : State) (k : Nat) (hs : Canonical s) : Canonical (s.raiseWrite k) := by
  unfold State.raiseWrite
  grind [State.trigger_canonical, State.applyRaise_canonical, canonical_iff]

theorem execTimelineRaiseWrite_answers (k : Nat) (s : State) :
    Answers (Canonical s) (execTimelineRaiseWrite k s) := answers_next fun hs => State.raiseWrite_canonical _ _ hs

theorem State.drainHead_canonical (s : State) (gid : Nat) (hs : Canonical s) : Canonical (s.drainHead gid) := by
  unfold State.drainHead
  grind [State.modGang_canonical, State.enterWp_canonical, State.modQueue_canonical, State.raise_canonical, State.settle_canonical]

theorem State.drainN_canonical (s : State) (gid n : Nat) (hs : Canonical s) : Canonical (s.drainN gid n) := by
  induction n generalizing s with
  | zero => exact hs
  | succ n ih =>
    unfold State.drainN
    grind [State.drainHead_canonical, canonical_iff]

theorem State.drainAll_canonical (s : State) (gid : Nat) (hs : Canonical s) :
    Canonical (s.drainAll gid) := State.drainN_canonical _ _ _ hs

theorem execWaitcnt_answers (l st c t : Fin 32) (y : Bool) (s : State) : Answers (Canonical s) (execWaitcnt l st c t y s) := by
  unfold execWaitcnt
  grind [guard_answers, State.leaveActive_canonical, State.parkSplit_canonical]

theorem State.setBar_canonical (s : State) (team id : Nat) (b : Bar) (hs : Canonical s) : Canonical (s.setBar team id b) := hs
theorem State.leaveBar_canonical (s : State) (id gid : Nat) (hs : Canonical s) : Canonical (s.leaveBar id gid) := hs

theorem State.completeBar_canonical (s : State) (team id : Nat) (hs : Canonical s) : Canonical (s.completeBar team id) := by
  unfold State.completeBar
  grind [State.leaveBar_canonical, State.setBar_canonical, foldl_canonical]

theorem State.arriveBar_canonical (s : State) (gid id n : Nat) (hs : Canonical s) : Canonical (s.arriveBar gid id n) := by
  unfold State.arriveBar
  grind [State.completeBar_canonical, State.setBar_canonical]

theorem execBar_answers (a : SReg) (i : Fin 16) (s : State) : Answers (Canonical s) (execBar a i s) := by
  unfold execBar
  grind [guard_answers, State.fault_canonical, State.arriveBar_canonical, State.parkSplit_canonical, State.drainAll_canonical]

theorem State.flushWord_canonical (s : State) (core team off : Nat) (hs : Canonical s) :
    Canonical (s.flushWord core team off) := by
  unfold State.flushWord
  grind [State.performStore_canonical, foldl_canonical]

theorem State.phbReady_canonical (s : State) (off : Nat) (hs : Canonical s) :
    Canonical (s.phbReady off) := State.flushWord_canonical _ _ _ _ (State.drainAll_canonical _ _ hs)

theorem State.phbAct_canonical (s : State) (a : AReg) (acc : Nat) (all : Bool) (f : State → Nat → State)
    (hf : ∀ s off, Canonical s → Canonical (f s off)) (hs : Canonical s) : Canonical (s.phbAct a acc all f) := by
  unfold State.phbAct
  grind [State.fault_canonical, State.phbReady_canonical, State.modSlices_canonical]

theorem execPhbinit_answers (a : AReg) (n : Fin 128) (s : State) : Answers (Canonical s) (execPhbinit a n s) := by
  unfold execPhbinit
  grind [guard_answers, State.phbAct_canonical, State.modPhb_canonical]

theorem execPhbarr_answers (a : AReg) (s : State) : Answers (Canonical s) (execPhbarr a s) := by
  unfold execPhbarr
  grind [guard_answers, State.phbAct_canonical, State.modPhb_canonical]

theorem execPhbexp_answers (b : SReg) (a : AReg) (s : State) : Answers (Canonical s) (execPhbexp b a s) := by
  unfold execPhbexp
  grind [guard_answers, State.fault_canonical, State.phbAct_canonical, State.modPhb_canonical]

theorem execPhbtest_answers (a : AReg) (d : PReg) (h : Bool) (s : State) : Answers (Canonical s) (execPhbtest a d h s) := by
  unfold execPhbtest
  grind [guard_answers, State.phbAct_canonical, State.writeP_canonical]

theorem execPhbwait_answers (a : AReg) (h : Bool) (s : State) : Answers (Canonical s) (execPhbwait a h s) := by
  unfold execPhbwait
  grind [guard_answers, State.phbAct_canonical, State.parkSplit_canonical]

theorem execTlsig_answers (a b : SReg) (s : State) : Answers (Canonical s) (execTlsig a b s) := by
  unfold execTlsig
  grind [guard_answers, State.fault_canonical, State.addStore_canonical]

theorem execTlwait_answers (a b : SReg) (s : State) : Answers (Canonical s) (execTlwait a b s) := by
  unfold execTlwait
  grind [guard_answers, State.fault_canonical, State.invalidateL1_canonical, State.modSlices_canonical]

theorem execTlread_answers (d a : SReg) (s : State) : Answers (Canonical s) (execTlread d a s) := by
  unfold execTlread
  grind [guard_answers, State.fault_canonical, State.addOp_canonical]

theorem execQpost_answers (a b : SReg) (s : State) : Answers (Canonical s) (execQpost a b s) := by
  unfold execQpost
  grind [guard_answers, State.fault_canonical, State.modQueue_canonical, State.translateIn_canonical, State.addOp_canonical,
    State.addStore_canonical]

theorem execQtail_answers (a b : SReg) (s : State) : Answers (Canonical s) (execQtail a b s) := by
  unfold execQtail
  grind [guard_answers, State.fault_canonical, State.addStore_canonical]

end Sys2Proof.Machine
end

section
/-! ## The memory invariant: engines and vector words

The tile, stream and search engines write their results through the memory; the vector words touch registers only. -/

namespace Sys2Proof.Machine
open Sys2Proof.Claims

/-! ### Machine/Matrix.lean -/

theorem State.startTile_canonical (s : State) (k : TileKind) (hs : Canonical s) : Canonical (s.startTile k) := hs

theorem State.tmmIssue_canonical (s : State) (sparse : Bool) (x : FSlot) (a b c : SReg) (hs : Canonical s) :
    Canonical (s.tmmIssue sparse x a b c) := by
  unfold State.tmmIssue
  dsimp only
  split
  · exact State.fault_canonical _ _ hs
  · split
    · exact State.fault_canonical _ _ hs
    · split
      · exact State.fault_canonical _ _ hs
      · exact State.startTile_canonical _ _ hs

theorem execTmm_answers (x : FSlot) (a b c : SReg) (s : State) : Answers (Canonical s) (execTmm x a b c s) := by
  unfold execTmm
  grind [guard_answers, State.tmmIssue_canonical]

theorem execTmms_answers (x : FSlot) (a b c : SReg) (s : State) : Answers (Canonical s) (execTmms x a b c s) := by
  unfold execTmms
  grind [guard_answers, State.tmmIssue_canonical]

theorem execTzero_answers (a : SReg) (s : State) : Answers (Canonical s) (execTzero a s) := by
  unfold execTzero
  grind [guard_answers, State.fault_canonical, State.startTile_canonical]

theorem execTepi_answers (x : FSlot) (a b c : SReg) (s : State) : Answers (Canonical s) (execTepi x a b c s) := by
  unfold execTepi
  grind [guard_answers, State.fault_canonical, State.startTile_canonical]

theorem execTtrn_answers (a b : SReg) (s : State) : Answers (Canonical s) (execTtrn a b s) := by
  unfold execTtrn
  grind [guard_answers, State.fault_canonical, State.startTile_canonical]

theorem State.setTiles_canonical (s : State) (team : Nat) (l : List TileOp) (hs : Canonical s) :
    Canonical (s.setTiles team l) := hs

theorem State.popMeta_canonical (s : State) (team need : Nat) (op : TileOp) (hs : Canonical s) :
    Canonical (s.popMeta team need op).1 := hs

theorem State.granule_canonical (s : State) (team : Nat) (hs : Canonical s) : Canonical (s.granule team) := by
  unfold State.granule
  grind [State.popMeta_canonical, State.modCore_canonical, State.setTiles_canonical, State.modTeam_canonical]

theorem State.granules_canonical (s : State) (team n : Nat) (hs : Canonical s) : Canonical (s.granules team n) := by
  induction n generalizing s with
  | zero => exact hs
  | succ n ih =>
    unfold State.granules
    grind [State.granule_canonical, canonical_iff]

theorem State.scaleAt_canonical (s : State) (team : Nat) (x : ScaleSrc) (i : Nat) (hs : Canonical s) :
    Canonical (s.scaleAt team x i).1 := by
  unfold State.scaleAt
  grind [State.translate_canonical, State.holdLine_canonical, State.waitLine_canonical]

theorem State.scalesFrom_canonical (s : State) (team : Nat) (x : ScaleSrc) (i0 n : Nat) (hs : Canonical s) :
    Canonical (s.scalesFrom team x i0 n).1 := by
  induction n generalizing s with
  | zero => exact hs
  | succ n ih =>
    unfold State.scalesFrom
    grind [State.scaleAt_canonical, canonical_iff]

theorem State.tileDone_canonical (s : State) (team : Nat) (op : TileOp) (hs : Canonical s) :
    Canonical (s.tileDone team op) := hs

theorem State.tileComplete_canonical (s : State) (team : Nat) (hs : Canonical s) : Canonical (s.tileComplete team) := by
  unfold State.tileComplete
  split
  · exact hs
  · next op _ _ =>
    split
    · exact hs
    · split
      · have hg := fun n => State.granules_canonical s team n hs
        grind [State.tileDone_canonical]
      · exact State.tileDone_canonical _ _ _ (State.modTeam_canonical _ _ _ hs)
      · exact State.tileDone_canonical _ _ _ (State.modTeam_canonical _ _ _ hs)
      · next c _ _ sA sB row0 col0 _ _ _ =>
        split
        · exact hs
        · have ha := State.scalesFrom_canonical s team sA row0 c.m hs
          split
          · next e => rw [e] at ha; exact ha
          · next t _ e =>
            rw [e] at ha
            have hb := State.scalesFrom_canonical t team sB col0 c.n ha
            split
            · next e => rw [e] at hb; exact hb
            · next e => rw [e] at hb; exact State.tileDone_canonical _ _ _ (State.modTeam_canonical _ _ _ hb)

theorem execTileOpComplete_answers (team : Nat) (s : State) : Answers (Canonical s) (execTileOpComplete team s) := by
  unfold execTileOpComplete
  grind [State.attempting_canonical, State.tileComplete_canonical, Answers]

theorem State.tileFault_canonical (s : State) (team : Nat) (ecc : Bool) (hs : Canonical s) :
    Canonical (s.tileFault team ecc) := by
  have stop (t : State) (op : TileOp) (f : FInfo) (ht : Canonical t) :
      Canonical ((t.tileDone team op).engineFault op.gid op.sup op.pc op.word f) :=
    State.engineFault_canonical _ _ _ _ _ _ (State.tileDone_canonical _ _ _ ht)
  unfold State.tileFault
  split
  · exact hs
  · next op _ _ =>
    split_ifs
    · exact hs
    · exact stop _ _ _ hs
    · split
      · next c _ _ sA sB row0 col0 _ _ _ =>
        have ha := State.scalesFrom_canonical s team sA row0 c.m hs
        dsimp only
        split
        · next e => rw [e] at ha; exact stop _ _ _ ha
        · next t _ e =>
          rw [e] at ha
          have hb := State.scalesFrom_canonical t team sB col0 c.n ha
          split
          · next e => rw [e] at hb; exact stop _ _ _ hb
          · next e => rw [e] at hb; exact hb
      · exact hs

theorem execTileOpFault_answers (team : Nat) (ecc : Bool) (s : State) : Answers (Canonical s) (execTileOpFault team ecc s) := by
  unfold execTileOpFault
  grind [State.attempting_canonical, State.tileFault_canonical, Answers]

/-! ### Machine/Stream.lean -/

theorem State.setRow_canonical (s : State) (team k : Nat) (r : Row) (hs : Canonical s) : Canonical (s.setRow team k r) := hs
theorem State.dropRow_canonical (s : State) (team k : Nat) (hs : Canonical s) : Canonical (s.dropRow team k) := hs

theorem State.setStream_canonical (s : State) (team : Nat) (o : StreamOp) (hs : Canonical s) :
    Canonical (s.setStream team o) := hs

theorem State.startLoads_canonical (s : State) (team : Nat) (hs : Canonical s) : Canonical (s.startLoads team) := by
  unfold State.startLoads
  grind [State.dropRow_canonical, foldl_canonical]

theorem State.endStream_canonical (s : State) (team : Nat) (o : StreamOp) (hs : Canonical s) :
    Canonical (s.endStream team o) := by
  unfold State.endStream
  grind [State.heard_canonical, State.modTeam_canonical, State.modGang_canonical, State.startLoads_canonical]

theorem State.startStream_canonical (s : State) (row : Nat) (k : StreamKind) (bytes : Nat) (hs : Canonical s) :
    Canonical (s.startStream row k bytes) := State.startLoads_canonical _ _ hs

theorem execRsinit_answers (a b c : SReg) (s : State) : Answers (Canonical s) (execRsinit a b c s) := by
  unfold execRsinit
  grind [guard_answers, State.fault_canonical, State.startStream_canonical]

theorem State.rsadd_canonical (s : State) (x : W64) (type : DeltaType) (optionBad : Bool) (fits : Nat → Bool)
    (later : List (Bool × FInfo)) (src : DeltaSrc) (hs : Canonical s) :
    Canonical (s.rsadd x type optionBad fits later src) := by
  unfold State.rsadd
  grind [State.fault_canonical, State.startStream_canonical]

theorem execRsaddVector_answers (x : DeltaType) (a b : SReg) (v : VReg64) (s : State) :
    Answers (Canonical s) (execRsaddVector x a b v s) := by
  unfold execRsaddVector
  grind [guard_answers, State.rsadd_canonical]

theorem execRsaddAb_answers (x : DeltaType) (a b c : SReg) (s : State) : Answers (Canonical s) (execRsaddAb x a b c s) := by
  unfold execRsaddAb
  grind [guard_answers, State.rsadd_canonical]

theorem State.rsnorm_canonical (s : State) (f : FSlot) (a b c : SReg) (reel : Bool) (hs : Canonical s) :
    Canonical (s.rsnorm f a b c reel) := by
  unfold State.rsnorm
  grind [State.fault_canonical, State.modTeam_canonical, State.startStream_canonical]

theorem execRsnorm_answers (x : FSlot) (a b c : SReg) (s : State) : Answers (Canonical s) (execRsnorm x a b c s) := by
  unfold execRsnorm
  grind [guard_answers, State.rsnorm_canonical]

theorem execRsnormReel_answers (x : FSlot) (a b c : SReg) (s : State) : Answers (Canonical s) (execRsnormReel x a b c s) := by
  unfold execRsnormReel
  grind [guard_answers, State.rsnorm_canonical]

theorem execRsq_answers (a b : SReg) (s : State) : Answers (Canonical s) (execRsq a b s) := by
  unfold execRsq
  grind [guard_answers, State.fault_canonical, State.startStream_canonical]

theorem execRssave_answers (f : Bool) (a b : SReg) (s : State) : Answers (Canonical s) (execRssave f a b s) := by
  unfold execRssave
  grind [guard_answers, State.fault_canonical, State.startStream_canonical, State.takeLines_canonical]

theorem execRsload_answers (f : Bool) (a b c : SReg) (s : State) : Answers (Canonical s) (execRsload f a b c s) := by
  unfold execRsload
  grind [guard_answers, State.fault_canonical, State.startStream_canonical]

theorem State.rsfence_canonical (s : State) (scope : Nat) (hs : Canonical s) : Canonical (s.rsfence scope) := by
  unfold State.rsfence
  grind [State.parkSplit_canonical]

theorem execRsfenceTeam_answers (s : State) :
    Answers (Canonical s) (execRsfenceTeam s) := guard_answers _ _ _ fun hs => State.rsfence_canonical _ _ hs

theorem execRsfenceSet_answers (s : State) :
    Answers (Canonical s) (execRsfenceSet s) := guard_answers _ _ _ fun hs => State.rsfence_canonical _ _ hs

theorem execRsfenceReel_answers (s : State) :
    Answers (Canonical s) (execRsfenceReel s) := guard_answers _ _ _ fun hs => State.rsfence_canonical _ _ hs

theorem State.ackPairs_canonical (s : State) (team seq status : Nat) (hs : Canonical s) :
    Canonical (s.ackPairs team seq status) := by
  unfold State.ackPairs
  grind [State.endStream_canonical, State.engineFault_canonical]

theorem State.answerPairs_canonical (s : State) (c part core tslot seq status : Nat) (hs : Canonical s) :
    Canonical (s.answerPairs c part core tslot seq status) := by
  unfold State.answerPairs
  grind [State.ackPairs_canonical, State.sendColl_canonical]

theorem State.takePairs_canonical (s : State) (team row : Nat) (e : Int) (hi : Nat) (ps : List StreamPair)
    (part core tslot seq : Nat) (hs : Canonical s) : Canonical (s.takePairs team row e hi ps part core tslot seq) := by
  unfold State.takePairs
  grind [State.answerPairs_canonical, State.modTeam_canonical]

theorem State.sendPairs_canonical (s : State) (team : Nat) (o : StreamOp) (type : DeltaType) (m : Nat) (e : Int)
    (src : DeltaSrc) (hs : Canonical s) : Canonical (s.sendPairs team o type m e src) := by
  unfold State.sendPairs
  grind [State.setStream_canonical, State.takePairs_canonical, State.ackPairs_canonical, State.engineFault_canonical,
    State.endStream_canonical, State.sendColl_canonical]

theorem State.normDone_canonical (s : State) (team : Nat) (o : StreamOp) (fw : W64) (row : Row) (q len : Nat) (sat : Bool)
    (out gains eps : Nat) (nogain : Bool) (hs : Canonical s) :
    Canonical (s.normDone team o fw row q len sat out gains eps nogain) := by
  unfold State.normDone
  grind [State.modTeam_canonical, State.endStream_canonical]

theorem State.keepEarly_canonical (s : State) (team : Nat) (b : CellBody) (hs : Canonical s) :
    Canonical (s.keepEarly team b) := hs

theorem State.contribute_canonical (s : State) (team span k : Nat) (r : Row) (hs : Canonical s) :
    Canonical (s.contribute team span k r) := by
  unfold State.contribute
  grind [State.keepEarly_canonical, State.sendColl_canonical, foldl_canonical]

theorem State.dropContributions_canonical (s : State) (team span k : Nat) (hs : Canonical s) :
    Canonical (s.dropContributions team span k) := hs

theorem State.readSector_canonical (s : State) (team va : Nat) (hs : Canonical s) : Canonical (s.readSector team va).1 := by
  unfold State.readSector
  grind [State.translate_canonical, State.holdLine_canonical, State.waitLine_canonical]

theorem State.readSectors_canonical (s : State) (team va n : Nat) (hs : Canonical s) :
    Canonical (s.readSectors team va n).1 := by
  induction n generalizing s with
  | zero => exact hs
  | succ n ih =>
    unfold State.readSectors
    grind [State.readSector_canonical, canonical_iff]

theorem State.writeSectors_canonical (s : State) (team seq va : Nat) (bs : List Byte) (n : Nat) (hs : Canonical s) :
    Canonical (s.writeSectors team seq va bs n).1 := by
  induction n generalizing s va bs with
  | zero => cases bs <;> exact hs
  | succ n ih =>
    cases bs with
    | nil => exact hs
    | cons b bs =>
      unfold State.writeSectors
      grind [canonical_iff, State.translate_canonical, State.holdLine_canonical, State.writeVa_canonical, State.post_getD_canonical]

theorem State.loadImage_canonical (s : State) (team : Nat) (o : StreamOp) (compact : Bool) (va off : Nat) (hs : Canonical s) :
    Canonical (s.loadImage team o compact va off).1 := by
  unfold State.loadImage
  grind [State.readSector_canonical, State.readSectors_canonical]

theorem State.streamPair_canonical (s : State) (team seq : Nat) (hs : Canonical s) : Canonical (s.streamPair team seq) := by
  unfold State.streamPair
  grind [State.setStream_canonical, State.setRow_canonical, State.sendPairs_canonical, State.contribute_canonical]

theorem State.streamPairs_canonical (s : State) (team seq n : Nat) (hs : Canonical s) :
    Canonical (s.streamPairs team seq n) := by
  induction n generalizing s with
  | zero => exact hs
  | succ n ih =>
    unfold State.streamPairs
    grind [State.streamPair_canonical, canonical_iff]

theorem State.saveEnds_canonical (s : State) (team seq : Nat) (hs : Canonical s) : Canonical (s.saveEnds team seq) := by
  unfold State.saveEnds
  grind [State.endStream_canonical]

theorem State.streamComplete_canonical (s : State) (team seq : Nat) (hs : Canonical s) :
    Canonical (s.streamComplete team seq) := by
  unfold State.streamComplete
  grind [State.streamPair_canonical, State.dropRow_canonical, State.setRow_canonical, State.endStream_canonical,
    State.streamPairs_canonical, State.answerPairs_canonical, State.normDone_canonical, State.dropContributions_canonical,
    State.modTeam_canonical, State.writeSectors_canonical, State.saveEnds_canonical, State.setStream_canonical, State.loadImage_canonical]

theorem execStreamOpComplete_answers (team seq : Nat) (s : State) :
    Answers (Canonical s) (execStreamOpComplete team seq s) := by
  unfold execStreamOpComplete
  grind [State.attempting_canonical, State.streamComplete_canonical, Answers]

theorem State.stopStream_canonical (s : State) (team : Nat) (o : StreamOp) (f : FInfo) (hs : Canonical s) :
    Canonical (s.stopStream team o f) := by
  unfold State.stopStream
  grind [State.answerPairs_canonical, State.endStream_canonical, State.engineFault_canonical]

theorem State.streamFault_canonical (s : State) (team seq : Nat) (ecc : Bool) (hs : Canonical s) :
    Canonical (s.streamFault team seq ecc) := by
  have pair := State.streamPair_canonical s team seq hs
  have stop (t : State) (o : StreamOp) (f : FInfo) (ht : Canonical t) : Canonical (t.stopStream team o f) :=
    State.stopStream_canonical _ _ _ _ ht
  unfold State.streamFault
  dsimp only
  split
  · exact hs
  next o _ =>
  generalize (if o.kind.isReelNorm = true then s.streamWaits team o else s.streamHeld team o) = held
  split
  · exact hs
  split
  · grind [State.dropRow_canonical, State.dropContributions_canonical]
  split
  · grind
  · grind
  · grind
  · grind [State.dropContributions_canonical]
  · next compact va _ =>
    have save := fun bs n => State.writeSectors_canonical (s.streamPair team seq) team seq va bs n pair
    grind
  · next compact va off _ =>
    have load := State.loadImage_canonical s team o compact va off hs
    grind [State.dropRow_canonical]
  · exact hs

theorem execStreamOpFault_answers (team seq : Nat) (ecc : Bool) (s : State) :
    Answers (Canonical s) (execStreamOpFault team seq ecc s) := by
  unfold execStreamOpFault
  grind [State.attempting_canonical, State.streamFault_canonical, Answers]

theorem State.zeroLengthRead_canonical (s : State) (ld page n : Nat) (hs : Canonical s) :
    Canonical (s.zeroLengthRead ld page n) := by
  unfold State.zeroLengthRead
  grind [State.ackLane_canonical, State.modBar_canonical, State.copyAcked_canonical, State.saveEnds_canonical, canonical_iff,
    foldl_canonical]

theorem execZeroLengthReadComplete_answers (ld page n : Nat) (s : State) :
    Answers (Canonical s) (execZeroLengthReadComplete ld page n s) :=
  answers_next fun hs => State.zeroLengthRead_canonical _ _ _ _ hs

theorem execStreamReceive_answers (r : Rx) (s : State) : Answers (Canonical s) (execStreamReceive r s) := by
  unfold execStreamReceive
  grind [State.accept_canonical, State.takePairs_canonical, State.answerPairs_canonical, State.ackPairs_canonical,
    State.keepEarly_canonical, foldl_canonical, Answers]

/-! ### Machine/Search.lean -/

theorem State.startSearch_canonical (s : State) (k : SearchKind) (hs : Canonical s) : Canonical (s.startSearch k) := hs

theorem execVdist_answers (x : FSlot) (a b c : SReg) (s : State) : Answers (Canonical s) (execVdist x a b c s) := by
  unfold execVdist
  grind [guard_answers, State.fault_canonical, State.startSearch_canonical]

theorem execTopk_answers (a b c : SReg) (s : State) : Answers (Canonical s) (execTopk a b c s) := by
  unfold execTopk
  grind [guard_answers, State.fault_canonical, State.startSearch_canonical]

theorem execTopkm_answers (a b c : SReg) (s : State) : Answers (Canonical s) (execTopkm a b c s) := by
  unfold execTopkm
  grind [guard_answers, State.fault_canonical, State.startSearch_canonical]

theorem execTopkr_answers (a b c : SReg) (s : State) : Answers (Canonical s) (execTopkr a b c s) := by
  unfold execTopkr
  grind [guard_answers, State.fault_canonical, State.startSearch_canonical]

theorem State.distances_canonical (s : State) (team : Nat) (f : FmtSlot) (query index base stride size0 size1 metric : Nat)
    (l : List Nat) (hs : Canonical s) : Canonical (s.distances team f query index base stride size0 size1 metric l).1 := by
  induction l generalizing s with
  | nil => exact hs
  | cons x l ih =>
    unfold State.distances
    grind [State.readSectors_canonical, canonical_iff]

theorem State.searchDone_canonical (s : State) (core : Nat) (o : SearchOp) (hs : Canonical s) :
    Canonical (s.searchDone core o) := hs

theorem State.vdistRun_canonical (s : State) (o : SearchOp) (hs : Canonical s) : Canonical (s.vdistRun o).1 := by
  unfold State.vdistRun
  grind [State.distances_canonical]

theorem State.searchComplete_canonical (s : State) (core : Nat) (hs : Canonical s) : Canonical (s.searchComplete core) := by
  unfold State.searchComplete
  grind [State.vdistRun_canonical, State.searchDone_canonical, State.modTeam_canonical]

theorem execSearchOpComplete_answers (core : Nat) (s : State) : Answers (Canonical s) (execSearchOpComplete core s) := by
  unfold execSearchOpComplete
  grind [State.attempting_canonical, State.searchComplete_canonical, Answers]

theorem State.searchFault_canonical (s : State) (core : Nat) (hs : Canonical s) : Canonical (s.searchFault core) := by
  unfold State.searchFault
  grind [State.vdistRun_canonical, State.searchDone_canonical, State.modTeam_canonical, State.engineFault_canonical]

theorem execSearchOpFault_answers (core : Nat) (s : State) : Answers (Canonical s) (execSearchOpFault core s) := by
  unfold execSearchOpFault
  grind [State.attempting_canonical, State.searchFault_canonical, Answers]

/-! ### Machine/VectorInt.lean -/

theorem vecVV_canonical (s : State) (d a b : VReg) (f : W32 → W32 → W32) (hs : Canonical s) : Canonical (vecVV s d a b f) := hs

theorem vecVX_canonical (s : State) (d a : VReg) (x : Src2) (f : W32 → W32 → W32) (hs : Canonical s) :
    Canonical (vecVX s d a x f) := hs

theorem vecVV3_canonical (s : State) (d a b : VReg) (f : W32 → W32 → W32 → W32) (hs : Canonical s) :
    Canonical (vecVV3 s d a b f) := hs

theorem vecVX3_canonical (s : State) (d a : VReg) (x : Src2) (f : W32 → W32 → W32 → W32) (hs : Canonical s) :
    Canonical (vecVX3 s d a x f) := hs

theorem vec1_canonical (s : State) (d a : VReg) (f : W32 → W32) (hs : Canonical s) : Canonical (vec1 s d a f) := hs
theorem execVaddVv_answers (d a b : VReg) (s : State) : Answers (Canonical s) (execVaddVv d a b s) := guard_answers _ _ _ id

theorem execVaddVx_answers (d a : VReg) (x : Src2) (s : State) :
    Answers (Canonical s) (execVaddVx d a x s) := guard_answers _ _ _ id

theorem execVsubVv_answers (d a b : VReg) (s : State) : Answers (Canonical s) (execVsubVv d a b s) := guard_answers _ _ _ id

theorem execVsubVx_answers (d a : VReg) (x : Src2) (s : State) :
    Answers (Canonical s) (execVsubVx d a x s) := guard_answers _ _ _ id

theorem execVmulVv_answers (d a b : VReg) (s : State) : Answers (Canonical s) (execVmulVv d a b s) := guard_answers _ _ _ id

theorem execVmulVx_answers (d a : VReg) (x : Src2) (s : State) :
    Answers (Canonical s) (execVmulVx d a x s) := guard_answers _ _ _ id

theorem execVmulhI32Vv_answers (d a b : VReg) (s : State) :
    Answers (Canonical s) (execVmulhI32Vv d a b s) := guard_answers _ _ _ id

theorem execVmulhI32Vx_answers (d a : VReg) (x : Src2) (s : State) :
    Answers (Canonical s) (execVmulhI32Vx d a x s) := guard_answers _ _ _ id

theorem execVmulhN32Vv_answers (d a b : VReg) (s : State) :
    Answers (Canonical s) (execVmulhN32Vv d a b s) := guard_answers _ _ _ id

theorem execVmulhN32Vx_answers (d a : VReg) (x : Src2) (s : State) :
    Answers (Canonical s) (execVmulhN32Vx d a x s) := guard_answers _ _ _ id

theorem execVmadVv_answers (d a b : VReg) (s : State) : Answers (Canonical s) (execVmadVv d a b s) := guard_answers _ _ _ id

theorem execVmadVx_answers (d a : VReg) (x : Src2) (s : State) :
    Answers (Canonical s) (execVmadVx d a x s) := guard_answers _ _ _ id

theorem execVsaddI32Vv_answers (d a b : VReg) (s : State) :
    Answers (Canonical s) (execVsaddI32Vv d a b s) := guard_answers _ _ _ id

theorem execVsaddI32Vx_answers (d a : VReg) (x : Src2) (s : State) :
    Answers (Canonical s) (execVsaddI32Vx d a x s) := guard_answers _ _ _ id

theorem execVsaddN32Vv_answers (d a b : VReg) (s : State) :
    Answers (Canonical s) (execVsaddN32Vv d a b s) := guard_answers _ _ _ id

theorem execVsaddN32Vx_answers (d a : VReg) (x : Src2) (s : State) :
    Answers (Canonical s) (execVsaddN32Vx d a x s) := guard_answers _ _ _ id

theorem execVssubI32Vv_answers (d a b : VReg) (s : State) :
    Answers (Canonical s) (execVssubI32Vv d a b s) := guard_answers _ _ _ id

theorem execVssubI32Vx_answers (d a : VReg) (x : Src2) (s : State) :
    Answers (Canonical s) (execVssubI32Vx d a x s) := guard_answers _ _ _ id

theorem execVssubN32Vv_answers (d a b : VReg) (s : State) :
    Answers (Canonical s) (execVssubN32Vv d a b s) := guard_answers _ _ _ id

theorem execVssubN32Vx_answers (d a : VReg) (x : Src2) (s : State) :
    Answers (Canonical s) (execVssubN32Vx d a x s) := guard_answers _ _ _ id

theorem execVminVv_answers (d a b : VReg) (s : State) : Answers (Canonical s) (execVminVv d a b s) := guard_answers _ _ _ id

theorem execVminVx_answers (d a : VReg) (x : Src2) (s : State) :
    Answers (Canonical s) (execVminVx d a x s) := guard_answers _ _ _ id

theorem execVmaxVv_answers (d a b : VReg) (s : State) : Answers (Canonical s) (execVmaxVv d a b s) := guard_answers _ _ _ id

theorem execVmaxVx_answers (d a : VReg) (x : Src2) (s : State) :
    Answers (Canonical s) (execVmaxVx d a x s) := guard_answers _ _ _ id

theorem execVminnVv_answers (d a b : VReg) (s : State) : Answers (Canonical s) (execVminnVv d a b s) := guard_answers _ _ _ id

theorem execVminnVx_answers (d a : VReg) (x : Src2) (s : State) :
    Answers (Canonical s) (execVminnVx d a x s) := guard_answers _ _ _ id

theorem execVmaxnVv_answers (d a b : VReg) (s : State) : Answers (Canonical s) (execVmaxnVv d a b s) := guard_answers _ _ _ id

theorem execVmaxnVx_answers (d a : VReg) (x : Src2) (s : State) :
    Answers (Canonical s) (execVmaxnVx d a x s) := guard_answers _ _ _ id

theorem execVandVv_answers (d a b : VReg) (s : State) : Answers (Canonical s) (execVandVv d a b s) := guard_answers _ _ _ id

theorem execVandVx_answers (d a : VReg) (x : Src2) (s : State) :
    Answers (Canonical s) (execVandVx d a x s) := guard_answers _ _ _ id

theorem execVorVv_answers (d a b : VReg) (s : State) : Answers (Canonical s) (execVorVv d a b s) := guard_answers _ _ _ id

theorem execVorVx_answers (d a : VReg) (x : Src2) (s : State) :
    Answers (Canonical s) (execVorVx d a x s) := guard_answers _ _ _ id

theorem execVxorVv_answers (d a b : VReg) (s : State) : Answers (Canonical s) (execVxorVv d a b s) := guard_answers _ _ _ id

theorem execVxorVx_answers (d a : VReg) (x : Src2) (s : State) :
    Answers (Canonical s) (execVxorVx d a x s) := guard_answers _ _ _ id

theorem execVshlVv_answers (d a b : VReg) (s : State) : Answers (Canonical s) (execVshlVv d a b s) := guard_answers _ _ _ id

theorem execVshlVx_answers (d a : VReg) (x : Src2) (s : State) :
    Answers (Canonical s) (execVshlVx d a x s) := guard_answers _ _ _ id

theorem execVshrVv_answers (d a b : VReg) (s : State) : Answers (Canonical s) (execVshrVv d a b s) := guard_answers _ _ _ id

theorem execVshrVx_answers (d a : VReg) (x : Src2) (s : State) :
    Answers (Canonical s) (execVshrVx d a x s) := guard_answers _ _ _ id

theorem execVsraVv_answers (d a b : VReg) (s : State) : Answers (Canonical s) (execVsraVv d a b s) := guard_answers _ _ _ id

theorem execVsraVx_answers (d a : VReg) (x : Src2) (s : State) :
    Answers (Canonical s) (execVsraVx d a x s) := guard_answers _ _ _ id

theorem execVbfxI32Vv_answers (d a b : VReg) (s : State) :
    Answers (Canonical s) (execVbfxI32Vv d a b s) := guard_answers _ _ _ id

theorem execVbfxI32Vx_answers (d a : VReg) (x : Src2) (s : State) :
    Answers (Canonical s) (execVbfxI32Vx d a x s) := guard_answers _ _ _ id

theorem execVbfxN32Vv_answers (d a b : VReg) (s : State) :
    Answers (Canonical s) (execVbfxN32Vv d a b s) := guard_answers _ _ _ id

theorem execVbfxN32Vx_answers (d a : VReg) (x : Src2) (s : State) :
    Answers (Canonical s) (execVbfxN32Vx d a x s) := guard_answers _ _ _ id

theorem execVbfiVv_answers (d a b : VReg) (s : State) : Answers (Canonical s) (execVbfiVv d a b s) := guard_answers _ _ _ id

theorem execVbfiVx_answers (d a : VReg) (x : Src2) (s : State) :
    Answers (Canonical s) (execVbfiVx d a x s) := guard_answers _ _ _ id

theorem execVsel_answers (p : PReg) (d a b : VReg) (s : State) :
    Answers (Canonical s) (execVsel p d a b s) := guard_answers _ _ _ id

theorem execVnot_answers (d a : VReg) (s : State) : Answers (Canonical s) (execVnot d a s) := guard_answers _ _ _ id
theorem execVabs_answers (d a : VReg) (s : State) : Answers (Canonical s) (execVabs d a s) := guard_answers _ _ _ id
theorem execVneg_answers (d a : VReg) (s : State) : Answers (Canonical s) (execVneg d a s) := guard_answers _ _ _ id
theorem execVclz_answers (d a : VReg) (s : State) : Answers (Canonical s) (execVclz d a s) := guard_answers _ _ _ id
theorem execVpopc_answers (d a : VReg) (s : State) : Answers (Canonical s) (execVpopc d a s) := guard_answers _ _ _ id
theorem execVmov_answers (d a : VReg) (s : State) : Answers (Canonical s) (execVmov d a s) := guard_answers _ _ _ id
theorem execVli_answers (d : VReg) (x : Src2) (s : State) : Answers (Canonical s) (execVli d x s) := guard_answers _ _ _ id

theorem execVcmpVv_answers (c : Cond) (p : PReg) (a b : VReg) (s : State) :
    Answers (Canonical s) (execVcmpVv c p a b s) := guard_answers _ _ _ id

theorem execVcmpVx_answers (c : Cond) (p : PReg) (a : VReg) (x : Src2) (s : State) :
    Answers (Canonical s) (execVcmpVx c p a x s) := guard_answers _ _ _ id

/-! ### Machine/VectorFloat.lean -/

theorem fvec1_canonical (s : State) (t : FType) (d a : VReg) (f : FloatShape → Nat → Nat) (hs : Canonical s) :
    Canonical (fvec1 s t d a f) := hs

theorem fvec2_canonical (s : State) (t : FType) (d a b : VReg) (f : FloatShape → Nat → Nat → Nat) (hs : Canonical s) :
    Canonical (fvec2 s t d a b f) := hs

theorem execFadd_answers (t : FType) (d a b : VReg) (s : State) :
    Answers (Canonical s) (execFadd t d a b s) := guard_answers _ _ _ id

theorem execFsub_answers (t : FType) (d a b : VReg) (s : State) :
    Answers (Canonical s) (execFsub t d a b s) := guard_answers _ _ _ id

theorem execFmul_answers (t : FType) (d a b : VReg) (s : State) :
    Answers (Canonical s) (execFmul t d a b s) := guard_answers _ _ _ id

theorem execFfma_answers (t : FType) (d a b : VReg) (s : State) :
    Answers (Canonical s) (execFfma t d a b s) := guard_answers _ _ _ id

theorem execFmin_answers (t : FType) (d a b : VReg) (s : State) :
    Answers (Canonical s) (execFmin t d a b s) := guard_answers _ _ _ id

theorem execFmax_answers (t : FType) (d a b : VReg) (s : State) :
    Answers (Canonical s) (execFmax t d a b s) := guard_answers _ _ _ id

theorem execFabs_answers (t : FType) (d a : VReg) (s : State) :
    Answers (Canonical s) (execFabs t d a s) := guard_answers _ _ _ id

theorem execFneg_answers (t : FType) (d a : VReg) (s : State) :
    Answers (Canonical s) (execFneg t d a s) := guard_answers _ _ _ id

theorem execFrcp_answers (t : FType) (d a : VReg) (s : State) :
    Answers (Canonical s) (execFrcp t d a s) := guard_answers _ _ _ id

theorem execFrsq_answers (t : FType) (d a : VReg) (s : State) :
    Answers (Canonical s) (execFrsq t d a s) := guard_answers _ _ _ id

theorem execFsqrt_answers (t : FType) (d a : VReg) (s : State) :
    Answers (Canonical s) (execFsqrt t d a s) := guard_answers _ _ _ id

theorem execFexp2_answers (t : FType) (d a : VReg) (s : State) :
    Answers (Canonical s) (execFexp2 t d a s) := guard_answers _ _ _ id

theorem execFlog2_answers (t : FType) (d a : VReg) (s : State) :
    Answers (Canonical s) (execFlog2 t d a s) := guard_answers _ _ _ id

theorem execFround_answers (t : FType) (d a : VReg) (r : RoundMode) (s : State) :
    Answers (Canonical s) (execFround t d a r s) := guard_answers _ _ _ id

theorem execFcmp_answers (c : FCond) (t : FType) (p : PReg) (a b : VReg) (s : State) :
    Answers (Canonical s) (execFcmp c t p a b s) := guard_answers _ _ _ id

theorem execCvt_answers (y : CvtType) (d a : VReg) (x : CvtType) (f : FSlot) (s : State) :
    Answers (Canonical s) (execCvt y d a x f s) := guard_answers _ _ _ id

theorem execCvtp_answers (f : FSlot) (d a b : VReg) (s : State) :
    Answers (Canonical s) (execCvtp f d a b s) := guard_answers _ _ _ id

end Sys2Proof.Machine
end

section
/-! ## The memory invariant: collectives, cross-lane words and system words

The collective operations, the system words and the placement of contexts. -/

namespace Sys2Proof.Machine
open Sys2Proof.Claims

/-! ### Machine/Collect.lean -/

theorem State.dropColl_canonical (s : State) (team tag k : Nat) (hs : Canonical s) : Canonical (s.dropColl team tag k) := hs

theorem State.collDeliver_canonical (s : State) (key : Nat) (ms : List Nat) (b : CellBody) (hs : Canonical s) :
    Canonical (s.collDeliver key ms b) := by
  unfold State.collDeliver
  grind [State.keepEarly_canonical, foldl_canonical]

theorem State.collSend_canonical (s : State) (team : Nat) (multicast : Bool) (ms : List Nat) (b : CellBody) (hs : Canonical s) :
    Canonical (s.collSend team multicast ms b) := by
  unfold State.collSend
  grind [State.collDeliver_canonical, State.sendColl_canonical, State.sendCell_canonical, foldl_canonical]

theorem State.collective_canonical (s : State) (op : Nat) (f : FSlot) (a b c : SReg) (hs : Canonical s) :
    Canonical (s.collective op f a b c) := by
  unfold State.collective
  grind [State.fault_canonical, State.modTeam_canonical, State.modCur_canonical, State.collSend_canonical, State.keepEarly_canonical]

theorem execCred_answers (x : FSlot) (a b c : SReg) (o : RedOp) (s : State) : Answers (Canonical s) (execCred x a b c o s) := by
  unfold execCred
  grind [guard_answers, State.collective_canonical]

theorem execCbc_answers (x : FSlot) (a b c : SReg) (s : State) : Answers (Canonical s) (execCbc x a b c s) := by
  unfold execCbc
  grind [guard_answers, State.collective_canonical]

theorem execCgat_answers (x : FSlot) (a b c : SReg) (s : State) : Answers (Canonical s) (execCgat x a b c s) := by
  unfold execCgat
  grind [guard_answers, State.collective_canonical]

theorem State.collDone_canonical (s : State) (team : Nat) (o : CollOp) (hs : Canonical s) : Canonical (s.collDone team o) := hs

theorem State.collComplete_canonical (s : State) (team tag k : Nat) (hs : Canonical s) :
    Canonical (s.collComplete team tag k) := by
  unfold State.collComplete
  grind [State.engineFault_canonical, State.collDone_canonical, State.modTeam_canonical]

theorem execCollectiveComplete_answers (team tag k : Nat) (s : State) :
    Answers (Canonical s) (execCollectiveComplete team tag k s) :=
  answers_next fun hs => State.collComplete_canonical _ _ _ _ hs

theorem State.collArrive_canonical (s : State) (r : Rx) (hs : Canonical s) : Canonical (s.collArrive r) := by
  unfold State.collArrive
  grind [State.collDeliver_canonical, State.sendColl_canonical, State.keepEarly_canonical, foldl_canonical]

theorem execCollReceive_answers (r : Rx) (s : State) : Answers (Canonical s) (execCollReceive r s) := by
  unfold execCollReceive
  grind [State.accept_canonical, State.collArrive_canonical, Answers]

theorem execMcastReceive_answers (r : Rx) (s : State) : Answers (Canonical s) (execMcastReceive r s) := by
  unfold execMcastReceive
  grind [State.accept_canonical, State.collArrive_canonical, Answers]

/-! ### Machine/CrossLane.lean -/

theorem shuffle_canonical (s : State) (d a : VReg) (j : Nat → Int) (hs : Canonical s) : Canonical (shuffle s d a j) := hs
theorem shuffleChk_canonical (s : State) (d a : VReg) (j : Nat → Int) (hs : Canonical s) : Canonical (shuffleChk s d a j) := hs
theorem execVshflIdx_answers (d a b : VReg) (s : State) : Answers (Canonical s) (execVshflIdx d a b s) := guard_answers _ _ _ id

theorem execVshflUp_answers (d a : VReg) (x : Src2) (s : State) :
    Answers (Canonical s) (execVshflUp d a x s) := guard_answers _ _ _ id

theorem execVshflDn_answers (d a : VReg) (x : Src2) (s : State) :
    Answers (Canonical s) (execVshflDn d a x s) := guard_answers _ _ _ id

theorem execVshflXor_answers (d a : VReg) (x : Src2) (s : State) :
    Answers (Canonical s) (execVshflXor d a x s) := guard_answers _ _ _ id

theorem execVbcast_answers (d a : VReg) (x : Src2) (s : State) :
    Answers (Canonical s) (execVbcast d a x s) := guard_answers _ _ _ id

theorem execVshflIdxChk_answers (d a b : VReg) (s : State) :
    Answers (Canonical s) (execVshflIdxChk d a b s) := guard_answers _ _ _ id

theorem execVshflUpChk_answers (d a : VReg) (x : Src2) (s : State) :
    Answers (Canonical s) (execVshflUpChk d a x s) := guard_answers _ _ _ id

theorem execVshflDnChk_answers (d a : VReg) (x : Src2) (s : State) :
    Answers (Canonical s) (execVshflDnChk d a x s) := guard_answers _ _ _ id

theorem execVshflXorChk_answers (d a : VReg) (x : Src2) (s : State) :
    Answers (Canonical s) (execVshflXorChk d a x s) := guard_answers _ _ _ id

theorem execVbcastChk_answers (d a : VReg) (x : Src2) (s : State) :
    Answers (Canonical s) (execVbcastChk d a x s) := guard_answers _ _ _ id

theorem execVredAdd_answers (d a : VReg) (s : State) : Answers (Canonical s) (execVredAdd d a s) := guard_answers _ _ _ id
theorem execVredMin_answers (d a : VReg) (s : State) : Answers (Canonical s) (execVredMin d a s) := guard_answers _ _ _ id
theorem execVredMax_answers (d a : VReg) (s : State) : Answers (Canonical s) (execVredMax d a s) := guard_answers _ _ _ id
theorem execVscanAdd_answers (d a : VReg) (s : State) : Answers (Canonical s) (execVscanAdd d a s) := guard_answers _ _ _ id

theorem execVballot_answers (d : VReg) (p : PReg) (s : State) :
    Answers (Canonical s) (execVballot d p s) := guard_answers _ _ _ id

theorem execVvoteAny_answers (d p : PReg) (s : State) : Answers (Canonical s) (execVvoteAny d p s) := guard_answers _ _ _ id
theorem execVvoteAll_answers (d p : PReg) (s : State) : Answers (Canonical s) (execVvoteAll d p s) := guard_answers _ _ _ id

/-! ### Machine/System.lean -/

theorem execSysrd_answers (a : SReg) (r : Fin 2048) (s : State) : Answers (Canonical s) (execSysrd a r s) := by
  unfold execSysrd
  grind [guard_answers, State.modCore_canonical, State.writeS_canonical]

theorem State.commitTeam_canonical (s : State) (before team : Nat) (hs : Canonical s) :
    Canonical (s.commitTeam before team) := by
  unfold State.commitTeam
  grind [State.setTeam_canonical]

theorem State.commitAll_canonical (s : State) (before : Nat) (hs : Canonical s) : Canonical (s.commitAll before) := by
  unfold State.commitAll
  grind [State.commitTeam_canonical, foldl_canonical]

theorem execSyswr_answers (a : SReg) (r : Fin 2048) (s : State) : Answers (Canonical s) (execSyswr a r s) := by
  unfold execSyswr
  grind [guard_answers, State.modCur_canonical, State.modTeam_canonical, State.modCore_canonical]

theorem State.svcPtr_canonical (s : State) (gid w arg : Nat) (hs : Canonical s) : Canonical (s.svcPtr gid w arg).1 := by
  unfold State.svcPtr
  grind

theorem State.svcCalls_canonical (s : State) (gid vb : Nat) (l : List Nat) (hs : Canonical s) :
    Canonical (s.svcCalls gid vb l).1 := by
  induction l generalizing s with
  | nil => exact hs
  | cons x l ih =>
    unfold State.svcCalls
    grind [State.svcPtr_canonical, canonical_iff]

theorem State.svcAsk_canonical (s : State) (gid : Nat) (c : SvcCall) (hs : Canonical s) : Canonical (s.svcAsk gid c) := by
  unfold State.svcAsk
  grind [State.sendLane_canonical, foldl_canonical]

theorem State.svcClose_canonical (s : State) (gid vb : Nat) (cs : List SvcCall) (hs : Canonical s) :
    Canonical (s.svcClose gid vb cs) := hs

theorem State.storeAll_canonical (s : State) (core c : Nat) (l : List (Nat × Nat × Nat)) (hs : Canonical s) :
    Canonical (s.storeAll core c l).1 := by
  induction l generalizing s with
  | nil => exact hs
  | cons x l ih =>
    unfold State.storeAll
    grind [State.storeVa_canonical, canonical_iff]

theorem State.svcForm_canonical (s : State) (gid : Nat) (ks : List Nat) (vb : Nat) (hs : Canonical s) :
    Canonical (s.svcForm gid ks vb) := by
  unfold State.svcForm
  grind [State.svcCalls_canonical, State.svcAsk_canonical, State.modGang_canonical, State.invalidateL1_canonical, State.goOn_canonical,
    State.svcClose_canonical, State.keepSeen_canonical, State.storeAll_canonical, State.modCore_canonical, canonical_iff, foldl_canonical]

theorem execSvc_answers (v : VReg) (s : State) : Answers (Canonical s) (execSvc v s) := by
  unfold execSvc
  grind [guard_answers, State.fault_canonical, State.drainAll_canonical, State.parkSplit_canonical, State.addStore_canonical,
    State.svcForm_canonical, State.leaveActive_canonical]

theorem State.slotLane_canonical (s : State) (core c base : Nat) (l : SvcLane) (hs : Canonical s) :
    Canonical (s.slotLane core c base l).1 := by
  unfold State.slotLane
  grind [State.readVa_canonical]

theorem State.copyBack_canonical (s : State) (b : SvcBatch) (l : SvcLane) (bs : List Nat) (hs : Canonical s) :
    Canonical (s.copyBack b l bs) := by
  unfold State.copyBack
  grind [State.modGang_canonical, State.sendLane_canonical, State.writeLoc_canonical, foldl_canonical]

theorem State.modSaved_canonical (s : State) (c team : Nat) (f : SavedTeam → SavedTeam) (hs : Canonical s) :
    Canonical (s.modSaved c team f) := hs

theorem State.copyBackSaved_canonical (s : State) (b : SvcBatch) (l : SvcLane) (bs : List Nat) (hs : Canonical s) :
    Canonical (s.copyBackSaved b l bs) := by
  unfold State.copyBackSaved
  grind [State.modSaved_canonical]

theorem State.svcDeliver_canonical (s : State) (core slot : Nat) (hs : Canonical s) : Canonical (s.svcDeliver core slot) := by
  unfold State.svcDeliver
  grind [State.modCore_canonical, State.slotLane_canonical, State.modSaved_canonical, State.copyBackSaved_canonical,
    State.modGang_canonical, State.copyBack_canonical, State.keepSeen_canonical, State.invalidateL1_canonical, State.goOn_canonical,
    foldl_canonical]

theorem execSvcDone_answers (core slot : Nat) (s : State) : Answers (Canonical s) (execSvcDone core slot s) := by
  unfold execSvcDone
  grind [State.accessing_canonical, State.svcDeliver_canonical, Answers]

theorem State.swapScratch_canonical (s : State) (hs : Canonical s) : Canonical s.swapScratch := by
  unfold State.swapScratch
  grind [State.modTeam_canonical, foldl_canonical]

theorem execHret_answers (a : SReg) (s : State) : Answers (Canonical s) (execHret a s) := by
  unfold execHret
  grind [guard_answers, State.parkSplit_canonical, State.hretDone_canonical]

theorem State.zeroFrame_canonical (s : State) (c n : Nat) (hs : Canonical s) : Canonical (s.zeroFrame c n).1 := by
  unfold State.zeroFrame
  grind [State.takeFrame_canonical, canonical_iff, Memory.wf_paste]

theorem State.nextTable_canonical (s : State) (c entry : Nat) (hs : Canonical s) : Canonical (s.nextTable c entry).1 := by
  unfold State.nextTable
  grind [State.zeroFrame_canonical, State.devWrite_canonical]

theorem State.mapPage_canonical (s : State) (c va flags : Nat) (hs : Canonical s) : Canonical (s.mapPage c va flags).1 := by
  unfold State.mapPage
  dsimp only
  split
  · exact hs
  split
  · next e => exact canonical_of_eq e (State.nextTable_canonical _ _ _ hs)
  next t _ e =>
  have h4 : Canonical t := canonical_of_eq e (State.nextTable_canonical _ _ _ hs)
  split
  · next e => exact canonical_of_eq e (State.nextTable_canonical _ _ _ h4)
  next u _ e =>
  have h3 : Canonical u := canonical_of_eq e (State.nextTable_canonical _ _ _ h4)
  split
  · exact h3
  split
  · next e => exact canonical_of_eq e (State.nextTable_canonical _ _ _ h3)
  next v _ e =>
  have h2 : Canonical v := canonical_of_eq e (State.nextTable_canonical _ _ _ h3)
  have zero := State.zeroFrame_canonical v c 65536 h2
  grind [State.devWrite_canonical, canonical_iff]

theorem State.mapPrivate_canonical (s : State) (c va flags : Nat) (hs : Canonical s) :
    Canonical (s.mapPrivate c va flags).1 := by
  unfold State.mapPrivate
  grind [State.zeroFrame_canonical, State.modCtx_canonical]

theorem State.pgmapAct_canonical (s : State) (gid a va flags : Nat) (sup : Bool) (hs : Canonical s) :
    Canonical (s.pgmapAct gid a va flags sup).1 := by
  unfold State.pgmapAct
  grind [State.mapPrivate_canonical, State.mapPage_canonical, State.modGang_canonical]

theorem execPgmap_answers (a : SReg) (s : State) : Answers (Canonical s) (execPgmap a s) := by
  unfold execPgmap
  grind [guard_answers, State.fault_canonical, State.parkSplit_canonical, State.pgmapAct_canonical]

theorem execPginv_answers (a : SReg) (s : State) : Answers (Canonical s) (execPginv a s) := by
  unfold execPginv
  grind [guard_answers, State.fault_canonical, State.parkSplit_canonical, canonical_iff]

theorem execFltrd_answers (a : SReg) (w : Fin 4) (s : State) : Answers (Canonical s) (execFltrd a w s) := by
  unfold execFltrd
  grind [guard_answers, State.writeS_canonical]

theorem State.atSplit_canonical (s : State) (gid k : Nat) (hs : Canonical s) : Canonical (s.atSplit gid k) := hs

theorem State.wbarTest_canonical (s : State) (gid gen : Nat) (ks : List Nat) (hs : Canonical s) :
    Canonical (s.wbarTest gid gen ks) := by
  unfold State.wbarTest
  grind [State.arriveWbar_canonical, State.invalidateL1_canonical, State.goOn_canonical]

theorem State.tookStep_canonical (s : State) (gid : Nat) (hs : Canonical s) : Canonical (s.tookStep gid) := hs

theorem State.unpark_canonical (s : State) (gid k : Nat) (hs : Canonical s) : Canonical (s.unpark gid k) := by
  unfold State.unpark
  grind [State.goOn_canonical, State.completeBar_canonical, State.arriveBar_canonical, State.drainAll_canonical,
    State.regangMerge_canonical, State.modGang_canonical, State.keepSeen_canonical, State.atSplit_canonical, State.readLoad_canonical,
    State.fault_canonical, State.launchChild_canonical, State.svcForm_canonical, State.pgmapAct_canonical, State.faultWith_canonical,
    State.hretDone_canonical, State.wbarTest_canonical, State.setMember_canonical, canonical_iff]

theorem execSplitUnpark_answers (gid k : Nat) (s : State) : Answers (Canonical s) (execSplitUnpark gid k s) := by
  unfold execSplitUnpark
  grind [State.attempting_canonical, State.unpark_canonical, State.heard_canonical, State.tookStep_canonical, Answers]

theorem State.resumeGang_canonical (s : State) (gid : Nat) (hs : Canonical s) : Canonical (s.resumeGang gid) := hs

theorem execGangResume_answers (ld c : Nat) (s : State) : Answers (Canonical s) (execGangResume ld c s) := by
  unfold execGangResume
  grind [State.resumeGang_canonical, Answers]

theorem State.endGang_canonical (s : State) (gid : Nat) (hs : Canonical s) :
    Canonical (s.endGang gid) := State.endIfDone_canonical _ _ hs

theorem execGangEnd_answers (ld c : Nat) (s : State) : Answers (Canonical s) (execGangEnd ld c s) := by
  unfold execGangEnd
  grind [State.endGang_canonical, Answers]

theorem State.dropTeam_canonical (s : State) (team : Nat) (hs : Canonical s) : Canonical (s.dropTeam team) := hs

theorem execCowCopy_answers (c va : Nat) (s : State) : Answers (Canonical s) (execCowCopy c va s) := by
  unfold execCowCopy
  grind [State.cow_canonical, Answers]

/-! ### Machine/Place.lean -/

theorem execGangSwapIn_answers (gid : Nat) (s : State) : Answers (Canonical s) (execGangSwapIn gid s) := by
  unfold execGangSwapIn
  grind [State.modGang_canonical, State.modCore_canonical, State.modTeam_canonical, Answers]

theorem State.fitL1_canonical (s : State) (core : Nat) (hs : Canonical s) : Canonical (s.fitL1 core) := hs

theorem State.placeTeam_canonical (s : State) (core share k number : Nat) (member : Option Nat) (started : Bool)
    (hs : Canonical s) : Canonical (s.placeTeam core share k number member started).1 := by
  unfold State.placeTeam
  grind [State.setGang_canonical, State.setTeam_canonical, State.modCore_canonical, State.fitL1_canonical, foldl_canonical]

theorem State.placedUpTo_canonical (s : State) (k n : Nat) (hs : Canonical s) : Canonical (s.placedUpTo k n) := by
  unfold State.placedUpTo
  grind [State.modGrid_canonical, canonical_iff]

theorem State.openWindow_canonical (s : State) (key : Nat) (reel : Bool) (size : Nat) (es : List WEntry) (teams : List Nat)
    (hs : Canonical s) : Canonical (s.openWindow key reel size es teams) := by
  unfold State.openWindow
  grind [State.modTeam_canonical, foldl_canonical]

theorem State.placeSet_canonical (s : State) (k : Nat) (cores : List Nat) (hs : Canonical s) :
    Canonical (s.placeSet k cores) := by
  unfold State.placeSet
  grind [State.placeTeam_canonical, State.freshKey_canonical, State.placedUpTo_canonical, State.openWindow_canonical, foldl_canonical_fst]

theorem State.rejectLaunch_canonical (s : State) (q index tl : Nat) (v : W64) (r : Nat) (hs : Canonical s) :
    Canonical (s.rejectLaunch q index tl v r) := State.raise_canonical _ _ _ _ hs

theorem State.rejectGrid_canonical (s : State) (k r : Nat) (hs : Canonical s) : Canonical (s.rejectGrid k r) := by
  unfold State.rejectGrid
  grind [State.rejectLaunch_canonical, canonical_iff]

theorem State.sendPlace_canonical (s : State) (c type dst : Nat) (xs : List Nat) (hs : Canonical s) :
    Canonical (s.sendPlace c type dst xs) := State.sendControl_canonical _ _ _ _ _ _ hs

theorem State.sendReserves_canonical (s : State) (h : ReelHold) (hs : Canonical s) : Canonical (s.sendReserves h) := by
  unfold State.sendReserves
  grind [State.sendPlace_canonical, foldl_canonical]

theorem State.modReel_canonical (s : State) (key : Nat) (f : ReelHold → ReelHold) (hs : Canonical s) :
    Canonical (s.modReel key f) := hs

theorem State.startReel_canonical (s : State) (h : ReelHold) (hs : Canonical s) :
    Canonical (s.startReel h) := State.sendReserves_canonical _ _ hs

theorem State.failReel_canonical (s : State) (key : Nat) (hs : Canonical s) : Canonical (s.failReel key) := by
  unfold State.failReel
  grind [State.sendPlace_canonical, State.modReel_canonical, foldl_canonical]

theorem State.endReel_canonical (s : State) (key r : Nat) (hs : Canonical s) : Canonical (s.endReel key r) := by
  unfold State.endReel
  grind [State.failReel_canonical, State.rejectGrid_canonical]

theorem State.grant_canonical (s : State) (h : Hold) (cores : List Nat) (hs : Canonical s) :
    Canonical (s.grant h cores) := State.sendPlace_canonical _ _ _ _ _ hs

theorem State.without_canonical (s : State) (gone : List Hold) (hs : Canonical s) : Canonical (s.without gone) := hs

theorem State.grantQueue_canonical (s : State) (n : Nat) (hs : Canonical s) : Canonical (s.grantQueue n) := by
  induction n generalizing s with
  | zero => exact hs
  | succ n ih =>
    unfold State.grantQueue
    grind [State.grant_canonical, canonical_iff]

theorem State.serveReserves_canonical (s : State) (hs : Canonical s) :
    Canonical s.serveReserves := State.grantQueue_canonical _ _ hs

theorem State.reserve_canonical (s : State) (h : Hold) (hs : Canonical s) : Canonical (s.reserve h) := by
  unfold State.reserve
  grind [State.grant_canonical, State.without_canonical, State.sendPlace_canonical, canonical_iff, foldl_canonical]

theorem State.vacate_canonical (s : State) (k : Nat) (hs : Canonical s) :
    Canonical (s.vacate k) := State.serveReserves_canonical _ (State.passOwes_canonical _ _ hs)

theorem State.renameTeam_canonical (s : State) (c old new : Nat) (hs : Canonical s) : Canonical (s.renameTeam c old new) := hs
theorem State.putAside_canonical (s : State) (k : Nat) (hs : Canonical s) : Canonical (s.putAside k) := hs

theorem State.placeSaved_canonical (s : State) (c : Nat) (t : SavedTeam) (core share : Nat) (started : Bool)
    (hs : Canonical s) : Canonical (s.placeSaved c t core share started).1 := by
  unfold State.placeSaved
  grind [State.setCtx_canonical, State.setTeam_canonical, State.setGang_canonical, State.modCore_canonical, State.renameTeam_canonical,
    State.readAgain_canonical, State.takeCopyLines_canonical, State.setFlt_canonical, State.setCopy_canonical, State.askPower_canonical,
    State.fitL1_canonical, canonical_iff, foldl_canonical]

theorem State.resumed_canonical (s : State) (c : Nat) (hs : Canonical s) : Canonical (s.resumed c) := by
  unfold State.resumed
  grind [State.setCtx_canonical, State.raise_canonical]

theorem State.shareGrid_canonical (s : State) (h : Hold) (hs : Canonical s) : Canonical (s.shareGrid h).1 := by
  unfold State.shareGrid
  grind [State.modGrid_canonical, State.freshKey_canonical, State.setGrid_canonical]

theorem State.modOwnGrid_canonical (s : State) (key : Nat) (f : Grid → Grid) (hs : Canonical s) :
    Canonical (s.modOwnGrid key f) := hs

theorem State.commitHold_canonical (s : State) (h : Hold) (hs : Canonical s) : Canonical (s.commitHold h) := by
  unfold State.commitHold
  grind [State.modOwnGrid_canonical, State.placeSaved_canonical, State.sendPlace_canonical, State.resumed_canonical,
    State.shareGrid_canonical, State.placeTeam_canonical, State.modGrid_canonical, canonical_iff, foldl_canonical_fst]

theorem State.startMembers_canonical (s : State) (key owner : Nat) (es : Tab Nat) (hs : Canonical s) :
    Canonical (s.startMembers key owner es) := by
  unfold State.startMembers
  grind [State.modTeam_canonical, State.openWindow_canonical, State.modOwnGrid_canonical, canonical_iff, foldl_canonical]

theorem State.releaseHold_canonical (s : State) (key : Nat) (hs : Canonical s) : Canonical (s.releaseHold key) := by
  unfold State.releaseHold
  grind [State.modCtx_canonical, State.putAside_canonical, State.dropTeam_canonical, State.serveReserves_canonical, canonical_iff,
    foldl_canonical]

theorem State.countDecision_canonical (s : State) (tenant : Nat) (hs : Canonical s) : Canonical (s.countDecision tenant) := by
  unfold State.countDecision
  grind [canonical_iff]

theorem State.placeNext_canonical (s : State) (k choice : Nat) (hs : Canonical s) : Canonical (s.placeNext k choice) := by
  unfold State.placeNext
  grind [State.placedUpTo_canonical, State.placeTeam_canonical, State.modGrid_canonical, State.startReel_canonical,
    State.placeSet_canonical]

theorem State.placeTogether_canonical (s : State) (c : Nat) (reel : Bool) (lr : Memory) (ts : List SavedTeam)
    (cores : List Nat) (hs : Canonical s) : Canonical (s.placeTogether c reel lr ts cores) := by
  unfold State.placeTogether
  grind [State.placeSaved_canonical, State.freshKey_canonical, State.openWindow_canonical, foldl_canonical_fst]

theorem State.replaceSet_canonical (s : State) (c die : Nat) (ts : List SavedTeam) (g : Grid) (hs : Canonical s) :
    Canonical (s.replaceSet c die ts g) := by
  unfold State.replaceSet
  grind [State.placeTogether_canonical]

theorem State.replaceShare_canonical (s : State) (c : Nat) (ts : List SavedTeam) (g : Grid) (hs : Canonical s) :
    Canonical (s.replaceShare c ts g) := by
  unfold State.replaceShare
  grind [State.placeTogether_canonical]

theorem State.placeNextSaved_canonical (s : State) (c i choice : Nat) (hs : Canonical s) :
    Canonical (s.placeNextSaved c i choice) := by
  unfold State.placeNextSaved
  grind [State.resumed_canonical, State.replaceShare_canonical, State.startReel_canonical, State.replaceSet_canonical,
    State.placeSaved_canonical]

theorem execPlacementDecision_answers (saved : Bool) (k i choice : Nat) (s : State) :
    Answers (Canonical s) (execPlacementDecision saved k i choice s) := by
  unfold execPlacementDecision
  grind [State.placeNextSaved_canonical, State.placeNext_canonical, State.countDecision_canonical, Answers]

theorem State.onPlace_answers (s : State) (r : Rx) (type : Nat) (f : State → List Nat → State)
    (hf : ∀ s xs, Canonical s → Canonical (f s xs)) : Answers (Canonical s) (s.onPlace r type f) := by
  unfold State.onPlace
  grind [Answers, canonical_iff, State.accept_canonical]

theorem execReserve_answers (r : Rx) (s : State) : Answers (Canonical s) (execReserve r s) := by
  unfold execReserve
  grind [State.onPlace_answers, State.sendPlace_canonical, State.reserve_canonical]

theorem execGrant_answers (r : Rx) (s : State) : Answers (Canonical s) (execGrant r s) := by
  unfold execGrant
  grind [State.onPlace_answers, State.sendPlace_canonical, State.modReel_canonical, foldl_canonical]

theorem State.serveCommits_canonical (s : State) (hs : Canonical s) : Canonical s.serveCommits := by
  unfold State.serveCommits
  grind [State.commitHold_canonical, foldl_canonical]

theorem execCommit_answers (r : Rx) (s : State) : Answers (Canonical s) (execCommit r s) := by
  unfold execCommit
  grind [State.onPlace_answers, State.serveCommits_canonical, canonical_iff]

theorem execPlaced_answers (r : Rx) (s : State) : Answers (Canonical s) (execPlaced r s) := by
  unfold execPlaced
  grind [State.onPlace_answers, State.sendPlace_canonical, State.modReel_canonical, canonical_iff, foldl_canonical]

theorem State.countCuts_canonical (s : State) (c n : Nat) (hs : Canonical s) : Canonical (s.countCuts c n) := hs

theorem execStart_answers (r : Rx) (s : State) : Answers (Canonical s) (execStart r s) := by
  unfold execStart
  grind [State.onPlace_answers, State.startMembers_canonical, State.countCuts_canonical]

theorem State.refused_canonical (s : State) (key p : Nat) (hs : Canonical s) :
    Canonical (s.refused key p) := State.failReel_canonical _ _ hs

theorem execRevoke_answers (r : Rx) (s : State) : Answers (Canonical s) (execRevoke r s) := by
  unfold execRevoke
  grind [State.onPlace_answers, State.refused_canonical]

theorem execRefuse_answers (r : Rx) (s : State) : Answers (Canonical s) (execRefuse r s) := by
  unfold execRefuse
  grind [State.onPlace_answers, State.refused_canonical]

theorem execRefuseFinal_answers (r : Rx) (s : State) : Answers (Canonical s) (execRefuseFinal r s) := by
  unfold execRefuseFinal
  grind [State.onPlace_answers, State.endReel_canonical]

theorem execRelease_answers (r : Rx) (s : State) : Answers (Canonical s) (execRelease r s) := by
  unfold execRelease
  grind [State.onPlace_answers, State.modOwnGrid_canonical, State.releaseHold_canonical, canonical_iff]

theorem execReserveHoldTimeout_answers (key : Nat) (s : State) : Answers (Canonical s) (execReserveHoldTimeout key s) := by
  unfold execReserveHoldTimeout
  grind [State.sendPlace_canonical, State.releaseHold_canonical, Answers]

theorem execReserveAnswerTimeout_answers (key part : Nat) (s : State) :
    Answers (Canonical s) (execReserveAnswerTimeout key part s) := by
  unfold execReserveAnswerTimeout
  grind [State.modReel_canonical, State.endReel_canonical, State.failReel_canonical, Answers]

theorem execReserveRetry_answers (key : Nat) (s : State) : Answers (Canonical s) (execReserveRetry key s) := by
  unfold execReserveRetry
  grind [State.startReel_canonical, Answers]

theorem execTeamSlotFree_answers (team : Nat) (s : State) : Answers (Canonical s) (execTeamSlotFree team s) := by
  unfold execTeamSlotFree
  grind [State.modGrid_canonical, State.vacate_canonical, foldl_canonical, Answers]

theorem State.retire_canonical (s : State) (k : Nat) (hs : Canonical s) : Canonical (s.retire k) := by
  unfold State.retire
  grind [State.modSaved_canonical, State.modGang_canonical, State.modGrid_canonical, State.raise_canonical, State.sendPlace_canonical,
    State.modCtx_canonical, canonical_iff]

theorem execGridRetire_answers (k : Nat) (s : State) : Answers (Canonical s) (execGridRetire k s) := by
  unfold execGridRetire
  grind [State.retire_canonical, Answers]

end Sys2Proof.Machine
end

section
/-! ## The memory invariant: queues, saved areas, cuts and snapshots

The host's queues, the save areas, cuts, snapshots and links. -/

namespace Sys2Proof.Machine
open Sys2Proof.Claims

/-! ### Machine/Queues.lean -/

theorem State.haltQueue_canonical (s : State) (q reason : Nat) (hs : Canonical s) : Canonical (s.haltQueue q reason) := hs

theorem State.readSlot_canonical (s : State) (q : Nat) (hs : Canonical s) : Canonical (s.readSlot q).1 := by
  unfold State.readSlot
  grind [State.readVa_canonical]

theorem State.takePacket_canonical (s : State) (q : Nat) (w : List Nat) (hs : Canonical s) : Canonical (s.takePacket q w) := hs

theorem State.lookPacket_canonical (s : State) (q : Nat) (hs : Canonical s) : Canonical (s.lookPacket q).1 := by
  unfold State.lookPacket
  grind [State.readSlot_canonical, State.haltQueue_canonical]

theorem State.markStarted_canonical (s : State) (q index : Nat) (hs : Canonical s) : Canonical (s.markStarted q index) := hs

theorem State.handOver_canonical (s : State) (q : Nat) (p : Packet) (va : Nat) (hs : Canonical s) :
    Canonical (s.handOver q p va).1 := by
  unfold State.handOver
  grind [State.markStarted_canonical, State.readLaunch_canonical, State.rejectLaunch_canonical, State.addGrid_canonical]

theorem State.startPacket_canonical (s : State) (q : Nat) (p : Packet) (hs : Canonical s) : Canonical (s.startPacket q p) := by
  unfold State.startPacket
  grind [State.completePacket_canonical, State.handOver_canonical, State.raise_canonical, State.markStarted_canonical,
    State.storeVa_canonical, State.haltQueue_canonical, State.modQueue_canonical]

theorem State.stopFirmware_canonical (s : State) (hs : Canonical s) : Canonical s.stopFirmware := hs

theorem State.servePacket_canonical (s : State) (q op : Nat) (hs : Canonical s) : Canonical (s.servePacket q op) := by
  unfold State.servePacket
  split
  · split
    · exact hs
    split
    · exact hs
    split
    · exact State.stopFirmware_canonical _ hs
    refine State.heard_canonical _ _ ?_
    split
    · exact State.startPacket_canonical _ _ _ (canonical_of_dmem rfl hs)
    split
    · next e => exact canonical_of_eq e (State.lookPacket_canonical _ _ (canonical_of_dmem rfl hs))
    next t w e =>
    have taken := State.takePacket_canonical t q w (canonical_of_eq e (State.lookPacket_canonical _ _ (canonical_of_dmem rfl hs)))
    dsimp only
    split
    · exact State.startPacket_canonical _ _ _ taken
    · exact taken
  · split
    · split
      · exact State.stopFirmware_canonical _ hs
      · exact State.heard_canonical _ _ (State.lookPacket_canonical _ _ hs)
    · exact hs

theorem execNopPacket_answers (q : Nat) (s : State) : Answers (Canonical s) (execNopPacket q s) := by
  unfold execNopPacket
  grind [State.attempting_canonical, State.servePacket_canonical, Answers]

theorem execLaunchPacket_answers (q : Nat) (s : State) : Answers (Canonical s) (execLaunchPacket q s) := by
  unfold execLaunchPacket
  grind [State.attempting_canonical, State.servePacket_canonical, Answers]

theorem execWaitPacket_answers (q : Nat) (s : State) : Answers (Canonical s) (execWaitPacket q s) := by
  unfold execWaitPacket
  grind [State.attempting_canonical, State.servePacket_canonical, Answers]

theorem execSignalPacket_answers (q : Nat) (s : State) : Answers (Canonical s) (execSignalPacket q s) := by
  unfold execSignalPacket
  grind [State.attempting_canonical, State.servePacket_canonical, Answers]

theorem execBarrierPacket_answers (q : Nat) (s : State) : Answers (Canonical s) (execBarrierPacket q s) := by
  unfold execBarrierPacket
  grind [State.attempting_canonical, State.servePacket_canonical, Answers]

theorem execWritePacket_answers (q : Nat) (s : State) : Answers (Canonical s) (execWritePacket q s) := by
  unfold execWritePacket
  grind [State.attempting_canonical, State.servePacket_canonical, Answers]

theorem execHeadWriteback_answers (q : Nat) (s : State) : Answers (Canonical s) (execHeadWriteback q s) := by
  unfold execHeadWriteback
  grind [State.attempting_canonical, State.storeVa_canonical, State.modQueue_canonical, State.heard_canonical, State.haltQueue_canonical,
    Answers]

theorem State.fireCq_canonical (s : State) (q : Nat) (hs : Canonical s) : Canonical (s.fireCq q) := by
  unfold State.fireCq
  grind [State.setQueue_canonical, canonical_iff]

theorem execCompletionEntryWrite_answers (q : Nat) (s : State) : Answers (Canonical s) (execCompletionEntryWrite q s) := by
  unfold execCompletionEntryWrite
  grind [State.attempting_canonical, State.setQueue_canonical, State.heard_canonical, State.storeVa_canonical, State.haltQueue_canonical,
    State.modQueue_canonical, State.fireCq_canonical, Answers]

theorem execCqCoalesceTimer_answers (q : Nat) (s : State) : Answers (Canonical s) (execCqCoalesceTimer q s) := by
  unfold execCqCoalesceTimer
  grind [State.fireCq_canonical, Answers]

theorem State.fetchLanes_canonical (s : State) (l : List Nat) (hs : Canonical s) : Canonical (s.fetchLanes l).1 := by
  induction l generalizing s with
  | nil => exact hs
  | cons x l ih =>
    unfold State.fetchLanes
    grind [State.lookPacket_canonical, State.takePacket_canonical, canonical_iff]

theorem execQfetch_answers (a : SReg) (s : State) : Answers (Canonical s) (execQfetch a s) := by
  unfold execQfetch
  grind [guard_answers, State.fault_canonical, State.stopFirmware_canonical, State.fetchLanes_canonical, State.modCur_canonical,
    canonical_iff, foldl_canonical]

theorem matchPacket_canonical {γ : Type} (o : Option Packet) (f : Packet → State × γ) (y : State × γ)
    (hf : ∀ p, Canonical (f p).1) (hy : Canonical y.1) : Canonical (match o with | some p => f p | none => y).1 := by
  cases o with
  | none => exact hy
  | some p => exact hf p

theorem State.dispLane_canonical (s : State) (lane : Nat) (hs : Canonical s) : Canonical (s.dispLane lane).1 := by
  unfold State.dispLane
  dsimp only
  refine matchPacket_canonical _ _ _ (fun p => ?_) ?_
  · split
    · split
      · next e => exact canonical_of_eq e (State.readLaunch_canonical _ _ _ _ hs)
      · next e => exact canonical_of_eq e (State.readLaunch_canonical _ _ _ _ hs)
    split
    · exact hs
    split
    · next e => exact canonical_of_eq e (State.handOver_canonical _ _ _ _ hs)
    · next e => exact canonical_of_eq e (State.handOver_canonical _ _ _ _ hs)
  · split
    · next e => exact canonical_of_eq e (State.readLaunch_canonical _ _ _ _ hs)
    · next e => exact canonical_of_eq e (State.readLaunch_canonical _ _ _ _ hs)

theorem State.dispLanes_canonical (s : State) (l : List Nat) (hs : Canonical s) : Canonical (s.dispLanes l).1 := by
  induction l generalizing s with
  | nil => exact hs
  | cons x l ih =>
    unfold State.dispLanes
    grind [State.dispLane_canonical, canonical_iff]

theorem execQdisp_answers (s : State) :
    Answers (Canonical s) (execQdisp s) := guard_answers _ _ _ fun hs => State.dispLanes_canonical _ _ hs

theorem execQcomp_answers (s : State) : Answers (Canonical s) (execQcomp s) := by
  unfold execQcomp
  grind [guard_answers, State.raise_canonical, foldl_canonical]

theorem execFwVisitTimeout_answers (s : State) : Answers (Canonical s) (execFwVisitTimeout s) := by
  unfold execFwVisitTimeout
  grind [State.stopFirmware_canonical, canonical_iff, Answers]

theorem execFwImemUncorrectable_answers (addr : Nat) (s : State) : Answers (Canonical s) (execFwImemUncorrectable addr s) := by
  unfold execFwImemUncorrectable
  grind [State.stopFirmware_canonical, canonical_iff, Answers]

theorem execQueueTableUncorrectable_answers (q : Nat) (s : State) :
    Answers (Canonical s) (execQueueTableUncorrectable q s) := answers_next id

theorem State.onQueue_canonical (s : State) (ld q : Nat) (f : State → State) (hf : ∀ s, Canonical s → Canonical (f s))
    (hs : Canonical s) : Canonical (s.onQueue ld q f) := by
  unfold State.onQueue
  grind

theorem execTailWrite_answers (ld q width value : Nat) (s : State) :
    Answers (Canonical s) (execTailWrite ld q width value s) := by
  unfold execTailWrite
  grind [State.onQueue_canonical, State.modQueue_canonical, Answers]

theorem State.enableQueue_canonical (s : State) (q : Nat) (hs : Canonical s) : Canonical (s.enableQueue q) := by
  unfold State.enableQueue
  grind [State.modQueue_canonical, State.haltQueue_canonical]

theorem State.disableQueue_canonical (s : State) (q : Nat) (hs : Canonical s) : Canonical (s.disableQueue q) := by
  unfold State.disableQueue
  grind [State.modQueue_canonical, State.endReel_canonical, State.rejectGrid_canonical, foldl_canonical]

theorem State.ctlWrite_canonical (s : State) (q v : Nat) (hs : Canonical s) : Canonical (s.ctlWrite q v) := by
  unfold State.ctlWrite
  grind [State.modQueue_canonical, State.disableQueue_canonical, State.setQueue_canonical, State.enableQueue_canonical]

theorem execQueueEnable_answers (ld q v : Nat) (s : State) : Answers (Canonical s) (execQueueEnable ld q v s) := by
  unfold execQueueEnable
  grind [State.onQueue_canonical, State.ctlWrite_canonical, Answers]

theorem execQueueDisable_answers (ld q v : Nat) (s : State) : Answers (Canonical s) (execQueueDisable ld q v s) := by
  unfold execQueueDisable
  grind [State.onQueue_canonical, State.ctlWrite_canonical, Answers]

theorem execCqheadWrite_answers (ld q v : Nat) (s : State) : Answers (Canonical s) (execCqheadWrite ld q v s) := by
  unfold execCqheadWrite
  grind [State.onQueue_canonical, State.modQueue_canonical, Answers]

theorem State.bindContext_canonical (s : State) (ld q v : Nat) (hs : Canonical s) : Canonical (s.bindContext ld q v) := by
  unfold State.bindContext
  grind [State.modQueue_canonical, State.setCtx_canonical]

theorem execContextBind_answers (ld q v : Nat) (s : State) : Answers (Canonical s) (execContextBind ld q v s) := by
  unfold execContextBind
  grind [State.onQueue_canonical, State.modQueue_canonical, State.bindContext_canonical, Answers]

theorem execQStaleRead_answers (ld q : Nat) (s : State) : Answers (Canonical s) (execQStaleRead ld q s) := by
  unfold execQStaleRead
  grind [State.modQueue_canonical, canonical_iff, Answers]

theorem execNrejRead_answers (ld q : Nat) (s : State) : Answers (Canonical s) (execNrejRead ld q s) := by
  unfold execNrejRead
  grind [State.modQueue_canonical, canonical_iff, Answers]

/-! ### Machine/SaveArea.lean -/

theorem State.putChunk_canonical (s : State) (base : Nat) (c : Chunk) (hs : Canonical s) :
    Canonical (s.putChunk base c) := Memory.wf_paste _ _ _ _ hs

theorem State.writeBlock_canonical (s : State) (at_ : Nat) (compact : Bool) (t : SavedTeam) (g : Grid) (hs : Canonical s) :
    Canonical (s.writeBlock at_ compact t g).1 := by
  unfold State.writeBlock
  grind [State.freshKey_canonical, State.putChunk_canonical, canonical_iff, foldl_canonical]

theorem State.writeArea_canonical (s : State) (base : Nat) (h : AreaHeader) (compact : Bool) (ts : List SavedTeam)
    (grid : Nat → Grid) (core : Nat → Bool) (hs : Canonical s) : Canonical (s.writeArea base h compact ts grid core).1 := by
  unfold State.writeArea
  grind [State.putChunk_canonical, State.writeBlock_canonical, foldl_canonical_fst]

theorem State.listGrid_canonical (s : State) (k : Nat) (hs : Canonical s) : Canonical (s.listGrid k) := hs

theorem State.relist_canonical (s : State) (k : Nat) (hs : Canonical s) : Canonical (s.relist k) := by
  unfold State.relist
  grind [State.listGrid_canonical, canonical_iff]

theorem State.countKids_canonical (s : State) (k : Nat) (hs : Canonical s) : Canonical (s.countKids k) := hs

theorem State.tagPacket_canonical (s : State) (k : Nat) (hs : Canonical s) : Canonical (s.tagPacket k) := by
  unfold State.tagPacket
  grind [State.modQueue_canonical]

theorem State.putGrids_canonical (s : State) (c : Nat) (gs : Tab Grid) (names : List (Nat × Nat)) (hs : Canonical s) :
    Canonical (s.putGrids c gs names) := by
  unfold State.putGrids
  grind [State.setGrid_canonical, State.tagPacket_canonical, State.countKids_canonical, State.relist_canonical, foldl_canonical]

theorem State.syncSaved_canonical (s : State) (t : SavedTeam) (hs : Canonical s) : Canonical (s.syncSaved t) := by
  unfold State.syncSaved
  grind [State.putChunk_canonical, foldl_canonical]

theorem State.readArea_canonical (s t : State) (c : Nat) (running : Bool) (l : List SavedTeam)
    (e : s.readArea c running = some (t, l)) (hs : Canonical s) : Canonical t := by
  have synced : Canonical ((s.ctx c).saved.foldl State.syncSaved s) := foldl_canonical _ State.syncSaved_canonical _ _ hs
  unfold State.readArea at e
  dsimp only at e
  split at e
  · cases e
  rw [Option.map_eq_some_iff] at e
  obtain ⟨bs, -, e⟩ := e
  simp only [Prod.mk.injEq] at e
  obtain ⟨rfl, -⟩ := e
  refine State.putGrids_canonical _ _ _ _ (foldl_canonical_fst _ (fun p x hp => ?_) _ _ synced)
  split
  · exact hp
  · exact State.freshKey_canonical _ hp

theorem execGangSwapOut_answers (gid : Nat) (s : State) : Answers (Canonical s) (execGangSwapOut gid s) := by
  unfold execGangSwapOut
  grind [State.putChunk_canonical, State.swapScratch_canonical, State.settleDeficits_canonical, State.modGang_canonical, Answers]

/-! ### Machine/Cuts.lean -/

theorem State.tellParts_canonical (s : State) (c type : Nat) (ps xs : List Nat) (hs : Canonical s) :
    Canonical (s.tellParts c type ps xs) := by
  unfold State.tellParts
  grind [State.sendControl_canonical, foldl_canonical]

theorem State.sendMarkers_canonical (s : State) (c : Nat) (ps : List Nat) (n : Nat) (k : CutKind) (hs : Canonical s) :
    Canonical (s.sendMarkers c ps n k) := by
  unfold State.sendMarkers
  grind [State.sendCell_canonical, foldl_canonical]

theorem State.markCut_canonical (s : State) (c : Nat) (hs : Canonical s) : Canonical (s.markCut c) := by
  unfold State.markCut
  grind [State.sendMarkers_canonical, State.modCtx_canonical]

theorem State.beginCut_canonical (s : State) (c : Nat) (k : CutKind) (twin : Option Nat) (brks : List Break)
    (hs : Canonical s) : Canonical (s.beginCut c k twin brks) := by
  unfold State.beginCut
  grind [State.modCtx_canonical, State.markCut_canonical]

theorem State.cloneGrids_canonical (s : State) (c t : Nat) (hs : Canonical s) : Canonical (s.cloneGrids c t).1 := by
  unfold State.cloneGrids
  grind [State.freshKey_canonical, State.setGrid_canonical, canonical_iff, foldl_canonical, foldl_canonical_fst]

theorem State.withOlds_canonical (s : State) (l : List (Nat × Nat × Nat × W32)) (hs : Canonical s) :
    Canonical (s.withOlds l) := by
  unfold State.withOlds
  grind [State.modGang_canonical, foldl_canonical]

theorem State.takeCut_canonical (s : State) (c : Nat) (k : Cut) (hs : Canonical s) : Canonical (s.takeCut c k) := by
  unfold State.takeCut
  grind [State.lateFault_canonical, State.cloneGrids_canonical, State.modCtx_canonical, foldl_canonical]

theorem State.leaveChildren_canonical (s : State) (c : Nat) (hs : Canonical s) : Canonical (s.leaveChildren c) := by
  unfold State.leaveChildren
  grind [State.ownCopy_canonical, State.modCtx_canonical, foldl_canonical]

theorem State.freeCtx_canonical (s : State) (c : Nat) (hs : Canonical s) : Canonical (s.freeCtx c) := by
  unfold State.freeCtx
  grind [State.setCtx_canonical, canonical_iff]

theorem State.endDiscard_canonical (s : State) (c : Nat) (hs : Canonical s) : Canonical (s.endDiscard c) := by
  unfold State.endDiscard
  grind [State.leaveChildren_canonical, State.freeCtx_canonical, State.modCtx_canonical, canonical_iff]

theorem State.startDiscard_canonical (s : State) (c : Nat) (hs : Canonical s) : Canonical (s.startDiscard c) := by
  unfold State.startDiscard
  grind [State.endGang_canonical, State.endDiscard_canonical, State.modCtx_canonical, canonical_iff, foldl_canonical]

theorem State.finishCut_canonical (s : State) (c : Nat) (hs : Canonical s) : Canonical (s.finishCut c) := by
  unfold State.finishCut
  grind [State.modCtx_canonical]

theorem State.wroteCut_canonical (s : State) (c : Nat) (k : Cut) (hs : Canonical s) : Canonical (s.wroteCut c k) := by
  unfold State.wroteCut
  grind [State.modCtx_canonical, State.startDiscard_canonical, State.finishCut_canonical, State.tellParts_canonical]

theorem State.cutWrite_canonical (s : State) (c core : Nat) (hs : Canonical s) : Canonical (s.cutWrite c core) := by
  unfold State.cutWrite
  grind [State.takeCut_canonical, State.writeArea_canonical, State.modCtx_canonical, State.wroteCut_canonical]

theorem execTwinWriteComplete_answers (c core : Nat) (s : State) :
    Answers (Canonical s) (execTwinWriteComplete c core s) := answers_next fun hs => State.cutWrite_canonical _ _ _ hs

theorem State.formTwin_canonical (s t : State) (c k : Nat) (e : s.formTwin c = .ok (t, k)) (hs : Canonical s) :
    Canonical t := by
  unfold State.formTwin at e
  dsimp only at e
  split at e
  · cases e
  split at e
  · cases e
  split at e
  · cases e
  split at e
  · cases e
  split at e
  · cases e
  simp only [Except.ok.injEq, Prod.mk.injEq] at e
  obtain ⟨rfl, -⟩ := e
  exact foldl_canonical _ (fun s x => State.shadowOf_canonical s _ _ _) _ _ (State.setCtx_canonical _ _ _ hs)

theorem State.ccErr_canonical (s : State) (c e : Nat) (hs : Canonical s) : Canonical (s.ccErr c e) := hs

theorem State.onCtx_answers (s : State) (ld c : Nat) (f : Ctx → State) (hf : ∀ x, Canonical s → Canonical (f x)) :
    Answers (Canonical s) (s.onCtx ld c f) := by
  unfold State.onCtx
  grind [Answers]

theorem State.setBrk_canonical (s : State) (c : Nat) (brk : Bool) (hs : Canonical s) : Canonical (s.setBrk c brk) := hs

theorem State.preemptDecide_canonical (s : State) (c : Nat) (hs : Canonical s) : Canonical (s.preemptDecide c) := by
  unfold State.preemptDecide
  grind [State.modCtx_canonical, State.beginCut_canonical]

theorem State.preemptStart_canonical (s : State) (c : Nat) (hs : Canonical s) :
    Canonical (s.preemptStart c) := State.preemptDecide_canonical _ _ (State.tellParts_canonical _ _ _ _ _ hs)

theorem execPreempt_answers (ld c : Nat) (brk : Bool) (s : State) : Answers (Canonical s) (execPreempt ld c brk s) := by
  unfold execPreempt
  grind [State.onCtx_answers, State.setBrk_canonical, State.ccErr_canonical, State.preemptStart_canonical]

theorem State.onCut_answers (s : State) (r : Rx) (tags : List Nat) (f : State → Nat → List Nat → State)
    (hf : ∀ s tag xs, Canonical s → Canonical (f s tag xs)) : Answers (Canonical s) (s.onCut r tags f) := by
  unfold State.onCut
  grind [Answers, canonical_iff, State.accept_canonical]

theorem State.passCut_canonical (s : State) (c n : Nat) (hs : Canonical s) : Canonical (s.passCut c n) := hs

theorem execPreemptAnswerReceive_answers (r : Rx) (s : State) : Answers (Canonical s) (execPreemptAnswerReceive r s) := by
  unfold execPreemptAnswerReceive
  grind [State.onCut_answers, State.passCut_canonical, State.modCtx_canonical, State.preemptDecide_canonical, State.preemptStart_canonical]

theorem State.stopTeams_canonical (s : State) (ks : List Nat) (hs : Canonical s) : Canonical (s.stopTeams ks) := by
  unfold State.stopTeams
  grind [State.modCore_canonical, State.modTeam_canonical, canonical_iff, foldl_canonical]

theorem State.saveCtx_canonical (s : State) (c : Nat) (h : AreaHeader) (hs : Canonical s) : Canonical (s.saveCtx c h) := by
  unfold State.saveCtx
  grind [State.stopTeams_canonical, State.writeArea_canonical, State.serveReserves_canonical, State.modCtx_canonical,
    State.putAside_canonical, foldl_canonical]

theorem execPreemptSaveComplete_answers (c : Nat) (s : State) : Answers (Canonical s) (execPreemptSaveComplete c s) := by
  unfold execPreemptSaveComplete
  grind [State.saveCtx_canonical, State.modCtx_canonical, State.wroteCut_canonical, Answers]

theorem State.changeTenant_canonical (s : State) (c tenant : Nat) (hs : Canonical s) : Canonical (s.changeTenant c tenant) := hs

theorem execContextResume_answers (ld c : Nat) (brk : Bool) (s : State) :
    Answers (Canonical s) (execContextResume ld c brk s) := by
  unfold execContextResume
  grind [State.onCtx_answers, State.setBrk_canonical, State.ccErr_canonical, State.readArea_canonical, State.resumed_canonical,
    State.changeTenant_canonical, State.setCtx_canonical]

theorem execTwin_answers (ld c : Nat) (brk : Bool) (s : State) : Answers (Canonical s) (execTwin ld c brk s) := by
  unfold execTwin
  grind [State.onCtx_answers, State.setBrk_canonical, State.ccErr_canonical, State.formTwin_canonical, State.beginCut_canonical]

theorem State.takeBack_canonical (s : State) (c : Nat) (ts : List SavedTeam) (hs : Canonical s) :
    Canonical (s.takeBack c ts) := by
  unfold State.takeBack
  grind [State.serveReserves_canonical, State.renameTeam_canonical, State.dropTeam_canonical, foldl_canonical]

theorem execStep_answers (ld c : Nat) (brk : Bool) (s : State) : Answers (Canonical s) (execStep ld c brk s) := by
  unfold execStep
  grind [State.onCtx_answers, State.setBrk_canonical, State.ccErr_canonical, State.readArea_canonical, State.modCtx_canonical,
    State.takeBack_canonical]

theorem execRival_answers (ld c : Nat) (brk : Bool) (s : State) : Answers (Canonical s) (execRival ld c brk s) := by
  unfold execRival
  grind [State.onCtx_answers, State.setBrk_canonical, State.ccErr_canonical, State.readArea_canonical, State.resumed_canonical,
    State.modCtx_canonical, State.takeBack_canonical]

theorem execDiscard_answers (ld c : Nat) (brk : Bool) (s : State) : Answers (Canonical s) (execDiscard ld c brk s) := by
  unfold execDiscard
  grind [State.onCtx_answers, State.setBrk_canonical, State.ccErr_canonical, State.modCtx_canonical, State.startDiscard_canonical]

theorem execFrameReturn_answers (c : Nat) (s : State) : Answers (Canonical s) (execFrameReturn c s) := by
  unfold execFrameReturn
  grind [State.endDiscard_canonical, State.freeCtx_canonical, State.devWrite_canonical, State.setCtx_canonical, Answers]

theorem execStepComplete_answers (c : Nat) (s : State) : Answers (Canonical s) (execStepComplete c s) := by
  unfold execStepComplete
  grind [State.saveCtx_canonical, State.putChunk_canonical, State.devWrite_canonical, State.modCtx_canonical,
    State.startDiscard_canonical, Answers]

theorem execCcMemaWrite_answers (ld c v : Nat) (s : State) : Answers (Canonical s) (execCcMemaWrite ld c v s) := by
  unfold execCcMemaWrite
  grind [State.onCtx_answers, State.ccErr_canonical, State.modCtx_canonical]

theorem State.viewPlace_canonical (s : State) (c va : Nat) (hs : Canonical s) : Canonical (s.viewPlace c va).1 := by
  unfold State.viewPlace
  grind [State.translateShadow_canonical]

theorem State.stepMema_canonical (s : State) (c : Nat) (hs : Canonical s) : Canonical (s.stepMema c) := hs

theorem execCcMemdRead_answers (ld c : Nat) (s : State) : Answers (Canonical s) (execCcMemdRead ld c s) := by
  unfold execCcMemdRead
  grind [State.onCtx_answers, State.ccErr_canonical, State.accessing_canonical, State.viewPlace_canonical, State.stepMema_canonical,
    State.waitLine_canonical, canonical_iff]

theorem State.ownZero_canonical (s : State) (t g f : Nat) (hs : Canonical s) : Canonical (s.ownZero t g f) := by
  unfold State.ownZero
  grind [State.copyFor_canonical, State.modCtx_canonical, State.takeCopy_canonical]

theorem execCcMemdWrite_answers (ld c v : Nat) (s : State) : Answers (Canonical s) (execCcMemdWrite ld c v s) := by
  refine State.onCtx_answers _ _ _ _ fun x hs => ?_
  dsimp only
  split
  · exact State.ccErr_canonical _ _ _ hs
  refine State.accessing_canonical _ _ _ (fun s hs => ?_) hs
  split
  · next e =>
    exact State.stepMema_canonical _ _ (State.ccErr_canonical _ _ _ (canonical_of_eq e (State.viewPlace_canonical _ _ _ hs)))
  · exact State.stepMema_canonical _ _ hs
  have stepped := State.stepMema_canonical s c hs
  split
  · split
    · split
      · exact State.writeVa_canonical _ _ _ _ _ _ _ (State.ownZero_canonical _ _ _ _ (State.ownCopy_canonical _ _ _ _ stepped))
      · exact State.ownZero_canonical _ _ _ _ (State.ownCopy_canonical _ _ _ _ stepped)
    · exact State.writeLoc_canonical _ _ _ _ stepped
  · split
    · next e =>
      exact State.devWrite_canonical _ _ _ _ (canonical_of_eq e (State.shadowOf_canonical _ _ _ _ (State.waitLine_canonical _ _ stepped)))
    · next e => exact canonical_of_eq e (State.shadowOf_canonical _ _ _ _ (State.waitLine_canonical _ _ stepped))

theorem execNotwinRead_answers (ld c : Nat) (s : State) : Answers (Canonical s) (execNotwinRead ld c s) := by
  unfold execNotwinRead
  grind [State.modCtx_canonical, canonical_iff, Answers]

theorem State.noTwin_canonical (s : State) (c : Nat) (b : Break) (hs : Canonical s) :
    Canonical (s.noTwin c b) := State.report_canonical _ _ _ _ _ _ hs

theorem State.noTwins_canonical (s : State) (c : Nat) (bs : List Break) (hs : Canonical s) : Canonical (s.noTwins c bs) := by
  unfold State.noTwins
  grind [State.modCtx_canonical, State.noTwin_canonical, foldl_canonical]

theorem State.breakCut_canonical (s : State) (c : Nat) (bs : List Break) (hs : Canonical s) : Canonical (s.breakCut c bs) := by
  unfold State.breakCut
  grind [State.formTwin_canonical, State.beginCut_canonical, State.modCtx_canonical, State.noTwins_canonical]

theorem execBrk_answers (n : Fin 2048) (s : State) : Answers (Canonical s) (execBrk n s) := by
  unfold execBrk
  grind [guard_answers, State.fault_canonical, State.modCtx_canonical, State.breakCut_canonical]

theorem State.spoil_canonical (s : State) (x : Snap) (hs : Canonical s) :
    Canonical (s.spoil x) := State.putChunk_canonical _ _ _ hs

theorem State.snapFail_canonical (s : State) (c e : Nat) (hs : Canonical s) : Canonical (s.snapFail c e) := by
  unfold State.snapFail
  grind [State.spoil_canonical, State.modCtx_canonical]

theorem State.snapFailAll_canonical (s : State) (c e : Nat) (hs : Canonical s) :
    Canonical (s.snapFailAll c e) := State.snapFail_canonical _ _ _ (State.tellParts_canonical _ _ _ _ _ hs)

theorem State.snapFailed_canonical (s : State) (c num e n : Nat) (hs : Canonical s) : Canonical (s.snapFailed c num e n) := by
  unfold State.snapFailed
  grind [State.modCtx_canonical, State.snapFail_canonical]

theorem State.snapOpen_canonical (s : State) (c : Nat) (hs : Canonical s) : Canonical (s.snapOpen c) := hs

theorem State.snapStart_canonical (s : State) (c : Nat) (hs : Canonical s) : Canonical (s.snapStart c) := by
  unfold State.snapStart
  grind [State.modCtx_canonical, State.beginCut_canonical, State.snapOpen_canonical]

theorem State.wake_canonical (s : State) (c : Nat) (hs : Canonical s) : Canonical (s.wake c) := by
  unfold State.wake
  grind [State.markCut_canonical, State.startDiscard_canonical, State.breakCut_canonical, State.preemptStart_canonical,
    State.snapStart_canonical]

theorem State.wakeAll_canonical (s : State) (hs : Canonical s) : Canonical s.wakeAll := by
  unfold State.wakeAll
  grind [State.swapScratch_canonical, State.wake_canonical, State.payWindows_canonical, State.serveCommits_canonical,
    State.serveReserves_canonical, State.retryPrefetches_canonical, foldl_canonical]

theorem State.joinCut_canonical (s : State) (c : Nat) (k : CutKind) (hs : Canonical s) : Canonical (s.joinCut c k) := by
  unfold State.joinCut
  grind [State.beginCut_canonical, State.noTwins_canonical, State.formTwin_canonical, State.modCtx_canonical, State.ccErr_canonical,
    State.snapOpen_canonical, State.snapFailAll_canonical, State.snapFail_canonical]

theorem execCut_answers (r : Rx) (s : State) : Answers (Canonical s) (execCut r s) := by
  unfold execCut
  grind [State.onCut_answers, State.joinCut_canonical, State.modCtx_canonical, State.passCut_canonical, State.finishCut_canonical]

/-! ### Machine/Snapshots.lean -/

theorem State.modSnap_canonical (s : State) (c : Nat) (f : Snap → Snap) (hs : Canonical s) : Canonical (s.modSnap c f) := hs

theorem State.snapWrite_canonical (s : State) (c : Nat) (f : Snap → Snap) (hs : Canonical s) : Canonical (s.snapWrite c f) := by
  unfold State.snapWrite
  grind [State.modSnap_canonical]

theorem execSnapshotBlockWrite_answers (ld c off n v : Nat) (s : State) :
    Answers (Canonical s) (execSnapshotBlockWrite ld c off n v s) := by
  unfold execSnapshotBlockWrite
  grind [State.onCtx_answers, State.snapWrite_canonical]

theorem execSnap_answers (ld c v : Nat) (s : State) : Answers (Canonical s) (execSnap ld c v s) := by
  unfold execSnap
  grind [State.onCtx_answers, State.snapWrite_canonical, State.modSnap_canonical, State.wake_canonical]

theorem State.writeRanges_canonical (s : State) (c at_ : Nat) (l : List (Nat × Nat × Nat)) (hs : Canonical s) :
    Canonical (s.writeRanges c at_ l) := by
  induction l generalizing s at_ with
  | nil => exact hs
  | cons x l ih =>
    unfold State.writeRanges
    grind [State.putChunk_canonical, canonical_iff, foldl_canonical]

theorem State.writeImage_canonical (s : State) (c : Nat) (i : SnapImage) (hs : Canonical s) : Canonical (s.writeImage c i) := by
  unfold State.writeImage
  grind [State.putChunk_canonical, State.writeArea_canonical, State.writeRanges_canonical]

theorem State.snapDone_canonical (s : State) (c : Nat) (hs : Canonical s) :
    Canonical (s.snapDone c) := State.tellParts_canonical _ _ _ _ _ hs

theorem State.streamImage_canonical (s : State) (c dst : Nat) (i : SnapImage) (hs : Canonical s) :
    Canonical (s.streamImage c dst i) := by
  unfold State.streamImage
  grind [State.sendCell_canonical, foldl_canonical]

theorem State.snapNext_canonical (s : State) (c : Nat) (hs : Canonical s) : Canonical (s.snapNext c) := by
  unfold State.snapNext
  grind [State.snapDone_canonical, State.snapFailAll_canonical, State.streamImage_canonical, State.modSnap_canonical]

theorem execSnapshotWriteComplete_answers (c : Nat) (s : State) : Answers (Canonical s) (execSnapshotWriteComplete c s) := by
  unfold execSnapshotWriteComplete
  grind [State.snapNext_canonical, State.snapFailAll_canonical, State.writeImage_canonical, State.modCtx_canonical, Answers]

theorem execSnapshotRaiseRelease_answers (c : Nat) (s : State) : Answers (Canonical s) (execSnapshotRaiseRelease c s) := by
  unfold execSnapshotRaiseRelease
  grind [State.modSnap_canonical, State.raiseWrite_canonical, Answers]

theorem State.onSnap_answers (s : State) (r : Rx) (tags : List Nat) (f : State → Nat → List Nat → State)
    (hf : ∀ s tag xs, Canonical s → Canonical (f s tag xs)) : Answers (Canonical s) (s.onSnap r tags f) := by
  unfold State.onSnap
  grind [Answers, canonical_iff, State.accept_canonical]

theorem State.takePiece_canonical (s : State) (c src num used off x cut : Nat) (hs : Canonical s) :
    Canonical (s.takePiece c src num used off x cut) := by
  unfold State.takePiece
  grind [State.putChunk_canonical, State.modSnap_canonical, State.tellParts_canonical]

theorem execSnapReceive_answers (r : Rx) (s : State) : Answers (Canonical s) (execSnapReceive r s) := by
  unfold execSnapReceive
  grind [State.onSnap_answers, State.takePiece_canonical, State.snapFailed_canonical, State.modSnap_canonical]

theorem execSnapshotCopyAck_answers (r : Rx) (s : State) : Answers (Canonical s) (execSnapshotCopyAck r s) := by
  unfold execSnapshotCopyAck
  grind [State.onSnap_answers, State.snapDone_canonical]

theorem execSnapshotPartnerTimeout_answers (c : Nat) (s : State) : Answers (Canonical s) (execSnapshotPartnerTimeout c s) := by
  unfold execSnapshotPartnerTimeout
  grind [State.snapFailAll_canonical, Answers]

theorem execRestore_answers (ld c v : Nat) (image : Option SnapImage) (s : State) :
    Answers (Canonical s) (execRestore ld c v image s) := by
  unfold execRestore
  grind [State.onCtx_answers, State.snapWrite_canonical, State.modSnap_canonical]

theorem State.restoreGranule_canonical (s : State) (c g : Nat) (m : Memory) (hs : Canonical s) :
    Canonical (s.restoreGranule c g m) := by
  unfold State.restoreGranule
  grind [State.putChunk_canonical, State.cow_canonical]

theorem State.restoreRanges_canonical (s : State) (c : Nat) (data : Memory) (at_ : Nat) (l : List (Nat × Nat × Nat))
    (hs : Canonical s) : Canonical (s.restoreRanges c data at_ l) := by
  induction l generalizing s at_ with
  | nil => exact hs
  | cons x l ih =>
    unfold State.restoreRanges
    grind [State.restoreGranule_canonical, canonical_iff, foldl_canonical]

theorem State.restoreTeams_canonical (s : State) (c : Nat) (i : SnapImage) (hs : Canonical s) :
    Canonical (s.restoreTeams c i) := by
  unfold State.restoreTeams
  grind [State.dropTeam_canonical, State.freshKey_canonical, State.putGrids_canonical, State.writeArea_canonical,
    State.serveReserves_canonical, State.changeTenant_canonical, State.modCtx_canonical, canonical_iff, foldl_canonical,
    foldl_canonical_fst]

theorem execRestoreComplete_answers (c : Nat) (s : State) : Answers (Canonical s) (execRestoreComplete c s) := by
  unfold execRestoreComplete
  grind [State.restoreTeams_canonical, State.restoreRanges_canonical, State.modCtx_canonical, State.resumed_canonical, Answers]

/-! ### Machine/Links.lean -/

theorem execFabricSlot_answers (port slot : Nat) (s : State) : Answers (Canonical s) (execFabricSlot port slot s) := by
  unfold execFabricSlot
  grind [State.setPort_canonical, Answers]

theorem State.unsend_canonical (s : State) (core id : Nat) (sectors : List Nat) (hs : Canonical s) :
    Canonical (s.unsend core id sectors) := by
  unfold State.unsend
  grind [State.settleStop_canonical, State.setCopy_canonical]

theorem State.modLate_canonical (s : State) (gid : Nat) (f : LateReplies → LateReplies) (hs : Canonical s) :
    Canonical (s.modLate gid f) := hs

theorem State.deliverLate_canonical (s : State) (gid : Nat) (o : Op) (a : LaneAcc) (x : Nat) (hs : Canonical s) :
    Canonical (s.deliverLate gid o a x) := State.deliver_canonical _ _ _ _ _ hs

theorem State.failLate_canonical (s : State) (gid : Nat) (o : Op) (a : LaneAcc) (f : FInfo) (hs : Canonical s) :
    Canonical (s.failLate gid o a f) := State.finishLanes_canonical _ _ _ _ hs

theorem State.ackLate_canonical (s : State) (gid : Nat) (e : SqEntry) (a : LaneAcc) (f : Option FInfo) (hs : Canonical s) :
    Canonical (s.ackLate gid e a f) := State.ackLane_canonical _ _ _ _ hs

theorem State.failRemote_canonical (s : State) (x : Remote) (code : FCode) (late : Bool) (hs : Canonical s) :
    Canonical (s.failRemote x code late) := by
  unfold State.failRemote
  grind [State.failLate_canonical, State.failLanes_canonical, State.ackLate_canonical, State.ackLane_canonical, State.lateFault_canonical,
    State.stopCopy_canonical, State.unsend_canonical, State.modGang_canonical, canonical_iff]

theorem State.answerRemote_canonical (s : State) (x : Remote) (data : Nat) (late : Bool) (hs : Canonical s) :
    Canonical (s.answerRemote x data late) := by
  unfold State.answerRemote
  grind [State.deliverLate_canonical, State.deliver_canonical, State.ackLate_canonical, State.ackLane_canonical,
    State.copyAcked_canonical, State.modGang_canonical, canonical_iff]

theorem State.takeReply_canonical (s : State) (c : Cell) (e : RepEntry) (hs : Canonical s) : Canonical (s.takeReply c e) := by
  unfold State.takeReply
  grind [State.answerRemote_canonical, State.failRemote_canonical]

theorem State.requestPlace_canonical (s : State) (c : Nat) (e : ReqEntry) (hs : Canonical s) :
    Canonical (s.requestPlace c e).1 := by
  unfold State.requestPlace
  grind [State.translateIn_canonical]

theorem State.linePlace_canonical (s : State) (c : Cell) (k : Nat) (hs : Canonical s) : Canonical (s.linePlace c k).1 := by
  unfold State.linePlace
  grind [State.translateIn_canonical]

theorem State.serveRequest_canonical (s : State) (c rseq idx : Nat) (e : ReqEntry) (new : Nat) (hs : Canonical s) :
    Canonical (s.serveRequest c rseq idx e new).1 := by
  unfold State.serveRequest
  grind [State.requestPlace_canonical, State.writeVa_canonical]

/-- What one call of a function by recursion on a list keeps, with calls for the rest that keep it, the function keeps. -/
theorem brecOn_canonical {α β : Type}
    (f : (l : List α) → List.below (motive := fun _ => State → Nat → State × β) l → State → Nat → State × β)
    (nil : ∀ r s n, Canonical s → Canonical (f [] r s n).1)
    (cons : ∀ e l r, (∀ s n, Canonical s → Canonical (r.1 s n).1) → ∀ s n, Canonical s → Canonical (f (e :: l) r s n).1)
    (l : List α) (s : State) (n : Nat) (hs : Canonical s) :
    Canonical (List.brecOn (motive := fun _ => State → Nat → State × β) l f s n).1 := by
  induction l generalizing s n with
  | nil => exact nil _ s n hs
  | cons e l ih => exact cons e l _ ih s n hs

theorem State.serveAll_canonical (s : State) (c : Cell) (n : Nat) (l : List ReqEntry) (hs : Canonical s) :
    Canonical (s.serveAll c n l).1 := by
  delta State.serveAll
  refine brecOn_canonical (State.serveAll._f c) (fun r s n hs => hs) (fun e l r hr s n hs => ?_) l s n hs
  unfold State.serveAll._f
  change Canonical (ite _ _ _ : State × List RepEntry).1
  split
  · exact hr _ _ hs
  · split
    next t a e =>
    have served : Canonical t := canonical_of_eq e (State.serveRequest_canonical _ _ _ _ _ _ hs)
    split
    next e => exact canonical_of_eq e (hr t (n + 1) served)

theorem State.serveCell_canonical (s : State) (c : Cell) (es : List ReqEntry) (hs : Canonical s) :
    Canonical (s.serveCell c es) := by
  unfold State.serveCell
  grind [State.serveAll_canonical, State.reply_canonical]

theorem State.onCell_answers (s : State) (r : Rx) (type : Nat) (f : State → Cell → State)
    (hf : ∀ s c, Canonical s → Canonical (f s c)) : Answers (Canonical s) (s.onCell r type f) := by
  unfold State.onCell
  grind [Answers, canonical_iff, State.accept_canonical]

theorem execSmallReceive_answers (r : Rx) (s : State) : Answers (Canonical s) (execSmallReceive r s) := by
  unfold execSmallReceive
  grind [State.onCell_answers, State.serveCell_canonical, State.takeReply_canonical, canonical_iff, foldl_canonical]

theorem State.writeLine_canonical (s : State) (c : Cell) (place : Nat → State × Except FCode (Nat × Loc))
    (l : List (Nat × Nat)) (hs : Canonical s) : Canonical (s.writeLine c place l).1 := by
  induction l generalizing s with
  | nil => exact hs
  | cons x l ih =>
    unfold State.writeLine
    grind [State.writeVa_canonical]

theorem execLineWrReceive_answers (r : Rx) (s : State) : Answers (Canonical s) (execLineWrReceive r s) := by
  unfold execLineWrReceive
  grind [State.onCell_answers, State.reply_canonical, State.writeLine_canonical, State.modPhb_canonical]

theorem execLineRqReceive_answers (r : Rx) (s : State) : Answers (Canonical s) (execLineRqReceive r s) := by
  unfold execLineRqReceive
  grind [State.onCell_answers, State.requestPlace_canonical, State.reply_canonical, State.sendCell_canonical, foldl_canonical]

theorem execLineDataReceive_answers (r : Rx) (s : State) : Answers (Canonical s) (execLineDataReceive r s) := by
  refine State.onCell_answers _ _ _ _ fun s c hs => ?_
  dsimp only
  split
  · split
    · split
      · exact canonical_of_dmem rfl hs
      · exact State.setCopy_canonical _ _ _ _ (canonical_of_dmem rfl hs)
    · exact hs
  · exact hs

theorem State.portDown_canonical (s : State) (port : Nat) (hs : Canonical s) : Canonical (s.portDown port) := by
  unfold State.portDown
  grind [State.setPort_canonical, State.modPort_canonical, foldl_canonical]

theorem execLinkAck_answers (port lseq : Nat) (s : State) : Answers (Canonical s) (execLinkAck port lseq s) := by
  unfold execLinkAck
  grind [State.setPort_canonical, Answers]

theorem State.resendFrom_canonical (s : State) (port lseq : Nat) (hs : Canonical s) : Canonical (s.resendFrom port lseq) := by
  unfold State.resendFrom
  grind [State.setPort_canonical, State.portDown_canonical]

theorem execLinkNak_answers (port lseq : Nat) (s : State) :
    Answers (Canonical s) (execLinkNak port lseq s) := answers_next fun hs => State.resendFrom_canonical _ _ _ hs

theorem execLinkReplayTimeout_answers (port : Nat) (s : State) : Answers (Canonical s) (execLinkReplayTimeout port s) := by
  unfold execLinkReplayTimeout
  grind [State.resendFrom_canonical, Answers]

theorem execCellCrcFail_answers (port : Nat) (header : Bool) (s : State) :
    Answers (Canonical s) (execCellCrcFail port header s) := answers_next id

theorem execTailxReceive_answers (port lseq : Nat) (s : State) :
    Answers (Canonical s) (execTailxReceive port lseq s) := answers_next id

theorem State.departPart_canonical (s : State) (part : Nat) (hs : Canonical s) : Canonical (s.departPart part) := by
  unfold State.departPart
  grind [State.modWindow_canonical, State.haltWbars_canonical, foldl_canonical]

theorem State.partDown_canonical (s : State) (part : Nat) (hs : Canonical s) : Canonical (s.partDown part) := by
  unfold State.partDown
  grind [State.failRemote_canonical, State.departPart_canonical, State.preemptDecide_canonical, State.finishCut_canonical,
    State.snapFailAll_canonical, canonical_iff, foldl_canonical]

theorem execPeerDownTimeout_answers (part : Nat) (s : State) : Answers (Canonical s) (execPeerDownTimeout part s) := by
  unfold execPeerDownTimeout
  grind [State.partDown_canonical, Answers]

theorem execRemoteReplyTimeout_answers (part plane seq idx : Nat) (s : State) :
    Answers (Canonical s) (execRemoteReplyTimeout part plane seq idx s) := by
  unfold execRemoteReplyTimeout
  grind [State.failRemote_canonical, Answers]

end Sys2Proof.Machine
end

section
/-! ## The memory invariant: the host's side and every step

The host's events, the table of instructions and the events the machine waits for; then the step itself. -/

namespace Sys2Proof.Machine
open Sys2Proof.Claims

/-! ### Machine/HostSide.lean -/

theorem State.fetchAhead_canonical (s : State) (core c va : Nat) (hs : Canonical s) : Canonical (s.fetchAhead core c va) := by
  unfold State.fetchAhead
  grind [State.modCore_canonical, State.specMiss_canonical, State.lookingAhead_canonical]

theorem execFetchBlock_answers (core c va : Nat) (s : State) :
    Answers (Canonical s) (execFetchBlock core c va s) := answers_next fun hs => State.fetchAhead_canonical _ _ _ _ hs

theorem State.answer_canonical (s : State) (v : Nat) (hs : Canonical s) : Canonical (s.answer v) := hs
theorem execTlStaleRead_answers (ld : Nat) (s : State) : Answers (Canonical s) (execTlStaleRead ld s) := answers_next id

theorem execFqLostRead_answers (ld c : Nat) (s : State) : Answers (Canonical s) (execFqLostRead ld c s) := by
  unfold execFqLostRead
  grind [State.answer_canonical, State.modCtx_canonical, Answers]

theorem execFqSpecRead_answers (ld c : Nat) (s : State) : Answers (Canonical s) (execFqSpecRead ld c s) := by
  unfold execFqSpecRead
  grind [State.answer_canonical, State.modCtx_canonical, Answers]

theorem execHostAstatRead_answers (ld : Nat) (s : State) :
    Answers (Canonical s) (execHostAstatRead ld s) := answers_next fun hs => State.answer_canonical _ _ hs

theorem execPortCounterRead_answers (port : Nat) (s : State) : Answers (Canonical s) (execPortCounterRead port s) := by
  unfold execPortCounterRead
  grind [State.answer_canonical, State.modPort_canonical, Answers]

theorem State.queueDword_canonical (s : State) (q off : Nat) (more : Bool) (f : Nat → Nat) (hs : Canonical s) :
    Canonical (s.queueDword q off more f) := by
  unfold State.queueDword
  grind [State.ctlWrite_canonical, State.modQueue_canonical, State.setQueue_canonical]

theorem State.mgmtDword_canonical (s : State) (fw : Bool) (off : Nat) (f : Nat → Nat) (hs : Canonical s) :
    Canonical (s.mgmtDword fw off f) := by
  unfold State.mgmtDword
  grind [State.modPort_canonical, canonical_iff]

theorem State.ctxDword_canonical (s : State) (ld off : Nat) (f : Nat → Nat) (hs : Canonical s) :
    Canonical (s.ctxDword ld off f) := by
  unfold State.ctxDword
  grind [State.modCtx_canonical]

theorem State.writeDword_canonical (s : State) (ld off : Nat) (more : Bool) (f : Nat → Nat) (hs : Canonical s) :
    Canonical (s.writeDword ld off more f) := by
  unfold State.writeDword
  dsimp only
  split_ifs
  · exact State.mgmtDword_canonical _ _ _ _ hs
  · exact hs
  · exact hs
  · exact State.onQueue_canonical _ _ _ _ (fun s hs => State.queueDword_canonical _ _ _ _ _ hs) hs
  · exact hs
  · exact State.ctxDword_canonical _ _ _ _ hs
  all_goals exact hs

theorem State.writeRegs_canonical (s : State) (ld off v n : Nat) (hs : Canonical s) : Canonical (s.writeRegs ld off v n) := by
  unfold State.writeRegs
  grind [State.writeDword_canonical]

theorem execRegisterWrite_answers (ld off n v : Nat) (s : State) :
    Answers (Canonical s) (execRegisterWrite ld off n v s) := answers_next fun hs => State.writeRegs_canonical _ _ _ _ _ hs

theorem execFwErrClear_answers (s : State) : Answers (Canonical s) (execFwErrClear s) := answers_next id

theorem execHostTranslationAnswer_answers (m : HostMap) (s : State) :
    Answers (Canonical s) (execHostTranslationAnswer m s) := by
  unfold execHostTranslationAnswer
  grind [State.specMiss_canonical, canonical_iff, foldl_canonical, Answers]

theorem execHostTranslationInvalidate_answers (ld va : Nat) (s : State) :
    Answers (Canonical s) (execHostTranslationInvalidate ld va s) := by
  unfold execHostTranslationInvalidate
  grind [canonical_iff, Answers]

theorem execTimelineHostRead_answers (ld off : Nat) (s : State) : Answers (Canonical s) (execTimelineHostRead ld off s) := by
  unfold execTimelineHostRead
  grind [State.answer_canonical, canonical_iff, Answers]

theorem execTimelineHostStore_answers (ld off : Nat) (s : State) : Answers (Canonical s) (execTimelineHostStore ld off s) := by
  unfold execTimelineHostStore
  grind [State.modLdev_canonical, Answers]

theorem State.loseAtomicOp_canonical (s : State) (x : AtomicOp) (hs : Canonical s) : Canonical (s.loseAtomicOp x) := by
  unfold State.loseAtomicOp
  grind [State.failLanes_canonical, canonical_iff]

theorem execHostLinkDown_answers (link : LinkDown) (s : State) : Answers (Canonical s) (execHostLinkDown link s) := by
  unfold execHostLinkDown
  grind [State.loseAtomicOp_canonical, canonical_iff, foldl_canonical, Answers]

theorem execLdBind_answers (ld host : Nat) (link : Fin 2) (width rate tlfirst tlcount qfirst qcount : Nat) (cache : Bool)
    (s : State) : Answers (Canonical s) (execLdBind ld host link width rate tlfirst tlcount qfirst qcount cache s) := by
  unfold execLdBind
  grind [State.setLdev_canonical, Answers]

theorem State.coldState_canonical (s : State) : Canonical s.coldState := Memory.wf_nil

theorem execColdReset_answers (s : State) :
    Answers (Canonical s) (execColdReset s) := answers_next fun _ => State.coldState_canonical s

theorem execWarmReset_answers (ld v : Nat) (s : State) : Answers (Canonical s) (execWarmReset ld v s) := by
  unfold execWarmReset
  grind [State.coldState_canonical, canonical_iff, Answers]

theorem execMemoryZeroDone_answers (s : State) : Answers (Canonical s) (execMemoryZeroDone s) := answers_next id

theorem State.departCtx_canonical (s : State) (c : Nat) (hs : Canonical s) : Canonical (s.departCtx c) := by
  unfold State.departCtx
  grind [State.setMember_canonical, foldl_canonical]

theorem State.giveUp_canonical (s : State) (c : Nat) (hs : Canonical s) : Canonical (s.giveUp c) := by
  unfold State.giveUp
  grind [State.departCtx_canonical, State.startDiscard_canonical, State.modCtx_canonical, canonical_iff]

theorem State.resetMgmt_canonical (s : State) (hs : Canonical s) : Canonical s.resetMgmt := hs

theorem State.resetLd_canonical (s : State) (ld : Nat) (hs : Canonical s) : Canonical (s.resetLd ld) := by
  unfold State.resetLd
  grind [State.disableQueue_canonical, State.giveUp_canonical, State.setQueue_canonical, State.setLdev_canonical,
    State.resetMgmt_canonical, canonical_iff, foldl_canonical]

theorem execLogicalDeviceReset_answers (ld : Nat) (s : State) : Answers (Canonical s) (execLogicalDeviceReset ld s) := by
  unfold execLogicalDeviceReset
  grind [State.resetLd_canonical, Answers]

theorem State.hostPages_canonical (s : State) (ld va n : Nat) (hs : Canonical s) : Canonical (s.hostPages ld va n).1 := by
  induction n generalizing s with
  | zero => exact hs
  | succ n ih =>
    unfold State.hostPages
    grind [State.translateHost_canonical, canonical_iff]

theorem State.fwErr_canonical (s : State) (e : Nat) (hs : Canonical s) : Canonical (s.fwErr e) := hs

theorem execFirmwareLoad_answers (ld : Nat) (s : State) : Answers (Canonical s) (execFirmwareLoad ld s) := by
  unfold execFirmwareLoad
  grind [State.fwErr_canonical, canonical_iff, Answers]

theorem execFirmwareStop_answers (ld : Nat) (s : State) : Answers (Canonical s) (execFirmwareStop ld s) := by
  unfold execFirmwareStop
  grind [State.fwErr_canonical, canonical_iff, Answers]

theorem State.imageBad_canonical (s : State) (hs : Canonical s) : Canonical s.imageBad.1 := by
  have first := State.hostPages_canonical s 0 s.fw.addr 1 hs
  unfold State.imageBad
  split
  · next e => rw [e] at first; exact first
  · next t m e =>
    rw [e] at first
    split
    · exact first
    · next len sig _ =>
      have whole := State.hostPages_canonical t 0 t.fw.addr ((0x600 + len + 4095) / 4096) first
      split
      · next e => rw [e] at whole; exact whole
      · next e => rw [e] at whole; exact whole

theorem State.runImage_canonical (s : State) (hs : Canonical s) : Canonical s.runImage := by
  unfold State.runImage
  grind [State.imageBad_canonical, State.setGang_canonical, canonical_iff]

theorem execFirmwareLoadComplete_answers (s : State) : Answers (Canonical s) (execFirmwareLoadComplete s) := by
  unfold execFirmwareLoadComplete
  grind [State.accessing_canonical, State.runImage_canonical, Answers]

theorem execAttest_answers (ld v : Nat) (s : State) : Answers (Canonical s) (execAttest ld v s) := by
  unfold execAttest
  grind [State.modLdev_canonical, Answers]

theorem State.putHostPages_canonical (s : State) (ld va : Nat) (m : Memory) (n : Nat) (hs : Canonical s) :
    Canonical (s.putHostPages ld va m n) := by
  unfold State.putHostPages
  grind [State.translateHost_canonical, canonical_iff, foldl_canonical]

theorem execAttestReportDone_answers (ld : Nat) (s : State) : Answers (Canonical s) (execAttestReportDone ld s) := by
  unfold execAttestReportDone
  grind [State.accessing_canonical, State.hostPages_canonical, State.modLdev_canonical, State.putHostPages_canonical, Answers]

theorem execFeatureRequest_answers (ld v : Nat) (s : State) : Answers (Canonical s) (execFeatureRequest ld v s) := by
  unfold execFeatureRequest
  grind [State.modLdev_canonical, Answers]

theorem execFeatureNegotiationDone_answers (ld : Nat) (s : State) :
    Answers (Canonical s) (execFeatureNegotiationDone ld s) := by
  unfold execFeatureNegotiationDone
  grind [State.setLdev_canonical, Answers]

theorem execPwrCapWrite_answers (ld v : Nat) (s : State) : Answers (Canonical s) (execPwrCapWrite ld v s) := by
  unfold execPwrCapWrite
  grind [canonical_iff, Answers]

theorem execArouteWrite_answers (ld v : Nat) (s : State) : Answers (Canonical s) (execArouteWrite ld v s) := answers_next id

/-! ### Machine/Dispatch.lean -/

theorem exec_answers (i : Instr) (s : State) : Answers (Canonical s) (exec i s) := by
  cases i with
  | sadd d a b => exact execSadd_answers d a b s
  | ssub d a b => exact execSsub_answers d a b s
  | smul d a b => exact execSmul_answers d a b s
  | smulhI64 d a b => exact execSmulhI64_answers d a b s
  | smulhN64 d a b => exact execSmulhN64_answers d a b s
  | sdivI64 d a b => exact execSdivI64_answers d a b s
  | sdivN64 d a b => exact execSdivN64_answers d a b s
  | sremI64 d a b => exact execSremI64_answers d a b s
  | sremN64 d a b => exact execSremN64_answers d a b s
  | sand d a b => exact execSand_answers d a b s
  | sor d a b => exact execSor_answers d a b s
  | sxor d a b => exact execSxor_answers d a b s
  | snot d a => exact execSnot_answers d a s
  | sshl d a b => exact execSshl_answers d a b s
  | sshr d a b => exact execSshr_answers d a b s
  | ssra d a b => exact execSsra_answers d a b s
  | smin d a b => exact execSmin_answers d a b s
  | smax d a b => exact execSmax_answers d a b s
  | sminn d a b => exact execSminn_answers d a b s
  | smaxn d a b => exact execSmaxn_answers d a b s
  | ssel d a b => exact execSsel_answers d a b s
  | smov d a => exact execSmov_answers d a s
  | sclz d a => exact execSclz_answers d a s
  | spopc d a => exact execSpopc_answers d a s
  | sbfxI64 d a b => exact execSbfxI64_answers d a b s
  | sbfxN64 d a b => exact execSbfxN64_answers d a b s
  | sbfi d a b => exact execSbfi_answers d a b s
  | scmp c d a b => exact execScmp_answers c d a b s
  | sli d im => exact execSli_answers d im s
  | slit d lit => exact execSlit_answers d lit s
  | slitN32 d lit => exact execSlitN32_answers d lit s
  | aset d b im => exact execAset_answers d b im s
  | aadd d a b im => exact execAadd_answers d a b im s
  | astr d a b => exact execAstr_answers d a b s
  | amul d a b im => exact execAmul_answers d a b im s
  | aidx d a im => exact execAidx_answers d a im s
  | aget a v => exact execAget_answers a v s
  | pand d a b => exact execPand_answers d a b s
  | por d a b => exact execPor_answers d a b s
  | pxor d a b => exact execPxor_answers d a b s
  | pnot d a => exact execPnot_answers d a s
  | pmov d a => exact execPmov_answers d a s
  | pcnt a sa => exact execPcnt_answers a sa s
  | vaddVv d a b => exact execVaddVv_answers d a b s
  | vaddVx d a x => exact execVaddVx_answers d a x s
  | vsubVv d a b => exact execVsubVv_answers d a b s
  | vsubVx d a x => exact execVsubVx_answers d a x s
  | vmulVv d a b => exact execVmulVv_answers d a b s
  | vmulVx d a x => exact execVmulVx_answers d a x s
  | vmulhI32Vv d a b => exact execVmulhI32Vv_answers d a b s
  | vmulhI32Vx d a x => exact execVmulhI32Vx_answers d a x s
  | vmulhN32Vv d a b => exact execVmulhN32Vv_answers d a b s
  | vmulhN32Vx d a x => exact execVmulhN32Vx_answers d a x s
  | vmadVv d a b => exact execVmadVv_answers d a b s
  | vmadVx d a x => exact execVmadVx_answers d a x s
  | vsaddI32Vv d a b => exact execVsaddI32Vv_answers d a b s
  | vsaddI32Vx d a x => exact execVsaddI32Vx_answers d a x s
  | vsaddN32Vv d a b => exact execVsaddN32Vv_answers d a b s
  | vsaddN32Vx d a x => exact execVsaddN32Vx_answers d a x s
  | vssubI32Vv d a b => exact execVssubI32Vv_answers d a b s
  | vssubI32Vx d a x => exact execVssubI32Vx_answers d a x s
  | vssubN32Vv d a b => exact execVssubN32Vv_answers d a b s
  | vssubN32Vx d a x => exact execVssubN32Vx_answers d a x s
  | vminVv d a b => exact execVminVv_answers d a b s
  | vminVx d a x => exact execVminVx_answers d a x s
  | vmaxVv d a b => exact execVmaxVv_answers d a b s
  | vmaxVx d a x => exact execVmaxVx_answers d a x s
  | vminnVv d a b => exact execVminnVv_answers d a b s
  | vminnVx d a x => exact execVminnVx_answers d a x s
  | vmaxnVv d a b => exact execVmaxnVv_answers d a b s
  | vmaxnVx d a x => exact execVmaxnVx_answers d a x s
  | vandVv d a b => exact execVandVv_answers d a b s
  | vandVx d a x => exact execVandVx_answers d a x s
  | vorVv d a b => exact execVorVv_answers d a b s
  | vorVx d a x => exact execVorVx_answers d a x s
  | vxorVv d a b => exact execVxorVv_answers d a b s
  | vxorVx d a x => exact execVxorVx_answers d a x s
  | vshlVv d a b => exact execVshlVv_answers d a b s
  | vshlVx d a x => exact execVshlVx_answers d a x s
  | vshrVv d a b => exact execVshrVv_answers d a b s
  | vshrVx d a x => exact execVshrVx_answers d a x s
  | vsraVv d a b => exact execVsraVv_answers d a b s
  | vsraVx d a x => exact execVsraVx_answers d a x s
  | vbfxI32Vv d a b => exact execVbfxI32Vv_answers d a b s
  | vbfxI32Vx d a x => exact execVbfxI32Vx_answers d a x s
  | vbfxN32Vv d a b => exact execVbfxN32Vv_answers d a b s
  | vbfxN32Vx d a x => exact execVbfxN32Vx_answers d a x s
  | vbfiVv d a b => exact execVbfiVv_answers d a b s
  | vbfiVx d a x => exact execVbfiVx_answers d a x s
  | vsel p d a b => exact execVsel_answers p d a b s
  | vnot d a => exact execVnot_answers d a s
  | vabs d a => exact execVabs_answers d a s
  | vneg d a => exact execVneg_answers d a s
  | vclz d a => exact execVclz_answers d a s
  | vpopc d a => exact execVpopc_answers d a s
  | vmov d a => exact execVmov_answers d a s
  | vli d x => exact execVli_answers d x s
  | vcmpVv c p a b => exact execVcmpVv_answers c p a b s
  | vcmpVx c p a x => exact execVcmpVx_answers c p a x s
  | vshflIdx d a b => exact execVshflIdx_answers d a b s
  | vshflIdxChk d a b => exact execVshflIdxChk_answers d a b s
  | vredAdd d a => exact execVredAdd_answers d a s
  | vredMin d a => exact execVredMin_answers d a s
  | vredMax d a => exact execVredMax_answers d a s
  | vscanAdd d a => exact execVscanAdd_answers d a s
  | vballot d p => exact execVballot_answers d p s
  | vvoteAny d p => exact execVvoteAny_answers d p s
  | vvoteAll d p => exact execVvoteAll_answers d p s
  | vshflUp d a x => exact execVshflUp_answers d a x s
  | vshflUpChk d a x => exact execVshflUpChk_answers d a x s
  | vshflDn d a x => exact execVshflDn_answers d a x s
  | vshflDnChk d a x => exact execVshflDnChk_answers d a x s
  | vshflXor d a x => exact execVshflXor_answers d a x s
  | vshflXorChk d a x => exact execVshflXorChk_answers d a x s
  | vbcast d a x => exact execVbcast_answers d a x s
  | vbcastChk d a x => exact execVbcastChk_answers d a x s
  | fadd t d a b => exact execFadd_answers t d a b s
  | fsub t d a b => exact execFsub_answers t d a b s
  | fmul t d a b => exact execFmul_answers t d a b s
  | ffma t d a b => exact execFfma_answers t d a b s
  | fmin t d a b => exact execFmin_answers t d a b s
  | fmax t d a b => exact execFmax_answers t d a b s
  | fabs t d a => exact execFabs_answers t d a s
  | fneg t d a => exact execFneg_answers t d a s
  | frcp t d a => exact execFrcp_answers t d a s
  | frsq t d a => exact execFrsq_answers t d a s
  | fsqrt t d a => exact execFsqrt_answers t d a s
  | fexp2 t d a => exact execFexp2_answers t d a s
  | flog2 t d a => exact execFlog2_answers t d a s
  | fround t d a r => exact execFround_answers t d a r s
  | fcmp c t p a b => exact execFcmp_answers c t p a b s
  | cvt y d a x sa => exact execCvt_answers y d a x sa s
  | cvtp sa d a b => exact execCvtp_answers sa d a b s
  | ldGlobal z d a v c => exact execLdGlobal_answers z d a v c s
  | stGlobal z d a v c => exact execStGlobal_answers z d a v c s
  | pf a v => exact execPf_answers a v s
  | ldWindow z d a v c => exact execLdWindow_answers z d a v c s
  | stWindow z d a v c => exact execStWindow_answers z d a v c s
  | ldLocal z d a v p => exact execLdLocal_answers z d a v p s
  | stLocal z d a v p => exact execStLocal_answers z d a v p s
  | atomGlobal32 o d a v c => exact execAtomGlobal32_answers o d a v c s
  | atomGlobal64 o d a v c => exact execAtomGlobal64_answers o d a v c s
  | atomLocal32 o d a v c => exact execAtomLocal32_answers o d a v c s
  | atomLocal64 o d a v c => exact execAtomLocal64_answers o d a v c s
  | rld w d a p c => exact execRld_answers w d a p c s
  | rst w d a p c => exact execRst_answers w d a p c s
  | ratom o d a p c => exact execRatom_answers o d a p c s
  | cpy x a b c y => exact execCpy_answers x a b c y s
  | cpyc x a b c y => exact execCpyc_answers x a b c y s
  | cpyq a b => exact execCpyq_answers a b s
  | cpys y a b c => exact execCpys_answers y a b c s
  | cpyst a b => exact execCpyst_answers a b s
  | cpyres a => exact execCpyres_answers a s
  | cpycan a => exact execCpycan_answers a s
  | tmm x a b c => exact execTmm_answers x a b c s
  | tmms x a b c => exact execTmms_answers x a b c s
  | tzero a => exact execTzero_answers a s
  | tepi x a b c => exact execTepi_answers x a b c s
  | ttrn a b => exact execTtrn_answers a b s
  | rsinit a b c => exact execRsinit_answers a b c s
  | rsaddVector x a b c => exact execRsaddVector_answers x a b c s
  | rsaddAb x a b c => exact execRsaddAb_answers x a b c s
  | rsnorm x a b c => exact execRsnorm_answers x a b c s
  | rsnormReel x a b c => exact execRsnormReel_answers x a b c s
  | rsq a b => exact execRsq_answers a b s
  | rssave f a b => exact execRssave_answers f a b s
  | rsload f a b c => exact execRsload_answers f a b c s
  | rsfenceTeam => exact execRsfenceTeam_answers s
  | rsfenceSet => exact execRsfenceSet_answers s
  | rsfenceReel => exact execRsfenceReel_answers s
  | cred x a b c o => exact execCred_answers x a b c o s
  | cbc x a b c => exact execCbc_answers x a b c s
  | cgat x a b c => exact execCgat_answers x a b c s
  | vdist x a b c => exact execVdist_answers x a b c s
  | topk a b c => exact execTopk_answers a b c s
  | topkm a b c => exact execTopkm_answers a b c s
  | topkr a b c => exact execTopkr_answers a b c s
  | nop => exact execNop_answers s
  | exit => exact execExit_answers s
  | yield => exact execYield_answers s
  | brk c => exact execBrk_answers c s
  | join => exact execJoin_answers s
  | elect p => exact execElect_answers p s
  | regang m => exact execRegang_answers m s
  | regangWait m => exact execRegangWait_answers m s
  | ret => exact execRet_answers s
  | jmp v => exact execJmp_answers v s
  | launch sa => exact execLaunch_answers sa s
  | ljoin sa => exact execLjoin_answers sa s
  | wdetach => exact execWdetach_answers s
  | wmember sa => exact execWmember_answers sa s
  | pwreq c => exact execPwreq_answers c s
  | pwreqYield c => exact execPwreqYield_answers c s
  | pwrel => exact execPwrel_answers s
  | fence o c => exact execFence_answers o c s
  | waitcnt l sa c t y => exact execWaitcnt_answers l sa c t y s
  | br o => exact execBr_answers o s
  | brc p o => exact execBrc_answers p o s
  | call o => exact execCall_answers o s
  | jpt o => exact execJpt_answers o s
  | bar sa im => exact execBar_answers sa im s
  | phbinit a n => exact execPhbinit_answers a n s
  | phbarr a => exact execPhbarr_answers a s
  | phbexp sa a => exact execPhbexp_answers sa a s
  | phbtest a d h => exact execPhbtest_answers a d h s
  | phbwait a h => exact execPhbwait_answers a h s
  | wbar => exact execWbar_answers s
  | tlsig a b => exact execTlsig_answers a b s
  | tlwait a b => exact execTlwait_answers a b s
  | tlread d a => exact execTlread_answers d a s
  | qpost a b => exact execQpost_answers a b s
  | qtail a b => exact execQtail_answers a b s
  | sysrd sa r => exact execSysrd_answers sa r s
  | syswr sa r => exact execSyswr_answers sa r s
  | svc v => exact execSvc_answers v s
  | hret sa => exact execHret_answers sa s
  | pgmap sa => exact execPgmap_answers sa s
  | pginv sa => exact execPginv_answers sa s
  | fltrd sa w => exact execFltrd_answers sa w s
  | qfetch sa => exact execQfetch_answers sa s
  | qdisp => exact execQdisp_answers s
  | qcomp => exact execQcomp_answers s
  | fetchBlock core c va => exact execFetchBlock_answers core c va s
  | nopPacket q => exact execNopPacket_answers q s
  | launchPacket q => exact execLaunchPacket_answers q s
  | waitPacket q => exact execWaitPacket_answers q s
  | signalPacket q => exact execSignalPacket_answers q s
  | barrierPacket q => exact execBarrierPacket_answers q s
  | writePacket q => exact execWritePacket_answers q s
  | headWriteback q => exact execHeadWriteback_answers q s
  | completionEntryWrite q => exact execCompletionEntryWrite_answers q s
  | cqCoalesceTimer q => exact execCqCoalesceTimer_answers q s
  | fwVisitTimeout => exact execFwVisitTimeout_answers s
  | fwImemUncorrectable addr => exact execFwImemUncorrectable_answers addr s
  | queueTableUncorrectable q => exact execQueueTableUncorrectable_answers q s
  | tailWrite ld q width value => exact execTailWrite_answers ld q width value s
  | queueEnable ld q v => exact execQueueEnable_answers ld q v s
  | queueDisable ld q v => exact execQueueDisable_answers ld q v s
  | contextBind ld q v => exact execContextBind_answers ld q v s
  | cqheadWrite ld q v => exact execCqheadWrite_answers ld q v s
  | qStaleRead ld q => exact execQStaleRead_answers ld q s
  | nrejRead ld q => exact execNrejRead_answers ld q s
  | tlStaleRead ld => exact execTlStaleRead_answers ld s
  | fqLostRead ld c => exact execFqLostRead_answers ld c s
  | fqSpecRead ld c => exact execFqSpecRead_answers ld c s
  | hostAstatRead ld => exact execHostAstatRead_answers ld s
  | portCounterRead port => exact execPortCounterRead_answers port s
  | notwinRead ld c => exact execNotwinRead_answers ld c s
  | fwErrClear => exact execFwErrClear_answers s
  | registerWrite ld off n v => exact execRegisterWrite_answers ld off n v s
  | placementDecision saved k im choice => exact execPlacementDecision_answers saved k im choice s
  | reserve r => exact execReserve_answers r s
  | grant r => exact execGrant_answers r s
  | commit r => exact execCommit_answers r s
  | placed r => exact execPlaced_answers r s
  | start r => exact execStart_answers r s
  | revoke r => exact execRevoke_answers r s
  | refuse r => exact execRefuse_answers r s
  | refuseFinal r => exact execRefuseFinal_answers r s
  | release r => exact execRelease_answers r s
  | reserveHoldTimeout key => exact execReserveHoldTimeout_answers key s
  | reserveAnswerTimeout key part => exact execReserveAnswerTimeout_answers key part s
  | reserveRetry key => exact execReserveRetry_answers key s
  | deficitRefill => exact execDeficitRefill_answers s
  | activeSetIdleEvict gid => exact execActiveSetIdleEvict_answers gid s
  | activeQuantumExpire gid => exact execActiveQuantumExpire_answers gid s
  | gangSwapComplete gid => exact execGangSwapComplete_answers gid s
  | splitUnpark gid k => exact execSplitUnpark_answers gid k s
  | powerGrant => exact execPowerGrant_answers s
  | powerOverLimit => exact execPowerOverLimit_answers s
  | powerThrottleClear => exact execPowerThrottleClear_answers s
  | loadReturn gid seq lane evict => exact execLoadReturn_answers gid seq lane evict s
  | storeAck gid seq lane => exact execStoreAck_answers gid seq lane s
  | atomicReturn gid seq lane => exact execAtomicReturn_answers gid seq lane s
  | recallComplete gid seq lane store => exact execRecallComplete_answers gid seq lane store s
  | pageWalkComplete core c va => exact execPageWalkComplete_answers core c va s
  | copySectorWrite core idx sector => exact execCopySectorWrite_answers core idx sector s
  | copyComplete core idx => exact execCopyComplete_answers core idx s
  | copyFault core idx sector ecc => exact execCopyFault_answers core idx sector ecc s
  | nvmeCompletion core id pos status block data => exact execNvmeCompletion_answers core id pos status block data s
  | tileOpComplete team => exact execTileOpComplete_answers team s
  | tileOpFault team ecc => exact execTileOpFault_answers team ecc s
  | streamOpComplete team seq => exact execStreamOpComplete_answers team seq s
  | streamOpFault team seq ecc => exact execStreamOpFault_answers team seq ecc s
  | searchOpComplete core => exact execSearchOpComplete_answers core s
  | searchOpFault core => exact execSearchOpFault_answers core s
  | collectiveComplete team tag k => exact execCollectiveComplete_answers team tag k s
  | svcDone core slot => exact execSvcDone_answers core slot s
  | gangSwapOut gid => exact execGangSwapOut_answers gid s
  | gangSwapIn gid => exact execGangSwapIn_answers gid s
  | teamSlotFree team => exact execTeamSlotFree_answers team s
  | gridRetire k => exact execGridRetire_answers k s
  | gangResume ld c => exact execGangResume_answers ld c s
  | gangEnd ld c => exact execGangEnd_answers ld c s
  | preempt ld c brk => exact execPreempt_answers ld c brk s
  | preemptSaveComplete c => exact execPreemptSaveComplete_answers c s
  | contextResume ld c brk => exact execContextResume_answers ld c brk s
  | twin ld c brk => exact execTwin_answers ld c brk s
  | twinWriteComplete c core => exact execTwinWriteComplete_answers c core s
  | step ld c brk => exact execStep_answers ld c brk s
  | stepComplete c => exact execStepComplete_answers c s
  | rival ld c brk => exact execRival_answers ld c brk s
  | discard ld c brk => exact execDiscard_answers ld c brk s
  | ccMemaWrite ld c v => exact execCcMemaWrite_answers ld c v s
  | ccMemdRead ld c => exact execCcMemdRead_answers ld c s
  | ccMemdWrite ld c v => exact execCcMemdWrite_answers ld c v s
  | cut r => exact execCut_answers r s
  | cowCopy c va => exact execCowCopy_answers c va s
  | frameReturn c => exact execFrameReturn_answers c s
  | snap ld c v => exact execSnap_answers ld c v s
  | restore ld c v image => exact execRestore_answers ld c v image s
  | restoreComplete c => exact execRestoreComplete_answers c s
  | snapshotBlockWrite ld c off n v => exact execSnapshotBlockWrite_answers ld c off n v s
  | snapshotRaiseRelease c => exact execSnapshotRaiseRelease_answers c s
  | snapshotWriteComplete c => exact execSnapshotWriteComplete_answers c s
  | snapReceive r => exact execSnapReceive_answers r s
  | snapshotCopyAck r => exact execSnapshotCopyAck_answers r s
  | snapshotPartnerTimeout c => exact execSnapshotPartnerTimeout_answers c s
  | fabricSlot port slot => exact execFabricSlot_answers port slot s
  | lineWrReceive r => exact execLineWrReceive_answers r s
  | lineRqReceive r => exact execLineRqReceive_answers r s
  | lineDataReceive r => exact execLineDataReceive_answers r s
  | smallReceive r => exact execSmallReceive_answers r s
  | collReceive r => exact execCollReceive_answers r s
  | mcastReceive r => exact execMcastReceive_answers r s
  | streamReceive r => exact execStreamReceive_answers r s
  | wbarReceive r => exact execWbarReceive_answers r s
  | wstateReceive r => exact execWstateReceive_answers r s
  | linkAck port lseq => exact execLinkAck_answers port lseq s
  | linkNak port lseq => exact execLinkNak_answers port lseq s
  | linkReplayTimeout port => exact execLinkReplayTimeout_answers port s
  | cellCrcFail port header => exact execCellCrcFail_answers port header s
  | tailxReceive port lseq => exact execTailxReceive_answers port lseq s
  | peerDownTimeout part => exact execPeerDownTimeout_answers part s
  | remoteReplyTimeout part plane seq idx => exact execRemoteReplyTimeout_answers part plane seq idx s
  | hostSnoop ld ha n data => exact execHostSnoop_answers ld ha n data s
  | hostTranslationAnswer m => exact execHostTranslationAnswer_answers m s
  | hostTranslationInvalidate ld va => exact execHostTranslationInvalidate_answers ld va s
  | zeroLengthReadComplete ld page n => exact execZeroLengthReadComplete_answers ld page n s
  | atomicopCompletion ld ha ur status => exact execAtomicopCompletion_answers ld ha ur status s
  | atomicopTimeout ld ha => exact execAtomicopTimeout_answers ld ha s
  | timelineHostRead ld off => exact execTimelineHostRead_answers ld off s
  | timelineHostStore ld off => exact execTimelineHostStore_answers ld off s
  | timelineRaiseWrite k => exact execTimelineRaiseWrite_answers k s
  | hostLinkDown link => exact execHostLinkDown_answers link s
  | ldBind ld host link width rate tlfirst tlcount qfirst qcount cache =>
    exact execLdBind_answers ld host link width rate tlfirst tlcount qfirst qcount cache s
  | coldReset => exact execColdReset_answers s
  | warmReset ld v => exact execWarmReset_answers ld v s
  | logicalDeviceReset ld => exact execLogicalDeviceReset_answers ld s
  | memoryZeroDone => exact execMemoryZeroDone_answers s
  | firmwareLoad ld => exact execFirmwareLoad_answers ld s
  | firmwareLoadComplete => exact execFirmwareLoadComplete_answers s
  | firmwareStop ld => exact execFirmwareStop_answers ld s
  | attest ld v => exact execAttest_answers ld v s
  | attestReportDone ld => exact execAttestReportDone_answers ld s
  | featureRequest ld v => exact execFeatureRequest_answers ld v s
  | pwrCapWrite ld v => exact execPwrCapWrite_answers ld v s
  | arouteWrite ld v => exact execArouteWrite_answers ld v s
  | featureNegotiationDone ld => exact execFeatureNegotiationDone_answers ld s
  | preemptAnswerReceive r => exact execPreemptAnswerReceive_answers r s

/-! ### Machine/Issue.lean -/

theorem State.beginIssue_canonical (s : State) (gid k : Nat) (hs : Canonical s) : Canonical (s.beginIssue gid k) := hs

theorem State.runWord_answers (s : State) (w : PWord) : Answers (Canonical s) (s.runWord w) := by
  unfold State.runWord
  dsimp only
  split
  · exact (exec_answers _ _).mono (canonical_of_dmem rfl)
  · exact answers_next fun hs => State.fault_canonical _ _ (canonical_of_dmem rfl hs)

theorem Res.andThen_answers (p : Prop) (r : Res) (f : State → Res) (hr : Answers p r)
    (hf : ∀ t, (p → Canonical t) → Answers p (f t)) : Answers p (Res.andThen r f) := by
  cases r with
  | next t => exact hf t hr
  | fault x => exact hr.elim
  | refused x => exact hr.elim

theorem State.runWords_answers (s : State) (l : List PWord) : Answers (Canonical s) (s.runWords l) := by
  induction l generalizing s with
  | nil => exact answers_next id
  | cons w l ih => exact Res.andThen_answers _ _ _ (s.runWord_answers w) fun t ht => (ih t).mono ht

theorem State.pastControl_canonical (s : State) (c : PWord) (rest : List PWord) (hs : Canonical s) :
    Canonical (s.pastControl c rest).1 := hs

theorem State.runPacket_answers (s : State) (ws : List PWord) : Answers (Canonical s) (s.runPacket ws) := by
  unfold State.runPacket
  split
  · dsimp only
    split
    · exact State.runWord_answers _ _
    · refine Res.andThen_answers _ _ _ ((State.runWord_answers _ _).mono (State.modSlices_canonical _ _)) fun t ht => ?_
      split
      · exact answers_next fun hs => State.pastControl_canonical _ _ _ (ht hs)
      · exact (State.runWords_answers _ _).mono fun hs => State.pastControl_canonical _ _ _ (ht hs)
  · exact State.runWords_answers _ _

theorem State.issueWords_answers (s : State) (ws : List PWord) : Answers (Canonical s) (s.issueWords ws) := by
  unfold State.issueWords
  dsimp only
  refine Res.andThen_answers _ _ _ ?_ fun t ht => answers_next fun hs => ?_
  · split
    · exact (State.runWord_answers _ _).mono (State.modSlices_canonical _ _)
    · split
      · exact (State.runWord_answers _ _).mono (State.modSlices_canonical _ _)
      · exact (State.runPacket_answers _ _).mono (State.modSlices_canonical _ _)
  · have kept (b : Bool) (f g : Gang → Gang) :
        Canonical (if b then (if arranges ws then t else t.modGang s.iss.gid g)
          else if arranges ws then t.modGang s.iss.gid f else (t.modGang s.iss.gid f).modGang s.iss.gid g) := by
      split_ifs <;> exact ht hs
    split_ifs <;> exact ht hs

theorem State.issuePacket_answers (s : State) : Answers (Canonical s) s.issuePacket := by
  have stop (t : State) (f : FInfo) (h : Canonical s → Canonical t) :
      Answers (Canonical s) (.next ((t.fault f).modGang t.iss.gid fun g => g.regroup t.iss.slices)) :=
    answers_next fun hs => State.modGang_canonical _ _ _ (State.fault_canonical _ _ (h hs))
  unfold State.issuePacket
  dsimp only
  split
  · exact stop _ _ id
  · have hf := State.fetch_canonical s s.iss.gid s.iss.pc
    split
    · next e => rw [e] at hf; exact stop _ _ hf
    · next e =>
      rw [e] at hf
      split_ifs
      · exact stop _ _ hf
      · exact stop _ _ hf
      · exact stop _ _ hf
      · split
        · exact stop _ _ hf
        · exact (State.issueWords_answers _ _).mono hf

theorem State.issueReplay_answers (s : State) (r : Replay) : Answers (Canonical s) (s.issueReplay r) := by
  unfold State.issueReplay
  refine Res.andThen_answers _ _ _ ?_ fun t ht => answers_next fun hs => State.modGang_canonical _ _ _ (ht hs)
  split
  · next e =>
    exact answers_next fun hs => State.faultWith_canonical _ _ _ _
      (canonical_of_eq e (State.fetch_canonical _ _ _ (State.modSlices_canonical _ _ (canonical_of_dmem rfl hs))))
  · next u _ e =>
    have fetched (hs : Canonical s) : Canonical u :=
      canonical_of_eq e (State.fetch_canonical _ _ _ (State.modSlices_canonical _ _ (canonical_of_dmem rfl hs)))
    split
    · exact (State.runWord_answers _ _).mono fetched
    · exact answers_next fetched

theorem State.heldForHost_answers (s : State) (r : Res) (hr : Answers (Canonical s) r) :
    Answers (Canonical s) (s.heldForHost r) := by
  refine Res.andThen_answers _ _ _ hr fun t ht => answers_next fun hs => ?_
  split
  · exact ht hs
  · exact hs

theorem State.charge_canonical (s : State) (gid : Nat) (hs : Canonical s) : Canonical (s.charge gid) := by
  unfold State.charge
  grind [State.modCore_canonical]

theorem State.issueSplit_answers (s : State) (gid k : Nat) : Answers (Canonical s) (s.issueSplit gid k) := by
  unfold State.issueSplit
  refine State.heldForHost_answers _ _ ?_
  split
  · exact answers_next id
  · refine Res.andThen_answers _ _ _ ?_ fun t ht => answers_next fun hs => State.charge_canonical _ _ (ht hs)
    split
    · exact State.issueReplay_answers _ _
    · exact State.issuePacket_answers _

theorem State.swapOne_canonical (s : State) (core gid : Nat) (hs : Canonical s) : Canonical (s.swapOne core gid) := by
  unfold State.swapOne
  grind [State.modGang_canonical, State.modCore_canonical]

theorem State.settleActive_canonical (s : State) (core : Nat) (hs : Canonical s) : Canonical (s.settleActive core) := by
  unfold State.settleActive
  grind [State.swapOne_canonical, State.modGang_canonical, foldl_canonical]

theorem State.issueGang_answers (s : State) (gid : Nat) : Answers (Canonical s) (s.issueGang gid) := by
  unfold State.issueGang
  split
  · exact answers_next id
  · exact (State.issueSplit_answers _ _ _).mono (State.modGang_canonical _ _ _)

theorem State.topUp_canonical (s : State) (core : Nat) (ts : List Nat) (hs : Canonical s) : Canonical (s.topUp core ts) := by
  unfold State.topUp
  grind [State.modCore_canonical]

theorem State.choose_canonical (s : State) (core : Nat) (hs : Canonical s) : Canonical (s.choose core).1 := by
  unfold State.choose
  grind [State.settleActive_canonical, State.topUp_canonical]

theorem State.issueCore_answers (s : State) (core : Nat) : Answers (Canonical s) (s.issueCore core) := by
  have hc := State.choose_canonical s core
  unfold State.issueCore
  split
  · next e =>
    rw [e] at hc
    exact Res.andThen_answers _ _ _ ((State.issueGang_answers _ _).mono hc) fun t ht =>
      answers_next fun hs => State.settleActive_canonical _ _ (ht hs)
  · next e =>
    rw [e] at hc
    exact answers_next hc

theorem State.issueFirmware_answers (s : State) : Answers (Canonical s) (s.issueFirmware) := by
  unfold State.issueFirmware
  grind [State.issueGang_answers, Answers]

theorem State.tick_canonical (s : State) (n : Nat) (hs : Canonical s) : Canonical (s.tick n) := State.commitAll_canonical _ _ hs

theorem State.issueCores_answers (s : State) (l : List Nat) : Answers (Canonical s) (s.issueCores l) := by
  induction l generalizing s with
  | nil => exact answers_next id
  | cons c l ih => exact Res.andThen_answers _ _ _ (s.issueCore_answers c) fun t ht => (ih t).mono ht

theorem State.oneCycle_answers (s : State) : Answers (Canonical s) s.oneCycle := by
  refine Res.andThen_answers _ _ _ ?_ fun t ht => (State.issueFirmware_answers t).mono ht
  exact (State.issueCores_answers _ _).mono (State.tick_canonical s 1)

theorem State.move_answers (s : State) (m : Move) : Answers (Canonical s) (s.move m) := by
  unfold State.move
  grind [State.tick_canonical, exec_answers, State.issueCore_answers, State.issueFirmware_answers, State.drainHead_canonical,
    State.granule_canonical, State.streamPair_canonical, Answers]

/-- Once the move is over, what waits is woken, and nothing of an access is left in progress. -/
theorem exists_woken {p : Prop} {r : Res} (h : Answers p r) :
    ∃ t, Res.andThen r (fun s => .next { s.wakeAll with hostNeed := [], hostWho := none }) = .next t ∧ t.hostNeed = [] ∧
      (p → Canonical t) := by
  obtain ⟨u, rfl, hu⟩ := h.exists_next
  exact ⟨_, rfl, rfl, fun hp => canonical_of_dmem rfl (State.wakeAll_canonical u (hu hp))⟩

/-- Settles O59: every arm of `exec` and every kind of move answers a next state that keeps the canonical form, and a step clears
what was needed of hosts. -/
theorem memoryCanonical : Obligations.MemoryCanonical := by
  intro s
  refine exists_woken ?_
  split
  · exact State.oneCycle_answers s
  · exact (State.move_answers _ _).mono (canonical_of_dmem rfl)

end Sys2Proof.Machine
end

section
/-! ## Memory words at their issue

What translation may change, what sending an operation's cells changes, and what a memory word comes to once its lanes are
resolved: loads, stores and atomics share it. -/

namespace Sys2Proof.Machine
open Sys2Proof.Claims

/-! ### Translation (R344 to R348, R387) -/

/-- What translating an access may change: the caches, the page tables and frames in memory, the views of contexts, what is asked of
hosts, and, of the gangs, the places of what they have outstanding, which follow a granule that is copied. -/
def TransFrame (s t : State) : Prop :=
  (∃ gangs cores ctxs dmem need, t = { s with gangs := gangs, cores := cores, ctxs := ctxs, dmem := dmem, hostNeed := need }) ∧
  ∀ k, ∃ ops sq, t.gang k = { s.gang k with ops := ops, sq := sq }

theorem TransFrame.refl (s : State) : TransFrame s s := ⟨⟨_, _, _, _, _, rfl⟩, fun _ => ⟨_, _, rfl⟩⟩

theorem TransFrame.trans {s t u : State} (h : TransFrame s t) (k : TransFrame t u) : TransFrame s u := by
  obtain ⟨⟨_, _, _, _, _, rfl⟩, hg⟩ := h
  obtain ⟨⟨_, _, _, _, _, rfl⟩, kg⟩ := k
  refine ⟨⟨_, _, _, _, _, rfl⟩, fun j => ?_⟩
  obtain ⟨_, _, hj⟩ := hg j
  obtain ⟨_, _, kj⟩ := kg j
  exact ⟨_, _, by rw [kj, hj]⟩

theorem TransFrame.iss {s t : State} (h : TransFrame s t) : t.iss = s.iss := by obtain ⟨⟨_, _, _, _, _, rfl⟩, _⟩ := h; rfl
theorem TransFrame.teams {s t : State} (h : TransFrame s t) : t.teams = s.teams := by obtain ⟨⟨_, _, _, _, _, rfl⟩, _⟩ := h; rfl
theorem TransFrame.hmem {s t : State} (h : TransFrame s t) : t.hmem = s.hmem := by obtain ⟨⟨_, _, _, _, _, rfl⟩, _⟩ := h; rfl
theorem TransFrame.timelines {s t : State} (h : TransFrame s t) : t.timelines = s.timelines := by
  obtain ⟨⟨_, _, _, _, _, rfl⟩, _⟩ := h; rfl

theorem TransFrame.cur {s t : State} (h : TransFrame s t) : ∃ ops sq, t.cur = { s.cur with ops := ops, sq := sq } := by
  rw [State.cur, h.iss]; exact h.2 _

theorem TransFrame.of_fetchFrame {s t : State} (h : FetchFrame s t) : TransFrame s t := by
  obtain ⟨_, _, _, rfl⟩ := h
  exact ⟨⟨_, _, _, _, _, rfl⟩, fun _ => ⟨_, _, rfl⟩⟩

theorem TransFrame.modCtx (s : State) (c : Nat) (f : Ctx → Ctx) : TransFrame s (s.modCtx c f) :=
  ⟨⟨_, _, _, _, _, rfl⟩, fun _ => ⟨_, _, rfl⟩⟩

theorem State.takeFrom_fetchFrame (s : State) (hint pool log n : Nat) : FetchFrame s (s.takeFrom hint pool log n).1 := by
  induction n generalizing s with
  | zero => exact FetchFrame.refl s
  | succ n ih =>
    have moved : FetchFrame s (s.devWrite (hint + 0x20) 4 ((s.devRead (hint + 0x20) 4 + 1) % 2 ^ 32)) := ⟨_, _, _, rfl⟩
    unfold State.takeFrom
    dsimp only
    split
    · exact moved
    · exact moved.trans (ih _)

theorem State.takeFrame_fetchFrame (s : State) (c : Nat) : FetchFrame s (s.takeFrame c).1 := by
  unfold State.takeFrame
  dsimp only
  split
  · exact FetchFrame.refl s
  · exact s.takeFrom_fetchFrame _ _ _ _

theorem State.copyFor_fetchFrame (s : State) (c f : Nat) : FetchFrame s (s.copyFor c f).1 := by
  refine (s.takeFrame_fetchFrame c).trans ?_
  unfold State.copyFor
  dsimp only
  split
  · exact ⟨_, _, _, rfl⟩
  · exact FetchFrame.refl _

/-- Accesses that follow a granule leave everything else of their gangs. -/
theorem State.relocate_transFrame (s : State) (t g f d : Nat) : TransFrame s (s.relocate t g f d) := by
  let op (o : Op) : Op := if o.actx = t then { o with lanes := o.lanes.map fun a => a.relocated g f d } else o
  let st (e : SqEntry) : SqEntry := if e.actx = t then { e with lanes := e.lanes.map fun a => a.relocated g f d } else e
  refine ⟨⟨_, _, _, _, _, rfl⟩, fun k => ⟨(s.gang k).ops.map op, (s.gang k).sq.map st, ?_⟩⟩
  exact Tab.get_mapVals (fun k : Gang => { k with ops := k.ops.map op, sq := k.sq.map st }) {} s.gangs k

theorem State.takeCopy_transFrame (s : State) (t g f : Nat) (fr : Option Nat) : TransFrame s (s.takeCopy t g f fr) := by
  unfold State.takeCopy
  cases fr with
  | none => exact ⟨⟨_, _, _, _, _, rfl⟩, fun _ => ⟨_, _, rfl⟩⟩
  | some d =>
    dsimp only
    exact (TransFrame.modCtx s t _).trans (State.relocate_transFrame _ _ _ _ _)

theorem State.ownCopy_transFrame (s : State) (t g f : Nat) : TransFrame s (s.ownCopy t g f) := by
  unfold State.ownCopy
  split
  · exact TransFrame.refl s
  · exact (TransFrame.of_fetchFrame (s.copyFor_fetchFrame t f)).trans (State.takeCopy_transFrame _ _ _ _ _)

theorem State.translateView_transFrame (s : State) (c va acc : Nat) : TransFrame s (s.translateView c va acc).1 := by
  unfold State.translateView
  split
  · exact TransFrame.refl s
  · split
    · exact TransFrame.refl s
    · dsimp only
      split
      · split
        · exact s.ownCopy_transFrame _ _ _
        · exact s.ownCopy_transFrame _ _ _
      · exact TransFrame.refl s

theorem State.shadowOf_transFrame (s : State) (c page : Nat) (live : Loc) : TransFrame s (s.shadowOf c page live).1 := by
  unfold State.shadowOf
  split
  · exact TransFrame.refl s
  · dsimp only
    have taken : TransFrame s (if (s.ctx c).view.shadows.length % 16 = 0 then s.takeFrame c
        else (s, (s.ctx c).view.shadowFrames.getLast?) : State × Option Nat).1 := by
      split
      · exact TransFrame.of_fetchFrame (s.takeFrame_fetchFrame c)
      · exact TransFrame.refl s
    split
    · exact taken.trans ⟨⟨_, _, _, _, _, rfl⟩, fun _ => ⟨_, _, rfl⟩⟩
    · exact taken.trans ⟨⟨_, _, _, _, _, rfl⟩, fun _ => ⟨_, _, rfl⟩⟩

theorem State.translateShadow_transFrame (s : State) (c va acc : Nat) : TransFrame s (s.translateShadow c va acc).1 := by
  have h := TransFrame.of_fetchFrame (s.translateHost_fetchFrame (s.ctx c).ld va acc)
  unfold State.translateShadow
  dsimp only
  split
  · exact TransFrame.refl s
  · split
    · next e => rw [e] at h; exact h
    · next t l e =>
      rw [e] at h
      have k := t.shadowOf_transFrame c (va / 4096) l
      split
      · exact h
      · split
        · split
          · next e => rw [e] at k; exact h.trans k
          · exact h.trans k
        · exact h

theorem State.translateIn_transFrame (s : State) (core c va acc : Nat) : TransFrame s (s.translateIn core c va acc).1 := by
  unfold State.translateIn
  split
  · exact TransFrame.refl s
  · split
    · split
      · exact s.translateView_transFrame _ _ _
      · exact s.translateShadow_transFrame _ _ _
    · split
      · exact .of_fetchFrame (s.translateDev_fetchFrame _ _ _ _)
      · exact .of_fetchFrame (s.translateHost_fetchFrame _ _ _)

theorem State.resolve_transFrame (s : State) (team : Nat) (sp : MSpace) (addr size acc : Nat) :
    TransFrame s (s.resolve team sp addr size acc).1 := by
  unfold State.resolve
  split
  · exact TransFrame.refl s
  · cases sp with
    | g =>
      dsimp only
      split
      · exact TransFrame.refl s
      · exact s.translateIn_transFrame _ _ _ _
    | w => dsimp only; split <;> exact TransFrame.refl s
    | buf b => dsimp only; split <;> exact TransFrame.refl s
    | cf => dsimp only; split <;> exact TransFrame.refl s

theorem State.resolveLanes_transFrame (s : State) (sp : MSpace) (size acc : Nat) (lanes : List Nat) (addr data data2 : Nat → Nat) :
    TransFrame s (s.resolveLanes sp size acc lanes addr data data2).1 := by
  have from_ (l : List Nat) (p : State × List LaneAcc × List BadLane) (hp : TransFrame s p.1) : TransFrame s
      (l.foldl (fun (s, good, bad) i =>
        match s.resolve s.teamKey sp (addr i) size acc with
        | (s, .ok l) => (s, good ++ [⟨i, l, addr i, size, data i, data2 i, sp == .w, 0⟩], bad)
        | (s, .error (c, d)) => (s, good, bad ++ [⟨i, c, d, addr i⟩])) p).1 := by
    induction l generalizing p with
    | nil => exact hp
    | cons i l ih =>
      refine ih _ ?_
      have h := p.1.resolve_transFrame p.1.teamKey sp (addr i) size acc
      dsimp only
      split
      · next e => rw [e] at h; exact hp.trans h
      · next e => rw [e] at h; exact hp.trans h
  exact from_ lanes (s, [], []) (TransFrame.refl s)

/-! ### Sending an operation's cells (R316 to R319) -/

/-- What sending cells may change: ports, the loop, sequence numbers, and what waits for the answers. -/
def SendFrame (s t : State) : Prop :=
  ∃ ports loop seq remotes, t = { s with ports := ports, loop := loop, seqTx := seq, remotes := remotes }

theorem SendFrame.refl (s : State) : SendFrame s s := ⟨_, _, _, _, rfl⟩

theorem SendFrame.trans {s t u : State} (h : SendFrame s t) (k : SendFrame t u) : SendFrame s u := by
  obtain ⟨_, _, _, _, rfl⟩ := h
  obtain ⟨_, _, _, _, rfl⟩ := k
  exact ⟨_, _, _, _, rfl⟩

theorem SendFrame.foldl {β : Type} (f : State → β → State) (h : ∀ s x, SendFrame s (f s x)) (l : List β) (s : State) :
    SendFrame s (l.foldl f s) := by
  induction l generalizing s with
  | nil => exact SendFrame.refl s
  | cons x l ih => exact (h s x).trans (ih _)

theorem SendFrame.cur {s t : State} (h : SendFrame s t) : t.cur = s.cur := by obtain ⟨_, _, _, _, rfl⟩ := h; rfl
theorem SendFrame.dmem {s t : State} (h : SendFrame s t) : t.dmem = s.dmem := by obtain ⟨_, _, _, _, rfl⟩ := h; rfl
theorem SendFrame.hmem {s t : State} (h : SendFrame s t) : t.hmem = s.hmem := by obtain ⟨_, _, _, _, rfl⟩ := h; rfl
theorem SendFrame.teams {s t : State} (h : SendFrame s t) : t.teams = s.teams := by obtain ⟨_, _, _, _, rfl⟩ := h; rfl
theorem SendFrame.timelines {s t : State} (h : SendFrame s t) : t.timelines = s.timelines := by
  obtain ⟨_, _, _, _, rfl⟩ := h; rfl
theorem SendFrame.hostNeed {s t : State} (h : SendFrame s t) : t.hostNeed = s.hostNeed := by obtain ⟨_, _, _, _, rfl⟩ := h; rfl

theorem State.sendEntries_sendFrame (s : State) (gid part plane laddr : Nat) (win : Bool) (es : List (ReqEntry × Option RemoteFor)) :
    SendFrame s (s.sendEntries gid part plane laddr win es) := by
  unfold State.sendEntries
  dsimp only
  obtain ⟨_, _, _, h⟩ := State.sendCell_frame _ _
  rw [h]
  exact ⟨_, _, _, _, rfl⟩

theorem State.sendLanes_sendFrame (s : State) (gid eop aop : Nat) (what : Nat → RemoteFor) (n k : Nat) (l : List LaneAcc) :
    SendFrame s (s.sendLanes gid eop aop what n k l) := by
  induction k generalizing s l with
  | zero => exact SendFrame.refl s
  | succ k ih =>
    unfold State.sendLanes
    split
    · exact SendFrame.refl s
    · split
      · exact SendFrame.refl s
      · exact (s.sendEntries_sendFrame _ _ _ _ _ _).trans (ih _ _)

theorem State.sendOp_sendFrame (s : State) (gid seq : Nat) : SendFrame s (s.sendOp gid seq) := by
  unfold State.sendOp
  split
  · exact SendFrame.refl s
  · next o _ =>
    split
    · exact SendFrame.refl s
    · refine SendFrame.foldl _ (fun s a => ?_) _ _
      dsimp only
      split
      · exact SendFrame.refl s
      · split
        · exact s.sendLanes_sendFrame _ _ _ _ _ _ _
        · split
          · exact SendFrame.refl s
          · exact s.sendLanes_sendFrame _ _ _ _ _ _ _

/-! ### Entering what a word issues -/

/-- What entering an operation or a store, and sending its cells, leaves alone. -/
theorem memoryFrame_of_entered {s r t : State} (h : TransFrame s r) (f : Gang → Gang)
    (hf : ∀ g, (f g).regs = g.regs ∧ (f g).bank = g.bank ∧ (f g).slices = g.slices) (k : SendFrame (r.modCur f) t) :
    memoryFrame s r t := by
  obtain ⟨hregs, hbank, hslices⟩ := hf r.cur
  obtain ⟨_, _, hc⟩ := h.cur
  have kc : t.cur = f r.cur := k.cur.trans (State.cur_modCur r f)
  refine ⟨?_, ?_, ?_, k.teams.trans h.teams, k.hmem.trans h.hmem, k.timelines.trans h.timelines, k.dmem⟩
  · rw [kc, hregs, hc]
  · rw [kc, hbank, hc]
  · rw [kc, hslices, hc]

theorem memoryFrame_of_translated {s r : State} (h : TransFrame s r) : memoryFrame s r r := by
  obtain ⟨_, _, hc⟩ := h.cur
  exact ⟨by rw [hc], by rw [hc], by rw [hc], h.teams, h.hmem, h.timelines, rfl⟩

theorem State.issueOp_nil (s : State) (kind : OpKind) : s.issueOp kind [] = s := rfl

theorem State.issueOp_sendFrame (s : State) (kind : OpKind) {good : List LaneAcc} (h : good ≠ []) :
    SendFrame (s.addOp kind good true) (s.issueOp kind good) := by
  unfold State.issueOp
  rw [if_neg (by simpa using h)]
  exact State.sendOp_sendFrame _ _ _

theorem State.issueOp_hostNeed (s : State) (kind : OpKind) (good : List LaneAcc) : (s.issueOp kind good).hostNeed = s.hostNeed := by
  by_cases h : good = []
  · rw [h, State.issueOp_nil]
  · exact (s.issueOp_sendFrame kind h).hostNeed

/-- R220, R226, R228: the operation stands last among the gang's, counted. -/
theorem entersOps_issueOp {s : State} {kind : OpKind} {r : State × List LaneAcc × List BadLane} {t : State} (h : TransFrame s r.1)
    (ht : r.2.2 = [] → Answered s r.1 → t = r.1.issueOp kind r.2.1) : entersOps s kind r t := by
  intro hb ha
  rw [ht hb ha]
  obtain ⟨_, _, hc⟩ := h.cur
  by_cases hg : r.2.1 = []
  · rw [hg, State.issueOp_nil]
    exact ⟨memoryFrame_of_translated h, fun hn => absurd rfl hn⟩
  · have k := r.1.issueOp_sendFrame kind hg
    refine ⟨memoryFrame_of_entered h (fun g => g.addOp _ _ _ _ _ _ _ _ _ _) (fun _ => ⟨rfl, rfl, rfl⟩) k, fun _ => ?_⟩
    rw [k.cur, State.addOp, State.cur_modCur, Gang.addOp, h.iss, hc]
    exact ⟨rfl, rfl, _, rfl, rfl, rfl, rfl, rfl, rfl⟩

/-! ### What a memory word comes to -/

/-- A guarded word that enters what its passing lanes issue, and then sets its failing lanes aside. -/
theorem guarded_memory_word {i : Instr} {s : State} (ha : Admits i s) (acc : Nat) (r : State × List LaneAcc × List BadLane)
    {issue : State} (hempty : r.2.1 = [] → issue = r.1) (hneed : issue.hostNeed = r.1.hostNeed) {f : State → State}
    (hf : f s = issue.laneFault acc r.2.2) (hx : exec i s = guard i s f) {P : State → Prop}
    (hp : ∀ t, otherwise s acc r t → (r.2.2 = [] → Answered s r.1 → t = issue) → P t) : Completes i s P := by
  by_cases hn : Answered s (f s)
  · refine ⟨f s, hx.trans (guard_of_admits ha f hn), hp _ (fun hg => ?_) fun hb _ => by rw [hf, hb]; rfl⟩
    rw [hempty hg] at hf
    exact ⟨fun _ => hf, fun hn' => absurd (hf ▸ hn) hn'⟩
  · refine ⟨_, hx.trans (guard_of_unanswered ha f hn), hp _ (fun hg => ?_) fun hb h => ?_⟩
    · rw [hempty hg] at hf
      rw [← hf]
      exact ⟨fun hn' => absurd hn' hn, fun _ => rfl⟩
    · have : f s = issue := by rw [hf, hb]; rfl
      exact absurd ((congrArg State.hostNeed this).trans (hneed.trans h)) hn

theorem issuedOp_completes {i : Instr} {s : State} (ha : Admits i s) (acc : Nat) (kind : OpKind) (r : State × List LaneAcc × List BadLane)
    (hr : TransFrame s r.1) {f : State → State} (hf : f s = (r.1.issueOp kind r.2.1).laneFault acc r.2.2) (hx : exec i s = guard i s f) :
    Completes i s fun t => entersOps s kind r t ∧ otherwise s acc r t :=
  guarded_memory_word ha acc r (fun hg => by rw [hg, State.issueOp_nil]) (r.1.issueOp_hostNeed kind r.2.1) hf hx
    fun _ ho ht => ⟨entersOps_issueOp hr ht, ho⟩

theorem load_completes {i : Instr} {s : State} (sp : MSpace) (z : LoadSize) (d : VReg) (a : AReg) (v : Option VReg) (sc : Scope)
    (hx : exec i s = guard i s fun s => s.loadFrom sp z d a v sc) (ha : Admits i s) :
    Completes i s fun t =>
      let r := resolved s sp (loadBytes z) 0 a v (fun _ => 0) fun _ => 0
      entersOps s (.load d.val (loadSigned z) sc) r t ∧ otherwise s 0 r t :=
  issuedOp_completes ha 0 _ _ (s.resolveLanes_transFrame _ _ _ _ _ _ _) rfl hx

theorem atomic_completes {i : Instr} {s : State} (sp : MSpace) (size : Nat) (o : AtomOp) (d : VReg) (a : AReg) (v : Option VReg)
    (sc : Scope) (hx : exec i s = guard i s fun s => s.atomOn sp size o d a v sc) (ha : Admits i s) :
    Completes i s fun t =>
      let new := if size = 8 then d.val + 2 else d.val + 1
      let r := resolved s sp size 2 a v (s.srcN d.val size) fun i => if o = .cas then s.srcN new size i else 0
      entersOps s (.atomic d.val o sc) r t ∧ otherwise s 2 r t :=
  issuedOp_completes ha 2 _ _ (s.resolveLanes_transFrame _ _ _ _ _ _ _) rfl hx

/-- Entering an entry in the store queue when a lane passes. -/
def State.enterStore (s : State) (sc : Scope) (good : List LaneAcc) : State :=
  if good.isEmpty then s else s.addStore (.store sc) good true

theorem State.enterStore_nil (s : State) (sc : Scope) : s.enterStore sc [] = s := rfl

theorem State.enterStore_of_ne (s : State) (sc : Scope) {good : List LaneAcc} (h : good ≠ []) :
    s.enterStore sc good = s.addStore (.store sc) good true := if_neg (by simpa using h)

theorem State.enterStore_hostNeed (s : State) (sc : Scope) (good : List LaneAcc) : (s.enterStore sc good).hostNeed = s.hostNeed := by
  unfold State.enterStore
  split <;> rfl

/-- R219, R226: the entry stands last in the gang's store queue, counted. -/
theorem entered_enterStore {s r : State} (h : TransFrame s r) (sc : Scope) (good : List LaneAcc) :
    memoryFrame s r (r.enterStore sc good) ∧ (r.enterStore sc good).cur.ops = r.cur.ops ∧
      (r.enterStore sc good).cur.ld = s.cur.ld ∧
      (good ≠ [] → (r.enterStore sc good).cur.st = s.cur.st + 1 ∧ ∃ e, (r.enterStore sc good).cur.sq = r.cur.sq ++ [e] ∧
        e.kind = .store sc ∧ e.lanes = good ∧ e.gid = s.iss.gid ∧ e.seq = s.cur.seq) := by
  obtain ⟨_, _, hc⟩ := h.cur
  by_cases hg : good = []
  · rw [hg, State.enterStore_nil]
    exact ⟨memoryFrame_of_translated h, rfl, by rw [hc], fun hn => absurd rfl hn⟩
  · rw [State.enterStore_of_ne _ _ hg]
    refine ⟨memoryFrame_of_entered h (fun g => g.addStore _ _ _ _ _ _ _ _ _ _ _) (fun _ => ⟨rfl, rfl, rfl⟩) (SendFrame.refl _), ?_⟩
    rw [State.addStore, State.addStores, State.cur_modCur, Gang.addStore, h.iss, hc]
    exact ⟨rfl, rfl, fun _ => ⟨rfl, _, rfl, rfl, rfl, rfl, rfl⟩⟩

theorem store_completes {i : Instr} {s : State} (sp : MSpace) (z : StoreSize) (d : VReg) (a : AReg) (v : Option VReg) (sc : Scope)
    (hx : exec i s = guard i s fun s => s.storeTo sp z d a v sc) (ha : Admits i s) :
    Completes i s fun t =>
      let r := resolved s sp (storeBytes z) 1 a v (s.srcN d.val (storeBytes z)) fun _ => 0
      otherwise s 1 r t ∧
      (r.2.2 = [] → Answered s r.1 → memoryFrame s r.1 t ∧ t.cur.ops = r.1.cur.ops ∧ t.cur.ld = s.cur.ld ∧
        (r.2.1 ≠ [] → t.cur.st = s.cur.st + 1 ∧ ∃ e, t.cur.sq = r.1.cur.sq ++ [e] ∧ e.kind = .store sc ∧ e.lanes = r.2.1 ∧
          e.gid = s.iss.gid ∧ e.seq = s.cur.seq)) := by
  let r := resolved s sp (storeBytes z) 1 a v (s.srcN d.val (storeBytes z)) fun _ => 0
  refine guarded_memory_word ha 1 r (issue := r.1.enterStore sc r.2.1) (fun hg => ?_) (State.enterStore_hostNeed _ _ _) rfl hx
    fun t ho ht => ⟨ho, fun hb hn => ?_⟩
  · rw [hg, State.enterStore_nil]
  · rw [ht hb hn]
    exact entered_enterStore (s.resolveLanes_transFrame _ _ _ _ _ _ _) sc r.2.1

/-- Settles O15: every form of a load issues through `State.loadFrom`. -/
theorem loadIssue : Obligations.LoadIssue := by
  intro s z d a v c
  exact ⟨load_completes .g z d a v c rfl, load_completes .w z d a v c rfl, load_completes (.buf .l) z d a v .gang rfl,
    load_completes (.buf .wb) z d a v .gang rfl, load_completes (.buf .ab) z d a v .gang rfl,
    load_completes (.buf .cb) z d a v .gang rfl, load_completes .cf z d a v .gang rfl⟩

/-- Settles O16: every form of a store issues through `State.storeTo`. -/
theorem storeIssue : Obligations.StoreIssue := by
  intro s z d a v c
  exact ⟨store_completes .g z d a v c rfl, store_completes .w z d a v c rfl, store_completes (.buf .l) z d a v .gang rfl,
    store_completes (.buf .ab) z d a v .gang rfl, store_completes (.buf .cb) z d a v .gang rfl⟩

/-- Settles O17: every form of an atomic issues through `State.atomOn`. -/
theorem atomicIssue : Obligations.AtomicIssue := by
  intro s o d a v c p
  exact ⟨atomic_completes .g 4 o d a v c rfl, atomic_completes .g 8 o d a v c rfl,
    atomic_completes (placeSpace p).1 4 o d a v (placeSpace p).2 rfl, atomic_completes (placeSpace p).1 8 o d a v (placeSpace p).2 rfl⟩

end Sys2Proof.Machine
end

section
/-! ## Prefetches and fences -/

namespace Sys2Proof.Machine
open Sys2Proof.Claims

/-! ### Prefetches (R230) -/

/-- What a prefetch may change: the caches of its core and its die, the counts of what is dropped, and what is asked of hosts. -/
def PrefetchFrame (s t : State) : Prop :=
  ∃ cores ctxs lines asked waits denied, t = { s with cores := cores, ctxs := ctxs, hostLines := lines, hostAsked := asked,
                                                       hostWaits := waits, hostDenied := denied }

theorem PrefetchFrame.refl (s : State) : PrefetchFrame s s := ⟨_, _, _, _, _, _, rfl⟩

theorem PrefetchFrame.trans {s t u : State} (h : PrefetchFrame s t) (k : PrefetchFrame t u) : PrefetchFrame s u := by
  obtain ⟨_, _, _, _, _, _, rfl⟩ := h
  obtain ⟨_, _, _, _, _, _, rfl⟩ := k
  exact ⟨_, _, _, _, _, _, rfl⟩

theorem PrefetchFrame.foldl {β : Type} (f : State → β → State) (h : ∀ s x, PrefetchFrame s (f s x)) (l : List β) (s : State) :
    PrefetchFrame s (l.foldl f s) := by
  induction l generalizing s with
  | nil => exact PrefetchFrame.refl s
  | cons x l ih => exact (h s x).trans (ih _)

theorem PrefetchFrame.hostNeed {s t : State} (h : PrefetchFrame s t) : t.hostNeed = s.hostNeed := by
  obtain ⟨_, _, _, _, _, _, rfl⟩ := h; rfl

theorem State.modCore_prefetchFrame (s : State) (k : Nat) (f : Core → Core) : PrefetchFrame s (s.modCore k f) :=
  ⟨_, _, _, _, _, _, rfl⟩

theorem State.specMiss_prefetchFrame (s : State) (core c : Nat) : PrefetchFrame s (s.specMiss core c) := ⟨_, _, _, _, _, _, rfl⟩

theorem State.holdLine_prefetchFrame (s : State) (core : Nat) (l : Loc) (own : Bool) : PrefetchFrame s (s.holdLine core l own) := by
  unfold State.holdLine
  split
  · split
    · exact ⟨_, _, _, _, _, _, rfl⟩
    · exact PrefetchFrame.refl s
  · exact PrefetchFrame.refl s

theorem State.fillSector_prefetchFrame (s : State) (core : Nat) (l : Loc) : PrefetchFrame s (s.fillSector core l) := by
  unfold State.fillSector
  split
  · exact PrefetchFrame.refl s
  · split
    · exact PrefetchFrame.refl s
    · exact s.modCore_prefetchFrame _ _

theorem State.tryPrefetch_prefetchFrame (s : State) (team c va : Nat) : PrefetchFrame s (s.tryPrefetch team c va).1 := by
  unfold State.tryPrefetch
  dsimp only
  split
  · exact s.specMiss_prefetchFrame _ _
  · split
    · exact ⟨_, _, _, _, _, _, rfl⟩
    · split
      · have heard : PrefetchFrame s (s.heard ⟨team, 2, va / 128 * 128⟩) := ⟨_, _, _, _, _, _, rfl⟩
        exact heard.trans (State.specMiss_prefetchFrame _ _ _)
      · split
        · exact PrefetchFrame.refl s
        · exact (s.holdLine_prefetchFrame _ _ _).trans (PrefetchFrame.foldl _ (fun s k => s.fillSector_prefetchFrame _ _) _ _)

theorem State.prefetch_prefetchFrame (s : State) (va : Nat) : PrefetchFrame s (s.prefetch va) := by
  have h := s.tryPrefetch_prefetchFrame s.teamKey (s.accessCtx s.teamKey) va
  unfold State.prefetch
  dsimp only
  split
  · next e => rw [e] at h; exact h
  · next e => rw [e] at h; exact h.trans (State.modCore_prefetchFrame _ _ _)

theorem admits_pf (s : State) (a : AReg) (v : Option VReg) (h : ∀ r, v = some r → r.val < s.cur.vregs ∧ r.val ≠ 127) :
    Admits (.pf a v) s := by
  cases v with
  | none =>
    refine admits_of_inRange (l := []) (rfl : _ = (!true || _ || _ || _ || _)) rfl rfl ?_
    exact fun r hr => absurd hr (List.not_mem_nil)
  | some r =>
    obtain ⟨hr, h127⟩ := h r rfl
    have hwf : (some r != some (127 : VReg)) = true := by simpa [Fin.ext_iff] using h127
    refine admits_of_inRange (l := [r]) (congrArg (fun b => !b || _ || _ || _ || _) hwf) rfl rfl ?_
    exact fun q hq => by rw [List.mem_singleton.mp hq]; exact hr

theorem prefetch_completes : Prefetch := by
  intro s a v h
  have hf : PrefetchFrame s (s.lanes.foldl (fun t i => t.prefetch (s.laneAddr a v i).toNat) s) :=
    PrefetchFrame.foldl _ (fun t i => t.prefetch_prefetchFrame _) _ _
  have hx := guard_of_admits (admits_pf s a v h) (fun s => s.lanes.foldl (fun t i => t.prefetch (s.laneAddr a v i).toNat) s) hf.hostNeed
  refine Completes.intro hx ?_
  obtain ⟨_, _, _, _, _, _, e⟩ := hf
  rw [e]
  exact ⟨rfl, rfl, rfl, rfl⟩

/-! ### Fences (R231) -/

/-- What settling a gang's fences may change: the operations of gangs, and cores' caches. -/
def SettleFrame (s t : State) : Prop :=
  (∃ gangs cores, t = { s with gangs := gangs, cores := cores }) ∧ ∀ k, ∃ ops, t.gang k = { s.gang k with ops := ops }

theorem SettleFrame.refl (s : State) : SettleFrame s s := ⟨⟨_, _, rfl⟩, fun _ => ⟨_, rfl⟩⟩

theorem SettleFrame.trans {s t u : State} (h : SettleFrame s t) (k : SettleFrame t u) : SettleFrame s u := by
  obtain ⟨⟨_, _, rfl⟩, hg⟩ := h
  obtain ⟨⟨_, _, rfl⟩, kg⟩ := k
  refine ⟨⟨_, _, rfl⟩, fun j => ?_⟩
  obtain ⟨_, hj⟩ := hg j
  obtain ⟨_, kj⟩ := kg j
  exact ⟨_, by rw [kj, hj]⟩

theorem SettleFrame.setOps (s : State) (gid : Nat) (ops : List Op) : SettleFrame s (s.modGang gid fun g => { g with ops := ops }) := by
  refine ⟨⟨_, _, rfl⟩, fun j => ?_⟩
  by_cases e : j = gid
  · subst e
    exact ⟨ops, State.gang_setGang _ _ _⟩
  · exact ⟨(s.gang j).ops, State.gang_setGang_ne _ _ _ _ e⟩

theorem SettleFrame.cur {s t : State} (h : SettleFrame s t) : ∃ ops, t.cur = { s.cur with ops := ops } := by
  have hi : t.iss = s.iss := by obtain ⟨⟨_, _, rfl⟩, _⟩ := h; rfl
  rw [State.cur, hi]
  exact h.2 _

theorem State.invalidateL1_settleFrame (s : State) (core : Nat) : SettleFrame s (s.invalidateL1 core) :=
  ⟨⟨_, _, rfl⟩, fun _ => ⟨_, rfl⟩⟩

theorem State.settleOnce_settleFrame (s : State) (gid : Nat) : SettleFrame s (s.settleOnce gid) := by
  have drop (o : Op) : SettleFrame s (s.modGang gid fun g => { g with ops := g.ops.filter fun p => p.seq != o.seq }) :=
    SettleFrame.setOps s gid ((s.gang gid).ops.filter fun p => p.seq != o.seq)
  rw [State.settleOnce]
  split
  · exact SettleFrame.refl s
  · next o _ =>
    dsimp only
    split
    · split
      · exact (drop o).trans (State.invalidateL1_settleFrame _ _)
      · exact drop o
    · exact drop o

theorem State.settleN_settleFrame (s : State) (gid n : Nat) : SettleFrame s (s.settleN gid n) := by
  induction n generalizing s with
  | zero => exact SettleFrame.refl s
  | succ n ih => exact (s.settleOnce_settleFrame gid).trans (ih _)

theorem State.settle_settleFrame (s : State) (gid : Nat) : SettleFrame s (s.settle gid) := s.settleN_settleFrame _ _

theorem admits_fence (s : State) (o : Fin 4) (c : Scope) (h : o.val ≠ 0) : Admits (.fence o c) s := by
  have hwf : (o.val != 0) = true := by simpa using h
  refine admits_of_inRange (l := []) (congrArg (fun b => !b || _ || _ || _ || _) hwf) rfl rfl ?_
  exact fun r hr => absurd hr List.not_mem_nil

/-- A fence as an operation of its gang, once what it marks is marked. -/
def State.enterFence (s : State) (order : Nat) (scope : Scope) : State :=
  let s := if order ≠ 1 then s.modCur fun g => { g with relSeq := some g.seq } else s
  let s := if wide scope ∧ order ≠ 1 then s.addStore .marker [] false else s
  s.addOp (.fence order scope) [] false

theorem State.fenceIssue_of_ne (s : State) (order : Nat) {scope : Scope} (h : scope ≠ .gang) :
    s.fenceIssue order scope = (s.enterFence order scope).settle (s.enterFence order scope).iss.gid := by
  rw [State.fenceIssue, if_neg h]
  rfl

/-- What a fence marks: the release, and, when it is wide, the store queue. -/
def fenceMarks (s : State) (order : Nat) (scope : Scope) (g : Gang) : Prop :=
  (order ≠ 1 → g.relSeq = some s.cur.seq) ∧
  (3 ≤ scope.code → order ≠ 1 → ∃ e, g.sq = s.cur.sq ++ [e] ∧ e.kind = .marker ∧ e.lanes = []) ∧
  (scope.code < 3 ∨ order = 1 → g.sq = s.cur.sq)

theorem State.enterFence_spec (s : State) (order : Nat) (scope : Scope) :
    (∃ gangs, s.enterFence order scope = { s with gangs := gangs }) ∧
    (s.enterFence order scope).cur.regs = s.cur.regs ∧ (s.enterFence order scope).cur.ld = s.cur.ld ∧
    (s.enterFence order scope).cur.st = s.cur.st ∧ fenceMarks s order scope (s.enterFence order scope).cur := by
  unfold State.enterFence fenceMarks
  dsimp only
  by_cases ho : order = 1
  · rw [if_neg (not_not_intro ho), if_neg fun h => h.2 ho, State.addOp, State.cur_modCur]
    exact ⟨⟨_, rfl⟩, rfl, rfl, rfl, fun h => absurd ho h, fun _ h => absurd ho h, fun _ => rfl⟩
  · rw [if_pos ho]
    by_cases hw : 3 ≤ scope.code
    · rw [if_pos ⟨decide_eq_true hw, ho⟩, State.addOp, State.cur_modCur, State.addStore, State.addStores, State.cur_modCur,
        State.cur_modCur]
      exact ⟨⟨_, rfl⟩, rfl, rfl, rfl, fun _ => rfl, fun _ _ => ⟨_, rfl, rfl, rfl⟩, fun h => absurd h (by omega)⟩
    · rw [if_neg fun h => hw (of_decide_eq_true h.1), State.addOp, State.cur_modCur, State.cur_modCur]
      exact ⟨⟨_, rfl⟩, rfl, rfl, rfl, fun _ => rfl, fun h => absurd h hw, fun _ => rfl⟩

theorem fence_completes : Fences := by
  intro s o c ho
  have hx : exec (.fence o c) s = guard (.fence o c) s fun s => s.fenceIssue o.val c := rfl
  rw [Completes, hx]
  by_cases hc : c = .gang
  · have he : s.fenceIssue o.val c = s := if_pos hc
    rw [guard_of_admits (admits_fence s o c ho) _ (congrArg State.hostNeed he), he]
    refine ⟨s, rfl, rfl, rfl, rfl, rfl, rfl, rfl, fun _ => rfl, fun h => absurd hc h, fun h => ?_, fun _ => rfl⟩
    rw [hc] at h
    exact absurd h (by decide)
  · obtain ⟨⟨_, he⟩, hregs, hld, hst, hrel, hsq, hsame⟩ := s.enterFence_spec o.val c
    have hs := (s.enterFence o.val c).settle_settleFrame (s.enterFence o.val c).iss.gid
    rw [← State.fenceIssue_of_ne s o.val hc] at hs
    obtain ⟨_, hcur⟩ := hs.cur
    obtain ⟨_, _, hall⟩ : ∃ gangs cores, s.fenceIssue o.val c = { s with gangs := gangs, cores := cores } := by
      obtain ⟨⟨gangs, cores, h⟩, -⟩ := hs
      rw [he] at h
      exact ⟨gangs, cores, h⟩
    have hneed : Answered s (s.fenceIssue o.val c) := by rw [hall]; rfl
    rw [guard_of_admits (admits_fence s o c ho) _ hneed]
    refine ⟨_, rfl, ?_⟩
    rw [hcur]
    refine ⟨hregs, hld, hst, ?_, ?_, ?_, fun h => absurd h hc, fun _ => hrel, hsq, hsame⟩
    · rw [hall]
    · rw [hall]
    · rw [hall]

/-- Settles O22: a prefetch fills caches alone, and a fence marks the gang's queue before it enters the operations. -/
theorem prefetchAndFences : Obligations.PrefetchAndFences := ⟨prefetch_completes, fence_completes⟩

end Sys2Proof.Machine
end

section
/-! ## Events of the memory system and of hosts -/

namespace Sys2Proof.Machine
open Sys2Proof.Claims

/-! ### Recalls, walks made ahead and snoops (R224, R332, R345, R347) -/

theorem exec_recallComplete_load {s : State} {gid seq lane d : Nat} {sg : Bool} {sc : Scope} {o : Op} {a : LaneAcc}
    (h : s.findOp gid seq lane = some (o, a)) (hk : o.kind = .load d sg sc) :
    exec (.recallComplete gid seq lane false) s = exec (.loadReturn gid seq lane false) s := by
  have e : exec (.recallComplete gid seq lane false) s = execRecallComplete gid seq lane false s := rfl
  rw [e, execRecallComplete, if_neg Bool.false_ne_true, h]
  dsimp only
  rw [hk]
  rfl

theorem exec_recallComplete_atomic {s : State} {gid seq lane d : Nat} {op : AtomOp} {sc : Scope} {o : Op} {a : LaneAcc}
    (h : s.findOp gid seq lane = some (o, a)) (hk : o.kind = .atomic d op sc) :
    exec (.recallComplete gid seq lane false) s = exec (.atomicReturn gid seq lane) s := by
  have e : exec (.recallComplete gid seq lane false) s = execRecallComplete gid seq lane false s := rfl
  rw [e, execRecallComplete, if_neg Bool.false_ne_true, h]
  dsimp only
  rw [hk]
  rfl

/-- R345: a leaf that no live twin shares keeps its COW bit. -/
theorem State.setCow_of_childless (s : State) (c : Nat) (e : TlbEntry) (h : ∀ x ∈ s.ctxs, x.2.parent ≠ some c) :
    s.setCow c e = s := by
  rw [State.setCow]
  refine if_neg ?_
  simp only [List.any_eq_true, not_exists, not_and]
  intro x hx hp
  rw [Bool.and_eq_true, beq_iff_eq] at hp
  exact h x hx hp.1

theorem State.mem_tlb_cacheEntry (s : State) (core : Nat) (e : TlbEntry) : e ∈ ((s.cacheEntry core e).core core).tlb := by
  rw [State.cacheEntry, State.modCore_eq, State.core_setCore]
  refine List.mem_of_getLast? ?_
  rw [List.getLast?_drop]
  simp

theorem State.walkAhead_frame (s : State) (core c va : Nat) :
    (s.walkAhead core c va).gangs = s.gangs ∧ (s.walkAhead core c va).teams = s.teams ∧
      ((∀ x ∈ s.ctxs, x.2.parent ≠ some c) → (s.walkAhead core c va).dmem = s.dmem) := by
  unfold State.walkAhead
  split
  · exact ⟨rfl, rfl, fun _ => rfl⟩
  · split
    · next e _ =>
      obtain ⟨_, _, _, h⟩ := s.setCow_fetchFrame c e
      refine ⟨?_, ?_, fun hc => ?_⟩
      · change (s.setCow c e).gangs = s.gangs
        rw [h]
      · change (s.setCow c e).teams = s.teams
        rw [h]
      · change (s.setCow c e).dmem = s.dmem
        rw [s.setCow_of_childless c e hc]
    · exact ⟨rfl, rfl, fun _ => rfl⟩

theorem State.walkAhead_of_leaf {s : State} {core c va : Nat} {e : TlbEntry} (ht : s.isTwin c = false)
    (hn : s.cached core c va = none) (hw : s.walk c (s.ctx c).pt va = .leaf e) :
    s.walkAhead core c va = (s.setCow c e).cacheEntry core e := by
  rw [State.walkAhead, if_neg (by simp [ht, hn]), hw]

/-- Whether an AtomicOp is on its way to the line, as a property of the list. -/
theorem any_line_iff (l : List AtomicOp) (ld ha : Nat) :
    (l.any fun x => x.ld == ld && x.ha / 128 == ha / 128) = true ↔ ∃ x ∈ l, x.ld = ld ∧ x.ha / 128 = ha / 128 := by
  simp only [List.any_eq_true, Bool.and_eq_true, beq_iff_eq]

theorem memoryEvents : MemoryEvents := by
  intro s gid seq lane core c va ld ha n data
  refine ⟨rfl, fun o a d sg sc h hk => exec_recallComplete_load h hk, fun o a d op sc h hk => exec_recallComplete_atomic h hk, ?_,
    fun hx => ?_, fun hx => ?_⟩
  · obtain ⟨hg, ht, hd⟩ := s.walkAhead_frame core c va
    refine Completes.intro rfl ⟨hg, ht, hd, fun h1 h2 e he => ?_⟩
    rw [State.walkAhead_of_leaf h1 h2 he]
    exact ⟨State.mem_tlb_cacheEntry _ _ _, rfl⟩
  · have hs : s.snoop ld ha n data = (s.dropHostLine ld ha).writeLoc (.host ld ha) n data :=
      if_neg fun h => by
        obtain ⟨x, hm, hl⟩ := (any_line_iff _ _ _).mp h
        exact hx x hm hl
    have he : exec (.hostSnoop ld ha n data) s = .next ((s.dropHostLine ld ha).writeLoc (.host ld ha) n data) := by
      rw [← hs]; rfl
    refine Completes.intro he ⟨Tab.get_set _ _ _ _, fun d hd => ?_, rfl⟩
    have hne := (List.mem_filter.mp hd).2
    simp at hne
  · have hs : s.snoop ld ha n data = s := if_pos ((any_line_iff _ _ _).mpr hx)
    have he : exec (.hostSnoop ld ha n data) s = .next (s.snoop ld ha n data) := rfl
    rw [he, hs]

/-! ### Answers to AtomicOps (R341) -/

theorem State.forgetOlds_frame (s : State) (gid d size lane : Nat) : ∃ ctxs, s.forgetOlds gid d size lane = { s with ctxs := ctxs } := by
  unfold State.forgetOlds
  dsimp only
  split
  · split
    · exact ⟨_, rfl⟩
    · exact ⟨_, rfl⟩
  · exact ⟨_, rfl⟩

/-- What an atomic of one lane on a place of a host's memory leaves: the place takes the new value, the lane the old one. -/
def hostAtomicDone (s t : State) (gid d : Nat) (op : AtomOp) (a : LaneAcc) (ld h : Nat) : Prop :=
  let old := Memory.readLE (s.hmem.get [] ld) h a.size
  t.hmem.get [] ld = Memory.writeLE (s.hmem.get [] ld) h a.size (atomNew op (8 * a.size) old a.data a.data2) ∧
  (t.gang gid).regs = ((s.gang gid).writeLoaded d false a.size a.lane old).regs ∧ t.dmem = s.dmem ∧ t.teams = s.teams ∧
  t.atomics = s.atomics ∧ t.lds = s.lds

theorem State.deliver_atomic {s : State} {gid d x : Nat} {o : Op} {op : AtomOp} {sc : Scope} (a : LaneAcc)
    (hk : o.kind = .atomic d op sc) :
    s.deliver gid o a x =
      ((s.forgetOlds gid d a.size a.lane).modGang gid fun g => g.writeLoaded d false a.size a.lane x).finishLanes gid o [a.lane] := by
  rw [State.deliver, hk]

theorem State.performAtomic_host {s : State} {gid d ld h : Nat} {o : Op} {op : AtomOp} {sc : Scope} {a : LaneAcc}
    (hf : (s.gang gid).ops.find? (fun p => p.seq == o.seq) = some o) (hk : o.kind = .atomic d op sc) (hl : a.loc = .host ld h) :
    hostAtomicDone s (s.performAtomic gid o op [a]) gid d op a ld h := by
  let old := Memory.readLE (s.hmem.get [] ld) h a.size
  let u := (s.dropLine (gidCore gid) (.host ld h)).writeLoc (.host ld h) a.size (atomNew op (8 * a.size) old a.data a.data2)
  have hfu : (u.gang gid).ops.find? (fun p => p.seq == o.seq) = some o := hf
  have hu : s.performAtomic gid o op [a] = u.deliver gid o a old := by
    have hw (t : State) (v : Nat) : t.gangWrite o.actx gid a.addr (.host ld h) a.size v = t.writeLoc (.host ld h) a.size v := rfl
    rw [State.performAtomic, List.foldl_cons, List.foldl_nil]
    dsimp only
    rw [hl, hw]
    split
    · next p e => rw [Option.some.inj (e.symm.trans hfu)]; rfl
    · next e => exact absurd (e.symm.trans hfu) (by simp)
  rw [hu, State.deliver_atomic a hk]
  obtain ⟨ctxs, hc⟩ := u.forgetOlds_frame gid d a.size a.lane
  rw [hc]
  have k := State.finishLanes_regsKept ({ u with ctxs := ctxs }.modGang gid fun g => g.writeLoaded d false a.size a.lane old) gid o [a.lane]
  refine ⟨?_, ?_, k.dmem, k.teams, k.atomics, k.lds⟩
  · rw [k.hmem]
    exact Tab.get_set _ _ _ _
  · rw [k.regs, State.modGang_eq, State.gang_setGang]
    rfl

theorem State.failLanes_hmem (s : State) (gid : Nat) (o : Op) (lanes : List Nat) (f : FInfo) (again : Bool) :
    (s.failLanes gid o lanes f again).hmem = s.hmem := by
  obtain ⟨_, _, _, _, h⟩ := s.lateFault_frame gid o.sup o.slices o.pc o.word { f with lanes := maskOf lanes }
  unfold State.failLanes
  dsimp only
  rw [h, (State.finishLanes_regsKept _ _ _ _).hmem]
  split
  · rfl
  · rfl

/-- The AtomicOp is on its way no more. -/
def State.takeAtomic (s : State) (x : AtomicOp) : State := { s with atomics := s.atomics.filter (· != x) }

/-- The lanes of an operation that an AtomicOp carries. -/
def AtomicOp.lanesOf (x : AtomicOp) (o : Op) : List LaneAcc := o.lanes.filter fun a => x.lanes.contains a.lane

def State.countUr (s : State) (ld : Nat) : State := s.modLdev ld fun d => { d with ur := saturate16 (d.ur + 1) }
def State.countFallback (s : State) (ld : Nat) : State := s.modLdev ld fun d => { d with fallback := saturate16 (d.fallback + 1) }
def State.countUnsup (s : State) (ld n : Nat) : State := s.modLdev ld fun d => { d with unsup := saturate16 (d.unsup + n) }

theorem State.countFallback_countUr (s : State) (ld : Nat) :
    (((s.countUr ld).countFallback ld).ldev ld).fallback = min ((s.ldev ld).fallback + 1) 65535 := by
  rw [State.countFallback, State.modLdev_eq, State.ldev_setLdev, State.countUr, State.modLdev_eq, State.ldev_setLdev]
  rfl

theorem State.countUnsup_countUr (s : State) (ld n : Nat) :
    (((s.countUr ld).countUnsup ld n).ldev ld).ur = min ((s.ldev ld).ur + 1) 65535 := by
  rw [State.countUnsup, State.modLdev_eq, State.ldev_setLdev, State.countUr, State.modLdev_eq, State.ldev_setLdev]
  rfl

/-- An AtomicOp that fails leaves host memory, whatever has become of its operation. -/
theorem State.finishAtomicOp_fails (s : State) (x : AtomicOp) (status : Nat) :
    (s.finishAtomicOp x false false status).atomics = s.atomics.filter (· != x) ∧
    (s.finishAtomicOp x false false status).hmem = s.hmem := by
  unfold State.finishAtomicOp
  dsimp only
  split
  · exact ⟨rfl, rfl⟩
  · split
    · rw [if_neg Bool.false_ne_true, if_neg Bool.false_ne_true]
      exact ⟨(State.failLanes_frame _ _ _ _ _ _).1, State.failLanes_hmem _ _ _ _ _ _⟩
    · exact ⟨rfl, rfl⟩

section

variable {s : State} {x : AtomicOp} {o : Op} {d : Nat} {op : AtomOp} {sc : Scope}
  (hf : (s.gang x.gid).ops.find? (fun o => o.seq == x.seq) = some o) (hk : o.kind = .atomic d op sc)
include hf hk

theorem State.finishAtomicOp_succeeds (ur : Bool) (status : Nat) :
    s.finishAtomicOp x true ur status = (s.takeAtomic x).performAtomic x.gid o op (x.lanesOf o) := by
  have hf' : ((s.takeAtomic x).gang x.gid).ops.find? (fun o => o.seq == x.seq) = some o := hf
  rw [State.takeAtomic] at hf'
  simp only [State.finishAtomicOp, hf', hk]
  rfl

/-- R341: after an Unsupported Request, an AtomicOp whose route allows it is performed through CXL.cache. -/
theorem State.finishAtomicOp_again (hr : o.route = 0) (hc : (s.ldev x.ld).cache = true) (status : Nat) :
    s.finishAtomicOp x false true status =
      ((((s.takeAtomic x).countUr x.ld).countFallback x.ld).performAtomic x.gid o op (x.lanesOf o)).holdLine (gidCore x.gid)
        (.host x.ld x.ha) true := by
  have hf' : ((s.takeAtomic x).gang x.gid).ops.find? (fun o => o.seq == x.seq) = some o := hf
  have hc' : ((s.takeAtomic x).ldev x.ld).cache = true := hc
  rw [State.takeAtomic] at hf' hc'
  simp only [State.finishAtomicOp, hf', hk, hc', hr, Bool.false_eq_true, if_false, if_true, and_self]
  rfl

/-- R341: by any other route its lanes fail. -/
theorem State.finishAtomicOp_unsupported (hr : o.route ≠ 0 ∨ (s.ldev x.ld).cache = false) (status : Nat) :
    ∃ f, s.finishAtomicOp x false true status =
      (((s.takeAtomic x).countUr x.ld).countUnsup x.ld (x.lanesOf o).length).failLanes x.gid o x.lanes f true := by
  have hf' : ((s.takeAtomic x).gang x.gid).ops.find? (fun o => o.seq == x.seq) = some o := hf
  have hc' : ¬(o.route = 0 ∧ ((s.takeAtomic x).ldev x.ld).cache = true) := fun h => by
    rcases hr with hr | hr
    · exact hr h.1
    · exact Bool.false_ne_true (hr.symm.trans h.2)
  rw [State.takeAtomic] at hf' hc'
  simp only [State.finishAtomicOp, hf', hk, Bool.false_eq_true, if_false, if_true]
  rw [if_neg hc']
  exact ⟨_, rfl⟩

end

theorem State.holdLine_frame (s : State) (core : Nat) (l : Loc) (own : Bool) :
    ∃ lines, s.holdLine core l own = { s with hostLines := lines } := by
  unfold State.holdLine
  split
  · split
    · exact ⟨_, rfl⟩
    · exact ⟨_, rfl⟩
  · exact ⟨_, rfl⟩

/-! ### Zero-length reads (R335) -/

/-- Host memory is as it was, and so are the writes posted to it. -/
def HostKept (s t : State) : Prop := t.hmem = s.hmem ∧ t.posted = s.posted

theorem HostKept.refl (s : State) : HostKept s s := ⟨rfl, rfl⟩

theorem HostKept.trans {s t u : State} (h : HostKept s t) (k : HostKept t u) : HostKept s u := ⟨k.1.trans h.1, k.2.trans h.2⟩

theorem HostKept.foldl {β : Type} (f : State → β → State) (h : ∀ s x, HostKept s (f s x)) (l : List β) (s : State) :
    HostKept s (l.foldl f s) := by
  induction l generalizing s with
  | nil => exact HostKept.refl s
  | cons x l ih => exact (h s x).trans (ih _)

theorem HostKept.ite {c : Prop} [Decidable c] {s t u : State} (h : HostKept s t) (k : HostKept s u) :
    HostKept s (if c then t else u) := by
  split
  · exact h
  · exact k

theorem HostKept.of_regsKept {s t : State} (h : RegsKept s t) : HostKept s t := by obtain ⟨⟨_, _, rfl⟩, _⟩ := h; exact ⟨rfl, rfl⟩

theorem HostKept.of_sendFrame {s t : State} (h : SendFrame s t) : HostKept s t := by
  obtain ⟨_, _, _, _, rfl⟩ := h; exact ⟨rfl, rfl⟩

theorem HostKept.of_transFrame {s t : State} (h : TransFrame s t) : HostKept s t := by
  obtain ⟨⟨_, _, _, _, _, rfl⟩, _⟩ := h; exact ⟨rfl, rfl⟩

theorem State.report_hostKept (s : State) (gid : Nat) (sup : Bool) (pc word : Nat) (f : FInfo) :
    HostKept s (s.report gid sup pc word f) := by
  obtain ⟨_, _, _, h⟩ := s.report_frame gid sup pc word f
  rw [h]
  exact ⟨rfl, rfl⟩

theorem State.modBar_hostKept (s : State) (r : CopyRec) (f : Nat → Nat) : HostKept s (s.modBar r f) := by
  unfold State.modBar
  split
  · exact HostKept.refl s
  · split
    · exact ⟨rfl, rfl⟩
    · exact HostKept.refl s

theorem State.sidePlace_transFrame (s : State) (core team : Nat) (side : CopySide) (acc addr : Nat) :
    TransFrame s (s.sidePlace core team side acc addr).1 := by
  unfold State.sidePlace
  split
  · exact s.translateIn_transFrame _ _ _ _
  · exact TransFrame.refl s
  · exact TransFrame.refl s
  · exact TransFrame.refl s
  · exact TransFrame.refl s
  · exact TransFrame.refl s
  · split
    · exact TransFrame.refl s
    · split
      · dsimp only
        split <;> exact TransFrame.refl s
      · exact TransFrame.refl s
    · exact TransFrame.refl s

theorem TransFrame.of_sidePlace {s t : State} {core team acc addr : Nat} {side : CopySide} {r : Except (FCode × Nat) Loc}
    (e : s.sidePlace core team side acc addr = (t, r)) : TransFrame s t := by
  have h := s.sidePlace_transFrame core team side acc addr
  rwa [e] at h

theorem State.setFlt_hostKept (s : State) (r : CopyRec) (on : Bool) : HostKept s (s.setFlt r on) := by
  refine (s.modBar_hostKept r fun w => phbSetFlt w on).trans ?_
  unfold State.setFlt
  dsimp only
  split
  · split
    · exact HostKept.refl _
    · split
      · next e =>
        exact (HostKept.of_transFrame (.of_sidePlace e)).trans (.of_sendFrame (State.sendLanes_sendFrame _ _ _ _ _ _ _ _))
      · exact HostKept.refl _
  · exact HostKept.refl _

theorem State.stopCopy_hostKept (s : State) (core idx : Nat) (side : Bool) (code : FCode) (faddr detail : Nat) :
    HostKept s (s.stopCopy core idx side code faddr detail) := by
  unfold State.stopCopy
  dsimp only
  split
  · exact ⟨rfl, rfl⟩
  · refine HostKept.trans ?_ (t := State.setFlt _ (s.copyRec core idx) true) ⟨rfl, rfl⟩
    refine HostKept.trans ?_ (State.setFlt_hostKept _ _ _)
    refine HostKept.trans ?_ (State.report_hostKept _ _ _ _ _ _)
    exact ⟨rfl, rfl⟩

theorem State.settleStop_hostKept (s : State) (core idx : Nat) : HostKept s (s.settleStop core idx) := by
  unfold State.settleStop
  dsimp only
  split
  · split
    · exact s.stopCopy_hostKept _ _ _ _ _ _
    · exact HostKept.refl s
  · exact HostKept.refl s

theorem State.copyAcked_hostKept (s : State) (core id : Nat) (sectors : List Nat) (n : Nat) :
    HostKept s (s.copyAcked core id sectors n) := by
  unfold State.copyAcked
  split
  · next i _ =>
    refine HostKept.trans (t := s.setCopy core i _) ?_ (State.settleStop_hostKept _ _ _)
    exact ⟨rfl, rfl⟩
  · exact HostKept.refl s

theorem State.startLoads_hostKept (s : State) (team : Nat) : HostKept s (s.startLoads team) := by
  unfold State.startLoads
  refine HostKept.foldl _ (fun s o => ?_) _ s
  split
  · split
    · exact ⟨rfl, rfl⟩
    · exact HostKept.refl s
  · exact HostKept.refl s

theorem State.endStream_hostKept (s : State) (team : Nat) (o : StreamOp) : HostKept s (s.endStream team o) := by
  unfold State.endStream
  dsimp only
  refine HostKept.trans ?_ (State.startLoads_hostKept _ _)
  split
  · exact ⟨rfl, rfl⟩
  · exact ⟨rfl, rfl⟩

theorem State.saveEnds_hostKept (s : State) (team seq : Nat) : HostKept s (s.saveEnds team seq) := by
  unfold State.saveEnds
  split
  · exact .ite (s.endStream_hostKept _ _) (HostKept.refl s)
  · exact HostKept.refl s

/-- What a zero-length read acknowledges comes off the list, and nothing of it is written again. -/
theorem State.zeroLengthRead_hostKept (s : State) (ld page n : Nat) :
    (s.zeroLengthRead ld page n).hmem = s.hmem ∧ (s.zeroLengthRead ld page n).posted =
      s.posted.filter fun p => !((s.posted.filter fun p => p.ld == ld && p.page == page).take n).contains p := by
  unfold State.zeroLengthRead
  dsimp only
  refine HostKept.foldl _ (fun s p => ?_) _ _
  split
  · split
    · exact .of_regsKept (State.ackLane_regsKept _ _ _ _)
    · exact HostKept.refl s
  · split
    · exact (s.copyAcked_hostKept _ _ _ _).trans (State.modBar_hostKept _ _ _)
    · exact HostKept.refl s
  · exact s.saveEnds_hostKept _ _
  · exact HostKept.refl s

/-! ### The claims -/

theorem hostAtomicAnswers : HostAtomicAnswers := by
  intro s ld ha status page n
  refine ⟨fun hn => ⟨fun ur => ?_, ?_⟩, fun x hx => ?_, ?_⟩
  · have e : exec (.atomicopCompletion ld ha ur status) s = execAtomicopCompletion ld ha ur status s := rfl
    rw [e, execAtomicopCompletion, hn]
  · have e : exec (.atomicopTimeout ld ha) s = execAtomicopTimeout ld ha s := rfl
    rw [e, execAtomicopTimeout, hn]
  · have hld : x.ld = ld := by
      have h := List.find?_some hx
      rw [Bool.and_eq_true, beq_iff_eq] at h
      exact h.1
    have hc (ur : Bool) (st : Nat) : exec (.atomicopCompletion ld ha ur st) s = .next (s.finishAtomicOp x (!ur && st == 0) ur st) := by
      have e : exec (.atomicopCompletion ld ha ur st) s = execAtomicopCompletion ld ha ur st s := rfl
      rw [e, execAtomicopCompletion, hx]
    have ht : exec (.atomicopTimeout ld ha) s = .next (s.finishAtomicOp x false false 0xff) := by
      have e : exec (.atomicopTimeout ld ha) s = execAtomicopTimeout ld ha s := rfl
      rw [e, execAtomicopTimeout, hx]
    refine ⟨fun hs => ?_, Completes.intro ht (s.finishAtomicOp_fails x 0xff), ?_, ?_⟩
    · have h0 : (!false && status == 0) = false := by simpa using hs
      exact Completes.intro ((hc false status).trans (by rw [h0])) (s.finishAtomicOp_fails x status)
    · intro o a d op sc h hf hk hls hl
      have hls' : x.lanesOf o = [a] := hls
      have hseq : o.seq = x.seq := by simpa using List.find?_some hf
      have done (u : State) (hu : ∃ lds, u = { s.takeAtomic x with lds := lds }) :
          hostAtomicDone u (u.performAtomic x.gid o op (x.lanesOf o)) x.gid d op a ld h := by
        obtain ⟨_, rfl⟩ := hu
        rw [hls']
        refine State.performAtomic_host ?_ hk hl
        rw [hseq]
        exact hf
      refine ⟨?_, fun hr hcache => ?_⟩
      · obtain ⟨hm, hg, hd, ht, ha', -⟩ := done (s.takeAtomic x) ⟨_, rfl⟩
        rw [← State.finishAtomicOp_succeeds hf hk false 0] at hm hg hd ht ha'
        exact Completes.intro (hc false 0) ⟨ha', hm, hg, hd, ht⟩
      · let u := ((s.takeAtomic x).countUr x.ld).countFallback x.ld
        obtain ⟨hm, hg, hd, ht, ha', hl'⟩ := done u ⟨_, rfl⟩
        have he := State.finishAtomicOp_again hf hk hr (hld ▸ hcache) status
        obtain ⟨_, hh⟩ := (u.performAtomic x.gid o op (x.lanesOf o)).holdLine_frame (gidCore x.gid) (.host x.ld x.ha) true
        rw [hh] at he
        refine Completes.intro ((hc true status).trans (congrArg _ he)) ⟨⟨ha', hm, hg, hd, ht⟩, ?_⟩
        have hfall : (Tab.get {} (u.performAtomic x.gid o op (x.lanesOf o)).lds ld).fallback = (u.ldev ld).fallback := by
          rw [hl']; rfl
        exact hfall.trans (hld ▸ (s.takeAtomic x).countFallback_countUr x.ld)
    · intro o d op sc hf hk hr
      obtain ⟨f, he⟩ := State.finishAtomicOp_unsupported hf hk (hld ▸ hr) status
      refine Completes.intro ((hc true status).trans (congrArg _ he)) ?_
      obtain ⟨ha', hl⟩ := State.failLanes_frame (((s.takeAtomic x).countUr x.ld).countUnsup x.ld (x.lanesOf o).length) x.gid o x.lanes f true
      refine ⟨ha', State.failLanes_hmem _ _ _ _ _ _, ?_⟩
      exact (congrArg (fun l => (Tab.get {} l ld).ur) hl :).trans (hld ▸ (s.takeAtomic x).countUnsup_countUr x.ld _)
  · obtain ⟨hh, hp⟩ := s.zeroLengthRead_hostKept ld page n
    exact Completes.intro rfl ⟨hh, hp⟩

/-- Settles O23: recalled accesses, walks and snoops by their equations, AtomicOps by what performing or failing their lanes leaves. -/
theorem memoryAndHostEvents : Obligations.MemoryAndHostEvents := ⟨memoryEvents, hostAtomicAnswers⟩

end Sys2Proof.Machine
end

section
/-! ## Copies at their issue -/

namespace Sys2Proof.Machine
open Sys2Proof.Claims

/-! ### The first fault in R241's order -/

theorem insertBy_eq_orderedInsert {α : Type} (le : α → α → Bool) (x : α) (l : List α) :
    insertBy le x l = l.orderedInsert (fun a b => le a b = true) x := by
  induction l with
  | nil => rfl
  | cons y l ih => rw [insertBy, List.orderedInsert_cons, ih]

/-- The model's sort is insertion sort. -/
theorem sortBy_eq_insertionSort {α : Type} (l : List α) (le : α → α → Bool) :
    sortBy l le = l.insertionSort fun a b => le a b = true := by
  rw [sortBy, List.insertionSort, funext fun x => funext fun l => insertBy_eq_orderedInsert le x l]

theorem mem_of_mem_sortBy {α : Type} {le : α → α → Bool} {y : α} {l : List α} (h : y ∈ sortBy l le) : y ∈ l := by
  rwa [sortBy_eq_insertionSort, List.mem_insertionSort] at h

theorem head?_insertBy_of_le {α : Type} {le : α → α → Bool} {x : α} {l : List α} (h : ∀ y ∈ l, le x y = true) :
    (insertBy le x l).head? = some x := by
  cases l with
  | nil => rfl
  | cons y l => rw [insertBy, if_pos (h y List.mem_cons_self)]; rfl

theorem head?_insertBy_of_not_le {α : Type} {le : α → α → Bool} {x p : α} {l : List α} (hp : l.head? = some p) (h : le x p = false) :
    (insertBy le x l).head? = some p := by
  cases l with
  | nil => cases hp
  | cons y l =>
    obtain rfl : y = p := Option.some.inj hp
    rw [insertBy, if_neg (by rw [h]; exact Bool.false_ne_true)]
    rfl

/-- R241: the fault with the least number is taken, before those that stand later with the same. -/
theorem firstFault_least {a b : List (Nat × FInfo)} {n : Nat} {f : FInfo} (ha : ∀ p ∈ a, n < p.1) (hb : ∀ p ∈ b, n ≤ p.1) :
    firstFault (a ++ (n, f) :: b) = some f := by
  have head : (sortBy (a ++ (n, f) :: b) fun a b => decide (a.1 ≤ b.1)).head? = some (n, f) := by
    induction a with
    | nil => exact head?_insertBy_of_le fun y hy => decide_eq_true (hb y (mem_of_mem_sortBy hy))
    | cons x a ih =>
      have hx : n < x.1 := ha x List.mem_cons_self
      exact head?_insertBy_of_not_le (ih fun p hp => ha p (List.mem_cons_of_mem x hp)) (decide_eq_false (by simpa using hx))
  rw [firstFault, head]
  rfl

/-! ### The checks of a flat copy (R239 to R241) -/

/-- What is wrong with a barrier's offset. -/
def State.barFaults (s : State) (bar : Nat) : List (Nat × FInfo) :=
  (if bar % 8 ≠ 0 then [(3, ({ code := .align, addr := bar } : FInfo))] else []) ++
    (if bar ≠ 0 ∧ s.curTeam.scratchSize < bar + 8 then [(4, ({ code := .protect, detail := 6, addr := bar } : FInfo))] else [])

/-- What is wrong with the sides of a flat copy and its barrier: the destination's faults, the source's, the barrier's. -/
def State.flatFaults (s : State) (x y : CopySpace) (src dst len bar : Nat) : List (Nat × FInfo) :=
  (s.sideCheck y dst len).toList ++ ((s.sideCheck x src len).filter fun p => p.2.code != .twinIsolated).toList ++ s.barFaults bar

theorem State.copy_of_flat (s : State) (x y : CopySpace) (a b c : SReg) (park : Bool) (ho : (s.srcS c).toNat < 2 ^ 56)
    (hl : (s.srcS c).toNat % 2 ^ 32 ≠ 0) :
    s.copy x a b c y park =
      (firstFault (s.flatFaults x y (s.srcS b).toNat (s.srcS a).toNat ((s.srcS c).toNat % 2 ^ 32)
        ((s.srcS c).toNat / 2 ^ 32 % 2 ^ 24))).elim
        (s.startCopy (.flat x (s.srcS b).toNat) (.flat y (s.srcS a).toNat) ((s.srcS c).toNat % 2 ^ 32)
          ((s.srcS c).toNat / 2 ^ 32 % 2 ^ 24) park) s.fault := by
  generalize ho' : (s.srcS c).toNat = o at ho hl
  have h56 : bits o 56 6 = 0 := by rw [bits, Nat.div_eq_of_lt ho, Nat.zero_mod]
  have h63 : bit o 63 = false := by rw [bit, Nat.div_eq_of_lt (by omega)]; rfl
  have h62 : bit o 62 = false := by rw [bit, Nat.div_eq_of_lt (by omega)]; rfl
  have h0 : bits o 0 32 = o % 2 ^ 32 := by rw [bits, pow_zero, Nat.div_one]
  have ht : (!false) = true := rfl
  have hn : ¬((false = true) ∨ o % 2 ^ 32 = 0) := fun h => h.elim Bool.false_ne_true hl
  unfold State.copy
  dsimp only
  rw [ho', h56, h63, h62, h0, if_neg (not_not_intro rfl), if_pos ht, if_neg hn]
  have hbar : bits o 32 24 = o / 2 ^ 32 % 2 ^ 24 := rfl
  rw [hbar]
  generalize o % 2 ^ 32 = len
  generalize o / 2 ^ 32 % 2 ^ 24 = bar
  rw [State.flatFaults, State.barFaults]
  split
  · next e => rw [e, Option.elim_some]
  · next e => rw [e, Option.elim_none]

/-- A reserved bit, or a length of zero without a tensor. -/
theorem State.copy_of_bad (s : State) (x y : CopySpace) (a b c : SReg) (park : Bool)
    (h : (s.srcS c).toNat / 2 ^ 56 % 2 ^ 6 ≠ 0 ∨ ((s.srcS c).toNat < 2 ^ 63 ∧ (s.srcS c).toNat % 2 ^ 32 = 0)) :
    s.copy x a b c y park = s.fault ill7 := by
  unfold State.copy
  dsimp only
  split
  · rfl
  · next h56 =>
    obtain ⟨hlt, h0⟩ := h.resolve_left h56
    have h63 : bit (s.srcS c).toNat 63 = false := by rw [bit, Nat.div_eq_of_lt hlt]; rfl
    have hz : bits (s.srcS c).toNat 0 32 = 0 := by rw [bits, pow_zero, Nat.div_one]; exact h0
    have ht : (!false) = true := rfl
    rw [h63, if_pos ht, if_pos (.inr hz)]

theorem State.barFaults_of_ok {s : State} {bar : Nat} (h : barOk s bar) : s.barFaults bar = [] := by
  obtain ⟨hal, hin⟩ := h
  rw [State.barFaults, if_neg (not_not_intro hal), if_neg fun hb => hb.1 (hin.resolve_right (by omega))]
  rfl

theorem State.sideCheck_of_ok {s : State} {sp : CopySpace} {addr len : Nat} (h : sideOk s sp addr len) : s.sideCheck sp addr len = none := by
  cases sp with
  | g => exact if_neg (Nat.not_le.mpr h)
  | l => exact if_neg (Nat.not_lt.mpr h)
  | wb => exact if_neg (Nat.not_lt.mpr h)
  | ab => exact if_neg (Nat.not_lt.mpr h)
  | cb => exact if_neg (Nat.not_lt.mpr h)
  | sb => exact h.elim
  | w =>
    obtain ⟨l, hl, ht⟩ := h
    simp only [State.sideCheck, hl]
    exact if_neg fun hr => Bool.false_ne_true ((ht hr.1).symm.trans hr.2)

/-- But for an address of `g:` past its end, a side's faults come after a misaligned barrier's. -/
theorem State.sideCheck_late {s : State} {sp : CopySpace} {addr len : Nat} (h : sp ≠ .g ∨ addr < 2 ^ 57) {p : Nat × FInfo}
    (hp : s.sideCheck sp addr len = some p) : 3 < p.1 := by
  have range {ext : Nat} {p : Nat × FInfo}
      (hp : (if ext < addr + len then some (4, ({ code := .protect, detail := 6, addr := addr } : FInfo)) else none) = some p) : 3 < p.1 := by
    split at hp
    · rw [← Option.some.inj hp]; exact show 3 < 4 by decide
    · cases hp
  cases sp with
  | g => rw [State.sideCheck, if_neg (Nat.not_le.mpr (h.resolve_left (not_not_intro rfl)))] at hp; cases hp
  | l => exact range hp
  | wb => exact range hp
  | ab => exact range hp
  | cb => exact range hp
  | sb => cases hp
  | w =>
    simp only [State.sideCheck] at hp
    split at hp
    · rw [← Option.some.inj hp]; exact show 3 < 5 by decide
    · split at hp
      · rw [← Option.some.inj hp]; exact show 3 < 6 by decide
      · cases hp

theorem State.firstFault_flatFaults_of_ok {s : State} {x y : CopySpace} {src dst len bar : Nat} (hb : barOk s bar)
    (hy : sideOk s y dst len) (hx : sideOk s x src len) : firstFault (s.flatFaults x y src dst len bar) = none := by
  rw [State.flatFaults, State.sideCheck_of_ok hy, State.sideCheck_of_ok hx, State.barFaults_of_ok hb]
  rfl

theorem State.firstFault_flatFaults_of_misaligned {s : State} {x y : CopySpace} {src dst len bar : Nat} (hb : bar % 8 ≠ 0)
    (hy : y ≠ .g ∨ dst < 2 ^ 57) (hx : x ≠ .g ∨ src < 2 ^ 57) :
    firstFault (s.flatFaults x y src dst len bar) = some { code := .align, addr := bar } := by
  rw [State.flatFaults, State.barFaults, if_pos hb, List.singleton_append]
  refine firstFault_least (fun p hp => ?_) fun p hp => ?_
  · rcases List.mem_append.mp hp with hp | hp
    · exact State.sideCheck_late hy (Option.mem_toList.mp hp)
    · exact State.sideCheck_late hx (Option.mem_filter_iff.mp (Option.mem_toList.mp hp)).1
  · split at hp
    · rw [List.mem_singleton.mp hp]; exact Nat.le_succ 3
    · cases hp

theorem State.firstFault_flatFaults_of_outside {s : State} {src dst len : Nat} (hs : s.curTeam.scratchSize < dst + len)
    (hx : src < 2 ^ 57) : firstFault (s.flatFaults .g .l src dst len 0) = some { code := .protect, detail := 6, addr := dst } := by
  have hl : s.sideCheck .l dst len = some (4, { code := .protect, detail := 6, addr := dst }) := if_pos hs
  have hg : s.sideCheck .g src len = none := if_neg (Nat.not_le.mpr hx)
  rw [State.flatFaults, hl, hg, State.barFaults_of_ok ⟨rfl, .inl rfl⟩]
  rfl

/-! ### Lines that a copy takes (R224) -/

/-- What a copy owns is read off contexts, memory and the translations of cores, and off nothing that starting a copy changes. -/
def SameView (s t : State) : Prop :=
  (∃ cores order, t = { s with cores := cores, copyOrder := order }) ∧
  ∀ k, (t.core k).tlb = (s.core k).tlb ∧ (t.core k).svcCtx = (s.core k).svcCtx

theorem SameView.viewWalk {s t : State} (h : SameView s t) (c va n : Nat) : t.viewWalk c va n = s.viewWalk c va n := by
  obtain ⟨⟨_, _, rfl⟩, -⟩ := h
  induction n generalizing c with
  | zero => rfl
  | succ n ih =>
    unfold State.viewWalk
    simp only [ih]
    rfl

theorem SameView.peek {s t : State} (h : SameView s t) (core c va : Nat) : t.peek core c va = s.peek core c va := by
  have hc : t.cached core c va = s.cached core c va := by rw [State.cached, (h.2 core).1]; rfl
  unfold State.peek
  rw [hc, h.viewWalk]
  obtain ⟨⟨_, _, rfl⟩, -⟩ := h
  rfl

theorem SameView.accessCtx {s t : State} (h : SameView s t) (team : Nat) : t.accessCtx team = s.accessCtx team := by
  unfold State.accessCtx
  dsimp only
  rw [(h.2 (team / 16)).2]
  obtain ⟨⟨_, _, rfl⟩, -⟩ := h
  rfl

theorem SameView.ownedIn {s t : State} (h : SameView s t) (core c : Nat) (pages : List Nat) (owns : Nat → Bool) (l : Loc) :
    t.ownedIn core c pages owns l = s.ownedIn core c pages owns l := by
  unfold State.ownedIn
  simp only [h.peek]

theorem SameView.copyOwns {s t : State} (h : SameView s t) (core : Nat) (r : CopyRec) (l : Loc) :
    t.copyOwns core r l = s.copyOwns core r l := by
  unfold State.copyOwns
  simp only [h.ownedIn, h.accessCtx]
  obtain ⟨⟨_, _, rfl⟩, -⟩ := h
  rfl

/-! ### Starting a copy (R242) -/

/-- The record that a copy takes. -/
def State.newCopy (s : State) (k : Nat) (src dst : CopySide) (len bar : Nat) : CopyRec :=
  { state := .running, seq := (s.copyRec s.coreKey k).seq + 1, tslot := gidSlot s.iss.gid, gid := s.iss.gid, pc := s.iss.pc,
    word := s.iss.word, src := src, dst := dst, len := len, bar := bar, order := s.copyOrder + 1, gseq := s.cur.seq }

/-- The record entered, before the copy takes its lines. -/
def State.enterCopy (s : State) (k : Nat) (r : CopyRec) : State := { s with copyOrder := s.copyOrder + 1 }.setCopy s.coreKey k r

/-- A copy started by a word that does not park. -/
def State.withCopy (s : State) (k : Nat) (r : CopyRec) : State :=
  ((s.enterCopy k r).takeCopyLines s.coreKey r).modCur fun g => { g with cp := g.cp + 1, lastCopy := r.id k }

/-- R248: the split that parks at its packet until the copy completes. -/
def State.parkOnCopy (s : State) (t : State) (id : Nat) : State :=
  (t.parkSplit (.cpyc id)).leaveActive s.iss.gid (.parked (s.iss.slices.headD 0))

theorem State.startCopy_of_free {s : State} {k : Nat} (h : s.freeCopy s.coreKey = some k) (src dst : CopySide) (len bar : Nat) :
    s.startCopy src dst len bar false = s.withCopy k (s.newCopy k src dst len bar) := by
  unfold State.startCopy
  dsimp only
  split
  · next e => rw [e] at h; cases h
  · next j e =>
    obtain rfl : j = k := Option.some.inj (e.symm.trans h)
    rw [if_neg Bool.false_ne_true]
    rfl

theorem State.startCopy_park_of_free {s : State} {k : Nat} (h : s.freeCopy s.coreKey = some k) (src dst : CopySide) (len bar : Nat) :
    s.startCopy src dst len bar true =
      s.parkOnCopy (s.withCopy k (s.newCopy k src dst len bar)) ((s.newCopy k src dst len bar).id k) := by
  unfold State.startCopy
  dsimp only
  split
  · next e => rw [e] at h; cases h
  · next j e =>
    obtain rfl : j = k := Option.some.inj (e.symm.trans h)
    rw [if_pos rfl]
    rfl

theorem State.enterCopy_sameView (s : State) (k : Nat) (r : CopyRec) : SameView s (s.enterCopy k r) := by
  refine ⟨⟨_, _, rfl⟩, fun j => ?_⟩
  rw [State.enterCopy, State.setCopy, State.modCore_eq]
  by_cases e : j = s.coreKey
  · rw [e, State.core_setCore]
    exact ⟨rfl, rfl⟩
  · rw [State.core_setCore_ne _ _ _ _ e]
    exact ⟨rfl, rfl⟩

theorem State.core_withCopy (s : State) (k : Nat) (r : CopyRec) : (s.withCopy k r).core s.coreKey =
    { s.core s.coreKey with copies := Tab.set (s.core s.coreKey).copies k r
                            l1 := (s.core s.coreKey).l1.filter fun x => !s.copyOwns s.coreKey r (keyPlace x.1) } := by
  have hv := s.enterCopy_sameView k r
  have h1 : (s.enterCopy k r).core s.coreKey = { s.core s.coreKey with copies := Tab.set (s.core s.coreKey).copies k r } :=
    State.core_setCore _ _ _
  have h2 : (s.withCopy k r).core s.coreKey =
      { (s.enterCopy k r).core s.coreKey with
        l1 := ((s.enterCopy k r).core s.coreKey).l1.filter fun x => !(s.enterCopy k r).copyOwns s.coreKey r (keyPlace x.1) } :=
    State.core_setCore _ _ _
  rw [h2, h1]
  simp only [hv.copyOwns]

theorem State.copyRec_withCopy (s : State) (k : Nat) (r : CopyRec) : (s.withCopy k r).copyRec s.coreKey k = r := by
  rw [State.copyRec, s.core_withCopy k r]
  exact Tab.get_set _ _ _ _

/-- R242: what starting a copy leaves. -/
theorem State.withCopy_started (s : State) (k : Nat) (src dst : CopySide) (len bar : Nat) :
    copyStarted s (s.withCopy k (s.newCopy k src dst len bar)) k src dst len bar := by
  generalize hr : s.newCopy k src dst len bar = r
  have hcur : (s.withCopy k r).cur = { s.cur with cp := s.cur.cp + 1, lastCopy := r.id k } := State.cur_modCur _ _
  unfold copyStarted
  rw [s.copyRec_withCopy k r, hcur, s.core_withCopy k r]
  subst hr
  refine ⟨rfl, rfl, rfl, rfl, rfl, rfl, rfl, rfl, rfl, rfl, rfl, fun x => ?_, rfl, rfl⟩
  rw [List.mem_filter, Bool.not_eq_true']

/-- Parking changes the gang's slices, and what makes it leave the active set; the copy stands as it was started. -/
theorem copyStarted_of_parks {s t u : State} {k : Nat} {src dst : CopySide} {len bar : Nat} {p : Park}
    (h : copyStarted s t k src dst len bar) (hp : Parks t u p) (hcp : u.cur.cp = t.cur.cp)
    (hlast : u.cur.lastCopy = t.cur.lastCopy) : copyStarted s u k src dst len bar := by
  have hrec : u.copyRec s.coreKey k = t.copyRec s.coreKey k := by rw [hp.only]; rfl
  have hcore : u.core s.coreKey = t.core s.coreKey := by rw [hp.only]; rfl
  have hhmem : u.hmem = t.hmem := by rw [hp.only]; rfl
  unfold copyStarted at h ⊢
  rw [hrec, hcore, hcp, hlast, hp.regs, hp.teams, hhmem]
  exact h

theorem State.parkOnCopy_parks {s t : State} (hi : t.iss = s.iss) (id : Nat) : Parks t (s.parkOnCopy t id) (.cpyc id) := by
  have h := (t.parkSplit_parks (.cpyc id)).leaveActive (.parked (s.iss.slices.headD 0))
  rwa [hi] at h

theorem State.parkOnCopy_cur {s t : State} (hi : t.iss = s.iss) (id : Nat) :
    (s.parkOnCopy t id).cur.cp = t.cur.cp ∧ (s.parkOnCopy t id).cur.lastCopy = t.cur.lastCopy := by
  obtain ⟨l, hl⟩ := (t.parkSplit (.cpyc id)).leaveActive_frame s.iss.gid (.parked (s.iss.slices.headD 0))
  have hc : (t.parkSplit (.cpyc id)).cur = { t.cur with slices := (t.parkSplit (.cpyc id)).cur.slices } := by
    rw [State.parkSplit, State.cur_modSlices]
    exact Gang.modSlices_only _ _ _
  have hg : (t.parkSplit (.cpyc id)).gang s.iss.gid = (t.parkSplit (.cpyc id)).cur := by rw [← hi]; rfl
  have hu : (s.parkOnCopy t id).cur = { (t.parkSplit (.cpyc id)).cur with leaving := l } := by
    rw [State.parkOnCopy, hl, hg, ← hi]
    exact State.gang_setGang _ _ _
  rw [hu, hc]
  exact ⟨rfl, rfl⟩

/-! ### The words -/

theorem State.lanes_isEmpty_of_ne {s : State} (h : s.lanes ≠ []) : ¬s.lanes.isEmpty = true := by simpa using h

section

variable {s : State} {x y : CopySpace} {a b c : SReg}

theorem exec_cpy {t : State} (ha : Admits (.cpy x a b c y) s) (hl : s.lanes ≠ []) (hc : s.copy x a b c y false = t)
    (hn : Answered s t) : exec (.cpy x a b c y) s = .next t :=
  exec_of_effect (i := .cpy x a b c y) (f := fun s => if s.lanes.isEmpty then s else s.copy x a b c y false) rfl ha
    ((if_neg (State.lanes_isEmpty_of_ne hl)).trans hc) hn

theorem exec_cpyc {t : State} (ha : Admits (.cpyc x a b c y) s) (hl : s.lanes ≠ [])
    (ht : s.checkTarget s.iss.gid (pcSucc s.iss.pc) = (s, none)) (hc : s.copy x a b c y true = t) (hn : Answered s t) :
    exec (.cpyc x a b c y) s = .next t := by
  refine exec_of_effect (i := .cpyc x a b c y) (execCpyc.eq_1 x a b c y s) ha ?_ hn
  rw [if_neg (State.lanes_isEmpty_of_ne hl), ht]
  exact hc

theorem exec_cpyq {t : State} (ha : Admits (.cpyq a b) s) (hl : s.lanes ≠ []) (hn : Answered s t)
    (hc : (if (s.srcS b).toNat < 1 ∨ 64 < (s.srcS b).toNat then s.fault ill7
      else if (s.srcS a).toNat % 16 ≠ 0 ∨ 2 ^ 57 ≤ (s.srcS a).toNat then s.fault { code := .align, addr := (s.srcS a).toNat }
      else s.startCopy (.flat .g (s.srcS a).toNat) .metadata (16 * (s.srcS b).toNat) 0 false) = t) :
    exec (.cpyq a b) s = .next t := by
  refine exec_of_effect (i := .cpyq a b) (execCpyq.eq_1 a b s) ha ?_ hn
  dsimp only
  rw [if_neg (State.lanes_isEmpty_of_ne hl)]
  exact hc

end

theorem copyIssue : CopyIssue := by
  intro s x y a b c k o dst src len bar hl hk
  refine ⟨fun ho hlen hb hy hx => ⟨fun ha => ?_, fun ha ht => ?_⟩, fun ha hd hal h1 h64 => ?_⟩
  · have hc := s.copy_of_flat x y a b c false ho hlen
    rw [State.firstFault_flatFaults_of_ok hb hy hx, Option.elim_none, State.startCopy_of_free hk] at hc
    refine Completes.intro (exec_cpy ha hl hc rfl) ⟨s.withCopy_started k _ _ _ _, ?_, rfl⟩
    rw [State.withCopy, State.cur_modCur]
    rfl
  · have hc := s.copy_of_flat x y a b c true ho hlen
    rw [State.firstFault_flatFaults_of_ok hb hy hx, Option.elim_none, State.startCopy_park_of_free hk] at hc
    have started := s.withCopy_started k (.flat x src) (.flat y dst) len bar
    generalize hr : s.newCopy k (.flat x src) (.flat y dst) len bar = r at hc started
    have hp := State.parkOnCopy_parks (s := s) (t := s.withCopy k r) rfl (r.id k)
    obtain ⟨hcp, hlast⟩ := State.parkOnCopy_cur (s := s) (t := s.withCopy k r) rfl (r.id k)
    refine Completes.intro (exec_cpyc ha hl ht hc hp.hostNeed) ⟨copyStarted_of_parks started hp hcp hlast, fun j hj => ?_, hp.dmem⟩
    obtain ⟨hpark, hpc⟩ := hp.parked j hj
    refine ⟨hpc, ?_⟩
    have hrec : (s.parkOnCopy (s.withCopy k r) (r.id k)).copyRec s.coreKey k = r := by
      rw [hp.only]
      exact s.copyRec_withCopy k r
    rw [hrec]
    exact hpark
  · refine Completes.intro (exec_cpyq ha hl (t := s.withCopy k (s.newCopy k (.flat .g dst) .metadata (16 * src) 0)) rfl ?_)
      ⟨s.withCopy_started k _ _ _ _, rfl⟩
    rw [if_neg (by omega), if_neg (by omega), State.startCopy_of_free hk]

theorem copyChecks : CopyChecks := by
  intro s x y a b c o dst src bad
  have hbad : Answered s (s.fault bad) := s.fault_answered rfl
  refine ⟨fun ha => ⟨fun hl => ?_, fun hl h => ?_, fun hl ho hlen hb hy hx => ?_, fun hl ho h0 hy hs hx hsrc => ?_⟩,
    fun ha hl => ⟨fun h => ?_, fun h1 h64 hal => ?_⟩⟩
  · exact exec_of_effect (i := .cpy x a b c y) (f := fun s => if s.lanes.isEmpty then s else s.copy x a b c y false) rfl ha
      (if_pos (by simpa using hl)) rfl
  · exact exec_cpy ha hl (s.copy_of_bad x y a b c false h) hbad
  · have hbar : o / 2 ^ 32 % 2 ^ 24 % 8 ≠ 0 := by omega
    refine exec_cpy ha hl ?_ (s.fault_answered rfl)
    rw [s.copy_of_flat x y a b c false ho hlen, State.firstFault_flatFaults_of_misaligned hbar hy hx, Option.elim_some]
  · subst hy hx
    have hlen : o % 2 ^ 32 = o := Nat.mod_eq_of_lt ho
    have hbar : o / 2 ^ 32 % 2 ^ 24 = 0 := by omega
    refine exec_cpy ha hl ?_ (s.fault_answered rfl)
    rw [s.copy_of_flat .g .l a b c false (by omega) (by omega)]
    change (firstFault (s.flatFaults .g .l src dst (o % 2 ^ 32) (o / 2 ^ 32 % 2 ^ 24))).elim _ _ = _
    rw [hlen, hbar, State.firstFault_flatFaults_of_outside hs hsrc, Option.elim_some]
  · exact exec_cpyq ha hl hbad (if_pos (by omega))
  · refine exec_cpyq ha hl (s.fault_answered rfl) ?_
    rw [if_neg (by omega), if_pos (.inl hal)]

/-- Settles O24: a flat copy whose faults' list is empty starts in the free record, and otherwise the list's least is raised. -/
theorem copyWords : Obligations.CopyWords := ⟨copyIssue, copyChecks⟩

end Sys2Proof.Machine
end

section
/-! ## Phase barriers -/

namespace Sys2Proof.Machine
open Sys2Proof.Claims

/-! ### Fields of a word -/

theorem bits_setBits_same (x lo n v : Nat) : bits (setBits x lo n v) lo n = v % 2 ^ n := by
  refine Nat.eq_of_testBit_eq fun i => ?_
  rw [testBit_bits, testBit_setBits, Nat.testBit_mod_two_pow]
  by_cases hi : i < n
  · rw [if_pos ⟨by omega, by omega⟩, Nat.add_sub_cancel_left]
  · rw [decide_eq_false hi, Bool.false_and, Bool.false_and]

theorem bits_setBits_apart {x lo n v lo' n' : Nat} (h : lo + n ≤ lo' ∨ lo' + n' ≤ lo) :
    bits (setBits x lo n v) lo' n' = bits x lo' n' := by
  refine Nat.eq_of_testBit_eq fun i => ?_
  rw [testBit_bits, testBit_bits, testBit_setBits]
  by_cases hi : i < n'
  · rw [if_neg (by omega)]
  · rw [decide_eq_false hi, Bool.false_and, Bool.false_and]

theorem bit_setBits_apart {x lo n v i : Nat} (h : i < lo ∨ lo + n ≤ i) : bit (setBits x lo n v) i = bit x i := by
  rw [bit_iff, bit_iff, testBit_setBits, if_neg (by omega)]

theorem bit_setBits_one (x i v : Nat) : bit (setBits x i 1 v) i = v.testBit 0 := by
  rw [bit_iff, testBit_setBits, if_pos ⟨le_rfl, by omega⟩, Nat.sub_self]

theorem bits_mod_two_pow {x lo n m : Nat} (h : lo + n ≤ m) : bits (x % 2 ^ m) lo n = bits x lo n := by
  refine Nat.eq_of_testBit_eq fun i => ?_
  rw [testBit_bits, testBit_bits, Nat.testBit_mod_two_pow]
  by_cases hi : i < n
  · rw [decide_eq_true (by omega : lo + i < m), Bool.true_and]
  · rw [decide_eq_false hi, Bool.false_and, Bool.false_and]

theorem bit_mod_two_pow {x i m : Nat} (h : i < m) : bit (x % 2 ^ m) i = bit x i := by
  rw [bit_iff, bit_iff, Nat.testBit_mod_two_pow, decide_eq_true h, Bool.true_and]

/-! ### Arrivals (R258) -/

/-- The word with an arrival taken off, or ERR set when none is awaited. -/
def phbLess (w : Nat) : Nat := if phbArr w = 0 then setBits w 61 1 1 else setBits w 54 7 (phbArr w - 1)

theorem phbLess_fields (w : Nat) : bits (phbLess w) 0 47 = bits w 0 47 ∧ bits (phbLess w) 47 7 = bits w 47 7 ∧
    bits (phbLess w) 54 7 = (if bits w 54 7 = 0 then 0 else bits w 54 7 - 1) ∧
    bit (phbLess w) 61 = (bit w 61 || bits w 54 7 == 0) ∧ bit (phbLess w) 62 = bit w 62 ∧ bit (phbLess w) 63 = bit w 63 := by
  unfold phbLess phbArr
  by_cases h : bits w 54 7 = 0
  · rw [if_pos h, if_pos h, h]
    refine ⟨bits_setBits_apart (by omega), bits_setBits_apart (by omega), (bits_setBits_apart (by omega)).trans h, ?_,
      bit_setBits_apart (by omega), bit_setBits_apart (by omega)⟩
    rw [bit_setBits_one]
    simp
  · have hlt : bits w 54 7 < 2 ^ 7 := Nat.mod_lt _ (by omega)
    rw [if_neg h, if_neg h]
    refine ⟨bits_setBits_apart (by omega), bits_setBits_apart (by omega), ?_, ?_, bit_setBits_apart (by omega),
      bit_setBits_apart (by omega)⟩
    · rw [bits_setBits_same, Nat.mod_eq_of_lt (by omega)]
    · rw [bit_setBits_apart (by omega)]
      simp [h]

theorem phbArrive_eq (w b : Nat) : phbArrive w b = phbCheck (setBits (phbLess w) 0 47 (bits w 0 47 + b)) := by
  obtain ⟨hbytes, -⟩ := phbLess_fields w
  rw [← hbytes]
  rfl

/-- A phase completes when nothing is awaited: P turns, and the count is renewed. -/
theorem phbCheck_fields (w : Nat) : let done : Bool := bits w 54 7 == 0 && bits w 0 47 == 0
    bits (phbCheck w) 0 47 = bits w 0 47 ∧ bits (phbCheck w) 47 7 = bits w 47 7 ∧
    (bits (phbCheck w) 54 7 = if done then bits w 47 7 else bits w 54 7) ∧
    bit (phbCheck w) 61 = bit w 61 ∧ bit (phbCheck w) 62 = bit w 62 ∧ bit (phbCheck w) 63 = (bit w 63 ^^ done) := by
  intro done
  unfold phbCheck phbArr phbBytes
  by_cases h : bits w 54 7 = 0 ∧ bits w 0 47 = 0
  · have hd : done = true := by simp [done, h.1, h.2]
    rw [if_pos h, hd]
    refine ⟨?_, ?_, ?_, ?_, ?_, ?_⟩
    · rw [bits_setBits_apart (by omega), bits_setBits_apart (by omega)]
    · rw [bits_setBits_apart (by omega), bits_setBits_apart (by omega)]
    · rw [bits_setBits_same, if_pos rfl, phbCnt, bits, Nat.mod_mod]
    · rw [bit_setBits_apart (by omega), bit_setBits_apart (by omega)]
    · rw [bit_setBits_apart (by omega), bit_setBits_apart (by omega)]
    · rw [bit_setBits_apart (by omega), bit_setBits_one, phbP]
      cases bit w 63 <;> rfl
  · have hd : done = false := by
      simp only [done, Bool.and_eq_false_iff, beq_eq_false_iff_ne]
      exact not_and_or.mp h
    rw [if_neg h, hd]
    exact ⟨rfl, rfl, rfl, rfl, rfl, by rw [Bool.xor_false]⟩

theorem phaseArrived_phbArrive (w b : Nat) : phaseArrived w b (phbArrive w b) := by
  obtain ⟨-, lcnt, larr, lerr, lflt, lp⟩ := phbLess_fields w
  have cf := phbCheck_fields (setBits (phbLess w) 0 47 (bits w 0 47 + b))
  rw [← phbArrive_eq, bits_setBits_same, bits_setBits_apart (by omega), bits_setBits_apart (by omega), bit_setBits_apart (by omega),
    bit_setBits_apart (by omega), bit_setBits_apart (by omega), lcnt, larr, lerr, lflt, lp] at cf
  exact cf

/-- What R258 says of the new word it says of its low 64 bits. -/
theorem phaseArrived_mod {w b w' : Nat} (h : phaseArrived w b w') : phaseArrived w b (w' % 2 ^ 64) := by
  unfold phaseArrived at h ⊢
  rw [bits_mod_two_pow (by omega), bits_mod_two_pow (by omega), bits_mod_two_pow (by omega), bit_mod_two_pow (by omega),
    bit_mod_two_pow (by omega), bit_mod_two_pow (by omega)]
  exact h

/-! ### The words (R257, R258) -/

/-- The offset that the word of lane `i` stands at. -/
def State.phbOff (s : State) (a : AReg) (i : Nat) : Nat :=
  ((s.srcA a).base + BitVec.ofNat 64 i * BitVec.ofInt 64 (s.srcA a).stride.toInt).toNat

/-- A word with no vector register, legal on every core, passes its issue checks. -/
theorem admits_plain {i : Instr} {s : State}
    (hi : illegalAt i s = (!true || (false && s.coreKey != fwCore) || (s.coreKey == fwCore && false) || false || false))
    (hv : vregsOf i = []) (hs : spaceFault i s = if false = true ∧ (!s.iss.sup) = true then some { code := .protect } else none) :
    Admits i s := admits_of_inRange (l := []) hi hv hs fun r hr => absurd hr (List.not_mem_nil (a := r))

theorem admits_phbinit (s : State) (a : AReg) {n : Fin 128} (hn : n.val ≠ 0) : Admits (.phbinit a n) s := by
  have hwf : (n.val != 0) = true := by simpa using hn
  exact admits_plain (congrArg (fun b => !b || _ || _ || _ || _) hwf) rfl rfl

theorem admits_phbarr (s : State) (a : AReg) : Admits (.phbarr a) s := admits_plain rfl rfl rfl
theorem admits_phbexp (s : State) (b : SReg) (a : AReg) : Admits (.phbexp b a) s := admits_plain rfl rfl rfl
theorem admits_phbtest (s : State) (a : AReg) (p : PReg) (h : Bool) : Admits (.phbtest a p h) s := admits_plain rfl rfl rfl
theorem admits_phbwait (s : State) (a : AReg) (h : Bool) : Admits (.phbwait a h) s := admits_plain rfl rfl rfl

section

variable {s : State} {a : AReg} {i : Nat} {rest : List Nat} (hl : s.lanes = i :: rest)
include hl

theorem State.phbAct_misaligned (acc : Nat) (all : Bool) (f : State → Nat → State) (h : s.phbOff a i % 8 ≠ 0) :
    s.phbAct a acc all f = s.fault { code := .align, acc := acc, addr := s.phbOff a i } := by
  have hp : s.phbPlace a acc = some (.error { code := .align, acc := acc, addr := s.phbOff a i }) := by
    rw [State.phbPlace, hl]
    exact if_pos h
  rw [State.phbAct, hp]

theorem State.phbAct_outside (acc : Nat) (all : Bool) (f : State → Nat → State) (h : s.phbOff a i % 8 = 0)
    (hs : s.curTeam.scratchSize < s.phbOff a i + 8) :
    s.phbAct a acc all f = s.fault { code := .protect, detail := 6, acc := acc, addr := s.phbOff a i } := by
  have hp : s.phbPlace a acc = some (.error { code := .protect, detail := 6, acc := acc, addr := s.phbOff a i }) := by
    rw [State.phbPlace, hl]
    exact (if_neg (not_not_intro h)).trans (if_pos hs)
  rw [State.phbAct, hp]

section

variable (h : s.phbOff a i % 8 = 0) (hs : s.phbOff a i + 8 ≤ s.curTeam.scratchSize)
include h hs

theorem State.phbPlace_of_ok (acc : Nat) : s.phbPlace a acc = some (.ok (s.phbOff a i)) := by
  rw [State.phbPlace, hl]
  exact (if_neg (not_not_intro h)).trans (if_neg (Nat.not_lt.mpr hs))

variable (hq : s.cur.sq = []) (hw : (s.core s.coreKey).wp = [])
include hq hw

omit hl h hs in
/-- With no store on its way, the word is ready as it is. -/
theorem State.phbReady_of_no_stores (off : Nat) : s.phbReady off = s := by
  have hd : s.drainAll s.iss.gid = s := by
    have hg : (s.gang s.iss.gid).sq = [] := hq
    rw [State.drainAll, hg]
    rfl
  rw [State.phbReady, hd, State.flushWord, hw]
  rfl

omit hl h hs in
theorem State.phbBlocked_of_no_stores (off : Nat) (all : Bool) :
    s.phbBlocked off all = s.recalled (s.accessCtx s.teamKey) (.buf s.teamKey .l off) (s.copyOrder + 1) := by
  rw [State.phbBlocked, hq, hw]
  rfl

theorem State.phbAct_blocked (acc : Nat) (all : Bool) (f : State → Nat → State)
    (hr : s.recalled (s.accessCtx s.teamKey) (.buf s.teamKey .l (s.phbOff a i)) (s.copyOrder + 1) = true) :
    s.phbAct a acc all f = s.modSlices fun _ x => { x with pc := s.iss.pc } := by
  rw [State.phbAct, State.phbPlace_of_ok hl h hs acc]
  dsimp only
  rw [State.phbReady_of_no_stores hq hw, State.phbBlocked_of_no_stores hq hw, if_pos hr]

theorem State.phbAct_ready (acc : Nat) (all : Bool) (f : State → Nat → State)
    (hr : s.recalled (s.accessCtx s.teamKey) (.buf s.teamKey .l (s.phbOff a i)) (s.copyOrder + 1) = false) :
    s.phbAct a acc all f = f s (s.phbOff a i) := by
  rw [State.phbAct, State.phbPlace_of_ok hl h hs acc]
  dsimp only
  rw [State.phbReady_of_no_stores hq hw, State.phbBlocked_of_no_stores hq hw, hr, if_neg Bool.false_ne_true]

end

end

theorem State.phbAct_idle {s : State} (hl : s.lanes = []) (a : AReg) (acc : Nat) (all : Bool) (f : State → Nat → State) :
    s.phbAct a acc all f = s := by
  rw [State.phbAct, State.phbPlace, hl]

/-- A word put at an offset of the team's scratch: the word reads back, no other byte changes, and nothing else of the part. -/
theorem State.modPhb_put (s : State) (off : Nat) (f : Nat → Nat) : let t := s.modPhb s.teamKey off f
    t.curTeam.scratch.readLE off 8 = f (s.curTeam.scratch.readLE off 8) % 2 ^ 64 ∧
      (∀ k, k < off ∨ off + 8 ≤ k → t.curTeam.scratch.read k = s.curTeam.scratch.read k) ∧
      t = s.modTeam s.teamKey fun u => { u with scratch := t.curTeam.scratch } := by
  intro t
  have hc : t.curTeam.scratch = s.curTeam.scratch.writeLE off 8 (f (s.curTeam.scratch.readLE off 8)) :=
    congrArg Team.scratch (State.team_setTeam s s.teamKey _)
  have ht : t = s.modTeam s.teamKey fun u => { u with scratch := u.scratch.writeLE off 8 (f (u.scratch.readLE off 8)) } := rfl
  rw [hc]
  refine ⟨(Memory.readLE_writeLE _ _ _ _).trans ?_, fun k hk => Memory.read_writeLE_ne _ _ _ _ _ hk, ?_⟩
  · rw [(by norm_num : 256 ^ 8 = 2 ^ 64)]
  · rw [ht, State.modTeam_eq, State.modTeam_eq, State.curTeam]

/-! ### What each form does -/

section

variable {s t : State} (a : AReg) (b : SReg)

theorem exec_phbinit {n : Fin 128} (hn : n.val ≠ 0)
    (hf : s.phbAct a 1 false (fun u off => u.modPhb u.teamKey off fun _ => n.val * 2 ^ 54 + n.val * 2 ^ 47) = t) (hn' : Answered s t) :
    exec (.phbinit a n) s = .next t := exec_of_effect (execPhbinit.eq_1 a n s) (admits_phbinit s a hn) hf hn'

theorem exec_phbarr (hf : s.phbAct a 1 true (fun u off => u.modPhb u.teamKey off fun w => phbArrive w 0) = t) (hn : Answered s t) :
    exec (.phbarr a) s = .next t := exec_of_effect (execPhbarr.eq_1 a s) (admits_phbarr s a) hf hn

theorem exec_phbexp (hl : s.lanes ≠ []) (hf : (if 2 ^ 46 ≤ (s.srcS b).toNat then s.fault ill7
      else s.phbAct a 1 true fun u off => u.modPhb u.teamKey off fun w => phbArrive w (s.srcS b).toNat) = t) (hn : Answered s t) :
    exec (.phbexp b a) s = .next t := by
  refine exec_of_effect (execPhbexp.eq_1 b a s) (admits_phbexp s b a) ?_ hn
  dsimp only
  rw [if_neg (by simpa using hl)]
  exact hf

theorem exec_phbtest (p : PReg) (h : Bool)
    (hf : s.phbAct a 0 false (fun u off => u.writeP p fun _ => phbP (u.phbWord u.teamKey off) != h) = t) (hn : Answered s t) :
    exec (.phbtest a p h) s = .next t := exec_of_effect (execPhbtest.eq_1 a p h s) (admits_phbtest s a p h) hf hn

theorem exec_phbwait (h : Bool) (hf : s.phbAct a 0 false (fun u off =>
      if phbPasses (u.phbWord u.teamKey off) h then u else u.parkSplit (.phbwait off h)) = t) (hn : Answered s t) :
    exec (.phbwait a h) s = .next t := exec_of_effect (execPhbwait.eq_1 a h s) (admits_phbwait s a h) hf hn

end

/-- The word at `off` is one that `P` holds of, no other byte of the scratch has changed, and nothing else of the part. -/
def putWord (s : State) (off : Nat) (P : Nat → Prop) (t : State) : Prop :=
  P (t.curTeam.scratch.readLE off 8) ∧
  (∀ k, k < off ∨ off + 8 ≤ k → t.curTeam.scratch.read k = s.curTeam.scratch.read k) ∧
  t = s.modTeam s.teamKey fun u => { u with scratch := t.curTeam.scratch }

theorem State.modPhb_putWord (s : State) (off : Nat) (f : Nat → Nat) {P : Nat → Prop}
    (h : P (f (s.curTeam.scratch.readLE off 8) % 2 ^ 64)) : putWord s off P (s.modPhb s.teamKey off f) := by
  obtain ⟨hv, hk, ht⟩ := s.modPhb_put off f
  exact ⟨hv ▸ h, hk, ht⟩

section

variable {s : State} {a : AReg} {i : Nat} {rest : List Nat} (hl : s.lanes = i :: rest) (hm : s.phbOff a i % 8 = 0)
  (hs : s.phbOff a i + 8 ≤ s.curTeam.scratchSize) (hq : s.cur.sq = []) (hw : (s.core s.coreKey).wp = [])
include hl hm hs hq hw

/-- R224: while an engine owns the line, the split stays at its packet. -/
theorem phb_blocked (hd : s.iss.slices.Nodup)
    (hr : s.recalled (s.accessCtx s.teamKey) (.buf s.teamKey .l (s.phbOff a i)) (s.copyOrder + 1) = true)
    {n : Fin 128} (hn : n.val ≠ 0) {b : SReg} {p : PReg} {h : Bool} {k : Instr}
    (hk : k = .phbinit a n ∨ k = .phbarr a ∨ k = .phbtest a p h ∨ k = .phbwait a h ∨ (k = .phbexp b a ∧ (s.srcS b).toNat < 2 ^ 46)) :
    Completes k s (eachSlice s s · fun _ y => { y with pc := s.iss.pc }) := by
  have stay (acc : Nat) (all : Bool) (f : State → Nat → State) := State.phbAct_blocked hl hm hs hq hw acc all f hr
  have each := eachSlice_modSlices (u := s) rfl rfl hd fun _ x => { x with pc := s.iss.pc }
  rcases hk with rfl | rfl | rfl | rfl | ⟨rfl, hb⟩
  · exact Completes.intro (exec_phbinit a hn (stay 1 _ _) rfl) each
  · exact Completes.intro (exec_phbarr a (stay 1 _ _) rfl) each
  · exact Completes.intro (exec_phbtest a p h (stay 0 _ _) rfl) each
  · exact Completes.intro (exec_phbwait a h (stay 0 _ _) rfl) each
  · exact Completes.intro (exec_phbexp a b (by simp [hl]) ((if_neg (Nat.not_le.mpr hb)).trans (stay 1 _ _)) rfl) each

variable (hr : s.recalled (s.accessCtx s.teamKey) (.buf s.teamKey .l (s.phbOff a i)) (s.copyOrder + 1) = false)
include hr

theorem phbinit_completes {n : Fin 128} (hn : n.val ≠ 0) :
    Completes (.phbinit a n) s (putWord s (s.phbOff a i) (· = n.val * 2 ^ 54 + n.val * 2 ^ 47)) := by
  refine Completes.intro (exec_phbinit a hn (State.phbAct_ready hl hm hs hq hw 1 _ _ hr) rfl) (s.modPhb_putWord _ _ ?_)
  have := n.isLt
  omega

theorem phbarr_completes :
    Completes (.phbarr a) s (putWord s (s.phbOff a i) (phaseArrived (s.curTeam.scratch.readLE (s.phbOff a i) 8) 0)) :=
  Completes.intro (exec_phbarr a (State.phbAct_ready hl hm hs hq hw 1 _ _ hr) rfl)
    (s.modPhb_putWord _ _ (phaseArrived_mod (phaseArrived_phbArrive _ _)))

theorem phbexp_completes {b : SReg} (hb : (s.srcS b).toNat < 2 ^ 46) : Completes (.phbexp b a) s
    (putWord s (s.phbOff a i) (phaseArrived (s.curTeam.scratch.readLE (s.phbOff a i) 8) (s.srcS b).toNat)) :=
  Completes.intro (exec_phbexp a b (by simp [hl]) ((if_neg (Nat.not_le.mpr hb)).trans (State.phbAct_ready hl hm hs hq hw 1 _ _ hr)) rfl)
    (s.modPhb_putWord _ _ (phaseArrived_mod (phaseArrived_phbArrive _ _)))

theorem phbtest_completes (p : PReg) (h : Bool) : Completes (.phbtest a p h) s
    (PredWrite s · p fun _ => bit (s.curTeam.scratch.readLE (s.phbOff a i) 8) 63 != h) :=
  Completes.intro (exec_phbtest a p h (State.phbAct_ready hl hm hs hq hw 0 _ _ hr) rfl) (s.writeP_spec _ _)

theorem exec_phbwait_of_passes {h : Bool} (hp : phbPasses (s.curTeam.scratch.readLE (s.phbOff a i) 8) h = true) :
    exec (.phbwait a h) s = .next s :=
  exec_phbwait a h ((State.phbAct_ready hl hm hs hq hw 0 _ _ hr).trans (if_pos hp)) rfl

theorem exec_phbwait_of_waits {h : Bool} (hp : ¬phbPasses (s.curTeam.scratch.readLE (s.phbOff a i) 8) h = true) :
    exec (.phbwait a h) s = .next (s.parkSplit (.phbwait (s.phbOff a i) h)) :=
  exec_phbwait a h ((State.phbAct_ready hl hm hs hq hw 0 _ _ hr).trans (if_neg hp)) rfl

end

/-- Settles O35: the forms by their place's check and the word they leave, whose fields are those of `phbArrive`. -/
theorem phaseBarriers : Obligations.PhaseBarriers := by
  intro s a i rest n b p h hn off w x put
  refine ⟨fun hl => ⟨fun hm => ⟨?_, ?_⟩, fun hm ho => ?_, fun hm hs hq hw hd hr k hk => ?_, fun hm hs hq hw hr => ?_, fun hx => ?_⟩,
    fun hl => ⟨?_, ?_, ?_, ?_⟩⟩
  · exact exec_phbinit a hn (State.phbAct_misaligned hl 1 _ _ hm) (s.fault_answered rfl)
  · exact exec_phbwait a h (State.phbAct_misaligned hl 0 _ _ hm) (s.fault_answered rfl)
  · exact exec_phbarr a (State.phbAct_outside hl 1 _ _ hm ho) (s.fault_answered rfl)
  · exact phb_blocked hl hm hs hq hw hd hr hn hk
  · refine ⟨phbinit_completes hl hm hs hq hw hr hn, phbarr_completes hl hm hs hq hw hr, phbexp_completes hl hm hs hq hw hr,
      phbtest_completes hl hm hs hq hw hr p h, fun hp => ?_, fun hd hp hf => ?_⟩
    · have hpasses : phbPasses w h = true := by simpa [phbPasses, phbP, phbFlt] using hp
      exact exec_phbwait_of_passes hl hm hs hq hw hr hpasses
    · have hwaits : ¬phbPasses w h = true := by simp [phbPasses, phbP, phbFlt, hp, hf]
      exact Completes.intro (exec_phbwait_of_waits hl hm hs hq hw hr hwaits) (State.parkSplit_eachSlice hd _)
  · exact exec_phbexp a b (by simp [hl]) (if_pos hx) (s.fault_answered rfl)
  · exact exec_phbinit a hn (State.phbAct_idle hl a 1 _ _) rfl
  · exact exec_phbarr a (State.phbAct_idle hl a 1 _ _) rfl
  · refine exec_of_effect (execPhbexp.eq_1 b a s) (admits_phbexp s b a) ?_ rfl
    dsimp only
    rw [if_pos (by simp [hl])]
  · exact exec_phbwait a h (State.phbAct_idle hl a 0 _ _) rfl

end Sys2Proof.Machine
end

section
/-! ## The search engine -/

namespace Sys2Proof.Machine
open Sys2Proof.Claims

/-! ### Keys in order (R234) -/

theorem pairLe_iff (p q : Nat × Nat) : pairLe p q = true ↔
    distKey p.1 < distKey q.1 ∨ distKey p.1 = distKey q.1 ∧ p.2 ≤ q.2 := by
  simp only [pairLe, Bool.or_eq_true, Bool.and_eq_true, decide_eq_true_eq]

theorem pairLe_total (p q : Nat × Nat) : pairLe p q = true ∨ pairLe q p = true := by
  rw [pairLe_iff, pairLe_iff]
  omega

theorem pairLe_trans {p q r : Nat × Nat} (h : pairLe p q = true) (k : pairLe q r = true) : pairLe p r = true := by
  rw [pairLe_iff] at h k ⊢
  omega

theorem perm_sortBy_pairs (l : List (Nat × Nat)) : (sortBy l pairLe).Perm l := by
  rw [sortBy_eq_insertionSort]
  exact List.perm_insertionSort _ l

theorem pairwise_sortBy_pairs (l : List (Nat × Nat)) : (sortBy l pairLe).Pairwise fun p q => pairLe p q = true := by
  rw [sortBy_eq_insertionSort]
  have total : Std.Total fun p q => pairLe p q = true := ⟨pairLe_total⟩
  have trans : IsTrans (Nat × Nat) fun p q => pairLe p q = true := ⟨fun _ _ _ => pairLe_trans⟩
  exact List.pairwise_insertionSort _ l

/-- A selection keeps the `k` least pairs in order: the rest come after every one of them. -/
theorem leastK_spec (k : Nat) (l : List (Nat × Nat)) :
    (leastK k l).length = min k l.length ∧ (leastK k l).Pairwise (fun p q => pairLe p q = true) ∧
    ∃ rest, (leastK k l ++ rest).Perm l ∧ ∀ p ∈ leastK k l, ∀ q ∈ rest, pairLe p q = true := by
  have sorted := pairwise_sortBy_pairs l
  have parts : sortBy l pairLe = leastK k l ++ (sortBy l pairLe).drop k := (List.take_append_drop k _).symm
  rw [parts, List.pairwise_append] at sorted
  obtain ⟨hr, -, hlt⟩ := sorted
  refine ⟨?_, hr, (sortBy l pairLe).drop k, ?_, hlt⟩
  · rw [leastK, List.length_take, (perm_sortBy_pairs l).length_eq]
  · rw [← parts]
    exact perm_sortBy_pairs l

/-! ### Issue (R233) -/

theorem search_started {s : State} {i : Instr} {f : State → State} {k : SearchKind} (hx : exec i s = guard i s f) (ha : Admits i s)
    (hf : f s = s.startSearch k) : Completes i s (searchStarted k s) :=
  Completes.intro (exec_of_effect hx ha hf rfl) rfl

theorem firstBad_eq_none {a b c : Bool} {f g h : FInfo} (ha : a = false) (hb : b = false) (hc : c = false) :
    firstBad [(a, f), (b, g), (c, h)] = none := by
  subst ha hb hc
  rfl

theorem bits_zero_eq (x n : Nat) : bits x 0 n = x % 2 ^ n := by rw [bits, pow_zero, Nat.div_one]

/-- The upper half of a register. -/
theorem bits_high (x : W64) : bits x.toNat 32 32 = x.toNat / 2 ^ 32 := by
  have := x.isLt
  exact Nat.mod_eq_of_lt (by omega)

theorem Team.inShare_of_le {t : Team} {sp : BufSpace} {off n : Nat} (h : off + n ≤ t.extent sp) : t.inShare sp off n = true :=
  decide_eq_true h

section

variable {s : State} {f : FSlot} {a b c : SReg} (hl : s.lanes ≠ [])
include hl

theorem topk_starts (ha : Admits (.topk a b c) s) {x out n k : Nat} (hx : (s.srcS a).toNat % 2 ^ 32 = x)
    (hout : (s.srcS a).toNat / 2 ^ 32 = out) (hn : (s.srcS c).toNat % 2 ^ 16 = n) (hk : (s.srcS c).toNat / 2 ^ 16 % 2 ^ 16 = k)
    (h1 : 1 ≤ k) (h256 : k ≤ 256) (hkn : k ≤ n) (hn' : n ≤ 16384) (hx4 : x % 4 = 0) (hout8 : out % 8 = 0)
    (hxab : x + 4 * n ≤ s.curTeam.extent .ab) (houtab : out + 8 * k ≤ s.curTeam.extent .ab) :
    Completes (.topk a b c) s (searchStarted (.topk x out ((s.srcS b).toNat % 2 ^ 32) n k) s) := by
  refine search_started (execTopk.eq_1 a b c s) ha ?_
  have hk' : bits (s.srcS c).toNat 16 16 = k := hk
  dsimp only
  rw [if_neg (State.lanes_isEmpty_of_ne hl), bits_high, bits_zero_eq, bits_zero_eq, bits_zero_eq, hx, hout, hn, hk', firstBad_eq_none]
  · simp; omega
  · simp [hx4, hout8]
  · simp [Team.inShare_of_le hxab, Team.inShare_of_le houtab]

theorem topk_illegal (ha : Admits (.topk a b c) s) {n k : Nat} (hn : (s.srcS c).toNat % 2 ^ 16 = n)
    (hk : (s.srcS c).toNat / 2 ^ 16 % 2 ^ 16 = k) (h : k = 0 ∨ 256 < k ∨ n < k ∨ 16384 < n) :
    exec (.topk a b c) s = .next (s.fault ill5) := by
  refine exec_of_effect (execTopk.eq_1 a b c s) ha ?_ (s.fault_answered rfl)
  have hk' : bits (s.srcS c).toNat 16 16 = k := hk
  have bad : (decide (n < 1) || decide (16384 < n) || decide (k < 1) || decide (256 < k) || decide (n < k)) = true := by
    simp; omega
  dsimp only
  rw [if_neg (State.lanes_isEmpty_of_ne hl), bits_zero_eq (s.srcS c).toNat, hn, hk', firstBad, if_pos bad]

theorem topkm_starts (ha : Admits (.topkm a b c) s) {x y out n : Nat} (hx : (s.srcS a).toNat % 2 ^ 32 = x)
    (hy : (s.srcS b).toNat % 2 ^ 32 = y) (hout : (s.srcS a).toNat / 2 ^ 32 = out) (hn : (s.srcS c).toNat % 2 ^ 16 = n)
    (h1 : 1 ≤ n) (h256 : n ≤ 256) (hmeet : ∀ l, l = x ∨ l = y → l = out ∨ l + 8 * n ≤ out ∨ out + 8 * n ≤ l)
    (hx8 : x % 8 = 0) (hy8 : y % 8 = 0) (hout8 : out % 8 = 0) (hxab : x + 8 * n ≤ s.curTeam.extent .ab)
    (hyab : y + 8 * n ≤ s.curTeam.extent .ab) (houtab : out + 8 * n ≤ s.curTeam.extent .ab) :
    Completes (.topkm a b c) s (searchStarted (.topkm x y out n) s) := by
  refine search_started (execTopkm.eq_1 a b c s) ha ?_
  have apart (l : Nat) (h : l = x ∨ l = y) : (l != out && decide (l < out + 8 * n) && decide (out < l + 8 * n)) = false := by
    have := hmeet l h
    simp
    omega
  dsimp only
  rw [if_neg (State.lanes_isEmpty_of_ne hl), bits_high, bits_zero_eq, bits_zero_eq, bits_zero_eq, hx, hout, hn, hy, firstBad_eq_none]
  · rw [apart x (.inl rfl), apart y (.inr rfl)]
    simp
    omega
  · simp [hx8, hy8, hout8]
  · simp [Team.inShare_of_le hxab, Team.inShare_of_le hyab, Team.inShare_of_le houtab]

theorem topkr_starts (ha : Admits (.topkr a b c) s) {x y n : Nat} (hx : (s.srcS a).toNat % 2 ^ 32 = x)
    (hy : (s.srcS b).toNat % 2 ^ 32 = y) (hn : (s.srcS c).toNat % 2 ^ 16 = n) (h1 : 1 ≤ n) (h256 : n ≤ 256)
    (hx8 : x % 8 = 0) (hy8 : y % 8 = 0) (hxab : x + 8 * n ≤ s.curTeam.extent .ab) (hyl : y + 8 * n ≤ s.curTeam.extent .l) :
    Completes (.topkr a b c) s (searchStarted (.topkr x y n) s) := by
  refine search_started (execTopkr.eq_1 a b c s) ha ?_
  dsimp only
  rw [if_neg (State.lanes_isEmpty_of_ne hl), bits_zero_eq, bits_zero_eq, bits_zero_eq, hx, hn, hy, firstBad_eq_none]
  · simp; omega
  · simp [hx8, hy8]
  · simp [Team.inShare_of_le hxab, Team.inShare_of_le hyl]

theorem vdist_starts (ha : Admits (.vdist f a b c) s) {o : FmtSlot} {d : Desc} {x out index n rank : Nat}
    (hx : (s.srcS a).toNat % 2 ^ 32 = x) (hout : (s.srcS a).toNat / 2 ^ 32 = out) (hindex : (s.srcS b).toNat / 2 ^ 32 = index)
    (hn : (s.srcS c).toNat % 2 ^ 16 = n) (hrank : d.sizes.headD 0 = rank) (ho : FmtSlot.ofBits (s.slotBits f) = some o)
    (hfmt : distFormat o.fmt = true) (hmode : o.smode < 2) (h1 : 1 ≤ n) (h4096 : n ≤ 4096) (hm : bits (s.srcS c).toNat 16 2 < 2)
    (hc : (s.srcS c).toNat < 2 ^ 18) (hd : s.descriptor s.curTeam.ctx ((s.srcS b).toNat % 2 ^ 32) = .ok d) (hdr : d.rank = 1)
    (hr : rank ≤ 8192) (he : d.efmt = bits (s.slotBits f).toNat 0 6) (hout4 : out % 4 = 0) (hindex4 : index % 4 = 0)
    (hxab : x + (rank * o.fmt.width + 7) / 8 ≤ s.curTeam.extent .ab) (houtab : out + 4 * n ≤ s.curTeam.extent .ab)
    (hindexab : index + 4 * n ≤ s.curTeam.extent .ab) :
    Completes (.vdist f a b c) s (searchStarted (.vdist (s.slotBits f) x out index d.base (d.strides.headD 0) rank
      (d.sizes.getD 1 0) n (bits (s.srcS c).toNat 16 2)) s) := by
  refine search_started (execVdist.eq_1 f a b c s) ha ?_
  have h18 : (s.srcS c).toNat / 2 ^ 18 = 0 := Nat.div_eq_of_lt hc
  have hgood : ¬((!distFormat o.fmt) = true ∨ 2 ≤ o.smode ∨ n < 1 ∨ 4096 < n ∨ 2 ≤ bits (s.srcS c).toNat 16 2 ∨
      (s.srcS c).toNat / 2 ^ 18 ≠ 0) := by
    rw [hfmt, h18]
    simp
    omega
  dsimp only
  rw [if_neg (State.lanes_isEmpty_of_ne hl), ho]
  dsimp only
  rw [bits_zero_eq (s.srcS c).toNat, hn, if_neg hgood, bits_zero_eq (s.srcS b).toNat, hd]
  dsimp only
  rw [bits_high, bits_high, bits_zero_eq (s.srcS a).toNat, hx, hout, hindex, hrank, firstBad_eq_none]
  · simp [hdr, he, hr]
  · simp [hout4, hindex4]
  · simp [Team.inShare_of_le hxab, Team.inShare_of_le houtab, Team.inShare_of_le hindexab]

end

/-! ### Results (R233 to R237) -/

/-- The search engine's access. -/
def searchAsker (core : Nat) : Asker := ⟨2 ^ 32, 7, core⟩

theorem exec_searchOpComplete {s u : State} {core : Nat} (h : (s.asking (searchAsker core)).searchComplete core = u)
    (hn : Answered s u) : exec (.searchOpComplete core) s = .next { u with hostWho := s.hostWho } :=
  congrArg Host.Outcome.next (s.attempting_of_answered _ (·.searchComplete core) h hn)

theorem exec_searchOpFault {s u : State} {core : Nat} (h : (s.asking (searchAsker core)).searchFault core = u)
    (hn : Answered s u) : exec (.searchOpFault core) s = .next { u with hostWho := s.hostWho } :=
  congrArg Host.Outcome.next (s.attempting_of_answered _ (·.searchFault core) h hn)

theorem State.searchDone_core (s : State) (core : Nat) (o : SearchOp) :
    ((s.searchDone core o).core core).searches = (s.core core).searches.tail :=
  congrArg Core.searches (State.core_setCore s core _)

theorem State.searchDone_tm (s : State) (core : Nat) (o : SearchOp) :
    ((s.searchDone core o).gang o.gid).tm = (s.gang o.gid).tm - 1 :=
  congrArg Gang.tm (State.gang_setGang (s.modCore core _) o.gid _)

theorem State.searchDone_team (s : State) (core : Nat) (o : SearchOp) (k : Nat) : (s.searchDone core o).team k = s.team k := rfl

section

variable {s : State} {core : Nat} {o : SearchOp} {rest : List SearchOp} (hs : (s.core core).searches = o :: rest)
include hs

/-- R222: an acquire of its gang holds an operation. -/
theorem search_held (hh : s.engineHeld o.gid o.gseq = true) :
    exec (.searchOpComplete core) s = .next s ∧ exec (.searchOpFault core) s = .next s := by
  have hs' : ((s.asking (searchAsker core)).core core).searches = o :: rest := hs
  have hh' : (s.asking (searchAsker core)).engineHeld o.gid o.gseq = true := hh
  refine ⟨exec_searchOpComplete (u := s.asking (searchAsker core)) ?_ rfl, exec_searchOpFault (u := s.asking (searchAsker core)) ?_ rfl⟩
  · rw [State.searchComplete, hs']
    exact if_pos hh'
  · rw [State.searchFault, hs']
    exact if_pos hh'

/-- What a selection that is done leaves, its results in a buffer of its gang's team. -/
theorem selection_completes {f : Team → Team} (hf : (s.asking (searchAsker core)).searchComplete core =
      (((s.asking (searchAsker core)).modTeam (gidTeam o.gid) f).searchDone core o)) :
    Completes (.searchOpComplete core) s fun t => t.team (gidTeam o.gid) = f (s.team (gidTeam o.gid)) ∧
      (t.core core).searches = rest ∧ (t.gang o.gid).tm = (s.gang o.gid).tm - 1 ∧ t.dmem = s.dmem := by
  refine Completes.intro (exec_searchOpComplete hf rfl) ⟨?_, ?_, ?_, rfl⟩
  · exact State.team_setTeam (s.asking (searchAsker core)) _ _
  · exact (State.searchDone_core _ core o).trans (congrArg List.tail hs)
  · exact State.searchDone_tm _ _ _

variable (hh : s.engineHeld o.gid o.gseq = false)
include hh

theorem searchComplete_topk {x out base n k : Nat} (hk : o.kind = .topk x out base n k) :
    (s.asking (searchAsker core)).searchComplete core =
      ((s.asking (searchAsker core)).modTeam (gidTeam o.gid) fun t =>
        { t with ab := putPairs t.ab out (leastK k ((List.range n).map fun j => (t.ab.readLE (x + 4 * j) 4, (base + j) % 2 ^ 32))) }).searchDone
          core o := by
  have hs' : ((s.asking (searchAsker core)).core core).searches = o :: rest := hs
  have hh' : (s.asking (searchAsker core)).engineHeld o.gid o.gseq = false := hh
  rw [State.searchComplete, hs']
  dsimp only
  rw [hh', if_neg Bool.false_ne_true, hk]

theorem searchComplete_topkr {x run k : Nat} (hk : o.kind = .topkr x run k) :
    (s.asking (searchAsker core)).searchComplete core =
      ((s.asking (searchAsker core)).modTeam (gidTeam o.gid) fun t =>
        { t with scratch := putPairs t.scratch run (leastK k (pairsAt t.scratch run k ++ pairsAt t.ab x k)) }).searchDone core o := by
  have hs' : ((s.asking (searchAsker core)).core core).searches = o :: rest := hs
  have hh' : (s.asking (searchAsker core)).engineHeld o.gid o.gseq = false := hh
  rw [State.searchComplete, hs']
  dsimp only
  rw [hh', if_neg Bool.false_ne_true, hk]

/-- R235: the results before the row that faults are written, and the gang's splits halt. -/
theorem searchFault_vdist {fw : W64} {q out ix base st s0 s1 n m : Nat} (hk : o.kind = .vdist fw q out ix base st s0 s1 n m) {u : State}
    {l : List Nat} {e : FCode} {d p : Nat} (hr : (s.asking (searchAsker core)).vdistRun o = (u, l, some (e, d, p))) :
    (s.asking (searchAsker core)).searchFault core =
      ((u.modTeam (gidTeam o.gid) fun t => { t with ab := putDistances t.ab out l }).searchDone core o).engineFault o.gid o.sup o.pc o.word
        { code := e, detail := l.length, addr := p } := by
  have hs' : ((s.asking (searchAsker core)).core core).searches = o :: rest := hs
  have hh' : (s.asking (searchAsker core)).engineHeld o.gid o.gseq = false := hh
  rw [State.searchFault, hs']
  dsimp only
  rw [hh', if_neg Bool.false_ne_true, hk, hr]

theorem vdist_faults {fw : W64} {q out ix base st s0 s1 n m : Nat} (hk : o.kind = .vdist fw q out ix base st s0 s1 n m) {u : State}
    {l : List Nat} {e : FCode} {d p : Nat} (hr : (s.asking (searchAsker core)).vdistRun o = (u, l, some (e, d, p))) (hu : Answered s u) :
    Completes (.searchOpFault core) s fun t => (t.core core).searches = (u.core core).searches.tail ∧
      (t.team (gidTeam o.gid)).ab = putDistances (u.team (gidTeam o.gid)).ab out l ∧ (t.gang o.gid).tm = (u.gang o.gid).tm - 1 := by
  let v := (u.modTeam (gidTeam o.gid) fun t => { t with ab := putDistances t.ab out l }).searchDone core o
  let f : FInfo := { code := e, detail := l.length, addr := p }
  obtain ⟨hteam, hneed⟩ := v.engineFault_frame o.gid o.sup o.pc o.word f (gidTeam o.gid)
  obtain ⟨htm, -, -⟩ := v.engineFault_gang o.gid o.sup o.pc o.word f
  have hcore : (v.engineFault o.gid o.sup o.pc o.word f).core core = v.core core := by
    obtain ⟨_, _, _, _, h⟩ := v.lateFault_frame o.gid o.sup (v.gang o.gid).sliceKeys o.pc o.word f
    rw [State.engineFault, h]
    rfl
  refine Completes.intro (exec_searchOpFault (searchFault_vdist hs hh hk hr) (hneed.trans hu)) ⟨?_, ?_, ?_⟩
  · exact (congrArg Core.searches hcore).trans (State.searchDone_core _ _ _)
  · exact (congrArg Team.ab hteam).trans (congrArg Team.ab (State.team_setTeam u _ _))
  · exact htm.trans (State.searchDone_tm _ _ _)

end

/-- Settles O41: the words by their checks, selections by insertion sort, and the engine's events by what `searchDone` leaves. -/
theorem searchEngine : Obligations.SearchEngine := by
  intro s f a b c sa sb sc x out T n k y ab
  refine ⟨fun hl => ⟨fun ha h1 h2 h3 h4 h5 h6 h7 h8 => topk_starts hl ha rfl rfl rfl rfl h1 h2 h3 h4 h5 h6 h7 h8,
    fun ha h => topk_illegal hl ha rfl rfl h,
    fun ha h1 h2 h3 h4 h5 h6 h7 h8 h9 => topkm_starts hl ha rfl rfl rfl rfl h1 h2 h3 h4 h5 h6 h7 h8 h9,
    fun ha h1 h2 h3 h4 h5 h6 => topkr_starts hl ha rfl rfl rfl h1 h2 h3 h4 h5 h6, fun o d => ?_⟩, leastK_spec, fun core o rest hs => ?_⟩
  · intro index rank ha ho h1 h2 h3 h4 h5 h6 hd h7 h8 h9 h10 h11 h12 h13 h14
    exact vdist_starts hl ha rfl rfl rfl rfl rfl ho h1 h2 h3 h4 h5 h6 hd h7 h8 h9 h10 h11 h12 h13 h14
  · refine ⟨search_held hs, fun hh => ⟨fun x out base n k hk => ?_, fun x run k hk => ?_, ?_⟩⟩
    · obtain ⟨t, he, ht, hc, hg, hd⟩ := selection_completes hs (searchComplete_topk hs hh hk)
      exact ⟨t, he, by rw [ht], hc, hg, hd⟩
    · obtain ⟨t, he, ht, hc, hg, hd⟩ := selection_completes hs (searchComplete_topkr hs hh hk)
      exact ⟨t, he, by rw [ht], by rw [ht], hc, hg, hd⟩
    · intro fw q out ix base st s0 s1 n m u l e p d hk hr hu
      exact vdist_faults hs hh hk hr hu

end Sys2Proof.Machine
end
